-- ==== Sys2Proof/Word.lean ====
section
/-! DEFINITION. The words of the Sarmus 7360 and their plainest arithmetic (R1, R2). -/

namespace Sys2Proof

/-- A 64-bit scalar, address or structure word. -/
abbrev Word := BitVec 64

/-- One byte of storage. -/
abbrev Byte := BitVec 8

/-- One 32-byte row, lane 0 at the lowest bits (R2, R258). -/
abbrev Row := BitVec 256

/-- Bits `h` down to `l` of a number, as `x<h:l>` of R6. -/
def bits (x h l : Nat) : Nat := x / 2 ^ l % 2 ^ (h + 1 - l)

/-- Bit `n` of a number. -/
def bitOf (x n : Nat) : Bool := x / 2 ^ n % 2 == 1

/-- A Boolean as 0 or 1. -/
def b01 (b : Bool) : Nat := if b then 1 else 0

end Sys2Proof
end

