-- ==== Sys2Proof/Config.lean ====
section
/-! DEFINITION. What an implementation or another standard fixes and this manual does not: free values, which no proof can see. -/

namespace Sys2Proof.Config

/-- The byte that a read of LPDDR-6 returns when the 32-byte unit at the address was written under another key (R205, R315): the
arguments are the key that wrote, the key that reads, the address and the stored byte. A free value (DESIGN CHOICE, log 8). -/
opaque cipherByte : Nat → Nat → Nat → Byte → Byte

/-- SHA-384 of a byte string (R206, R207, R208). The hash is the named standard's; here a free value (DESIGN CHOICE, log 9). -/
opaque sha384 : List Byte → BitVec 384

/-- The ECDSA P-384 signature of Platriuz over a digest (R208). The key is the part's own; a free value (DESIGN CHOICE, log 9). -/
opaque signature : BitVec 384 → BitVec 768

/-- Measurement 1: the ROM of the part (R207). A free value (DESIGN CHOICE, log 9). -/
opaque romMeasurement : BitVec 384

/-- The fuse state of the part, beside the security version (R207). A free value (DESIGN CHOICE, log 9). -/
opaque fuseBytes : List Byte

/-- Does another device take the strand that a MIGR moves there (R312)? Free by the number of the operation (DESIGN CHOICE, log 48). -/
opaque farTakes : Nat → Bool

/-- The slot that the strand gets there (R312, R399). Free by the number of the operation (DESIGN CHOICE, log 48). -/
opaque farSlot : Nat → Nat

/-- A word that an access which a forwarding entry sends to another device finds there (R172, R173). Free by address and cycle (DESIGN CHOICE, log 48). -/
opaque farWord : Nat → Nat → Word

/-- The low bits that SAT = 0 keeps are fixed by the manual; the power in watts that TELEM reports is not (R209). A free value by
sample number (DESIGN CHOICE, log 10). -/
opaque telemetry : Nat → Word

/-- A word of the CAM part of an ATOMS region or of a TASKS region as level M reads it, or of MACC below the park areas (R46): the manual gives these no layout.
A free value by address and cycle (DESIGN CHOICE, log 11, log 80). -/
opaque unitWord : Nat → Nat → Word

/-- An accumulator of a running operation after a store into the MACC region (R46), whose layout the manual does not give. A free value by cycle, row and column
(DESIGN CHOICE, log 80). -/
opaque accWord : Nat → Nat → Nat → BitVec 32

/-- The array, row and column of the accumulator that an error at an address of MACC hits (R378), whose layout the manual does not give. A free value by
address (DESIGN CHOICE, log 80). -/
opaque accPlace : Nat → Nat × Nat × Nat

/-- A byte of a record in a handler spill ring (R192): the manual gives its size, 64 B, and no layout. A free value by event number and
byte (DESIGN CHOICE, log 13). -/
opaque spillByte : Nat → Nat → Byte

/-- The free flit buffers of a VC at the other end of a Delmel link (R180, R187), which belong to another device. A free value by cycle, port and VC
(DESIGN CHOICE, log 97). -/
opaque portFree : Nat → Nat → Nat → Nat

end Sys2Proof.Config
end

