-- ==== Sys2Proof/Syntax.lean ====
section
/-! DEFINITION. The instructions and events of the Sarmus 7360: one constructor for each row of the opcode table.
The 194 instruction words carry the fields of their formats (R211, R212). The 114 events are the steps of the device that no
word names; an event carries what picks the agent that moves (a core, a cluster, an operation in flight) or what the outside
world brings (a host write, a packet, a boot report). -/

namespace Sys2Proof

/-- A scalar register number (R212). -/
abbrev Reg := BitVec 5

/-- A row name (R221): 0 to 111 a tile row, 112 LQ, 113 SQ, 114 ZR. -/
abbrev RowName := BitVec 7

/-- Element types of the float majors (R215). -/
inductive FTy | f32 | bf16 | f16
  deriving DecidableEq, Repr

/-- Element types of the integer majors (R215). -/
inductive ITy | i32 | i16 | i8
  deriving DecidableEq, Repr

/-- Types of a reduction (R275). -/
inductive RedTy | f32 | bf16 | f16 | i32 | i16 | i8
  deriving DecidableEq, Repr

/-- Access sizes of LD (R214). -/
inductive LdSize | b | h | w | d | bu | hu | wu
  deriving DecidableEq, Repr

/-- Access sizes of ST (R214). -/
inductive StSize | b | h | w | d
  deriving DecidableEq, Repr

/-- Last-use hints (R70). -/
inductive Hint | none | rt | dd
  deriving DecidableEq, Repr

/-- The ord2 field (R214). -/
inductive Ordering2 | plain | acq | rel | ar
  deriving DecidableEq, Repr

/-- Scopes (R83). -/
inductive Scope | slot | core | cluster | device | fabric
  deriving DecidableEq, Repr

/-- Engine codes (R223). -/
inductive EngCode | copy | matrix | fold | task | stream | scrub
  deriving DecidableEq, Repr

/-- States that BANK names (R308). -/
inductive BankReq | off | retain | full
  deriving DecidableEq, Repr

/-- Rounding modes (R121). -/
inductive RMode | rne | rtz | rdn | rup
  deriving DecidableEq, Repr

/-- Lane widths of moves (R265). -/
inductive LaneW | b | h | w | d
  deriving DecidableEq, Repr

/-- What the error code of a location shows when it is read (R378). -/
inductive Ecc | clean | corrected | uncorrectable
  deriving DecidableEq, Repr

/-- The engine queues of R87. MATRIX has one per array. -/
inductive EngQueue
  | copy (core : Nat) | matrix (cluster array : Nat) | fold (cluster : Nat) | task (cluster : Nat) | stream (core : Nat)
  deriving DecidableEq, Repr

/-- A packet of the networks: its header (R186) and its payload words. -/
structure Packet where
  ddev : Nat := 0
  dpos : Nat := 0
  dport : Nat := 0
  dunit : Nat := 0
  cls : Nat := 0
  ch : Nat := 0
  ord : Bool := false
  nfl : Nat := 0
  ten : Nat := 0
  hchk : Nat := 0
  srcid : Word := 0#64
  opw : Word := 0#64
  tgt : Word := 0#64
  payload : List Word := []
  deriving DecidableEq, Repr

/-- The shape of a re-stitched region (R189). -/
inductive StitchShape | ring | tree | torus
  deriving DecidableEq, Repr

/-- A rectangular region of router positions (R189). -/
structure Region where
  row : Nat := 0
  col : Nat := 0
  rows : Nat := 1
  cols : Nat := 1
  shape : StitchShape := .ring
  deriving DecidableEq, Repr

/-- An entry of the Delmel route table (R188): a torus member has its coordinates and names the uplinks that leave the torus there (DESIGN CHOICE,
log 95). -/
inductive Route
  | invalid
  | torus (x y z ups : Nat)
  | uplinks (mask : Nat)
  deriving DecidableEq, Repr

/-- A multicast group's entry (R194), with the member list of the present view: at first that read out of MLIST. -/
structure GroupEntry where
  valid : Bool := false
  ten : Nat := 0
  seqdev : Nat := 0
  nmem : Nat := 0
  mlist : Word := 0#64
  members : List Nat := []
  wbase : Word := 0#64
  wsize : Nat := 0
  deriving DecidableEq, Repr

/-- What the partition manager writes through MBOX PART or firmware (R185, R188, R194). -/
inductive PartWrite
  | devloc (v : Word)
  | route (dev : Nat) (r : Route)
  | group (g : Nat) (words : List Word)
  deriving DecidableEq, Repr

/-- A firmware image as Platriuz checks it (R206): whether the signature holds, its security version, and its content (R207). -/
structure FirmwareImage where
  signed : Bool := true
  version : Nat := 0
  content : List Byte := []
  deriving DecidableEq, Repr

/-- The router positions of a full part with a physical cluster at each: 32 of the 33 of each die (R7, R11). Which of them is the
spare the manual leaves to the part: the last one here (DESIGN CHOICE, log 5). -/
def fullSeats : List (Nat × Nat) := (List.range 64).map fun p => (p, p / 32 * 33 + p % 32)

/-- What Platriuz finds and chooses at a reset (R206, R417). `seats` gives router positions their physical clusters, of which die A has 0 to 32 and die
B 33 to 65; `rows` the healthy rows of a physical cluster's worse array where they are not all 132; `failed` the physical clusters with a core that
fails its test; `untrained` the physical channels whose training fails; `lanes` the healthy lanes of a Delmel port where they are not 8, and 0 for one
whose buffers do not give the reserve of R394; `badLinks` the mesh links that fail (R394), each as 4 × position + port. -/
structure BootReport where
  seats : List (Nat × Nat) := fullSeats
  rows : List (Nat × Nat) := []
  failed : List Nat := []
  untrained : List Nat := []
  lanes : List (Nat × Nat) := []
  badLinks : List Nat := []
  deriving DecidableEq, Repr

/-- The end of a bank's wake (R67): the bank, and whether a wake from Retain passes its retention check (R372). -/
structure WakeEnd where
  bank : Nat
  sound : Bool
  deriving DecidableEq, Repr

/-- The end of a save (R169): its operation, and whether no write of the image meets an uncorrectable error (R380). -/
structure SaveEnd where
  id : Nat
  sound : Bool
  deriving DecidableEq, Repr

/-- A request for a report (R208): the function asked, and whether another request of that function is being served (R408). -/
structure Asked where
  fn : Nat
  busy : Bool
  deriving DecidableEq, Repr

/-- One constructor per row of the opcode table. -/
inductive Instr where

  /-- ADD (R233). Writes the 64-bit or, in the .w form, 32-bit wrapping sum of two scalars. -/
  | add (d a b : Reg) (wa wb w : Bool)
  /-- SUB (R233). Writes the wrapping difference of two scalars. -/
  | sub (d a b : Reg) (wa wb w : Bool)
  /-- MUL (R233). Writes the low bits of the product of two scalars; it is a 3-cycle producer. -/
  | mul (d a b : Reg) (wa wb w : Bool)
  /-- MULH (R233). Writes the high 64 bits of the signed 128-bit product. -/
  | mulh (d a b : Reg) (wa wb : Bool)
  /-- MULHU (R233). Writes the high 64 bits of the unsigned 128-bit product. -/
  | mulhu (d a b : Reg) (wa wb : Bool)
  /-- DIV (R235). Writes the signed quotient rounded toward zero, with the fixed results of R235 at its borders. -/
  | div (d a b : Reg) (wa wb w : Bool)
  /-- DIVU (R235). Writes the unsigned quotient; a zero divisor gives all ones. -/
  | divu (d a b : Reg) (wa wb w : Bool)
  /-- REM (R235). Writes the signed remainder, which takes the sign of x. -/
  | rem (d a b : Reg) (wa wb w : Bool)
  /-- REMU (R235). Writes the unsigned remainder. -/
  | remu (d a b : Reg) (wa wb w : Bool)
  /-- AND (R233). Writes the bitwise AND of two scalars. -/
  | and (d a b : Reg) (wa wb : Bool)
  /-- OR (R233). Writes the bitwise OR of two scalars. -/
  | or (d a b : Reg) (wa wb : Bool)
  /-- XOR (R233). Writes the bitwise XOR of two scalars. -/
  | xor (d a b : Reg) (wa wb : Bool)
  /-- ANDN (R233). Writes x AND NOT y. -/
  | andn (d a b : Reg) (wa wb : Bool)
  /-- ORN (R233). Writes x OR NOT y. -/
  | orn (d a b : Reg) (wa wb : Bool)
  /-- SLL (R233). Writes x shifted left by y<5:0>. -/
  | sll (d a b : Reg) (wa wb w : Bool)
  /-- SRL (R233). Writes x shifted right logically by y<5:0>. -/
  | srl (d a b : Reg) (wa wb w : Bool)
  /-- SRA (R233). Writes x shifted right arithmetically by y<5:0>. -/
  | sra (d a b : Reg) (wa wb w : Bool)
  /-- ROL (R233). Writes x rotated left by y<5:0>. -/
  | rol (d a b : Reg) (wa wb w : Bool)
  /-- ROR (R233). Writes x rotated right by y<5:0>. -/
  | ror (d a b : Reg) (wa wb w : Bool)
  /-- SLT (R233). Writes 1 if x < y as signed values, else 0. -/
  | slt (d a b : Reg) (wa wb : Bool)
  /-- SLTU (R233). Writes 1 if x < y as unsigned values, else 0. -/
  | sltu (d a b : Reg) (wa wb : Bool)
  /-- MIN (R233). Writes the signed minimum of two scalars. -/
  | min (d a b : Reg) (wa wb : Bool)
  /-- MAX (R233). Writes the signed maximum of two scalars. -/
  | max (d a b : Reg) (wa wb : Bool)
  /-- MINU (R233). Writes the unsigned minimum of two scalars. -/
  | minu (d a b : Reg) (wa wb : Bool)
  /-- MAXU (R233). Writes the unsigned maximum of two scalars. -/
  | maxu (d a b : Reg) (wa wb : Bool)
  /-- CLZ (R233). Writes the count of leading zero bits of x. -/
  | clz (d a : Reg) (wa w : Bool)
  /-- CTZ (R233). Writes the count of trailing zero bits of x. -/
  | ctz (d a : Reg) (wa w : Bool)
  /-- POPC (R233). Writes the count of one bits of x. -/
  | popc (d a : Reg) (wa w : Bool)
  /-- SEXT (R236). Writes x sign-extended from bit y<5:0>. -/
  | sext (d a b : Reg) (wa wb : Bool)
  /-- BEXT (R236). Writes the bit field of x whose position and length y gives. -/
  | bext (d a b : Reg) (wa wb : Bool)
  /-- BINS (R236). Inserts a field of x into d, reading d in block mode. -/
  | bins (d a b : Reg) (wa wb : Bool)
  /-- ADDI (R237). Adds the sign-extended 16-bit immediate to a scalar. -/
  | addi (d a : Reg) (i : BitVec 16)
  /-- ANDI (R237). ANDs a scalar with the zero-extended immediate. -/
  | andi (d a : Reg) (i : BitVec 16)
  /-- ORI (R237). ORs a scalar with the zero-extended immediate. -/
  | ori (d a : Reg) (i : BitVec 16)
  /-- XORI (R237). XORs a scalar with the zero-extended immediate. -/
  | xori (d a : Reg) (i : BitVec 16)
  /-- SLTI (R237). Writes 1 if the scalar is below the sign-extended immediate as signed values. -/
  | slti (d a : Reg) (i : BitVec 16)
  /-- SLTIU (R237). Writes 1 if the scalar is below the sign-extended immediate as unsigned values. -/
  | sltiu (d a : Reg) (i : BitVec 16)
  /-- SLLI (R238). Shifts left by an immediate amount. -/
  | slli (d a : Reg) (w : Bool) (n : BitVec 6)
  /-- SRLI (R238). Shifts right logically by an immediate amount. -/
  | srli (d a : Reg) (w : Bool) (n : BitVec 6)
  /-- SRAI (R238). Shifts right arithmetically by an immediate amount. -/
  | srai (d a : Reg) (w : Bool) (n : BitVec 6)
  /-- RORI (R238). Rotates right by an immediate amount. -/
  | rori (d a : Reg) (w : Bool) (n : BitVec 6)
  /-- LUI (R239). Writes the sign-extended 21-bit immediate shifted left by 16. -/
  | lui (d : Reg) (i : BitVec 21)
  /-- LUH (R239). Replaces bits 63:37 of d with the sign-extended immediate shifted left by 37. -/
  | luh (d : Reg) (i : BitVec 21)
  /-- ADPC (R240). Writes the PC's 4 KiB page plus a signed page displacement. -/
  | adpc (d : Reg) (i : BitVec 21)
  /-- BEQ (R241). Branches if the two scalars are equal. -/
  | beq (a b : Reg) (i : BitVec 16)
  /-- BNE (R241). Branches if the two scalars differ. -/
  | bne (a b : Reg) (i : BitVec 16)
  /-- BLT (R241). Branches on a signed less-than. -/
  | blt (a b : Reg) (i : BitVec 16)
  /-- BGE (R241). Branches on a signed greater-or-equal. -/
  | bge (a b : Reg) (i : BitVec 16)
  /-- BLTU (R241). Branches on an unsigned less-than. -/
  | bltu (a b : Reg) (i : BitVec 16)
  /-- BGEU (R241). Branches on an unsigned greater-or-equal. -/
  | bgeu (a b : Reg) (i : BitVec 16)
  /-- J (R242). Jumps PC-relative. -/
  | j (i : BitVec 26)
  /-- JAL (R242). Jumps PC-relative and writes the link to s31. -/
  | jal (i : BitVec 26)
  /-- JR (R243). Jumps to a register plus a word offset. -/
  | jr (a : Reg) (o : BitVec 14)
  /-- JALR (R243). Jumps to a register plus an offset and writes the link to d. -/
  | jalr (d a : Reg) (o : BitVec 14)
  /-- LD (R282). Loads 1–8 bytes into a scalar, with optional ordering and a last-use hint. -/
  | ld (d a : Reg) (z : LdSize) (h : Hint) (o : Ordering2) (i : BitVec 9)
  /-- ST (R282). Stores 1–8 bytes of a scalar, with optional ordering and a last-use hint. -/
  | st (d a : Reg) (z : StSize) (h : Hint) (o : Ordering2) (i : BitVec 9)
  /-- RLD (R285). Loads a 32 B row into a tile row, LQ or ZR. -/
  | rld (r : RowName) (a : Reg) (h : Hint) (i : BitVec 11)
  /-- RST (R285). Stores a 32 B row from a tile row, SQ or ZR. -/
  | rst (r : RowName) (a : Reg) (h : Hint) (i : BitVec 11)
  /-- AADD (R286). Atomic add at the unit that holds the location; returns the old value. -/
  | aadd (d a b : Reg) (wa wb : Bool) (o : Ordering2) (dbl : Bool)
  /-- AAND (R286). Atomic AND; returns the old value. -/
  | aand (d a b : Reg) (wa wb : Bool) (o : Ordering2) (dbl : Bool)
  /-- AOR (R286). Atomic OR; returns the old value. -/
  | aor (d a b : Reg) (wa wb : Bool) (o : Ordering2) (dbl : Bool)
  /-- AXOR (R286). Atomic XOR; returns the old value. -/
  | axor (d a b : Reg) (wa wb : Bool) (o : Ordering2) (dbl : Bool)
  /-- AMIN (R286). Atomic signed minimum. -/
  | amin (d a b : Reg) (wa wb : Bool) (o : Ordering2) (dbl : Bool)
  /-- AMAX (R286). Atomic signed maximum. -/
  | amax (d a b : Reg) (wa wb : Bool) (o : Ordering2) (dbl : Bool)
  /-- AMINU (R286). Atomic unsigned minimum. -/
  | aminu (d a b : Reg) (wa wb : Bool) (o : Ordering2) (dbl : Bool)
  /-- AMAXU (R286). Atomic unsigned maximum. -/
  | amaxu (d a b : Reg) (wa wb : Bool) (o : Ordering2) (dbl : Bool)
  /-- ASWP (R286). Atomic swap. -/
  | aswp (d a b : Reg) (wa wb : Bool) (o : Ordering2) (dbl : Bool)
  /-- ACAS (R286). Atomic compare-and-swap, with d as compare value in and old value out. -/
  | acas (d a b : Reg) (wa wb : Bool) (o : Ordering2) (dbl : Bool)
  /-- AFADD (R288). Atomic FP32 add, rounded RNE, that depends on arrival order. -/
  | afadd (d a b : Reg) (wa wb : Bool) (o : Ordering2)
  /-- FENCE (R289). A release and acquire event at the named scope. -/
  | fence (sc : Scope)
  /-- QFENCE (R290). Places start-order markers in the queues that its mask names. -/
  | qfence (m : BitVec 5)
  /-- CBAR (R291). Arrives at a counting barrier cell; d fills at departure. -/
  | cbar (d a b : Reg) (wa wb : Bool)
  /-- GBAR (R292). Drains, then arrives at the strand's level-L group barrier. -/
  | gbar (l : BitVec 3)
  /-- WAITFE (R293). Holds until a scalar is full, without trapping. -/
  | waitfe (a : Reg)
  /-- SETE (R293). Marks a scalar empty once it has no outstanding producer. -/
  | sete (a : Reg)
  /-- MBW (R294). Writes a message build register. -/
  | mbw (a : Reg) (k : BitVec 3) (wa : Bool)
  /-- MBR (R294). Reads a message build register. -/
  | mbr (d : Reg) (k : BitVec 3)
  /-- SEND (R295). Injects an active message from m0–m5 if the send allowance permits. -/
  | send (d : Reg)
  /-- MCST (R296). Sends an ordered multicast store to the group sequencer. -/
  | mcst (d : Reg)
  /-- MSEQ (R297). Reads a group's GAPPLY with an acquire. -/
  | mseq (d a : Reg) (wa : Bool)
  /-- POST (R298). Posts a key and a value to the home fold store of the key in a domain. -/
  | post (d a b : Reg) (wa wb : Bool) (m : BitVec 4)
  /-- FREL (R299). Ends the EXCL hold of the issuing fold handler's key. -/
  | frel
  /-- FDSTAT (R300). Returns the status of a fold domain. -/
  | fdstat (d : Reg) (m : BitVec 4)
  /-- EWR (R301). Writes a shadow-set engine parameter register. -/
  | ewr (e : EngCode) (a b : Reg)
  /-- ERD (R301). Reads a shadow-set engine parameter register. -/
  | erd (e : EngCode) (b d : Reg)
  /-- ERD_ACT (R301). Reads an active-set engine parameter register. -/
  | erdAct (e : EngCode) (b d : Reg)
  /-- EGO (R302). Enters a copy of the shadow set as one operation in the engine's queue. -/
  | ego (e : EngCode) (a : Reg)
  /-- EWAIT (R303). Holds until the slot's earlier operations in the queue have completed. -/
  | ewait (e : EngCode) (a : Reg)
  /-- ESTAT (R303). Returns the engine status word. -/
  | estat (e : EngCode) (a d : Reg)
  /-- TTQ (R304). Appends a tile-task record address to the cluster's tile-task list. -/
  | ttq (a d : Reg)
  /-- SPAWN (R249). Clears RETAIN in a written record and enters it in a run list. -/
  | spawn (a : Reg) (wa : Bool)
  /-- SUSP (R250). Drains, writes the continuation record, releases or retains banks and re-enters the run list. -/
  | susp (rt : Bool)
  /-- AWAIT (R251). Drains, writes the record and registers it as the waiter of a counter cell. -/
  | await (a : Reg) (wa rt : Bool)
  /-- DECR (R252). Decrements a counter cell at its atomic engine. -/
  | decr (d a b : Reg) (wa wb : Bool)
  /-- HALT (R253). Drains and ends the strand, sending successor and SUCC decrements. -/
  | halt
  /-- HALT_RT (R254). Drains, binds the banks to a successor task on this core, then ends as HALT. -/
  | haltRt (a : Reg) (wa : Bool)
  /-- TASKQ (R255). Performs the TASKQ operation of R29 on a task packet. -/
  | taskq (a : Reg) (wa : Bool)
  /-- LNCH (R256). Releases, then reads a launch header to make a child launch. -/
  | lnch (d a : Reg) (wa : Bool)
  /-- WID (R257). Extracts one field of the work ID. -/
  | wid (d a b : Reg) (wa wb : Bool)
  /-- BANK (R308). Sets a bank of the slot to Off, Retain or Full. -/
  | bank (st : BankReq) (n : BitVec 6)
  /-- BSTAT (R308). Returns the supply-state code of a bank. -/
  | bstat (d : Reg) (n : BitVec 6)
  /-- CSRR (R244). Reads a CSR. -/
  | csrr (d : Reg) (c : BitVec 12)
  /-- CSRW (R244). Writes a CSR and returns its old value. -/
  | csrw (d a : Reg) (c : BitVec 12)
  /-- CSRS (R244). Sets bits in a CSR. -/
  | csrs (d a : Reg) (c : BitVec 12)
  /-- CSRC (R244). Clears bits in a CSR. -/
  | csrc (d a : Reg) (c : BitVec 12)
  /-- PTROOT_WRITE (R56). A write of PTROOT changes the root for every core and engine of the tenant; walks already begun keep the old root. -/
  | ptrootWrite (ten : Nat) (v : Word)
  /-- TVEC_WRITE (R330). A write of TVEC changes the handler address for every core of the tenant. -/
  | tvecWrite (ten : Nat) (v : Word)
  /-- VADD_F (R262). Float lane addition. -/
  | vaddF (t : FTy) (d a b : RowName) (l : Bool)
  /-- VSUB_F (R262). Float lane subtraction. -/
  | vsubF (t : FTy) (d a b : RowName) (l : Bool)
  /-- VMUL_F (R262). Float lane multiplication. -/
  | vmulF (t : FTy) (d a b : RowName) (l : Bool)
  /-- VDIV (R262). Correctly rounded float lane division. -/
  | vdiv (t : FTy) (d a b : RowName) (l : Bool)
  /-- VFMA (R262). Fused multiply-add onto d. -/
  | vfma (t : FTy) (d a b : RowName) (l : Bool)
  /-- VFMS (R262). Fused multiply-subtract from d. -/
  | vfms (t : FTy) (d a b : RowName) (l : Bool)
  /-- VMIN_F (R262). Float lane minimum. -/
  | vminF (t : FTy) (d a b : RowName) (l : Bool)
  /-- VMAX_F (R262). Float lane maximum. -/
  | vmaxF (t : FTy) (d a b : RowName) (l : Bool)
  /-- VABS_F (R263). Clears the sign bit of each float lane. -/
  | vabsF (t : FTy) (d a : RowName) (l : Bool)
  /-- VNEG_F (R263). Inverts the sign bit of each float lane. -/
  | vnegF (t : FTy) (d a : RowName) (l : Bool)
  /-- VSQRT (R262). Float lane square root. -/
  | vsqrt (t : FTy) (d a : RowName) (l : Bool)
  /-- VSCL (R262). Scales float lanes by 2^n with one rounding. -/
  | vscl (t : FTy) (d a b : RowName) (l : Bool)
  /-- VCPYS (R262). Copies the sign of b onto the lanes of a. -/
  | vcpys (t : FTy) (d a b : RowName) (l : Bool)
  /-- VCEQ_F (R262). Float lane equality mask. -/
  | vceqF (t : FTy) (d a b : RowName) (l : Bool)
  /-- VCLT_F (R262). Float lane less-than mask. -/
  | vcltF (t : FTy) (d a b : RowName) (l : Bool)
  /-- VCLE (R262). Float lane less-or-equal mask. -/
  | vcle (t : FTy) (d a b : RowName) (l : Bool)
  /-- VADD_I (R264). Wrapping integer lane addition. -/
  | vaddI (t : ITy) (d a b : RowName) (l : Bool)
  /-- VSUB_I (R264). Wrapping integer lane subtraction. -/
  | vsubI (t : ITy) (d a b : RowName) (l : Bool)
  /-- VMUL_I (R264). Low bits of the integer lane product. -/
  | vmulI (t : ITy) (d a b : RowName) (l : Bool)
  /-- VMULH (R264). High bits of the signed integer lane product. -/
  | vmulh (t : ITy) (d a b : RowName) (l : Bool)
  /-- VADDS (R264). Saturating integer lane addition. -/
  | vadds (t : ITy) (d a b : RowName) (l : Bool)
  /-- VSUBS (R264). Saturating integer lane subtraction. -/
  | vsubs (t : ITy) (d a b : RowName) (l : Bool)
  /-- VMIN_I (R264). Signed integer lane minimum. -/
  | vminI (t : ITy) (d a b : RowName) (l : Bool)
  /-- VMAX_I (R264). Signed integer lane maximum. -/
  | vmaxI (t : ITy) (d a b : RowName) (l : Bool)
  /-- VMINU (R264). Unsigned integer lane minimum. -/
  | vminu (t : ITy) (d a b : RowName) (l : Bool)
  /-- VMAXU (R264). Unsigned integer lane maximum. -/
  | vmaxu (t : ITy) (d a b : RowName) (l : Bool)
  /-- VCEQ_I (R264). Integer lane equality mask. -/
  | vceqI (t : ITy) (d a b : RowName) (l : Bool)
  /-- VCLT_I (R264). Signed integer lane less-than mask. -/
  | vcltI (t : ITy) (d a b : RowName) (l : Bool)
  /-- VCLTU (R264). Unsigned integer lane less-than mask. -/
  | vcltu (t : ITy) (d a b : RowName) (l : Bool)
  /-- VSHL (R264). Shifts integer lanes left by an immediate. -/
  | vshl (t : ITy) (d a : RowName) (n : BitVec 5) (l : Bool)
  /-- VSHR (R264). Shifts integer lanes right logically by an immediate. -/
  | vshr (t : ITy) (d a : RowName) (n : BitVec 5) (l : Bool)
  /-- VSRA (R264). Shifts integer lanes right arithmetically by an immediate. -/
  | vsra (t : ITy) (d a : RowName) (n : BitVec 5) (l : Bool)
  /-- VABS_I (R264). Integer lane absolute value modulo 2^w. -/
  | vabsI (t : ITy) (d a : RowName) (l : Bool)
  /-- VNEG_I (R264). Integer lane negation modulo 2^w. -/
  | vnegI (t : ITy) (d a : RowName) (l : Bool)
  /-- VAND (R266). Bitwise AND of two rows. -/
  | vand (d a b : RowName) (l : Bool)
  /-- VOR (R266). Bitwise OR of two rows; VMOV is VOR with ZR. -/
  | vor (d a b : RowName) (l : Bool)
  /-- VXOR (R266). Bitwise XOR of two rows. -/
  | vxor (d a b : RowName) (l : Bool)
  /-- VSEL (R266). Bitwise select of a and b under the mask held in d. -/
  | vsel (d a b : RowName) (l : Bool)
  /-- VPERM (R266). Byte permute of a by the indices in b. -/
  | vperm (d a b : RowName) (l : Bool)
  /-- VBCST (R267). Broadcasts a scalar to every lane. -/
  | vbcst (d : RowName) (a : Reg) (w : LaneW)
  /-- VINS (R267). Inserts a scalar into one lane of d. -/
  | vins (d : RowName) (a : Reg) (w : LaneW) (n : BitVec 5)
  /-- VEXT (R267). Extracts one lane into a scalar. -/
  | vext (d : Reg) (a : RowName) (w : LaneW) (n : BitVec 5) (l : Bool)
  /-- VREV (R267). Reverses the lanes of a row. -/
  | vrev (d a : RowName) (w : LaneW) (l : Bool)
  /-- VZIP_H (R268). Interleaves 16-bit lanes of two rows into two rows. -/
  | vzipH (d a b : RowName) (l : Bool)
  /-- VZIP_W (R268). Interleaves 32-bit lanes of two rows into two rows. -/
  | vzipW (d a b : RowName) (l : Bool)
  /-- VUZP_H (R268). De-interleaves 16-bit lanes into two rows. -/
  | vuzpH (d a b : RowName) (l : Bool)
  /-- VUZP_W (R268). De-interleaves 32-bit lanes into two rows. -/
  | vuzpW (d a b : RowName) (l : Bool)
  /-- VPARK (R269). Writes a row to a park row of the core. -/
  | vpark (a : RowName) (p : BitVec 7) (l : Bool)
  /-- VUNPK (R269). Reads a park row into d. -/
  | vunpk (d : RowName) (p : BitVec 7)
  /-- VREP (R271). Captures the next n row words as a body and replays it with strided row names. -/
  | vrep (a : Reg) (n : BitVec 4) (b : Reg)
  /-- VCVT (R273). Converts lanes for a table-A type pair, under mode, SAT and AMAX. -/
  | vcvt (d a : RowName) (rm : RMode) (sat amx : Bool) (tp : BitVec 4) (l : Bool)
  /-- VPACK (R273). Converts and packs ρ source rows into one narrower row. -/
  | vpack (d a : RowName) (rm : RMode) (sat amx : Bool) (tp : BitVec 4) (l : Bool)
  /-- VWIDEN (R273). Converts one row into ρ wider rows. -/
  | vwiden (d a : RowName) (rm : RMode) (sat amx : Bool) (tp : BitVec 4) (l : Bool)
  /-- VCVT_B (R273). VCVT for a table-B type pair. -/
  | vcvtB (d a : RowName) (rm : RMode) (sat amx : Bool) (tb : BitVec 3) (l : Bool)
  /-- VCVTEF (R274). Converts FP32 lanes to BF16 or FP16 and writes the exact residual row. -/
  | vcvtef (d a e : RowName) (l f16 : Bool)
  /-- VRSUM (R276). Sequential lane sum folded into lane 0 of d. -/
  | vrsum (d a : RowName) (t : RedTy) (l : Bool)
  /-- VRMAX (R276). Lane maximum folded into lane 0 of d. -/
  | vrmax (d a : RowName) (t : RedTy) (l : Bool)
  /-- VRMIN (R276). Lane minimum folded into lane 0 of d. -/
  | vrmin (d a : RowName) (t : RedTy) (l : Bool)
  /-- VDOT_F32 (R276). FP32 dot product accumulated in order into lane 0 of d. -/
  | vdotF32 (d a b : RowName) (l : Bool)
  /-- VDOT_BF16 (R276). BF16 dot product accumulated into lane 0 of d. -/
  | vdotBf16 (d a b : RowName) (l : Bool)
  /-- VDOT_F16 (R276). FP16 dot product accumulated into lane 0 of d. -/
  | vdotF16 (d a b : RowName) (l : Bool)
  /-- VDOT_I16 (R276). INT16 dot product accumulated into lane 0 of d. -/
  | vdotI16 (d a b : RowName) (l : Bool)
  /-- VDOT_I8 (R276). INT8 dot product accumulated into lane 0 of d. -/
  | vdotI8 (d a b : RowName) (l : Bool)
  /-- VDOTW_BF16 (R277). Pairwise BF16 products accumulated into all 8 lanes of d. -/
  | vdotwBf16 (d a b : RowName) (l : Bool)
  /-- VDOTW_F16 (R277). Pairwise FP16 products accumulated into all 8 lanes of d. -/
  | vdotwF16 (d a b : RowName) (l : Bool)
  /-- VDOTW_I16 (R277). Pairwise INT16 products accumulated into all 8 lanes of d. -/
  | vdotwI16 (d a b : RowName) (l : Bool)
  /-- VDOTW_I8 (R277). Groups of four INT8 products accumulated into all 8 lanes of d. -/
  | vdotwI8 (d a b : RowName) (l : Bool)
  /-- VSPRS (R279). Prunes INT8 lanes to 4:8 and writes the metadata to a scalar. -/
  | vsprs (d a : RowName) (m : Reg) (l : Bool)
  /-- VSEXP (R280). Expands a compressed row back to its indices. -/
  | vsexp (d a : RowName) (m : Reg) (l : Bool)
  /-- VSDOT (R281). Sparse INT8 dot product added to an even scalar. -/
  | vsdot (d : Reg) (a b : RowName) (l : Bool)
  /-- TRAP (R246). Raises the software-trap fault with a code. -/
  | trap (c : BitVec 20)
  /-- BRK (R246). Raises the breakpoint fault with a code. -/
  | brk (c : BitVec 20)
  /-- NOP (R218). Does nothing; words of the unassigned hint kinds and majors 0x3D–0x3F act the same. -/
  | nop
  /-- PREF (R218). May start a table walk for an address. -/
  | pref (a : Reg) (i : BitVec 16)
  /-- BHINT (R218). Hints the direction of the slot's next conditional branch. -/
  | bhint (x : Bool)
  /-- YIELD (R218). Forgoes the slot's next issue turn. -/
  | yield
  /-- TRET (R337). Returns from a trap handler to TPC at the recorded level. -/
  | tret
  /-- CTXSAVE (R310). Pre-empts a named slot and writes its save image. -/
  | ctxsave (d a b : Reg) (wa wb : Bool)
  /-- CTXLOAD (R311). Restores a save image into a free slot. -/
  | ctxload (d a : Reg) (wa : Bool)
  /-- MIGR (R312). Saves a slot and streams it to a free slot of another core. -/
  | migr (d a b : Reg) (wa wb : Bool)
  /-- GSTOP (R313). Stops or resumes every core of a tenant's partition. -/
  | gstop (d a b : Reg) (wa wb : Bool)
  /-- TLBINV (R314). Removes one VA's translation for a tenant in every TLB of its partition. -/
  | tlbinv (a b : Reg) (wa wb : Bool)
  /-- TLBINVA (R314). Removes every translation of a tenant. -/
  | tlbinva (b : Reg) (wb : Bool)
  /-- KZERO (R315). Zeroes a key slot after its in-flight accesses. -/
  | kzero (a : Reg) (wa : Bool)
  /-- KLOAD (R315). Loads a key slot with a fresh key pair. -/
  | kload (d a : Reg) (wa : Bool)
  /-- SCRUB (R318). Starts the scrub job list for a tenant. -/
  | scrub (d a : Reg) (wa : Bool)
  /-- TNASSIGN (R316). Assigns the resources named by a descriptor to a VF. -/
  | tnassign (d a : Reg) (wa : Bool)
  /-- TNFREE (R317). Takes a stopped tenant apart and quarantines its resources. -/
  | tnfree (d a : Reg) (wa : Bool)
  /-- TNSTAT (R319). Returns the state of a tenant. -/
  | tnstat (d a : Reg) (wa : Bool)
  /-- RESULT_LANDS (R219). A long-latency result, load data or LQ entry lands and sets its destination full, releasing waits. -/
  | resultLands (id : Nat)
  /-- SEQUENCER_EXECUTE (R261). The vector sequencer starts an entry, reads its rows and writes its destinations after its latency. -/
  | sequencerExecute (core : Nat) (view : List Nat)
  /-- STRAND_DRAIN_END (R248). The drain of SUSP, AWAIT, HALT or GBAR ends and the instruction proceeds. -/
  | strandDrainEnd (core slot : Nat)
  /-- BANK_WAKE_COMPLETE (R67). A Waking bank becomes Full, and its held accesses are performed in arrival order. -/
  | bankWakeComplete (core : Nat) (wake : WakeEnd)
  /-- DEPOSIT (R63). A deposit lands in another slot's register, setting it full after local reads and writes. -/
  | deposit (id : Nat)
  /-- REMOTE_ACCESS (R372). A load or store from another unit reaches its bank and is performed or faults. -/
  | remoteAccess (id : Nat) (view : List Nat)
  /-- ATOMIC_PERFORM (R60). An atomic unit performs one request per location in its serialisation order. -/
  | atomicPerform (id : Nat)
  /-- CELL_DECR (R29). The atomic engine performs a DECR on a counter cell. -/
  | cellDecr (id : Nat)
  /-- CELL_TASKQ (R29). The atomic engine performs TASKQ, enqueueing the task or storing the waiter. -/
  | cellTaskq (id : Nat)
  /-- CELL_AWAIT (R29). The atomic engine performs AWAIT, enqueueing the record or storing the waiter. -/
  | cellAwait (id : Nat)
  /-- HALT_RT_BIND (R254). The engine binds the halting strand's banks to a successor task, or they go Off. -/
  | haltRtBind (id : Nat)
  /-- CBAR_ARRIVAL (R291). The atomic engine counts a barrier arrival and advances the generation. -/
  | cbarArrival (id : Nat)
  /-- ENQUEUE_ARRIVAL (R88). An enqueue arrives in its run list or engine queue. -/
  | enqueueArrival (id : Nat)
  /-- TASK_PREFETCH (R32). The prefetcher copies a task packet into a shadow slot. -/
  | taskPrefetch (core : Nat) (handle : Word)
  /-- QUEUE_DOORBELL (R150). A host write of QWP makes headers of a queue available to the launch unit. -/
  | queueDoorbell (vf q : Nat) (v : Word)
  /-- HEADER_FETCH (R150). A ring header read completes into the header buffer and RP advances. -/
  | headerFetch (vf q : Nat)
  /-- LAUNCH_ACCEPT (R153). The launch arbiter accepts one launch, and its COMPL is set. -/
  | launchAccept
  /-- LNCH_HEADER_READ (R256). The header read of LNCH completes and the child is accepted or refused. -/
  | lnchHeaderRead (id : Nat)
  /-- LAUNCH_DEAL (R155). A deal packet places a launch entry in a target's run list. -/
  | launchDeal (launch target : Nat)
  /-- PERSIST_ADMIT (R41). A PERSIST launch is admitted when every target can pin its slots. -/
  | persistAdmit (launch : Nat)
  /-- RUN_LIST_POP (R158). The cluster pops one entry, fold offer or handler message per cycle into a free slot. -/
  | runListPop (cluster : Nat)
  /-- MEMORY_CORE_POP (R160). A memory core starts its oldest aged or highest-ranked entry or handler. -/
  | memoryCorePop (core : Nat)
  /-- AGE_PROMOTION (R34). An entry that has waited 65,536 cycles is taken ahead of priority. -/
  | agePromotion (core : Nat)
  /-- LAUNCH_COMPLETE (R151). The last strand halts, DONE counts and the vector is raised. -/
  | launchComplete (launch : Nat)
  /-- FOLD_OFFER (R103). In each bank cycle each domain offers its eligible entry and draws from its LFSR. -/
  | foldOffer (cluster dom : Nat)
  /-- FOLD_CLAIM (R103). A taken offer is claimed at the next claim stage and a fold handler starts. -/
  | foldClaim (cluster : Nat)
  /-- FOLD_POST (R105). A post is performed at the fold stage of its bank. -/
  | foldPost (id : Nat)
  /-- LOG_REFILL (R110). At the end of a bank cycle the head log record refills its bank. -/
  | logRefill (cluster dom : Nat)
  /-- FOLD_COMMIT_TAKE (R98). A bank takes a committed domain's parameters between two bank cycles. -/
  | foldCommitTake (cluster : Nat)
  /-- FOLD_COMPLETION_ACTION (R111). At quiescence the domain writes QSTAT and decrements its cell. -/
  | foldCompletionAction (ten dom : Nat)
  /-- ADAPT_CHANGE (R113). The power manager changes the ADAPT multiplier of a domain. -/
  | adaptChange (ten dom shift : Nat)
  /-- ENGINE_OP_START (R87). An engine starts the next operation of its queue after the previous one completes. -/
  | engineOpStart (q : EngQueue)
  /-- TILE_TASK_DISPATCH (R145). The task scheduler takes a ready record and loads it into an array's shadow set. -/
  | tileTaskDispatch (cluster : Nat)
  /-- MATRIX_UNIT_COMPLETE (R143). A matrix unit completes and KPROG is written. -/
  | matrixUnitComplete (cluster array : Nat)
  /-- MATRIX_OP_COMPLETE (R145). A matrix operation writes C, STATUS done and decrements COMPL. -/
  | matrixOpComplete (cluster array : Nat)
  /-- COPY_COMPLETE (R305). A copy operation completes and decrements its cell. -/
  | copyComplete (core : Nat)
  /-- STREAM_COMPLETE (R53). A stream transfer completes as a release and decrements its cell. -/
  | streamComplete (core : Nat)
  /-- TASK_ENGINE_COMPLETE (R306). A bulk TASK operation finishes its TASKQs and decrements its cell. -/
  | taskEngineComplete (cluster : Nat)
  /-- WALK_COMPLETE (R369). A table walk completes, installing a translation or faulting its waiters. -/
  | walkComplete (id : Nat)
  /-- HOST_REQUEST_FAIL (R371). A host-space request returns an error or times out after 50 ms. -/
  | hostRequestFail (id : Nat)
  /-- ASYNC_TRAP (R336). A pending asynchronous fault is taken at the slot's next instruction boundary. -/
  | asyncTrap (core slot : Nat)
  /-- WATCHDOG_PRE (R165). The first watchdog limit expires and the launch's strands take trap 0x11. -/
  | watchdogPre (vf q : Nat)
  /-- WATCHDOG_KILL (R391). The second watchdog limit expires and the launch is killed. -/
  | watchdogKill (vf q : Nat)
  /-- WATCHDOG_FENCE (R391). The third watchdog limit expires and the cores that still hold slots are fenced. -/
  | watchdogFence (vf q : Nat)
  /-- SLICE_SWITCH (R154). At a slice boundary the cluster saves the outgoing tenant and restores the incoming one. -/
  | sliceSwitch (cluster : Nat)
  /-- CLUSTER_IDLE (R161). After 64 idle cycles the cluster sends its first steal request. -/
  | clusterIdle (cluster : Nat)
  /-- STEAL_REQUEST (R161). A victim answers a steal request by shipping half of an entry or refusing. -/
  | stealRequest (cluster : Nat)
  /-- STEAL_ANSWER (R161). The thief enters the shipped ordinals or asks the next neighbour. -/
  | stealAnswer (cluster : Nat)
  /-- STEAL_BACKOFF_EXPIRY (R161). 1,024 cycles after four refusals the cluster may ask again. -/
  | stealBackoffExpiry (cluster : Nat)
  /-- SEEP_LINE_LAND (R170). A redirected read lands in the quarantine buffer. -/
  | seepLineLand (core line : Nat)
  /-- CTXSAVE_COMPLETE (R169). The image is written, the slot's banks go Off and the slot is freed. -/
  | ctxsaveComplete (save : SaveEnd)
  /-- MIGRATION_RESTORE (R172). A streamed image is restored on the target core and a forwarding entry is set. -/
  | migrationRestore (id : Nat)
  /-- FORWARD_RETIRE (R399). A forwarding entry retires when its counts agree or its timers expire. -/
  | forwardRetire (core entry : Nat)
  /-- CORE_STOP (R174). A halt-tree message stops or resumes a core, which writes its stop record. -/
  | coreStop (id core : Nat)
  /-- GSTOP_COMPLETE (R313). Every core of the partition has stopped or resumed, and GSTOP's d fills. -/
  | gstopComplete (id : Nat)
  /-- HANDLER_MESSAGE_ARRIVAL (R192). A user-handler message is queued at its core or spilled. -/
  | handlerMessageArrival (id : Nat)
  /-- BUILTIN_STORE (R191). The network interface stores the message bytes at ADDR. -/
  | builtinStore (id : Nat)
  /-- BUILTIN_LOAD (R191). The network interface reads bytes and deposits them at the reply address. -/
  | builtinLoad (id : Nat)
  /-- BUILTIN_ATOMIC (R191). The network interface performs an atomic and deposits the old value. -/
  | builtinAtomic (id : Nat)
  /-- BUILTIN_POST (R191). The network interface posts on the target device and deposits the status. -/
  | builtinPost (id : Nat)
  /-- BUILTIN_DECR (R191). The network interface performs a DECR on a counter cell. -/
  | builtinDecr (id : Nat)
  /-- SEND_ACK (R193). An acceptance acknowledgement increments SALLOW.LEFT. -/
  | sendAck (id : Nat)
  /-- MCST_STAMP (R196). The Sluice stamps a multicast packet and sends it to the members. -/
  | mcstStamp (id : Nat)
  /-- MCST_STAMP_RETURN (R196). The returned sequence number sets the sender's destination full. -/
  | mcstStampReturn (id : Nat)
  /-- MULTICAST_STORE_ARRIVAL (R197). A stamped store enters a member's reorder window. -/
  | multicastStoreArrival (id : Nat)
  /-- GAPPLY_REPORT (R197). A member reports GAPPLY every 64 applications or after 1 µs. -/
  | gapplyReport (group member gapply : Nat)
  /-- SLUICE_G_REPORT (R400). The Sluice reports G to the members at each change and at least every 10 µs. -/
  | sluiceGReport (group : Nat)
  /-- RESEND_REQUEST (R400). A member that lacks a store for 100 µs asks the Sluice to resend it. -/
  | resendRequest (group : Nat)
  /-- MEMBER_LOSS (R401). A member without a report for 1 ms is removed by a view change. -/
  | memberLoss (group member : Nat)
  /-- SEQUENCER_FAILOVER (R402). Members without a G report for 1 ms elect a new sequencer and cut at n_cut; `first` and `others` are the
  surviving members. -/
  | sequencerFailover (group first : Nat) (others : List Nat)
  /-- OPERATION_TIMEOUT (R397). An operation owed a response times out and its slot traps 0x19. -/
  | operationTimeout (id : Nat)
  /-- MESH_FLIT_RESEND (R392). An uncorrectable mesh flit is resent from the retry buffer. -/
  | meshFlitResend (position port resends : Nat)
  /-- DELMEL_FRAME_RECEIVE (R392). A Delmel frame is checked, acknowledged or replayed. -/
  | delmelFrameReceive (port vc : Nat) (crcOk : Bool) (packets : List Packet)
  /-- PORT_RETRAIN (R393). After 8 failed replays a port retrains, runs at 4 lanes or goes down. -/
  | portRetrain (port healthyLanes : Nat) (reserve : Bool)
  /-- REGION_RESTITCH (R189). The partition manager re-stitches a region of router positions. -/
  | regionRestitch (region : Region) (linksUp : Bool)
  /-- QSTATUS_WRITE (R149). A host write of 1 clears QSTATUS.APPROX. -/
  | qstatusWrite (vf q : Nat) (v : Word)
  /-- TSLICE_WRITE (R200). Sets a VF's slice length unless it is out of range or the VF is locked. -/
  | tsliceWrite (vf : Nat) (v : Word)
  /-- PWRCAP_WRITE (R209). Sets the module power cap. -/
  | pwrcapWrite (v : Word)
  /-- PWGT_WRITE (R153). Sets process weights without changing credits until the next refill. -/
  | pwgtWrite (vf hi : Nat) (v : Word)
  /-- REGISTER_WRITE (R199). A host write of a register that has no row of its own. -/
  | registerWrite (fn off : Nat) (v : Word)
  /-- MBOX_ASSIGN (R201). The monitor assigns resources to a VF by TNASSIGN. -/
  | mboxAssign (desc : Word)
  /-- MBOX_FREE (R418). The monitor stops serving a VF and tears it down. -/
  | mboxFree (vf : Nat)
  /-- MBOX_SHARE (R201). Sets a cluster's tenant sharing between launches. -/
  | mboxShare (cluster : Nat) (vfs : List Nat)
  /-- MBOX_PART (R201). Writes fabric partition, group and route entries. -/
  | mboxPart (p : PartWrite)
  /-- MBOX_LIFE (R416). Returns 31 lifetime counters. -/
  | mboxLife (first : Nat)
  /-- CONFIG_WRITE (R410). A configuration write that changes a locked VF sends its TDI to ERROR. -/
  | configWrite (vf : Nat) (changesVf : Bool)
  /-- BAR2_UNPROTECTED_REQUEST (R410). A BAR 2 request outside the IDE stream of a locked VF is refused and counted. -/
  | bar2UnprotectedRequest (vf : Nat) (isWrite : Bool)
  /-- GET_VERSION (R207). SPDM version request. -/
  | getVersion (fn : Nat)
  /-- GET_CAPABILITIES (R207). SPDM capabilities request. -/
  | getCapabilities (fn : Nat)
  /-- NEGOTIATE_ALGORITHMS (R207). SPDM algorithm negotiation. -/
  | negotiateAlgorithms (fn : Nat) (supported : Bool)
  /-- GET_DIGESTS (R207). SPDM certificate digests request. -/
  | getDigests (fn : Nat)
  /-- GET_CERTIFICATE (R207). SPDM certificate request. -/
  | getCertificate (fn : Nat)
  /-- CHALLENGE (R207). SPDM challenge request. -/
  | challenge (fn : Nat)
  /-- GET_MEASUREMENTS (R207). Returns the SHA-384 measurements. -/
  | getMeasurements (fn index : Nat)
  /-- KEY_EXCHANGE (R207). Starts an SPDM session; `unsupported`: with mutual authentication, or as a PSK_EXCHANGE (R408). -/
  | keyExchange (fn : Nat) (unsupported : Bool)
  /-- FINISH (R207). Completes SPDM session establishment. -/
  | finish (fn : Nat)
  /-- KEY_UPDATE (R207). Updates the session keys. -/
  | keyUpdate (fn : Nat)
  /-- END_SESSION (R207). Ends an SPDM session. -/
  | endSession (fn : Nat)
  /-- VENDOR_DEFINED_REQUEST (R208). Produces a signed result-digest report and clears FLAGS. -/
  | vendorDefinedRequest (asked : Asked) (nonce : BitVec 256) (base len : Word)
  /-- SECURED_MESSAGE (R409). A secured message whose tag or sequence fails is discarded and its session ends. -/
  | securedMessage (fn : Nat) (authentic : Bool)
  /-- LOCK_INTERFACE (R204). Locks a TDI, after which PF requests on the tenant are refused. -/
  | lockInterface (vf : Nat)
  /-- IDE_KM (R204). Sets the IDE stream keys of a VF inside an SPDM session. -/
  | ideKm (vf : Nat) (session : Nat)
  /-- COLD_RESET (R206). Platriuz verifies firmware, trains, loads the M key slots and starts the monitors. -/
  | coldReset (b : BootReport)
  /-- WARM_RESET (R413). Tears down tenants, re-tests and resumes the journalled scrub. -/
  | warmReset (b : BootReport)
  /-- RECOVERY_IMAGE_PUSH (R206). The host pushes a new signed firmware image through PF DOE. -/
  | recoveryImagePush (img : FirmwareImage)
  /-- SCRUB_CHUNK_COMPLETE (R411). A zeroed chunk is journalled and leaves quarantine. -/
  | scrubChunkComplete
  /-- PATROL_READ (R378). Stack memory and LPDDR-6 are patrol-read once every 24 hours. -/
  | patrolRead (addr : Nat) (found : Ecc)
  /-- KEY_INTEGRITY_CHECK (R415). Each second Platriuz checks the key slots and handles a lost slot. -/
  | keyIntegrityCheck (slot : Nat) (fails : Bool)
  /-- LIFETIME_HOUR_TICK (R416). The hourly temperature and power histograms are advanced. -/
  | lifetimeHourTick (celsius watts : Nat)
  /-- ILLEGAL_INSTRUCTION (R215). A word of an unassigned major, or with an unassigned minor code or reserved field value, is issued and raises the precise illegal-instruction trap. -/
  | illegalInstruction (w : BitVec 32)
  /-- FETCH_FAULT (R347). The fetch of the word at the PC fails its window, translation, permission, LPDDR-6 or dead-bank check and raises a trap with TINST = 0. -/
  | fetchFault (code : Nat) (tval : Word)
  /-- TDISP_START_INTERFACE (R204). The TDISP request that moves a locked TDI to RUN, setting ST := RUN. -/
  | tdispStartInterface (vf : Nat)
  deriving DecidableEq, Repr

end Sys2Proof
end

