-- ==== Sys2Proof/Machine/Flags.lean ====
section
/-! DEFINITION. Number formats, rounding and the flags of FFLAGS (R114 to R131): every float result is computed exactly as an integer
significand times a power of two and rounded once. -/

namespace Sys2Proof.Machine

/-- The flags of FFLAGS in the layout of R127. -/
abbrev FFlags := BitVec 7

/-- SATC. -/
def flSATC : FFlags := 0x40#7
/-- AMXN. -/
def flAMXN : FFlags := 0x20#7
/-- NV. -/
def flNV : FFlags := 0x10#7
/-- DZ. -/
def flDZ : FFlags := 0x08#7
/-- OF. -/
def flOF : FFlags := 0x04#7
/-- UF. -/
def flUF : FFlags := 0x02#7
/-- NX. -/
def flNX : FFlags := 0x01#7

/-- A flag raised when the condition holds. -/
def flagIf (c : Bool) (f : FFlags) : FFlags := if c then f else 0#7

/-- A float format (R115): exponent and fraction widths, bias; `e4` for FP8E4, which has no infinities (R116). -/
structure Fmt where
  ew : Nat
  fw : Nat
  bias : Nat
  e4 : Bool := false
  deriving DecidableEq, Repr

/-- FP32. -/
def fp32 : Fmt := ⟨8, 23, 127, false⟩
/-- BF16. -/
def bf16 : Fmt := ⟨8, 7, 127, false⟩
/-- FP16. -/
def fp16 : Fmt := ⟨5, 10, 15, false⟩
/-- FP8E4. -/
def fp8e4 : Fmt := ⟨4, 3, 7, true⟩
/-- FP8E5. -/
def fp8e5 : Fmt := ⟨5, 2, 15, false⟩

/-- Width of a format in bits. -/
def Fmt.width (f : Fmt) : Nat := f.ew + f.fw + 1

/-- The pattern of the largest finite value, sign 0 (R115). -/
def Fmt.maxCode (f : Fmt) : Nat := if f.e4 then 0x7E else (2 ^ f.ew - 1) * 2 ^ f.fw - 1

/-- The sign bit's weight. -/
def Fmt.signBit (f : Fmt) : Nat := 2 ^ (f.ew + f.fw)

/-- The pattern of infinity, sign 0. -/
def Fmt.infCode (f : Fmt) : Nat := (2 ^ f.ew - 1) * 2 ^ f.fw

/-- The quiet bit. -/
def Fmt.quietBit (f : Fmt) : Nat := 2 ^ (f.fw - 1)

/-- The canonical quiet NaN (R115, R116). -/
def Fmt.canonNan (f : Fmt) : Nat := if f.e4 then 0x7F else f.infCode + f.quietBit

/-- A pattern read as a value: `fin s m e` is (-1)^s × m × 2^e. -/
inductive FVal
  | nan (sign quiet : Bool) (frac : Nat)
  | inf (sign : Bool)
  | fin (sign : Bool) (m : Nat) (e : Int)
  deriving DecidableEq, Repr

/-- The value of a pattern (R115, R116). -/
def Fmt.val (f : Fmt) (x : Nat) : FVal :=
  let sign := bitOf x (f.ew + f.fw)
  let ex := x / 2 ^ f.fw % 2 ^ f.ew
  let fr := x % 2 ^ f.fw
  if f.e4 && ex == 15 && fr == 7 then .nan sign true fr
  else if !f.e4 && ex == 2 ^ f.ew - 1 then
    if fr == 0 then .inf sign else .nan sign (decide (f.quietBit ≤ fr)) fr
  else if ex == 0 then .fin sign fr (1 - (f.bias : Int) - f.fw)
  else .fin sign (2 ^ f.fw + fr) ((ex : Int) - f.bias - f.fw)

/-- Is the value a NaN? -/
def FVal.isNan : FVal → Bool
  | .nan _ _ _ => true
  | _ => false

/-- Is the value a signalling NaN? -/
def FVal.isSnan : FVal → Bool
  | .nan _ q _ => !q
  | _ => false

/-- Is the value finite? -/
def FVal.isFin : FVal → Bool
  | .fin _ _ _ => true
  | _ => false

/-- A rounding increment (R121): the kept part's parity, the discarded part against one half, and the sign. -/
def roundUp (rm : RMode) (sign odd : Bool) (rem2 half2 : Nat) (sticky : Bool) : Bool :=
  match rm with
  | .rne => decide (half2 < rem2) || (decide (rem2 = half2) && (sticky || odd))
  | .rtz => false
  | .rdn => sign && (decide (rem2 ≠ 0) || sticky)
  | .rup => !sign && (decide (rem2 ≠ 0) || sticky)

/-- An integer significand reduced by `2^sh` under a mode: the rounded integer and whether it is inexact. -/
def roundShift (rm : RMode) (sign : Bool) (m sh : Nat) (sticky : Bool) : Nat × Bool :=
  if sh = 0 then (m + (if roundUp rm sign (m % 2 == 1) 0 1 sticky then 1 else 0), sticky)
  else
    let k := Nat.min sh (Nat.log2 m + 3)
    let r := m / 2 ^ k
    let rem := m % 2 ^ k
    (r + (if roundUp rm sign (r % 2 == 1) (2 * rem) (2 ^ k) sticky then 1 else 0), decide (rem ≠ 0) || sticky)

/-- What an overflow becomes (R122). -/
def overflowCode (f : Fmt) (rm : RMode) (sat sign : Bool) : Nat :=
  let big : Nat := f.maxCode
  let ovf : Nat := if f.e4 then 0x7F else f.infCode
  let c := if sat then big else match rm with
    | .rne => ovf
    | .rtz => big
    | .rdn => if sign then ovf else big
    | .rup => if sign then big else ovf
  c + (if sign then f.signBit else 0)

/-- Rounds (-1)^sign × m × 2^e (plus a sticky part below) once to a format (R121, R122, R123): the pattern and the flags. -/
def roundTo (f : Fmt) (rm : RMode) (sat sign : Bool) (m : Nat) (e : Int) (sticky : Bool := false) : Nat × FFlags :=
  let sg := if sign then f.signBit else 0
  if m = 0 then (sg, 0#7)
  else
    let top : Int := Nat.log2 m + e
    let emin : Int := 1 - f.bias
    let q : Int := (if top < emin then emin else top) - f.fw
    let (r, ix) :=
      if q ≤ e then (m * 2 ^ (e - q).toNat, sticky) else roundShift rm sign m (q - e).toNat sticky
    let code := (q + f.fw + f.bias - 1).toNat * 2 ^ f.fw + r
    let tiny : Bool :=
      if emin ≤ top then false
      else if top < emin - 1 then true
      else
        let qu : Int := top - f.fw
        let ru := if qu ≤ e then m * 2 ^ (e - qu).toNat else (roundShift rm sign m (qu - e).toNat sticky).1
        decide (ru < 2 ^ (f.fw + 1))
    if f.maxCode < code then
      (overflowCode f rm sat sign, flOF ||| flNX ||| flagIf sat flSATC)
    else (code + sg, flagIf ix flNX ||| flagIf (tiny && ix) flUF)

/-- A NaN source as it leaves an arithmetic operation: its own pattern with the quiet bit set (R123). -/
def quieted (f : Fmt) (x : Nat) : Nat := if bitOf x (f.fw - 1) then x else x + f.quietBit

/-- The exact sum of two finite values; the sign of an exact zero follows R121. -/
def addExact (rm : RMode) (s1 : Bool) (m1 : Nat) (e1 : Int) (s2 : Bool) (m2 : Nat) (e2 : Int) : Bool × Nat × Int :=
  let e := if e1 < e2 then e1 else e2
  let a : Int := (if s1 then -1 else 1) * (m1 * 2 ^ (e1 - e).toNat : Nat)
  let b : Int := (if s2 then -1 else 1) * (m2 * 2 ^ (e2 - e).toNat : Nat)
  let t := a + b
  if t = 0 then ((if s1 = s2 then s1 else decide (rm = .rdn)), 0, e) else (decide (t < 0), t.natAbs, e)

/-- The first NaN of the operands, quieted, with NV when any operand is signalling (R123). -/
def nanOf (f : Fmt) : List Nat → Option (Nat × FFlags)
  | xs =>
    match xs.find? (fun x => (f.val x).isNan) with
    | none => none
    | some x => some (quieted f x, flagIf (xs.any fun y => (f.val y).isSnan) flNV)

/-- Adds two values, infinities included, the second with its sign inverted when `neg`. -/
def fAdd (f : Fmt) (rm : RMode) (x y : Nat) (neg : Bool) : Nat × FFlags :=
  match nanOf f [x, y] with
  | some r => r
  | none =>
    match f.val x, f.val y with
    | .inf a, .inf b => if a = (b ^^ neg) then (x, 0#7) else (f.canonNan, flNV)
    | .inf _, _ => (x, 0#7)
    | _, .inf b => (f.infCode + (if b ^^ neg then f.signBit else 0), 0#7)
    | .fin s1 m1 e1, .fin s2 m2 e2 =>
      let (sg, m, e) := addExact rm s1 m1 e1 (s2 ^^ neg) m2 e2
      roundTo f rm false sg m e
    | _, _ => (f.canonNan, 0#7)

/-- Multiplies two values. -/
def fMul (f : Fmt) (rm : RMode) (x y : Nat) : Nat × FFlags :=
  match nanOf f [x, y] with
  | some r => r
  | none =>
    match f.val x, f.val y with
    | .inf a, .inf b => (f.infCode + (if a ^^ b then f.signBit else 0), 0#7)
    | .inf a, .fin b m _ => if m = 0 then (f.canonNan, flNV) else (f.infCode + (if a ^^ b then f.signBit else 0), 0#7)
    | .fin a m _, .inf b => if m = 0 then (f.canonNan, flNV) else (f.infCode + (if a ^^ b then f.signBit else 0), 0#7)
    | .fin a m1 e1, .fin b m2 e2 => roundTo f rm false (a ^^ b) (m1 * m2) (e1 + e2)
    | _, _ => (f.canonNan, 0#7)

/-- x / y (R262): correctly rounded, DZ for a finite non-zero x over zero. -/
def fDiv (f : Fmt) (rm : RMode) (x y : Nat) : Nat × FFlags :=
  match nanOf f [x, y] with
  | some r => r
  | none =>
    match f.val x, f.val y with
    | .inf _, .inf _ => (f.canonNan, flNV)
    | .inf a, .fin b _ _ => (f.infCode + (if a ^^ b then f.signBit else 0), 0#7)
    | .fin a _ _, .inf b => ((if a ^^ b then f.signBit else 0), 0#7)
    | .fin a m1 e1, .fin b m2 e2 =>
      if m2 = 0 then
        if m1 = 0 then (f.canonNan, flNV) else (f.infCode + (if a ^^ b then f.signBit else 0), flDZ)
      else
        let k := f.fw + 5 + Nat.log2 m2
        let n := m1 * 2 ^ k
        roundTo f rm false (a ^^ b) (n / m2) (e1 - e2 - k) (decide (n % m2 ≠ 0))
    | _, _ => (f.canonNan, 0#7)

/-- The integer square root, bit by bit from bit `i - 1` down. -/
def isqrtGo (n : Nat) : Nat → Nat → Nat
  | 0, r => r
  | i + 1, r => isqrtGo n i (if (r + 2 ^ i) * (r + 2 ^ i) ≤ n then r + 2 ^ i else r)

/-- √x (R262). -/
def fSqrt (f : Fmt) (rm : RMode) (x : Nat) : Nat × FFlags :=
  match nanOf f [x] with
  | some r => r
  | none =>
    match f.val x with
    | .inf sg => if sg then (f.canonNan, flNV) else (x, 0#7)
    | .fin sg m e =>
      if m = 0 then (x, 0#7)
      else if sg then (f.canonNan, flNV)
      else
        let k := f.fw + 4
        let odd := e % 2 ≠ 0
        let n := m * 2 ^ (2 * k) * (if odd then 2 else 1)
        let r := isqrtGo n 64 0
        roundTo f rm false false r ((e - (if odd then 1 else 0)) / 2 - k) (decide (r * r ≠ n))
    | _ => (f.canonNan, 0#7)

/-- x × y + z, or z − x × y when `neg`, the product exact and one rounding (R262, R263). -/
def fFma (f : Fmt) (rm : RMode) (x y z : Nat) (neg : Bool) : Nat × FFlags :=
  let invalid : Bool := match f.val x, f.val y with
    | .inf _, .fin _ m _ => m == 0
    | .fin _ m _, .inf _ => m == 0
    | _, _ => false
  if invalid then
    (if (f.val z).isNan then quieted f z else f.canonNan, flNV)
  else
    match nanOf f [x, y, z] with
    | some r => r
    | none =>
      let sg : FVal → Bool := fun | .fin a _ _ => a | .inf a => a | .nan a _ _ => a
      let ps := (sg (f.val x) ^^ sg (f.val y)) ^^ neg
      match f.val x, f.val y, f.val z with
      | .fin _ m1 e1, .fin _ m2 e2, .fin s3 m3 e3 =>
        let (sn, m, e) := addExact rm ps (m1 * m2) (e1 + e2) s3 m3 e3
        roundTo f rm false sn m e
      | .fin _ _ _, .fin _ _ _, .inf _ => (z, 0#7)
      | _, _, .inf b => if ps = b then (z, 0#7) else (f.canonNan, flNV)
      | _, _, _ => (f.infCode + (if ps then f.signBit else 0), 0#7)

/-- A finite or infinite value compared: is x < y? (−0 = +0.) -/
def fvLt : FVal → FVal → Bool
  | .inf a, .inf b => a && !b
  | .inf a, .fin _ _ _ => a
  | .fin _ _ _, .inf b => !b
  | .fin s1 m1 e1, .fin s2 m2 e2 =>
    let e := if e1 < e2 then e1 else e2
    let a : Int := (if s1 then -1 else 1) * (m1 * 2 ^ (e1 - e).toNat : Nat)
    let b : Int := (if s2 then -1 else 1) * (m2 * 2 ^ (e2 - e).toNat : Nat)
    decide (a < b)
  | _, _ => false

/-- Order of the patterns for minimum and maximum, where −0 is below +0 (R123). -/
def fLtMin (f : Fmt) (x y : Nat) : Bool :=
  fvLt (f.val x) (f.val y) || (!fvLt (f.val y) (f.val x) && bitOf x (f.ew + f.fw) && !bitOf y (f.ew + f.fw))

/-- Minimum or maximum (R262, R123). -/
def fMinMax (f : Fmt) (max : Bool) (x y : Nat) : Nat × FFlags :=
  match nanOf f [x, y] with
  | some r => r
  | none => (if fLtMin f x y = max then y else x, 0#7)

/-- x × 2^n (R262, R263). -/
def fScale (f : Fmt) (rm : RMode) (x : Nat) (n : Int) : Nat × FFlags :=
  match nanOf f [x] with
  | some r => r
  | none =>
    match f.val x with
    | .fin sg m e =>
      let c : Int := if n < -2000 then -2000 else if 2000 < n then 2000 else n
      roundTo f rm false sg m (e + c)
    | _ => (x, 0#7)

/-- The three comparisons (R262, R263): the lane of ones or zeros and its flag. -/
inductive FCmp | eq | lt | le
  deriving DecidableEq, Repr

/-- A comparison lane. -/
def fCompare (f : Fmt) (c : FCmp) (x y : Nat) : Nat × FFlags :=
  let vx := f.val x
  let vy := f.val y
  let ones := 2 ^ f.width - 1
  if vx.isNan || vy.isNan then
    (0, match c with
      | .eq => flagIf (vx.isSnan || vy.isSnan) flNV
      | _ => flNV)
  else
    (match c with
      | .eq => if !fvLt vx vy && !fvLt vy vx then ones else 0
      | .lt => if fvLt vx vy then ones else 0
      | .le => if fvLt vy vx then 0 else ones, 0#7)

/-- A float to float conversion (R124, R126). -/
def fConvert (src dst : Fmt) (rm : RMode) (sat : Bool) (x : Nat) : Nat × FFlags :=
  match src.val x with
  | .nan sg q fr =>
    let sb := if sg then dst.signBit else 0
    let fr := if q then fr else fr + src.quietBit
    let body :=
      if dst.e4 then 0x7F
      else dst.infCode + (if src.fw ≤ dst.fw then fr * 2 ^ (dst.fw - src.fw) else fr / 2 ^ (src.fw - dst.fw))
    (body + sb, flagIf (!q) flNV)
  | .inf sg =>
    let sb := if sg then dst.signBit else 0
    if sat then (dst.maxCode + sb, flSATC)
    else if dst.e4 then (0x7F + sb, flNV) else (dst.infCode + sb, 0#7)
  | .fin sg m e => roundTo dst rm sat sg m e

/-- An integer type: width and signedness (R117). -/
structure IFmt where
  w : Nat
  signed : Bool
  deriving DecidableEq, Repr

/-- Smallest value. -/
def IFmt.lo (i : IFmt) : Int := if i.signed then -(2 ^ (i.w - 1) : Nat) else 0
/-- Largest value. -/
def IFmt.hi (i : IFmt) : Int := if i.signed then (2 ^ (i.w - 1) : Nat) - 1 else (2 ^ i.w : Nat) - 1

/-- The value of an integer lane. -/
def IFmt.val (i : IFmt) (x : Nat) : Int :=
  if i.signed && bitOf x (i.w - 1) then (x % 2 ^ i.w : Nat) - (2 ^ i.w : Nat) else (x % 2 ^ i.w : Nat)

/-- The low bits of an integer as a lane. -/
def IFmt.wrap (i : IFmt) (v : Int) : Nat := (v % (2 ^ i.w : Nat)).toNat

/-- A float to integer conversion (R125, R127). -/
def fToInt (src : Fmt) (dst : IFmt) (rm : RMode) (sat : Bool) (x : Nat) : Nat × FFlags :=
  let odd : Nat := if dst.signed then 2 ^ (dst.w - 1) else 0
  match src.val x with
  | .nan _ _ _ => (if sat then 0 else odd, flNV)
  | .inf sg => (if sat then dst.wrap (if sg then dst.lo else dst.hi) else odd, flNV ||| flagIf sat flSATC)
  | .fin sg m e =>
    let (r, ix) := if 0 ≤ e then (m * 2 ^ e.toNat, false) else roundShift rm sg m (-e).toNat false
    let v : Int := if sg then -(r : Int) else r
    if v < dst.lo then (if sat then dst.wrap dst.lo else dst.wrap v, flNV ||| flagIf sat flSATC)
    else if dst.hi < v then (if sat then dst.wrap dst.hi else dst.wrap v, flNV ||| flagIf sat flSATC)
    else (dst.wrap v, flagIf ix flNX)

/-- An integer to float conversion (R124). -/
def intToF (src : IFmt) (dst : Fmt) (rm : RMode) (sat : Bool) (x : Nat) : Nat × FFlags :=
  let v := src.val x
  roundTo dst rm sat (decide (v < 0)) v.natAbs 0

/-- An integer to integer conversion (R125). -/
def intToInt (src dst : IFmt) (sat : Bool) (x : Nat) : Nat × FFlags :=
  let v := src.val x
  if sat && decide (v < dst.lo) then (dst.wrap dst.lo, flSATC)
  else if sat && decide (dst.hi < v) then (dst.wrap dst.hi, flSATC)
  else (dst.wrap v, 0#7)

/-- An element type of a conversion. -/
inductive Elem
  | fl (f : Fmt)
  | int (i : IFmt)
  deriving DecidableEq, Repr

/-- Lane width of an element type. -/
def Elem.width : Elem → Nat
  | .fl f => f.width
  | .int i => i.w

/-- Does the destination range fail to cover the source range (R273)? SAT acts on such pairs only. -/
def Elem.narrows : Elem → Elem → Bool
  | .fl a, .fl b => decide (b.width < a.width)
  | .fl _, .int _ => true
  | .int _, .fl _ => false
  | .int a, .int b => decide (a.lo < b.lo) || decide (b.hi < a.hi)

/-- Cvt of R273. -/
def cvt (src dst : Elem) (rm : RMode) (sat : Bool) (x : Nat) : Nat × FFlags :=
  let sat := sat && src.narrows dst
  match src, dst with
  | .fl a, .fl b => fConvert a b rm sat x
  | .fl a, .int b => fToInt a b rm sat x
  | .int a, .fl b => intToF a b rm sat x
  | .int a, .int b => intToInt a b sat x

/-- One lane of the AMAX update (R128): the new magnitude, and AMXN. -/
def amaxLane (src : Elem) (amax : Nat) (x : Nat) : Nat × FFlags :=
  match src with
  | .fl f =>
    match f.val x with
    | .nan _ _ _ => (amax, flAMXN)
    | _ =>
      let m := (fConvert f fp32 .rne false x).1 % 2 ^ 31
      (Nat.max amax m, 0#7)
  | .int i =>
    let m := (roundTo fp32 .rup false false (i.val x).natAbs 0).1
    (Nat.max amax m, 0#7)

/-- VCVTEF's parts of one FP32 lane (R130): h in the narrow format, the residual e in FP32, and the flags of h. -/
def errorFree (dst : Fmt) (rm : RMode) (sat : Bool) (x : Nat) : Nat × Nat × FFlags :=
  let (h, fl) := fConvert fp32 dst rm sat x
  match fp32.val x, dst.val h with
  | .fin s1 m1 e1, .fin s2 m2 e2 =>
    let (sg, m, e) := addExact .rne s1 m1 e1 (!s2) m2 e2
    (h, (roundTo fp32 .rne false (sg && decide (m ≠ 0)) m e).1, fl)
  | _, _ => (h, 0, fl)

/-- The BF16 terms of an FP32 value (R131): three, of which a two-term split uses two. -/
def split3 (x : Nat) : List Nat :=
  let (h1, e1, _) := errorFree bf16 .rne false x
  let (h2, e2, _) := errorFree bf16 .rne false e1
  let (h3, _) := fConvert fp32 bf16 .rne false e2
  [h1, h2, h3]

/-- AFADD (R288): one RNE rounding to FP32, NaN order old then x. -/
def afadd (old x : Nat) : Nat := (fAdd fp32 .rne old x false).1

end Sys2Proof.Machine
end

