-- ==== Sys2Proof/Machine/State.lean ====
section
/-! DEFINITION. The state of one Sarmus 7360: everything the manual gives the machine, as plain data, and the state after reset. -/

namespace Sys2Proof.Machine

/-! ## Sparse tables -/

/-- A table keyed by number, in ascending order of key; a key that is not listed has a stated default. -/
abbrev AMap (α : Type) := List (Nat × α)

/-- The value at a key, or the default. -/
def AMap.get {α : Type} (d : α) : AMap α → Nat → α
  | [], _ => d
  | (k, v) :: m, a => if k = a then v else AMap.get d m a

/-- Sets the value at a key, keeping ascending order. -/
def AMap.put {α : Type} : AMap α → Nat → α → AMap α
  | [], a, v => [(a, v)]
  | (k, w) :: m, a, v =>
    if a < k then (a, v) :: (k, w) :: m else if a = k then (a, v) :: m else (k, w) :: AMap.put m a v

/-- All bytes of storage that software can address: on-chip addresses (bit 56 = 1) as they stand, stack memory, LPDDR-6 and host
space by physical address (R42 to R50). -/
abbrev Memory := List Host.Cell

/-- What an address that is not listed reads as (DESIGN CHOICE, log 4). -/
def Memory.unlisted : Byte := 0#8

/-- One byte of storage. -/
def Memory.get : Memory → Nat → Byte
  | [], _ => Memory.unlisted
  | (k, v) :: m, a => if k = a then v else Memory.get m a

/-- Writes one byte, keeping the canonical form. -/
def Memory.set : Memory → Nat → Byte → Memory
  | [], a, b => if b = Memory.unlisted then [] else [(a, b)]
  | (k, v) :: m, a, b =>
    if a < k then (if b = Memory.unlisted then (k, v) :: m else (a, b) :: (k, v) :: m)
    else if a = k then (if b = Memory.unlisted then m else (a, b) :: m)
    else (k, v) :: Memory.set m a b

/-- Every address of the list lies above `n`, the addresses rise strictly, and no entry is what an unlisted address reads as. -/
def Memory.above : Memory → Nat → Bool
  | [], _ => true
  | (k, v) :: m, n => decide (n ≤ k) && decide (v ≠ Memory.unlisted) && Memory.above m (k + 1)

/-- The canonical form of memory. -/
def Memory.wf (m : Memory) : Bool := Memory.above m 0

/-- Release sets of the reference machine, each with the party that released it and its scope as `party * 8 + scope` (R82). -/
abbrev Rels := List (Nat × List Nat)

/-! ## Who and where -/

/-- A context slot: the core's key (compute core n: n; memory core m: 1024 + m; monitor core k: 2048 + k) and the slot number. -/
structure SlotRef where
  core : Nat
  slot : Nat
  deriving DecidableEq, Repr

/-- The level at which a slot runs (R216). -/
inductive Level | u | s | m
  deriving DecidableEq, Repr

/-- The three states of a slot (R20). -/
inductive Occ | free | running | pinned
  deriving DecidableEq, Repr

/-- What the strand of a slot started from (R25, R389). -/
inductive Origin
  | firmware
  | launch (id ordinal : Nat)
  | record
  | task
  | message
  | fold (cluster dom : Nat) (key : Word) (holds : Bool)
  deriving DecidableEq, Repr

/-- A row that carries, beside its bits, the granule whose poison it met (R379): `none` when clean. -/
structure RowVal where
  bits : Row := 0#256
  poison : Option Nat := none
  deriving DecidableEq, Repr

/-- An asynchronous fault that waits for a boundary (R341): code, TVAL, whether an access of a trap handler caused it, and the replay
and body index of a body entry (R164), and the engine operation that it holds, or 0 (R374). -/
structure AFault where
  code : Nat
  tval : Word
  handler : Bool := false
  body : Option (Nat × Nat) := none
  op : Nat := 0
  deriving DecidableEq, Repr

/-- One position of the load-data queue: the flight that fills it, and the row once it has landed (R163). -/
structure LqPos where
  flight : Nat
  row : Option RowVal := none
  deriving DecidableEq, Repr

/-- A queued store address (R163). -/
structure SaPos where
  va : Word
  key : Nat
  flight : Nat
  deriving DecidableEq, Repr

/-- The trap registers of a slot (R331, R332). -/
structure TrapRegs where
  tpc : Word := 0#64
  tcause : Word := 0#64
  tval : Word := 0#64
  tinst : Word := 0#64
  tstat : Word := 0#64
  tsave : Word := 0#64
  deriving DecidableEq, Repr

/-- The fault that the last walk for this slot ended in, kept for the instruction that waits (R369). -/
structure WalkAnswer where
  page : Nat
  code : Nat
  tval : Word
  deriving DecidableEq, Repr

/-- What an entry that the sequencer has started has still to write (R261): rows by storage key, the park row that becomes full or empty (R269), rows pushed
on SQ, a scalar and whether it becomes full, flags and AMAX; and the tile banks that its L bit, or those of a whole VREP body, turn Off then (R72). -/
structure RowWrites where
  rows : List (Nat × Row) := []
  pk : Option (Nat × Bool) := none
  sq : List Row := []
  reg : Option (Reg × Word) := none
  full : Bool := true
  fl : BitVec 7 := 0#7
  amax : Nat := 0
  offs : List Nat := []
  deriving DecidableEq, Repr

/-- An instruction word in the vector sequencer with what it captured at issue (R162, R164); `inh` says that a trap handler issued it (R341). -/
structure SeqEntry where
  slot : Nat
  party : Nat
  instr : Instr
  word : BitVec 32 := 0#32
  scal : List Word := []
  frm : RMode := .rne
  ea : Option (Word × Nat) := none
  body : Option (Nat × Nat) := none
  last : Bool := true
  id : Nat := 0
  inh : Bool := false
  deriving DecidableEq, Repr

/-- A captured VREP body at the head of the sequencer (R164, R271): the words, replays left, the replay and entry now due, strides, and the tile
banks whose L bits the final replay has met so far (R358). -/
structure VBody where
  slot : Nat
  words : List SeqEntry
  count : Nat
  k : Nat
  e : Nat
  sd : Nat
  sa : Nat
  sb : Nat
  offs : List Nat := []
  deriving DecidableEq, Repr

/-- What stands in one place of the sequencer. -/
inductive SeqItem
  | one (e : SeqEntry)
  | rep (b : VBody)
  deriving DecidableEq, Repr

/-- A context slot (R20, R219 to R222, R331). `waits` marks the registers on which the instruction now at issue has waited, and `regRel`
what a register's value released when a deposit or a CBAR departure set it full, with the scope of its acquire (R94, R291). `drain` and
`dword` hold the instruction that drains the slot (R248), `parked` says that a pinned strand is suspended (R41), `halted` that a request has stopped it for a save (R166), `saving` that its save
has begun and its reads go to the quarantine buffer (R170), and `withdrawn` holds the sequencer
entries that the stop withdrew. `entry` says that no word of its trap handler has been fetched yet (R336), and `latch`
holds the words that have been fetched after their bank has woken, with their addresses (R347). `tookOp` is the engine operation whose trap is being
handled, 0 for none, and `took` the code of that trap (R374). `stepFrom` is the first number that belongs to the instruction of a single step (R178). -/
structure Slot where
  occ : Occ := .free
  frozen : Bool := false
  halted : Bool := false
  saving : Bool := false
  pc : Word := 0#64
  level : Level := .u
  ten : Nat := 0
  s : Vector Word 32 := Vector.replicate 32 0#64
  full : BitVec 32 := BitVec.allOnes 32
  wdef : Bool := false
  frm : BitVec 2 := 0#2
  fflags : BitVec 7 := 0#7
  amax : BitVec 31 := 0#31
  succ : Word := 0#64
  workid : Word := 0#64
  st : Word := 0#64
  recAddr : Word := 0#64
  tiles : List Nat := []
  sb : BitVec 48 := 0#48
  retired : Word := 0#64
  limit : Nat := 16
  unacc : Nat := 0
  trap : TrapRegs := {}
  mb : Vector Word 6 := Vector.replicate 6 0#64
  lq : List LqPos := []
  sq : List RowVal := []
  sa : List SaPos := []
  origin : Origin := .firmware
  succs : List Word := []
  armed : Bool := false
  stepDue : Bool := false
  stepFrom : Nat := 0
  pend : List AFault := []
  pre : Bool := false
  walk : Option WalkAnswer := none
  yielded : Bool := false
  drain : Option Instr := none
  dword : BitVec 32 := 0#32
  parked : Bool := false
  withdrawn : List SeqItem := []
  entry : Bool := false
  took : Nat := 0
  tookOp : Nat := 0
  latch : List (Word × BitVec 32) := []
  party : Nat := 0
  gbars : AMap Nat := []
  waits : BitVec 32 := 0#32
  regRel : AMap (Nat × List (Nat × List Nat)) := []
  deriving DecidableEq, Repr

/-- Banks kept in Retain for a suspended record or bound to a task (R27, R28). -/
structure Retained where
  handle : Word
  tiles : List Nat
  sb : BitVec 48
  ten : Nat
  queue : Nat
  deriving DecidableEq, Repr

/-- Parameter registers of an engine, by number; 0 where not listed (R223). -/
abbrev EpSet := AMap Word

/-- One operation of an engine queue: the entering slot and strand, its parameters, which rows are done and which 8-byte groups of the others,
whether a fault holds it (R87, R302, R374). `core` is the core that issued its EGO or TTQ, which a NaN names (R132). -/
structure EngOp where
  id : Nat
  who : SlotRef
  party : Nat
  ten : Nat
  level : Level
  queue : Nat
  eps : EpSet
  arg : Nat := 0
  done : Nat := 0
  parts : List Nat := []
  held : Bool := false
  started : Bool := false
  core : Nat := 0
  rel : List Nat := []
  deriving DecidableEq, Repr

/-- A line of the quarantine buffer (R170). -/
structure SeepLine where
  v : Bool := false
  landed : Bool := false
  kind : Nat := 0
  slot : Nat := 0
  dest : Word := 0#64
  data : Row := 0#256
  poison : Bool := false
  flight : Nat := 0
  deriving DecidableEq, Repr

/-- A forwarding entry (R173, R399): `sent` is what had been sent towards the old core at the move; a retired entry stands until the old
place is granted again. `dev` names another device to which the strand has moved; `backSb` and `backSlot` say which of the old banks, and whether the old
slot, have been granted again since. -/
structure Forward where
  ten : Nat := 0
  dev : Option Nat := none
  oldSlot : Nat
  newCore : Nat
  newSlot : Nat
  sb : BitVec 48
  moved : Nat
  used : Nat
  sent : Nat
  retired : Bool := false
  backSb : BitVec 48 := 0#48
  backSlot : Bool := false
  deriving DecidableEq, Repr

/-- A user-handler message in a queue (R192). -/
structure HMsg where
  ten : Nat
  prio : Nat
  stamp : Nat
  pc : Word
  src : Word
  args : List Word
  queue : Nat
  rel : Rels := []
  deriving DecidableEq, Repr

/-- What a run-list entry stands for (R155). -/
inductive Work
  | record (addr : Word)
  | task (addr : Word)
  | launch (id lo hi : Nat)
  | resume (slot : SlotRef)
  deriving DecidableEq, Repr

/-- A run-list entry (R34, R157): what, priority, arrival stamp, tenant, queue, the core where it must start (of a launch entry: the
target whose share it stands for), the release that its start acquires, the state word by which its grants are judged, and whether an uncorrectable
error lies in it (R387; DEDUCED, log 105). -/
structure RunEntry where
  work : Work
  prio : Nat
  stamp : Nat
  ten : Nat
  queue : Nat
  home : Option Nat := none
  rel : Rels := []
  st : Word := 0#64
  poison : Bool := false
  deriving DecidableEq, Repr

/-- A shadow task slot (R32): the words from +16 on, whether their granule was poisoned, whether the header breaks R30 (R386). -/
structure ShadowTask where
  handle : Word
  words : List Word
  poison : Bool := false
  bad : Bool := false
  deriving DecidableEq, Repr

/-- A core of any kind. `last` holds, by priority, the slot that issued last, `issuedAt` the cycle in which a slot last issued or since
which it waits (R22), `issued` the cycle in which the integer pipeline last issued (R162) and `ran` that in which the sequencer last started an entry (R261). `hints` waits at Waking banks (R68), `due` for the
end of the cycle (R72); `e0` and `e1` are the bank states as they stood at the end of the last cycle (R66), `kept` the Waking banks
whose wake is one from Retain (R372). `falls` holds the tasks whose COUNT has fallen to 1, each with the tenant of the DECR (R32). -/
structure Core where
  slots : Vector Slot 4 := Vector.replicate 4 {}
  b0 : Word := 0#64
  b1 : Word := 0#64
  e0 : Word := 0#64
  e1 : Word := 0#64
  kept : BitVec 64 := 0#64
  hints : List (Nat × Nat) := []
  due : List (Nat × Nat) := []
  last : AMap Nat := []
  issuedAt : AMap Nat := []
  issued : Option Nat := none
  ran : Option Nat := none
  retained : List Retained := []
  stopped : Bool := false
  freeze : Bool := false
  fenced : Bool := false
  seq : List SeqItem := []
  pk : Word := 0#64
  shadow : EpSet := []
  active : EpSet := []
  queue : List EngOp := []
  tasks : List ShadowTask := []
  falls : List (Word × Nat) := []
  inbound : List HMsg := []
  seep : AMap SeepLine := []
  forwards : List Forward := []
  sent : AMap Nat := []
  recv : AMap Nat := []
  runList : List RunEntry := []
  aged : Option RunEntry := none
  popped : Option Nat := none
  tvec : Word := 0#64
  deriving DecidableEq, Repr

/-- A running matrix operation: its operands' parameters are the active set; here its walk (R143, R144), and by row and column of the chunk the accumulators
that an uncorrectable error has poisoned (R379). -/
structure MatOp where
  op : EngOp
  recd : Option Word
  kprog : Nat := 0
  acc : List (List (BitVec 32)) := []
  iovf : Bool := false
  skipped : Bool := false
  failed : Bool := false
  bad : List (Nat × Nat) := []
  deriving DecidableEq, Repr

/-- One systolic array (R134, R147). -/
structure MArray where
  shadow : EpSet := []
  active : EpSet := []
  queue : List EngOp := []
  loaded : Option EngOp := none
  loadedRec : Option Word := none
  run : Option MatOp := none
  deriving DecidableEq, Repr

/-- An entry of the tile-task list (R145). -/
structure TileTask where
  addr : Word
  who : SlotRef
  core : Nat := 0
  party : Nat
  ten : Nat
  level : Level
  queue : Nat
  rel : List Nat := []
  deriving DecidableEq, Repr

/-- States of a fold entry (R96, R105). -/
inductive FState | waiting | claimed | heldWaiting
  deriving DecidableEq, Repr

/-- An entry of a fold store (R96). -/
structure FEntry where
  bank : Nat
  index : Nat
  key : Word
  dom : Nat
  val : BitVec 128 := 0#128
  st : FState := .waiting
  ovr : Bool := false
  nan : Bool := false
  logged : Bool := false
  posts : Nat := 0
  since : Nat := 0
  poison : Bool := false
  rel : List Nat := []
  deriving DecidableEq, Repr

/-- A record that has left a log at the end of a bank cycle, for the next fold stage (R110): 16 × tenant + domain, bank, key, value, release. -/
structure Refill where
  dom : Nat
  bank : Nat
  key : Word
  val : Word
  rel : List Nat
  deriving DecidableEq, Repr

/-- A firing of a completion action that is still to be performed (R111): QSTAT, LOG, COMPL and QUEUE as they stood at the quiescent instant, and what it
releases. -/
structure Firing where
  qstat : Word
  log : Word
  compl : Word
  queue : Nat
  rel : List Nat
  deriving DecidableEq, Repr

/-- A fold domain as one fold store holds it (R97, R98, R104, R109 to R113). `keyRel` holds what the end of a key's hold released (R91),
`failed` that a poisoned entry stopped its completion action (R384), `offered` the cycle of its last offer, `taken` the offer that a core's slot has
taken in cycle `takenAt` (R103), and `firings` the completion actions that are owed. -/
structure FDomain where
  dctl : Word := 0#64
  hpc : Word := 0#64
  log : Word := 0#64
  compl : Word := 0#64
  ovr : Bool := false
  approx : Bool := false
  nane : Bool := false
  seq : Nat := 0
  claims : Nat := 0
  lfsr : BitVec 32 := 0#32
  hrun : Nat := 0
  head : Nat := 0
  tail : Nat := 0
  shift : Nat := 0
  posted : Bool := false
  fired : Nat := 0
  offer : Option (Word × Nat) := none
  offered : Option Nat := none
  taken : Option (Word × Nat × Nat) := none
  takenAt : Nat := 0
  logRel : List (List Nat) := []
  rel : List Nat := []
  keyRel : AMap (List Nat) := []
  failed : Bool := false
  firings : List Firing := []
  launches : List Nat := []
  deriving DecidableEq, Repr

/-- A TLB entry: tenant, base VA, log2 of the page size, physical base, the leaf's U X W R bits (R58). -/
structure TlbEntry where
  ten : Nat
  va : Nat
  lg : Nat
  pa : Nat
  u : Bool
  x : Bool
  w : Bool
  r : Bool
  deriving DecidableEq, Repr

/-- Where a cluster's steal stands (R161), and for which tenant it asks. -/
structure StealState where
  idleSince : Option Nat := none
  ten : Nat := 0
  asked : Nat := 0
  waiting : Option Nat := none
  shipped : Option RunEntry := none
  answered : Bool := false
  backoff : Option Nat := none
  deriving DecidableEq, Repr

/-- Where a result goes. -/
inductive Dest
  | none
  | reg (r : Reg)
  | lq
  | row (n : RowName)
  deriving DecidableEq, Repr

/-- A stamped store (R196): its number, its sender, offset, length and data, and what its release holds. -/
structure Stamped where
  n : Nat
  src : Word := 0#64
  off : Nat
  len : Nat
  data : List Byte
  rel : List Nat := []
  deriving DecidableEq, Repr

/-- An operation under way: what is still to be performed, or a result still to land (R76, R85, R219). `unit` is an access of an engine, and `fetch` that
of a slot to its next word, which a Waking bank holds (R68); `halted` is the end of a strand for its launch or its fold domain, once its earlier entries
are performed (R82). -/
inductive Act
  | result (d : Dest) (v : Row) (poison : Option Nat) (acq : List Nat)
  | rows (o : RowWrites)
  | load (d : Dest) (va : Word) (key size : Nat) (signed acq : Bool) (hint : Hint)
  | store (va : Word) (key : Nat) (data : List Byte) (o : Ordering2) (hint : Hint)
  | atomic (d : Dest) (op : Nat) (dbl : Bool) (va : Word) (key : Nat) (x c : Word) (o : Ordering2)
  | decr (d : Dest) (cell amount : Word)
  | taskq (handle : Word)
  | await (cell : Word) (recd : Word) (entry : RunEntry)
  | bind (handle : Word) (held : Word)
  | cbar (d : Dest) (cell : Word) (n : Nat)
  | cbarWait (d : Dest) (cell : Word) (gen : Word) (acq : List Nat)
  | post (d : Dest) (dom : Nat) (key value : Word) (reply : Option Word) (cluster : Nat)
  | send (words : List Word)
  | ack
  | mcst (d : Dest) (group off len : Nat) (data : List Byte)
  | stampReturn (d : Dest) (g n : Nat)
  | stamped (group : Nat) (st : Stamped)
  | enqueue (e : RunEntry) (cluster : Nat)
  | engine (q : EngQueue) (op : EngOp)
  | marker (q : EngQueue) (fence : Nat)
  | lnch (d : Dest) (header : Word) (words : List Word) (bad : Option (Nat × Word))
  | ctxsave (d : Dest) (target : SlotRef) (image : Word)
  | migr (d : Dest) (src : SlotRef) (core dev : Nat)
  | coreStop (vf : Nat) (resume freeze : Bool) (recd : Word) (cores : List Nat)
  | gstop (d : Dest) (n : Nat) (stopIds : List Nat)
  | copyRead (core op part : Nat) (dst : Word) (key : Nat) (poison : List Nat) (last : Bool)
  | halted (o : Origin)
  | unit (q : EngQueue) (part key : Nat)
  | fetch (pc : Word) (key : Nat)
  deriving DecidableEq, Repr

/-- A packet on its way through the mesh (R179 to R183): the router where it is, the router that it came from (64: injected there), where it is bound,
the column of its injection, its class, channel and order, and its flits, header included. -/
structure Hop where
  at_ : Nat
  from_ : Nat := 64
  dst : Nat
  sx : Nat
  cls : Nat
  ch : Nat
  ord : Bool
  flits : Nat
  deriving DecidableEq, Repr

/-- An operation under way with its issuer; `pkt` is the packet that brought it from another device. `reached` holds the cycle in which it
reached its unit and its place among all arrivals (R60, R68), `view` the writes that it will read when its bank has woken (R80), `parts` and
`gather` which atomic groups of it are done and what they read (R78), `landing` that its deposit lands at the end of this cycle (R63), `hop` its packet while the mesh carries it, `reply`
that it is the deposit of a built-in's reply (R191), `packet` that its cell is that of a task packet (R28), `late` that its sender has timed out (R397), `outlived` that its strand has been saved since it was
sent (R168), and `owed`, for a response under way, the TVAL and the limit of its operation's timeout (R397). -/
structure Flight where
  id : Nat
  who : SlotRef
  party : Nat
  ten : Nat
  level : Level
  queue : Nat
  born : Nat
  inh : Bool := false
  act : Act
  rel : List Nat := []
  seep : Option Nat := none
  ready : Bool := true
  pkt : Option Packet := none
  reached : Option (Nat × Nat) := none
  view : List Nat := []
  parts : List Nat := []
  gather : Row := 0#256
  landing : Bool := false
  hop : Option Hop := none
  reply : Bool := false
  late : Bool := false
  outlived : Bool := false
  packet : Bool := false
  owed : Option (Word × Nat) := none
  deriving DecidableEq, Repr

/-- A deposit that lands at the end of this cycle (R62, R63): the flight or engine operation that makes it, the party, its place in the order
of R60 steps 2 to 4, where it goes, what it releases, and which of its granules are poisoned (R379). -/
structure Deposit where
  op : Nat
  party : Nat
  ten : Nat
  rank : Nat
  key : Nat
  data : List Byte
  rels : Rels := []
  bad : List Nat := []
  deriving DecidableEq, Repr

/-- A QFENCE under way (R88): markers that have not yet arrived, the operations that arrived before them in the named queues and are not complete,
and what those that are have released. -/
structure QFence where
  id : Nat
  left : Nat
  waits : List Nat := []
  rel : List Nat := []
  deriving DecidableEq, Repr

/-- What goes with a save image beside its bytes (R168, R171): the layout has no place for the tenant, the level, what the strand started
from, its group barriers, its successors, its pin, its faults that are still to be taken, its party of the reference machine, which of its
operations a fault holds and the trap of which one is being handled, and at a slice boundary whether it is frozen or stopped (DESIGN CHOICE, log 26). -/
structure ImageTag where
  ten : Nat
  level : Level
  origin : Origin
  gbars : AMap Nat := []
  succs : List Word := []
  pinned : Bool := false
  parked : Bool := false
  recAddr : Word := 0#64
  pend : List AFault := []
  armed : Bool := false
  stepDue : Bool := false
  pre : Bool := false
  party : Nat := 0
  took : Nat := 0
  tookOp : Nat := 0
  held : List Bool := []
  copyIds : List Nat := []
  frozen : Bool := false
  halted : Bool := false
  deriving DecidableEq, Repr

/-- A slot saved at a slice boundary as CTXSAVE saves it (R154, R168): its place, the bytes of its image, which of them are poisoned, and its tag. -/
structure SavedSlot where
  at_ : SlotRef
  bytes : List Byte
  poison : List Nat := []
  tag : ImageTag
  deriving DecidableEq, Repr

/-- A tenant's state saved at a slice boundary (R154): its slots, fold entries and the arrays. R154 gives the area in stack memory no address, so that it
stands here (DEDUCED, log 50). -/
structure Slice where
  ten : Nat
  slots : List SavedSlot := []
  folds : List FEntry := []
  arrays : Vector MArray 2 := Vector.replicate 2 {}
  deriving DecidableEq, Repr

/-- A cluster's shared units. `popped` holds the cycle of the last pop (R158), `folded` that whose fold stage is over (R89, R103), `leaving` the tenant whose slice has ended and whose slots are being
saved (R154). -/
structure Cluster where
  banks : List (List RunEntry) := List.replicate 8 []
  count : Nat := 0
  overflow : List RunEntry := []
  lfsr : BitVec 32 := 0#32
  seeded : Bool := false
  popped : Option Nat := none
  arrays : Vector MArray 2 := Vector.replicate 2 {}
  tileTasks : List TileTask := []
  folds : List FEntry := []
  refills : List Refill := []
  folded : Option Nat := none
  doms : AMap FDomain := []
  fstage : EpSet := []
  fqueue : List EngOp := []
  tshadow : EpSet := []
  tactive : EpSet := []
  tqueue : List EngOp := []
  tlb : List TlbEntry := []
  under : AMap Nat := []
  share : List Nat := []
  turn : Nat := 0
  sliceStart : Nat := 0
  leaving : Option Nat := none
  saved : List Slice := []
  steal : StealState := {}
  deriving DecidableEq, Repr

/-- A host queue's register block (R149). `wstart` and `wstep` time its oldest launch, and `fences` the kills whose FENCE step is still to come, each with
its cycle and the launches that it killed (R165). -/
structure HQueue where
  base : Word := 0#64
  cfg : Word := 0#64
  wp : Nat := 0
  rp : Nat := 0
  wdog : Word := 0#64
  approx : Bool := false
  done : Nat := 0
  wstart : Nat := 0
  wstep : Nat := 0
  fences : List (Nat × List Nat) := []
  deriving DecidableEq, Repr

/-- A header in the header buffer (R150), with the place of its arrival among all (R156). -/
structure Header where
  queue : Nat
  words : List Word
  arrived : Nat := 0
  deriving DecidableEq, Repr

/-- States of TNSTATE.ST (R200). -/
inductive TenState | free | assigned | locked | run | scrub
  deriving DecidableEq, Repr

/-- TDISP states (R204). -/
inductive TdiState | unlocked | locked | run | error
  deriving DecidableEq, Repr

/-- A unit of what a scrub has to clear (R307, R317, R411); `done` counts the chunks of a fold store or of matrix storage that have left
quarantine. -/
inductive Quar
  | scratch (core : Nat) (mask : BitVec 48)
  | priv (core : Nat)
  | fold (cluster done : Nat)
  | matrix (cluster done : Nat)
  | pa (base len : Nat)
  | key (slot : Nat)
  deriving DecidableEq, Repr

/-- A tenant: VF v at key v; key 0 is level M (R202). -/
structure Tenant where
  st : TenState := .free
  tdi : TdiState := .unlocked
  pairs : BitVec 512 := 0#512
  scr : AMap (BitVec 48) := []
  matrix : BitVec 64 := 0#64
  fold : BitVec 64 := 0#64
  mwin : List Word := List.replicate 8 0#64
  ptroot : Word := 0#64
  mspill : Word := 0#64
  tvec : Word := 0#64
  flog : Word := 0#64
  kslot : Nat := 0
  seq : Nat := 0
  queues : AMap HQueue := []
  nq : Nat := 0
  pwgt0 : Word := 0x0101_0101_0101_0101#64
  pwgt1 : Word := 0x0101_0101_0101_0101#64
  credit : AMap Nat := []
  hbuf : List Header := []
  served : Bool := true
  flags : BitVec 4 := 0#4
  slice : Nat := 10
  spill : AMap (List HMsg) := []
  spillHead : AMap Nat := []
  quar : List Quar := []
  stoppedCores : List Nat := []
  descr : List Byte := []
  deriving DecidableEq, Repr

/-- A launch in progress (R35 to R41, R151, R165). `queue` is the one that its state word charges, `ring` the host queue whose ring it came from. `recs` names the records of its suspended strands with their ordinals and the
occurrences of their group barriers; `barriers` holds level, group, occurrence and the arrived records with their run lists, `haltRel`
by ordinal the parties of its halted strands and what they have released, and `arrived` the place of its arrival among all (R156). -/
structure Launch where
  id : Nat
  ten : Nat
  queue : Nat
  ring : Option Nat := none
  words : List Word
  total : Nat
  halted : Nat := 0
  perTarget : AMap Nat := []
  haltedOn : AMap Nat := []
  undealt : List Nat := []
  admitted : Bool := true
  accepted : Nat := 0
  approx : Bool := false
  barriers : List (Nat × Nat × Nat × List (RunEntry × Nat)) := []
  recs : List (Nat × Nat × AMap Nat) := []
  haltedOrd : List Nat := []
  haltRel : List (Nat × Nat × List Nat) := []
  arrived : Nat := 0
  rel : List Nat := []
  deriving DecidableEq, Repr

/-- A table walk under way, or one that waits for a free walker of its die (R58, R369): the slots that wait for it, the clusters in whose TLBs they
look, and the engines and built-ins, by number. -/
structure Walk where
  id : Nat
  cluster : Nat
  die : Nat := 0
  ten : Nat
  level : Level
  page : Nat
  root : Word
  waiters : List SlotRef
  units : List (Nat × Nat) := []
  kind : Nat
  pref : Bool := false
  dead : Bool := false
  deriving DecidableEq, Repr

/-- A write to one granule that the reference machine has performed (R79): its place in the home sequence is its place in the list (DESIGN
CHOICE, log 6). Writes that were performed as one step have one `step` (R80). -/
structure WriteRec where
  id : Nat
  step : Nat
  addr : Nat
  bytes : List Byte
  pre : List Byte
  party : Nat
  before : List Nat
  rel : Rels
  deriving DecidableEq, Repr

/-- What a party of the reference machine holds (R77): its floors, as the numbers of the writes in them (each is a write to one granule, so
that the list holds one set for each granule), the release sets it has read without acquiring, what a FENCE puts on its later writes, and by
engine queue what the completions of its operations have released (R83). -/
structure Party where
  floor : List Nat := []
  pend : Rels := []
  home : Option Nat := none
  slot : Nat := 0
  fence : Rels := []
  eng : AMap (List Nat) := []
  deriving DecidableEq, Repr

/-- A multicast group as this device holds it (R194 to R197, R400 to R403): its entry, the last number stamped here, GAPPLY, the reorder
window, the members' reports, G, the stores that the Sluice keeps, resend requests, and whether this member is lost. Numbers count on past the
48 bits of a sequence number (R197). `applied` counts the applications since the last report; `mine` holds what senders of this device released in
stores that another device has stamped, by number, and `matched` the MCSTs still under way whose stores this device has applied (R93). The model's
clocks of R197 and R400 to R402: when this member last reported, when the Sluice last told G, when it last heard each member, when G was last heard
of, and since when a store is lacking. `cutting`: the new Sluice stamps nothing until it has the h of every survivor, in `hs` (R402). -/
structure Group where
  entry : GroupEntry := {}
  stamp : Nat := 0
  gapply : Nat := 0
  window : List Stamped := []
  reports : AMap Nat := []
  g : Nat := 0
  kept : List Stamped := []
  requests : Nat := 0
  lost : Bool := false
  applied : Nat := 0
  mine : AMap (List Nat) := []
  matched : List Nat := []
  reported : Nat := 0
  told : Nat := 0
  heard : AMap Nat := []
  heardG : Nat := 0
  lackSince : Nat := 0
  hs : AMap Nat := []
  cutting : Bool := false
  deriving DecidableEq, Repr

/-- State of a Delmel port (R17, R393). -/
inductive PortState | wide | narrow | down
  deriving DecidableEq, Repr

/-- A key slot (R205, R315, R415): its generation names the key pair. -/
inductive KeyState | zero | loaded | lost
  deriving DecidableEq, Repr

/-- A key slot with the number of the key pair it holds. -/
structure KeySlot where
  st : KeyState := .zero
  gen : Nat := 0
  deriving DecidableEq, Repr

/-- A scrub job of the list (R307). -/
structure ScrubJob where
  base : Word
  desc : Word
  deriving DecidableEq, Repr

/-- The scrub journal and SCRPOS (R411, R412). `cold`: the pass is that of a cold reset, over everything (R414); `bootTens` names the tenants
whose resources a BOOT pass after a warm reset scrubs, `bootNext` those that wait for one (R413), `failed` and
`failedCh` the clusters and channels out of service. -/
structure Journal where
  run : Bool := false
  rsm : Bool := false
  boot : Bool := false
  vf : Nat := 0
  job : Nat := 0
  chunk : Nat := 0
  jobs : List ScrubJob := []
  cold : Bool := false
  bootTens : List Nat := []
  bootNext : List Nat := []
  failed : List Nat := []
  failedCh : List Nat := []
  deriving DecidableEq, Repr

/-- SPDM of a function (R207, R409): how far its requests have come, its session, the session's number, and whether IDE_KM has set keys in it. -/
structure Spdm where
  stage : Nat := 0
  session : Bool := false
  established : Bool := false
  id : Nat := 0
  ide : Bool := false
  deriving DecidableEq, Repr

/-- A fault report record (R340), by its fields. -/
structure Report where
  ten : Nat
  cause : Word
  tval : Word
  tpc : Word := 0#64
  tstat : Word := 0#64
  tinst : Word := 0#64
  ocause : Nat := 0
  src : Word := 0#64
  cycle : Word := 0#64
  killed : Bool := false
  fenced : Bool := false
  stopped : Bool := false
  logfail : Bool := false
  seq : Nat := 0
  queue : Nat := 0
  deriving DecidableEq, Repr

/-- A record of the management log (R396). -/
structure MgmtRec where
  kind : Nat
  dev : Nat := 0
  drops : Word := 0#64
  pos : Nat := 0
  port : Nat := 0
  vc : Nat := 0
  cycle : Word := 0#64
  src : Word := 0#64
  deriving DecidableEq, Repr

/-- What the device has sent to the world outside: MSI-X messages, MBOX and DOE answers, memory requests under the requester ID of a VF (R198), packets
over Delmel, and what MIGR sends to another device: an image, and by address the accesses that follow it (DESIGN CHOICE, log 16). -/
inductive Out
  | msix (vf vec : Nat)
  | mbox (status : Nat) (words : List Nat)
  | spdm (fn : Nat) (error : Option Nat)
  | report (fn : Nat) (bytes : List Byte)
  | measurement (fn index : Nat) (digest : BitVec 384)
  | completion (vf : Nat) (unsupported : Bool)
  | host (vf : Nat) (write : Bool) (addr len : Nat)
  | image (dev core : Nat) (bytes : List Byte)
  | forwarded (dev addr : Nat)
  | packet (port : Nat) (p : Packet)
  | frame (port : Nat) (ok : Bool)
  deriving DecidableEq, Repr

/-- Lifetime counters, which for a cluster or channel are kept by its physical number (R14), the retirement record as kind and unit (0 a physical
cluster, 1 a mesh link, 2 a physical channel, 3 four lanes of a port, 4 a port), the ports that were weak and the channels that did not train at the last boot, and the fused security version (R206, R416, R417). -/
structure Life where
  counters : AMap Nat := []
  retired : List (Nat × Nat) := []
  weakPorts : List Nat := []
  untrained : List Nat := []
  secver : Nat := 0
  deriving DecidableEq, Repr

/-- One turn of the machine: a slot issues, an event of the device takes place, or time passes (log 2, DESIGN CHOICE, log 3). `issueAt` and
`eventAt` say which writes the reads of the turn see (R80), and `eventAt` which part of a wide operation is performed (R78). -/
inductive Turn
  | issue (at_ : SlotRef)
  | issueAt (at_ : SlotRef) (view : List Nat)
  | event (i : Instr)
  | eventAt (i : Instr) (view : List Nat) (part : Nat)
  | tick (n : Nat)
  deriving DecidableEq, Repr

/-- Why the machine stops. -/
inductive Fault where
  /-- Raised by `step` when the part is in recovery (R206): the monitor cores are stopped and only RECOVERY_IMAGE_PUSH and resets
  act. Safe: the manual lets nothing else happen. -/
  | recovery
  deriving DecidableEq, Repr

/-- What has no meaning in the model. -/
inductive Refusal where
  /-- Raised by an arm of `exec` for an instruction that is not modelled. Safe: nothing is claimed of it. -/
  | notModelled (mnemonic : String)
  deriving DecidableEq, Repr

/-- The whole device. `agenda` says which turns come next and `rota` counts those that the machine has chosen itself (DESIGN CHOICE, log 2); `cur` is the slot
that issues, `ir` its word, and `fresh` the next number of an operation, write, party or key pair. `view` and `part` belong to the turn
that runs: the writes that its reads see, 0 standing for all of W(u) (R80), and the part that it performs, 0 standing for every one (R78). `accepted` holds the cycle in which the arbiter last accepted a launch (R153). `deposits` land
at the end of the cycle (R63), `firmware` is the image in module flash (R206), `boot` what the last boot has found, `seats` the physical cluster at each populated position and `chans` the
physical channel behind each logical one (R11, R12), `mboxFree` the VF whose FREE request waits for its answer (R201), `stopArea` the stop records that go to
the monitor (R339), `servedAt` holds the locations at which an atomic unit has performed a request in this cycle (R60), and the place of the Sluice
when it has stamped in it (R196), `answers` by engine or built-in the fault in which the walk that it waited for has ended (R369), `badFrames` by Delmel port how
often in a row its frame has failed (R392), and `qfences` the QFENCEs under way (R88). -/
structure State where
  mem : Memory := []
  poison : List Nat := []
  keyTags : AMap Nat := []
  cores : AMap Core := []
  clusters : AMap Cluster := []
  tenants : AMap Tenant := []
  keys : AMap KeySlot := []
  capunits : Word := 0x0002_0090_0480_2040#64
  capmesh : Word := 0x0000_0008_0808_0820#64
  capfab : Word := 0x0000_FFFF_FFFF_1010#64
  capmap : Word := 0xFFFF_FFFF_FFFF_FFFF#64
  devloc : Word := 0#64
  cycle : Nat := 0
  launches : List Launch := []
  flights : List Flight := []
  deposits : List Deposit := []
  servedAt : List (Nat × Nat) := []
  qfences : List QFence := []
  walks : List Walk := []
  answers : AMap WalkAnswer := []
  writes : List WriteRec := []
  parties : AMap Party := []
  images : AMap ImageTag := []
  groups : AMap Group := []
  routes : AMap Route := []
  stitched : List Region := []
  unstitch : List Region := []
  ports : AMap PortState := []
  badFrames : AMap Nat := []
  dropped : AMap Nat := []
  mlog : List MgmtRec := []
  life : Life := {}
  firmware : FirmwareImage := {}
  boot : BootReport := {}
  seats : AMap Nat := fullSeats
  chans : List Nat := List.range 32
  journal : Journal := {}
  spdm : AMap Spdm := []
  pwrcap : Nat := 1250
  mbox : AMap Word := []
  mboxFree : Option Nat := none
  stopArea : AMap (List Byte) := []
  reports : List Report := []
  out : List Out := []
  lastVf : Nat := 0
  accepted : Option Nat := none
  recovery : Bool := false
  agenda : List Turn := []
  rota : Nat := 0
  view : List Nat := [0]
  part : Nat := 0
  cur : SlotRef := ⟨2048, 0⟩
  ir : BitVec 32 := 0#32
  fresh : Nat := 1
  deriving DecidableEq, Repr

/-- The PC of the monitor cores at reset (DESIGN CHOICE, log 1). -/
def resetPc : Word := 0x0000_0000_0001_0000#64

/-- Monitor core `k` after reset: its slot runs firmware at level M (R206 step 4, DESIGN CHOICE, log 1), as party `k + 1` of the reference machine. -/
def Core.monitorReset (k : Nat) : Core :=
  { slots := (Vector.replicate 4 ({ level := .m } : Slot)).set 0 { level := .m, occ := .running, pc := resetPc, party := k + 1 } }

/-- The four monitor cores after reset (R8, R206) (DEDUCED, log 23). -/
def monitorCores : AMap Core := (List.range 4).map fun k => (2048 + k, Core.monitorReset k)

/-- Their parties. -/
def monitorParties : AMap Party := (List.range 4).map fun k => (k + 1, { home := some (2048 + k) })

/-- Key slots after step 3 of R206: 0 to 15 loaded, 16 to 79 zero. -/
def resetKeys : AMap KeySlot := (List.range 16).map fun k => (k, { st := .loaded, gen := k + 1 })

/-- The machine right after a cold reset: the BOOT pass of R414 begins (DESIGN CHOICE, log 5). -/
def State.reset : State :=
  { cores := monitorCores, parties := monitorParties, keys := resetKeys, journal := { run := true, boot := true, cold := true }, fresh := 17 }

end Sys2Proof.Machine
end

