-- ==== Sys2Proof/Machine/Mesh.lean ====
section
/-! DEFINITION. Routes: the mesh (R179, R182, R183), stitched regions (R189), and the torus of the Delmel fabric (R187), on positions and
coordinates alone. -/

namespace Sys2Proof.Machine

/-! ## The mesh (R179, R182, R183) -/

/-- Column of a router position (R179). -/
def meshX (p : Nat) : Nat := p % 8
/-- Row of a router position. -/
def meshY (p : Nat) : Nat := p / 8

/-- The mesh ports of a router, and that to what sits at it (R179). -/
inductive MeshPort | n | e | s | w | here
  deriving DecidableEq, Repr

/-- The router at the other end of a port's link. -/
def MeshPort.next (p : Nat) : MeshPort → Nat
  | .n => p - 8
  | .e => p + 1
  | .s => p + 8
  | .w => p - 1
  | .here => p

/-- Is the port horizontal? -/
def MeshPort.horizontal : MeshPort → Bool
  | .e => true
  | .w => true
  | _ => false

/-- The legal output ports of the odd-even turn model (R182), at (cx, cy) for a packet injected at column sx and bound for (dx, dy). -/
def oddEven (sx cx cy dx dy : Nat) : List MeshPort :=
  let v : MeshPort := if cy < dy then .s else .n
  if dx = cx then (if dy = cy then [.here] else [v])
  else if cx < dx then
    if dy = cy then [.e]
    else (if cx % 2 = 1 ∨ cx = sx then [v] else []) ++ (if dx % 2 = 1 ∨ dx ≠ cx + 1 then [.e] else [])
  else [.w] ++ (if dy ≠ cy ∧ cx % 2 = 0 then [v] else [])

/-- The better of two legal ports (R182): more free buffers downstream, and the horizontal one when they tie. -/
def betterPort (free : MeshPort → Nat) (a b : MeshPort) : MeshPort :=
  if free a < free b || (free a = free b && b.horizontal) then b else a

/-- The port that adaptive routing takes (R182). -/
def adaptivePort (free : MeshPort → Nat) : List MeshPort → MeshPort
  | [] => .here
  | [a] => a
  | a :: l => betterPort free a (adaptivePort free l)

/-- The port of dimension order (R183): along the row first. -/
def xyPort (cx cy dx dy : Nat) : MeshPort :=
  if cx < dx then .e else if dx < cx then .w else if cy < dy then .s else if dy < cy then .n else .here

/-! ## Stitched regions (R189) -/

end Sys2Proof.Machine

namespace Sys2Proof

/-- Does a region hold a router position? -/
def Region.holds (r : Region) (p : Nat) : Bool :=
  decide (r.row ≤ p / 8) && decide (p / 8 < r.row + r.rows) && decide (r.col ≤ p % 8) && decide (p % 8 < r.col + r.cols)

/-- Do two regions share a router position? -/
def Region.meets (a b : Region) : Bool :=
  decide (a.row < b.row + b.rows) && decide (b.row < a.row + a.rows) && decide (a.col < b.col + b.cols) && decide (b.col < a.col + a.cols)

/-- Position `i` of a region in serpentine order. -/
def Region.serp (r : Region) (i : Nat) : Nat :=
  let y := i / r.cols
  (r.row + y) * 8 + r.col + (if y % 2 = 0 then i % r.cols else r.cols - 1 - i % r.cols)

/-- The place of a position in serpentine order. -/
def Region.place (r : Region) (p : Nat) : Nat :=
  let y := p / 8 - r.row
  let x := p % 8 - r.col
  y * r.cols + (if y % 2 = 0 then x else r.cols - 1 - x)

/-- The places above a place of the tree, itself first. -/
def treeAbove : Nat → Nat → List Nat
  | 0, i => [i]
  | f + 1, i => if i = 0 then [0] else i :: treeAbove f ((i - 1) / 2)

/-- The next place on the way from `i` to `j` of the tree: down to the child that leads to `j`, or up. -/
def treeNext (i j : Nat) : Nat :=
  let up := treeAbove 8 j
  if up.contains i then (up.find? fun c => c != 0 && (c - 1) / 2 == i).getD i else (i - 1) / 2

/-- A step round a closed line of `n` places from `c` towards `d`, the shorter way, ties positive; and whether it uses the link that closes the line. -/
def ringStep (n c d : Nat) : Nat × Bool :=
  let fwd := (d + n - c) % n
  if fwd ≤ n - fwd then ((c + 1) % n, c + 1 == n) else ((c + n - 1) % n, c == 0)

/-- The next router of a packet within a stitched region, and its channel (R189); `from_` is the router that it came from. -/
def Region.next (r : Region) (p from_ dst ch : Nat) : Nat × Nat :=
  match r.shape with
  | .ring =>
    let n := r.rows * r.cols
    let i := r.place p
    (r.serp ((i + 1) % n), if i + 1 = n then 1 else ch)
  | .tree => (r.serp (treeNext (r.place p) (r.place dst)), 0)
  | .torus =>
    if p % 8 ≠ dst % 8 then
      let (x, w) := ringStep r.cols (p % 8 - r.col) (dst % 8 - r.col)
      (p / 8 * 8 + r.col + x, if w then 1 else ch)
    else
      let (y, w) := ringStep r.rows (p / 8 - r.row) (dst / 8 - r.row)
      ((r.row + y) * 8 + p % 8, if w then 1 else if from_ / 8 = p / 8 then 0 else ch)

end Sys2Proof

namespace Sys2Proof.Machine

/-! ## The torus (R187) -/

/-- The dimension that a packet corrects, and its extent, its coordinate and that of its target there: x, then y, then z; none when it is there. -/
def torusDim : List (Nat × Nat × Nat) → Nat → Option (Nat × Nat × Nat × Nat)
  | [], _ => none
  | (n, c, t) :: l, d => if c = t then torusDim l (d + 1) else some (d, n, c, t)

/-- Is the negative direction the shorter way round? Ties go positive. -/
def torusNegative (n c t : Nat) : Bool := decide (n - (t + n - c) % n < (t + n - c) % n)

/-- Does a step in a direction from a coordinate cross the dateline link of its dimension: from the last coordinate to 0, or from 0 to the last? -/
def crossesDateline (n c : Nat) (negative : Bool) : Bool := if negative then c == 0 else c + 1 == n

/-- The two parallel ports of a direction (R187). -/
def torusPorts (d : Nat) (negative : Bool) : List Nat := [4 * d + (if negative then 2 else 0), 4 * d + (if negative then 2 else 0) + 1]

end Sys2Proof.Machine
end

