-- ==== Sys2Proof/Machine/Ops.lean ====
section
/-! DEFINITION. The named operations over registers, memory, banks, the reference machine and the queues, and taking a trap. -/

namespace Sys2Proof.Machine

open Host

/-- The outcome of a step of this machine. -/
abbrev Out1 := Outcome State Fault Refusal

/-! ## Fields of words -/

/-- Bits `h` to `l` of a word as a number (R6). -/
def fld (w : Word) (h l : Nat) : Nat := bits w.toNat h l

/-- Bit `n` of a word. -/
def bit (w : Word) (n : Nat) : Bool := bitOf w.toNat n

/-- A word with bits `h` to `l` replaced. -/
def setFld (w : Word) (h l v : Nat) : Word :=
  BitVec.ofNat 64 (w.toNat - bits w.toNat h l * 2 ^ l + v % 2 ^ (h + 1 - l) * 2 ^ l)

/-- A number as a word. -/
def wd (n : Nat) : Word := BitVec.ofNat 64 n

/-- A word without its reserved fields, which read as zero (R4): the bits from `h` to `l` of each pair are kept. -/
def keepFields (w : Word) (fs : List (Nat × Nat)) : Word := fs.foldl (fun a f => a ||| wd (fld w f.1 f.2 * 2 ^ f.2)) 0#64

/-- A state word without its reserved bits 20:0 (R4, R24). -/
def stateWord (w : Word) : Word := keepFields w [(63, 21)]

/-- The fields of word `w` of a tile-task record, which EP(16a + w) of MATRIX holds (R141, R142, R147). -/
def recordFields : Nat → List (Nat × Nat)
  | 0 => [(63, 61), (56, 0)]
  | 2 => [(63, 61), (56, 0)]
  | 4 => [(63, 61), (56, 0)]
  | 1 => [(47, 0)]
  | 3 => [(47, 0)]
  | 5 => [(47, 0)]
  | 6 => [(55, 0)]
  | 7 => [(17, 10), (8, 0)]
  | 11 => [(56, 4)]
  | 12 => [(31, 0)]
  | 13 => [(31, 0)]
  | 15 => [(63, 60), (47, 0)]
  | _ => [(63, 0)]

/-- The fields of a parameter register of an engine code (R223): COPY (R305), MATRIX (R147), FOLD (R97), TASK (R306), STREAM (R52), SCRUB (R307). -/
def epFields : Nat → Nat → List (Nat × Nat)
  | 0, n => ([[(56, 0)], [(56, 0)], [(47, 0)], [(47, 0)], [(47, 0)], [(8, 8), (2, 0)], [(56, 4)], [(31, 0)]] : List (List (Nat × Nat))).getD n []
  | 1, n => if n < 32 then recordFields (n % 16) else []
  | 2, n => ([[(63, 1)], [(56, 2)], [(56, 12), (4, 0)], [(56, 4)]] : List (List (Nat × Nat))).getD (n % 4) []
  | 3, n => ([[(56, 3)], [(16, 0)], [(56, 4)]] : List (List (Nat × Nat))).getD n []
  | 4, n => ([[(56, 0)], [(56, 0)], [(47, 0)], [(47, 0)], [(47, 0)], [(2, 0)], [(56, 0)]] : List (List (Nat × Nat))).getD n []
  | _, n => if n % 2 = 0 then [(63, 0)] else [(63, 60), (47, 0)]

/-- What a parameter register of an engine code holds after a write: a reserved field reads as zero (R4). -/
def epMask (eng n : Nat) (v : Word) : Word := keepFields v (epFields eng n)

/-- What a shadow register holds for the check of EGO: of SRC and DST of a copy or a stream bits 63:57 too, which R365 refuses when they are not zero
and which read as zero (R4) (DEDUCED, log 106). -/
def epHold (eng n : Nat) (v : Word) : Word := keepFields v (epFields eng n ++ (if (eng == 0 || eng == 4) && n < 2 then [(63, 57)] else []))

/-- What message register m`n` holds after a write (R4, R190). -/
def mbMask (n : Nat) (v : Word) : Word :=
  keepFields v (match n with | 0 => [(63, 58), (56, 0)] | 1 => [(63, 50), (47, 0)] | _ => [(63, 0)])

/-- Little-endian value of bytes (R2). -/
def leNat : List Byte → Nat
  | [] => 0
  | b :: bs => b.toNat + 256 * leNat bs

/-- The `n` little-endian bytes of a number (R2). -/
def leBytes : Nat → Nat → List Byte
  | 0, _ => []
  | n + 1, v => BitVec.ofNat 8 v :: leBytes n (v / 256)

/-- The 8-byte words of bytes. -/
def leWords (bs : List Byte) : Nat → List Word
  | 0 => []
  | n + 1 => wd (leNat (bs.take 8)) :: leWords (bs.drop 8) n

/-- Word `i` of a list, 0 when absent. -/
def wordAt (ws : List Word) (i : Nat) : Word := ws.getD i 0#64

/-- Union without repeats. -/
def unionIds (a : List Nat) : List Nat → List Nat
  | [] => a
  | x :: b => unionIds (if a.contains x then a else a ++ [x]) b

/-! ## Access to the parts of the state -/

/-- Core of a key. -/
def State.core (s : State) (k : Nat) : Core := s.cores.get {} k
/-- Replaces a core. -/
def State.setCore (s : State) (k : Nat) (c : Core) : State := { s with cores := s.cores.put k c }
/-- Changes a core. -/
def State.modCore (s : State) (k : Nat) (f : Core → Core) : State := s.setCore k (f (s.core k))
/-- Cluster k. -/
def State.cluster (s : State) (k : Nat) : Cluster := s.clusters.get {} k
/-- Changes a cluster. -/
def State.modCluster (s : State) (k : Nat) (f : Cluster → Cluster) : State :=
  { s with clusters := s.clusters.put k (f (s.cluster k)) }
/-- Tenant v; 0 is level M. -/
def State.tenant (s : State) (v : Nat) : Tenant := s.tenants.get {} v
/-- Changes a tenant. -/
def State.modTenant (s : State) (v : Nat) (f : Tenant → Tenant) : State :=
  { s with tenants := s.tenants.put v (f (s.tenant v)) }

/-- Slot `n` of a core. -/
def Core.slot (c : Core) (n : Nat) : Slot := c.slots.toList.getD n {}
/-- Replaces slot `n` of a core. -/
def Core.setSlot (c : Core) (n : Nat) (x : Slot) : Core := { c with slots := c.slots.setIfInBounds n x }

/-- A slot by reference. -/
def State.slot (s : State) (r : SlotRef) : Slot := (s.core r.core).slot r.slot
/-- Replaces a slot. -/
def State.setSlot (s : State) (r : SlotRef) (x : Slot) : State := s.setCore r.core ((s.core r.core).setSlot r.slot x)
/-- Changes a slot. -/
def State.modSlot (s : State) (r : SlotRef) (f : Slot → Slot) : State := s.setSlot r (f (s.slot r))
/-- The slot that issues. -/
def State.sl (s : State) : Slot := s.slot s.cur
/-- Changes the slot that issues. -/
def State.modSl (s : State) (f : Slot → Slot) : State := s.modSlot s.cur f

/-- The kinds of core (R8). -/
inductive CoreKind | compute | memory | monitor
  deriving DecidableEq, Repr

/-- Kind of a core key. -/
def coreKind (k : Nat) : CoreKind := if k < 1024 then .compute else if k < 2048 then .memory else .monitor
/-- Number of a core in its own series (R12). -/
def coreNum (k : Nat) : Nat := if k < 1024 then k else if k < 2048 then k - 1024 else k - 2048
/-- Enabled clusters (R15). -/
def State.nclusters (s : State) : Nat := fld s.capunits 6 0
/-- Enabled channels (R15). -/
def State.channels (s : State) : Nat := fld s.capunits 13 8
/-- Logical rows per array (R15). -/
def State.arows (s : State) : Nat := fld s.capunits 23 16

/-- Logical cluster at a router position (R11, R18): the number of populated positions below it. -/
def State.clusterAt (s : State) (p : Nat) : Nat := ((List.range p).filter fun i => bitOf s.capmap.toNat i).length
/-- Router position of a logical cluster: the (n+1)-th set bit of POSMAP (R18). -/
def State.posOf (s : State) (n : Nat) : Nat := ((List.range 64).filter fun i => bitOf s.capmap.toNat i).getD n 63
/-- Router position of a core (R12, R179). -/
def State.corePos (s : State) (k : Nat) : Nat :=
  match coreKind k with
  | .compute => s.posOf (k / 16)
  | .memory => let m := k - 1024; if m < 16 then m / 2 * 8 else (m - 16) / 2 * 8 + 7
  | .monitor => [1, 2, 61, 62].getD (k - 2048) 1
/-- The cluster whose shared units a core uses (R58, R223): its own, or that at its edge router. Where the position of that router holds no
cluster, R58 and R223 name none: the model takes the cluster at the next populated position, and past the last one a number that no cluster has
(DESIGN CHOICE, log 78). -/
def State.clusterOf (s : State) (k : Nat) : Nat := if k < 1024 then k / 16 else s.clusterAt (s.corePos k)

/-- The compute die on which a core sits: rows 0 to 3 of the mesh are die A, rows 4 to 7 die B (R11, R12). -/
def State.dieOf (s : State) (k : Nat) : Nat := s.corePos k / 32

/-- DEVLOC.DEV (R185). -/
def State.dev (s : State) : Nat := fld s.devloc 11 0

/-- Source identifier of a slot (R184). -/
def State.srcId (s : State) (r : SlotRef) : Word :=
  let kind := match coreKind r.core with | .compute => 0 | .memory => 2 | .monitor => 3
  wd (s.dev * 2 ^ 32 + kind * 2 ^ 29 + coreNum r.core * 16 + (if kind = 3 then 0 else r.slot * 4))

/-! ## Fresh numbers and flights -/

/-- From here on a key is an on-chip address of another device, to which a strand has moved (R172, DESIGN CHOICE, log 48). -/
def farBit : Nat := 2 ^ 57

/-- The key of an on-chip address of another device. -/
def farKey (dev k : Nat) : Nat := farBit + 2 ^ 56 + dev % 2 ^ 12 * 2 ^ 35 + k % 2 ^ 35

/-- The compute core whose regions an on-chip key names. -/
def unitCore (k : Nat) : Option Nat :=
  if 2 ^ 56 ≤ k && decide (k < farBit) && decide (bits k 28 24 < 16) then some (bits k 34 29 * 16 + bits k 28 24) else none

/-! ## Where storage lies (R50) -/

/-- Base PA of LPDDR-6 (R50). -/
def lpBase : Nat := 0x80_0000_0000
/-- End of stack memory (R50). -/
def stackEnd : Nat := 0xE000_0000
/-- Base of host space (R50). -/
def hostBase : Nat := 0x8000_0000_0000
/-- Bit 56: the on-chip map (R42). -/
def chipBit : Nat := 2 ^ 56

/-- Where a storage key lies. -/
inductive Place | chip | stack | lpddr (ch : Nat) | host | nothing
  deriving DecidableEq, Repr

/-- Place of a storage key. -/
def State.place (s : State) (k : Nat) : Place :=
  if chipBit ≤ k then .chip
  else if k < stackEnd then .stack
  else if hostBase ≤ k then .host
  else if lpBase ≤ k && k < lpBase + s.channels * 0x4_0000_0000 then .lpddr ((k - lpBase) / 0x4_0000_0000)
  else .nothing

/-! ## Packets (R175, R181) -/

/-- DEV of a message (R190). -/
def msgDev (ws : List Word) : Nat := fld (wordAt ws 1) 63 52
/-- SPACE of a message. -/
def msgSpace (ws : List Word) : Nat := fld (wordAt ws 1) 51 50
/-- ADDR of a message. -/
def msgAddr (ws : List Word) : Nat := fld (wordAt ws 1) 47 0
/-- HANDLER of a message. -/
def msgHandler (ws : List Word) : Nat := fld (wordAt ws 0) 56 0
/-- The core that m1 names in space 0b10. -/
def msgCore (ws : List Word) : Nat := (if bitOf (msgAddr ws) 10 then 1024 else 0) + msgAddr ws % 1024
/-- The class in which a message travels (R295). -/
def msgClass (ws : List Word) : Nat := if [0x20, 0x30, 0x40].contains (msgHandler ws) then 2 else 0

/-- The core whose network interface takes a message on its device: that which m1 names, or whose region it names. -/
def msgPeer (ws : List Word) : Option Nat :=
  match msgSpace ws with
  | 2 => some (msgCore ws)
  | 1 => unitCore (chipBit + msgAddr ws % 2 ^ 35)
  | _ => none

/-- The packet that an access of a core to a storage key is: its class, and the core whose network interface takes it. Stack memory is reached through a
cluster's own port (R7), and what a core holds itself takes no packet. -/
def keyPkt (core cls k : Nat) : Option (Nat × Option Nat) :=
  if chipBit ≤ k then
    match unitCore k with
    | some t => if t = core then none else some (cls, some t)
    | none => some (cls, none)
  else if k < lpBase then none
  else if k < hostBase && core == 1024 + (k - lpBase) / 0x4_0000_0000 then none
  else some (cls, none)

/-- The packet that an act of a core puts on the networks (R175, R181): class, and the core whose network interface takes it. -/
def Act.pkt (core : Nat) (a : Act) : Option (Nat × Option Nat) :=
  match a with
  | .load _ _ k _ _ _ _ => keyPkt core 0 k
  | .store _ k _ _ _ => keyPkt core 0 k
  | .atomic _ _ _ _ k _ _ _ => keyPkt core 2 k
  | .decr _ c _ => keyPkt core 2 c.toNat
  | .taskq h => keyPkt core 2 h.toNat
  | .await c _ _ => keyPkt core 2 c.toNat
  | .bind h _ => keyPkt core 2 h.toNat
  | .cbar _ c _ => keyPkt core 2 c.toNat
  | .post _ _ _ _ _ _ => some (2, none)
  | .enqueue _ _ => some (2, none)
  | .send ws => some (msgClass ws, msgPeer ws)
  | .mcst _ _ _ _ _ => some (0, none)
  | _ => none

/-- The number that stands for a shared unit of a cluster where an operation names its issuer: 0 its task scheduler, 1 its fold store, 2 its matrix
engine, 3 its atomic engine (R184). No core has such a number. -/
def unitKey (cluster unit : Nat) : Nat := 4096 + cluster * 4 + unit

/-- Is the issuer a shared unit, not a core? -/
def isUnit (k : Nat) : Bool := decide (4096 ≤ k)

/-- Adds to a core's count of packets of a class, sent or received (R175). -/
def State.countPkt (s : State) (core cls : Nat) (sent : Bool) : State :=
  if isUnit core then s else s.modCore core fun c =>
    if sent then { c with sent := c.sent.put cls ((c.sent.get 0 cls + 1) % 2 ^ 32) } else { c with recv := c.recv.put cls ((c.recv.get 0 cls + 1) % 2 ^ 32) }

/-! ## On the mesh (R179 to R183) -/

/-- Router position of a core or of a cluster's shared unit. -/
def State.seatPos (s : State) (core : Nat) : Nat := if isUnit core then s.posOf ((core - 4096) / 4) else s.corePos core

/-- The router of the I/O bridge that serves a position: that of its die (R179); of the two routers that carry the bridge the model takes the outer one
(DESIGN CHOICE, log 93). -/
def bridgeOf (p : Nat) : Nat := if p < 32 then 1 else 61

/-- The router at which a storage key is reached from a core; none for stack memory. -/
def State.keyPos (s : State) (core k : Nat) : Option Nat :=
  match s.place k with
  | .chip => some (s.posOf (bits k 34 29))
  | .lpddr m => some (s.corePos (1024 + m))
  | .host => some (bridgeOf (s.seatPos core))
  | _ => none

/-- The router to which the packet of a core's act is bound. -/
def State.goal (s : State) (core : Nat) (a : Act) : Option Nat :=
  match a with
  | .load _ _ k _ _ _ _ => s.keyPos core k
  | .store _ k _ _ _ => s.keyPos core k
  | .atomic _ _ _ _ k _ _ _ => s.keyPos core k
  | .decr _ c _ => s.keyPos core c.toNat
  | .taskq h => s.keyPos core h.toNat
  | .await c _ _ => s.keyPos core c.toNat
  | .bind h _ => s.keyPos core h.toNat
  | .cbar _ c _ => s.keyPos core c.toNat
  | .post _ _ _ _ _ cl => some (s.posOf cl)
  | .enqueue _ l => some (if l < 1024 then s.posOf l else s.corePos l)
  | .send ws =>
    if msgDev ws ≠ s.dev then some (bridgeOf (s.seatPos core))
    else (match msgSpace ws with
      | 2 => some (s.corePos (msgCore ws))
      | 1 => some (s.posOf (bits (msgAddr ws) 34 29))
      | _ => none)
  | .mcst _ _ _ _ _ => some (bridgeOf (s.seatPos core))
  | _ => none

/-- Payload flits of the packet of an act. -/
def Act.flits : Act → Nat
  | .load _ _ _ _ _ _ _ => 0
  | .mcst _ _ _ _ _ => 2
  | _ => 1

/-- Does the packet of an act carry ORD = 1 (R183)? -/
def Act.ordered : Act → Bool
  | .enqueue _ _ => true
  | .taskq _ => true
  | .send _ => true
  | .mcst _ _ _ _ _ => true
  | _ => false

/-- A packet injected at a router for another one; none where it has nowhere to go. -/
def hopFrom (src dst cls : Nat) (ord : Bool) (payload : Nat) : Option Hop :=
  if src = dst then none else some { at_ := src, dst := dst, sx := meshX src, cls := cls, ch := b01 ord, ord := ord, flits := payload + 1 }

/-- The packet of a core's act as it enters the mesh. -/
def State.hopFor (s : State) (core : Nat) (a : Act) : Option Hop :=
  match a.pkt core, s.goal core a with
  | some (c, _), some d => hopFrom (s.seatPos core) d c a.ordered a.flits
  | _, _ => none

/-- The response to a flight as it enters the mesh where its request was bound. -/
def State.hopBack (s : State) (f : Flight) : Option Hop :=
  match f.act.pkt f.who.core, s.goal f.who.core f.act with
  | some _, some d => hopFrom d (s.seatPos f.who.core) 1 false 1
  | _, _ => none

/-- Counts the packet that an act of a core injects (R175). -/
def State.inject (s : State) (core : Nat) (a : Act) : State :=
  match a.pkt core with
  | some (c, _) => s.countPkt core c true
  | none => s

/-- Adds an operation under way for a slot; the new number is the old `fresh` (DESIGN CHOICE, log 7). -/
def State.launchFlight (s : State) (r : SlotRef) (act : Act) (rel : List Nat := []) : State :=
  let x : Slot := s.slot r
  { s.inject r.core act with
    fresh := s.fresh + 1
    flights := s.flights ++ [{ id := s.fresh, who := r, party := x.party, ten := x.ten, level := x.level, queue := fld x.st 57 48,
                               born := s.cycle, inh := bit x.trap.tstat 4, act := act, rel := rel, hop := s.hopFor r.core act }] }

/-- The flight of a number. -/
def State.flight? (s : State) (id : Nat) : Option Flight := s.flights.find? fun f => f.id == id
/-- Removes a flight. -/
def State.dropFlight (s : State) (id : Nat) : State := { s with flights := s.flights.filter fun f => f.id != id }
/-- Changes a flight. -/
def State.modFlight (s : State) (id : Nat) (g : Flight → Flight) : State :=
  { s with flights := s.flights.map fun f => if f.id = id then g f else f }

/-- Does the slot still hold the strand of this party? -/
def State.holds (s : State) (r : SlotRef) (party : Nat) : Bool :=
  let x : Slot := s.slot r
  x.occ != .free && x.party == party

/-- The destination of an act. -/
def Act.dest : Act → Dest
  | .result d _ _ _ => d
  | .rows o => (match o.reg with
    | some (r, _) => .reg r
    | none => .none)
  | .load d _ _ _ _ _ _ => d
  | .atomic d _ _ _ _ _ _ _ => d
  | .decr d _ _ => d
  | .cbar d _ _ => d
  | .cbarWait d _ _ _ => d
  | .post d _ _ _ _ _ => d
  | .mcst d _ _ _ _ => d
  | .stampReturn d _ _ => d
  | .lnch d _ _ _ => d
  | .ctxsave d _ _ => d
  | .migr d _ _ _ => d
  | .gstop d _ _ => d
  | _ => .none

/-! ## Scalar registers and full/empty bits (R219, R220) -/

/-- The value of a scalar register; s0 reads 0. -/
def Slot.rd (x : Slot) (r : Reg) : Word := if r = 0#5 then 0#64 else x.s.toList.getD r.toNat 0#64
/-- Is the register full? s0 always is. -/
def Slot.isFull (x : Slot) (r : Reg) : Bool := r == 0#5 || x.full.getLsbD r.toNat
/-- Writes a scalar register; a write to s0 is discarded. -/
def Slot.wr (x : Slot) (r : Reg) (v : Word) : Slot := if r = 0#5 then x else { x with s := x.s.setIfInBounds r.toNat v }
/-- Sets or clears a full bit; that of s0 stays set. -/
def Slot.setFull (x : Slot) (r : Reg) (b : Bool) : Slot :=
  if r = 0#5 then x
  else if b then { x with full := x.full ||| BitVec.twoPow 32 r.toNat }
  else { x with full := x.full &&& ~~~(BitVec.twoPow 32 r.toNat), regRel := x.regRel.filter fun e => e.1 != r.toNat }
/-- SetS of a result that lands in the next cycle: value written, register full. -/
def Slot.setS (x : Slot) (r : Reg) (v : Word) : Slot := (x.wr r v).setFull r true

/-- Scalar destinations of a sequencer instruction (R260). -/
def seqDest : Instr → Option Reg
  | .vext d _ _ _ _ => some d
  | .vsprs _ _ m _ => some m
  | .vsdot d _ _ _ => some d
  | .csrr d _ => some d
  | .csrw d _ _ => some d
  | .csrs d _ _ => some d
  | .csrc d _ _ => some d
  | _ => none

/-- The sequencer entries of one place. -/
def SeqItem.entries : SeqItem → List SeqEntry
  | .one e => [e]
  | .rep b => b.words

/-- The slot of a sequencer place. -/
def SeqItem.slot : SeqItem → Nat
  | .one e => e.slot
  | .rep b => b.slot

/-- Places of the sequencer that the slot holds. -/
def State.seqOf (s : State) (r : SlotRef) : List SeqItem := (s.core r.core).seq.filter fun i => i.slot == r.slot

/-- Flights of the strand now in the slot, what it had sent from another slot before a move among them (R172). -/
def State.flightsOf (s : State) (r : SlotRef) : List Flight :=
  s.flights.filter fun f => f.party == (s.slot r).party && (s.slot r).occ != .free

/-- Is a result for this register still outstanding (R220)? -/
def State.producing (s : State) (r : SlotRef) (d : Reg) : Bool :=
  d != 0#5 &&
    ((s.flightsOf r).any (fun f => f.act.dest == .reg d) ||
      (s.seqOf r).any fun i => i.entries.any fun e => seqDest e.instr == some d)

/-- What the sources of an instruction say (R220, R348). -/
inductive Ready | go | wait | empty (r : Reg)
  deriving DecidableEq, Repr

/-- Checks sources in field order; `true` marks trap mode. A trap-mode source that is empty is named before any block (R344). -/
def Slot.sources (x : Slot) : List (Reg × Bool) → Ready
  | [] => .go
  | (r, t) :: l =>
    if x.isFull r then x.sources l
    else if t then .empty r
    else match x.sources l with
      | .empty q => .empty q
      | _ => .wait

/-! ## Memory -/

/-- The number of the key pair under which a tenant's accesses run (R205). -/
def State.keyGen (s : State) (ten : Nat) : Nat :=
  let k := if ten = 0 then 0 else (s.tenant ten).kslot
  let ks := s.keys.get {} k
  if ks.st = .loaded then ks.gen else 0x100000 + k

/-- One byte of storage as a tenant reads it: LPDDR-6 decrypts under the tenant's key (R205). What another device holds is a free value (log 48). -/
def State.rdByte (s : State) (ten k : Nat) : Byte :=
  let b := Memory.get s.mem k
  if farBit ≤ k then (Config.farWord (k / 8 * 8) s.cycle >>> (8 * (k % 8))).setWidth 8
  else match s.place k with
  | .lpddr _ =>
    let t := s.keyTags.get 0 (k / 32)
    if t = 0 || t = s.keyGen ten then b else Config.cipherByte t (s.keyGen ten) k b
  | _ => b

/-- Bytes of storage. -/
def State.rdBytes (s : State) (ten k : Nat) : Nat → List Byte
  | 0 => []
  | n + 1 => s.rdByte ten k :: s.rdBytes ten (k + 1) n

/-- Size of the granules around a key: 16 B, 8 B in host space (R78). -/
def granSize (k : Nat) : Nat := if hostBase ≤ k && k < 2 ^ 48 then 8 else 16

/-- Granule of a key (R78). -/
def granule (k : Nat) : Nat := k / granSize k * granSize k

/-- Brings an LPDDR-6 unit under the writer's key (R205): the bytes it holds become what that key reads. -/
def State.rekey (s : State) (ten k : Nat) : State :=
  match s.place k with
  | .lpddr _ =>
    let g := s.keyGen ten
    let u := k / 32
    let t := s.keyTags.get 0 u
    if t = g then s
    else if t = 0 then { s with keyTags := s.keyTags.put u g }
    else
      { s with keyTags := s.keyTags.put u g
               mem := (List.range 32).foldl (fun m i =>
                 Memory.set m (u * 32 + i) (Config.cipherByte t g (u * 32 + i) (Memory.get m (u * 32 + i)))) s.mem }
  | _ => s

/-- Stores bytes in memory. -/
def Memory.setBytes : Memory → Nat → List Byte → Memory
  | m, _, [] => m
  | m, k, b :: bs => Memory.setBytes (Memory.set m k b) (k + 1) bs

/-- Forgets every byte from `lo` to `hi - 1`. -/
def Memory.clear (m : Memory) (lo hi : Nat) : Memory := m.filter fun c => decide (c.1 < lo) || decide (hi ≤ c.1)

/-- Granule addresses of an access (R78). -/
def granules (k n : Nat) : List Nat :=
  let g := granSize k
  (List.range ((k + n - 1) / g - k / g + 1)).map fun i => (k / g + i) * g

/-- The part of an access that lies in each of its granules: where it starts, and its bytes. -/
def granParts (k : Nat) (bs : List Byte) : List (Nat × List Byte) :=
  (granules k bs.length).map fun g =>
    let lo := Nat.max k g
    (lo, (bs.drop (lo - k)).take (g + granSize k - lo))

/-- Is the LPDDR-6 key under which the tenant reaches the address lost (R415)? -/
def State.lostKey (s : State) (ten k : Nat) : Bool :=
  match s.place k with
  | .lpddr _ => decide (ten ≠ 0) && decide ((s.keys.get {} (s.tenant ten).kslot).st = .lost)
  | _ => false

/-- First poisoned granule that a tenant's access touches (R378); under a lost key every granule reads poisoned (R415). -/
def State.poisoned (s : State) (ten k n : Nat) : Option Nat :=
  if s.lostKey ten k then some (granule k) else (granules k n).find? fun g => s.poison.contains g

/-- The home write of an access: bytes stored, poison cleared where a whole granule is covered (R378), key applied (R205). A write
under a lost key is not performed (R415). -/
def State.wrBytes (s : State) (ten k : Nat) (bs : List Byte) : State :=
  if s.lostKey ten k || decide (farBit ≤ k) then s
  else
    let s1 : State := s.rekey ten k
    { s1 with
      mem := Memory.setBytes s1.mem k bs
      poison := s1.poison.filter fun g => !(decide (k ≤ g) && decide (g + 16 ≤ k + bs.length)) }

/-! ## The reference machine (R76 to R94) -/

/-- A party's part of the machine. -/
def State.party (s : State) (p : Nat) : Party := s.parties.get {} p
/-- Changes a party. -/
def State.modParty (s : State) (p : Nat) (f : Party → Party) : State := { s with parties := s.parties.put p (f (s.party p)) }

/-- Is the write to a granule of the access? -/
def WriteRec.touches (w : WriteRec) (k n : Nat) : Bool := (granules k n).contains (granule w.addr)

/-- The record of one granule's part of a write (R79): what the party's floor of that granule holds comes before it. -/
def State.writeRec (s : State) (p ten step : Nat) (rel : Rels) (id : Nat) (part : Nat × List Byte) : WriteRec :=
  let n := part.2.length
  { id := id, step := step, addr := part.1, bytes := part.2, pre := s.rdBytes ten part.1 n, party := p
    before := (s.writes.filter fun w => w.touches part.1 n && (s.party p).floor.contains w.id).map (·.id)
    rel := rel ++ (s.party p).fence }

/-- Notes a write in the reference machine (R79): one step over its granules, with the release sets it carries. -/
def State.noteWrite (s : State) (p ten k : Nat) (bs : List Byte) (rel : Rels) : State :=
  let parts := granParts k bs
  let recs := (parts.zipIdx).map fun e => s.writeRec p ten s.fresh rel (s.fresh + e.2) e.1
  ({ s with fresh := s.fresh + parts.length, writes := s.writes ++ recs } : State).modParty p
    fun q => { q with floor := q.floor ++ recs.map (·.id) }

/-- An access to host space leaves the host port as a memory request under the requester ID of the tenant's VF (R198); level M is the PF's. -/
def State.hostReq (s : State) (ten : Nat) (write : Bool) (k n : Nat) : State :=
  if s.place k = .host then { s with out := s.out ++ [.host ten write k n] } else s

/-- Performs a write (R79). A write under a lost key is not performed (R415). -/
def State.write (s : State) (p ten k : Nat) (bs : List Byte) (rel : Rels) : State :=
  if s.lostKey ten k then s else ((s.noteWrite p ten k bs rel).wrBytes ten k bs).hostReq ten true k bs.length

/-- Is `view` a choice that R80 allows: every write named touches the access, the floor is in it, it is closed under "before", its
order agrees with "before", and of the writes of one step it holds all or none? -/
def State.viewOk (s : State) (p k n : Nat) (view : List Nat) : Bool :=
  let ws := s.writes.filter fun w => w.touches k n
  decide (view.Nodup) &&
  (ws.all fun w => ws.all fun v => w.step != v.step || view.contains w.id == view.contains v.id) &&
  (view.all fun i => ws.any fun w => w.id == i) &&
  (ws.all fun w => !(s.party p).floor.contains w.id || view.contains w.id) &&
  (ws.all fun w => !view.contains w.id ||
    w.before.all fun b => !(ws.any fun v => v.id == b) || (view.contains b && decide (view.idxOf b < view.idxOf w.id)))

/-- The byte that a sequence of writes leaves at a key. -/
def applyView (ws : List WriteRec) (k : Nat) : List Nat → Byte → Byte
  | [], b => b
  | i :: is, b =>
    match ws.find? fun w => w.id == i with
    | some w => applyView ws k is (if w.addr ≤ k then w.bytes.getD (k - w.addr) b else b)
    | none => applyView ws k is b

/-- Performs a read (R80): the bytes, the release sets of the writes read, and the machine with the floor raised. A view that R80 does
not allow stands for the whole of W(u) in home order. -/
def State.read (s : State) (p ten k n : Nat) (view : List Nat) : List Byte × Rels × State :=
  let ws := s.writes.filter fun w => w.touches k n
  let ok := s.viewOk p k n view
  let d := if ok then view else ws.map (·.id)
  let val : Nat → Byte := fun a =>
    if ok then
      let b0 := match ws.find? fun w => decide (w.addr ≤ a) && decide (a < w.addr + w.bytes.length) with
        | some w => w.pre.getD (a - w.addr) 0#8
        | none => s.rdByte ten a
      applyView ws a d b0
    else s.rdByte ten a
  let lastOf : Nat → Option WriteRec := fun a =>
    (d.reverse.filterMap fun i => ws.find? fun w => w.id == i).find? fun w =>
      decide (w.addr ≤ a) && decide (a < w.addr + w.bytes.length)
  let rels := (((List.range n).filterMap fun i => lastOf (k + i)).eraseDups).flatMap (·.rel)
  ((List.range n).map fun i => val (k + i), rels, (s.modParty p fun q => { q with floor := unionIds q.floor d }).hostReq ten false k n)

/-- The party of an engine instance (R77, R87): one for as long as the device runs. Strands have lower numbers. -/
def engPartyId : EngQueue → Nat
  | .copy c => 2 ^ 40 + c
  | .matrix c a => 2 * 2 ^ 40 + 2 * c + a
  | .fold c => 3 * 2 ^ 40 + c
  | .task c => 4 * 2 ^ 40 + c
  | .stream c => 5 * 2 ^ 40 + c

/-- The party of the applier of a multicast group (R77). -/
def applierParty (g : Nat) : Nat := 6 * 2 ^ 40 + g

/-- The party of a sender on another device, by its source identifier: one for all that it does here (R183) (DEDUCED, log 44). -/
def farParty (src : Word) : Nat := 2 ^ 48 + src.toNat % 2 ^ 44

/-- Where a party sits (R83): its core, its slot there, its cluster. A copy engine sits in its core, a matrix, fold or task engine in its
cluster; a memory core and its stream engine are taken to belong to the cluster whose shared units they use (R58) (DEDUCED, log 79). -/
def State.seat (s : State) (p : Nat) : Option Nat × Option Nat × Option Nat :=
  let n := p % 2 ^ 40
  match p / 2 ^ 40 with
  | 0 => ((s.party p).home, (s.party p).home.map fun _ => (s.party p).slot, (s.party p).home.map s.clusterOf)
  | 1 => (some n, none, some (s.clusterOf n))
  | 2 => (none, none, some (n / 2))
  | 3 => (none, none, some n)
  | 4 => (none, none, some n)
  | 5 => (some n, none, some (s.clusterOf n))
  | _ => (none, none, none)

/-- Does a scope contain both parties (R82, R83)? -/
def State.scopeHas (s : State) (scope p q : Nat) : Bool :=
  let a := s.seat p
  let b := s.seat q
  if 3 ≤ scope then true
  else if scope = 2 then a.2.2.isSome && a.2.2 == b.2.2
  else if scope = 1 then a.1.isSome && a.1 == b.1
  else a.2.1.isSome && a.1 == b.1 && a.2.1 == b.2.1

/-- Acquires release sets at a scope, with the party's pending sets (R82): sets that fail the scope test are discarded. -/
def State.acquire (s : State) (q scope : Nat) (sets : Rels) : State :=
  let all := sets ++ (s.party q).pend
  let ids := (all.filter fun x => s.scopeHas (x.1 % 8) (x.1 / 8) q && s.scopeHas scope (x.1 / 8) q).flatMap (·.2)
  s.modParty q fun y => { y with floor := unionIds y.floor ids, pend := [] }

/-- Acquires a release set of a mechanism at device scope (R82, R83). -/
def State.acquireIds (s : State) (q : Nat) (ids : List Nat) : State := s.acquire q 3 [(3, ids)]

/-- The release set of a party now (R82). -/
def State.relSet (s : State) (p : Nat) : List Nat := (s.party p).floor

/-- A release event clears what an earlier FENCE put on later writes (R84). -/
def State.released (s : State) (p : Nat) : State := s.modParty p fun q => { q with fence := [] }

/-- What a release write of a party carries (R82). -/
def State.relOf (s : State) (p scope : Nat) : Rels := [(p * 8 + scope, s.relSet p)]

/-- What a party reads without acquiring is kept as its pending sets (R82). -/
def State.pending (s : State) (p : Nat) (rels : Rels) : State :=
  if rels.isEmpty then s else s.modParty p fun q => { q with pend := q.pend ++ rels }

/-- Opens a party for a strand that starts in a slot; the start acquires at device scope (R33, R82). -/
def State.newParty (s : State) (core slot : Nat) (rel : Rels) : Nat × State :=
  (s.fresh, ({ s with fresh := s.fresh + 1, parties := s.parties.put s.fresh { home := some core, slot := slot } } : State).acquire s.fresh 3 rel)

/-! ## Banks (R65 to R75) -/

/-- State code of a core bank. -/
def Core.bank (c : Core) (n : Nat) : Nat := if n < 32 then fld c.b0 (2 * n + 1) (2 * n) else fld c.b1 (2 * n - 63) (2 * n - 64)
/-- State code of a core bank at the end of the last cycle (R66). -/
def Core.bankShown (c : Core) (n : Nat) : Nat := if n < 32 then fld c.e0 (2 * n + 1) (2 * n) else fld c.e1 (2 * n - 63) (2 * n - 64)
/-- Sets the state code of a core bank. -/
def Core.setBank (c : Core) (n code : Nat) : Core :=
  if n < 32 then { c with b0 := setFld c.b0 (2 * n + 1) (2 * n) code } else { c with b1 := setFld c.b1 (2 * n - 63) (2 * n - 64) code }

/-- On-chip address of a region's start (R43). -/
def chipAddr (cluster unit region off : Nat) : Nat := chipBit + cluster * 2 ^ 29 + unit * 2 ^ 24 + region * 2 ^ 20 + off

/-- First byte of a core bank on the on-chip map. -/
def bankAddr (core n : Nat) : Nat :=
  if n < 16 then chipAddr (core / 16) (core % 16) 1 (n * 0x200) else chipAddr (core / 16) (core % 16) 0 ((n - 16) * 0x2000)
/-- Size of a core bank. -/
def bankSize (n : Nat) : Nat := if n < 16 then 0x200 else 0x2000

/-- Forgets the contents of a range: bytes, poison and the writes that made them. -/
def State.wipe (s : State) (lo hi : Nat) : State :=
  { s with
    mem := s.mem.clear lo hi
    poison := s.poison.filter fun g => decide (g < lo) || decide (hi ≤ g)
    writes := s.writes.filter fun w => decide (w.addr < lo) || decide (hi ≤ w.addr) }

/-- Turns a bank Off, its contents lost, and with it what waits there for the end of a wake: the wake is over, a hint that waited there is gone, and a read
that was held meets a bank that is Off (R67, R68) (DESIGN CHOICE, log 107). -/
def State.bankOff (s : State) (core n : Nat) : State :=
  ((s.modCore core fun c => { c.setBank n 0 with hints := c.hints.filter fun h => h.1 != n }).wipe (bankAddr core n) (bankAddr core n + bankSize n))

/-- A bank begins to wake, or goes on waking (R67); a wake from Retain is noted (R372). -/
def Core.wake (c : Core) (n : Nat) : Core :=
  { c.setBank n 3 with kept := if c.bank n = 1 then c.kept ||| BitVec.twoPow 64 n else if c.bank n = 3 then c.kept else c.kept &&& ~~~(BitVec.twoPow 64 n) }

/-- A core's bank begins to wake, or goes on waking. -/
def State.wake (s : State) (core n : Nat) : State := s.modCore core fun c => c.wake n

/-- The Off or Retain hint of R67 at a bank that is not Waking; at a Waking bank it waits (R68). Code 0 Off, 1 Retain, 2 BANK to Full. -/
def State.bankEvent (s : State) (core n code : Nat) : State :=
  let st := (s.core core).bank n
  if st = 3 then s.modCore core fun c => { c with hints := c.hints ++ [(n, code)] }
  else if code = 0 then (if st = 0 then s else s.bankOff core n)
  else if code = 1 then (if st = 2 then s.modCore core fun c => c.setBank n 1 else s)
  else (if st = 2 then s else s.wake core n)

/-- A hint or a BANK that takes effect at the end of the cycle (R72, R308). -/
def State.hintDue (s : State) (core n code : Nat) : State := s.modCore core fun c => { c with due := c.due ++ [(n, code)] }

/-- What a read finds at a bank (R67): Off, not yet Full (the wake starts), or Full. -/
inductive BankSays | dead | wait | ok
  deriving DecidableEq, Repr

/-- A read that reaches a bank. -/
def State.bankRead (s : State) (core n : Nat) : BankSays × State :=
  match (s.core core).bank n with
  | 0 => (.dead, s)
  | 2 => (.ok, s)
  | _ => (.wait, s.wake core n)

/-- A write that reaches a bank: an Off bank wakes zero-filled with the bytes in place (R67). -/
def State.bankWrite (s : State) (core n : Nat) : BankSays × State :=
  match (s.core core).bank n with
  | 2 => (.ok, s)
  | 0 => (.ok, s.wake core n)
  | _ => (.wait, s.wake core n)

/-- A deposit that lands at the end of the cycle (R63). -/
def State.queueLanding (s : State) (d : Deposit) : State := { s with deposits := s.deposits ++ [d] }

/-! ## The on-chip map (R43 to R47) -/

/-- An on-chip address by its fields. -/
structure Chip where
  cluster : Nat
  unit : Nat
  region : Nat
  off : Nat
  deriving DecidableEq, Repr

/-- Fields of an on-chip address; no unit of this device has one of another device. -/
def chipOf (k : Nat) : Chip := if k < farBit then ⟨bits k 34 29, bits k 28 24, bits k 23 20, bits k 19 0⟩ else ⟨0, 64, 15, 0⟩

/-- Does the address name a unit, a region and an offset with content (R43, R44, R46)? -/
def State.inMap (s : State) (k : Nat) : Bool :=
  let c := chipOf k
  decide (bits k 55 35 = 0) && decide (c.cluster < s.nclusters) &&
  (if c.unit < 16 then
    match c.region with
    | 0 => decide (c.off < 0x60000)
    | 1 => decide (c.off < 0x2000)
    | 2 => decide (c.off < 0x420)
    | 3 => decide (c.off < 0x100) && decide (c.off % 0x40 < 0x30)
    | 4 => decide (c.off % 0x200 < 0x40) && decide (c.off < 0x400)
    | 5 => decide (c.off < 0x1000)
    | _ => false
  else if c.unit = 31 then
    match c.region with
    | 0 => decide (c.off < 0xC0000)
    | 1 => true
    | 2 => decide (c.off < 0x1000)
    | 3 => decide (c.off < 0x10000)
    | _ => false
  else false)

/-- Does the region take an access of this width (R44, R46)? -/
def widthOk (c : Chip) (n : Nat) : Bool :=
  if c.unit < 16 && c.region = 0 then true
  else if (c.unit < 16 && c.region = 1) || (c.unit = 31 && c.region = 0) then decide (n = 8) || decide (n = 32)
  else decide (n = 8)

/-- Logical core of an on-chip address. -/
def Chip.core (c : Chip) : Nat := c.cluster * 16 + c.unit
/-- Core bank of an SCR or TILE address. -/
def Chip.bank? (c : Chip) : Option Nat :=
  if c.unit < 16 then
    if c.region = 0 then some (16 + c.off / 0x2000) else if c.region = 1 then some (c.off / 0x200) else none
  else none

/-- Is a key in the SCR region of a compute core? -/
def inScr (k : Nat) : Bool := decide (chipBit ≤ k) && decide ((chipOf k).unit < 16) && decide ((chipOf k).region = 0)

/-- Does the tenant own a core (R202)? -/
def Tenant.ownsCore (t : Tenant) (core : Nat) : Bool := t.pairs.getLsbD (core / 2)
/-- Does the tenant own a scratch bank? -/
def Tenant.ownsBank (t : Tenant) (core b : Nat) : Bool := (t.scr.get 0#48 core).getLsbD b

/-! ## Quarantine (R307, R317, R411, R413, R414) -/

/-- Chunks of a scrub job (R307). -/
def ScrubJob.chunks (j : ScrubJob) : Nat :=
  match fld j.desc 63 60 with
  | 1 => fld j.desc 47 0 / 0x10000
  | 2 => (((List.range 48).filter fun b => bit j.desc b).length + 7) / 8
  | 3 => 1
  | 4 => 16
  | 5 => 12
  | _ => 0

/-- Chunks that the pass has completed, over all its jobs (DEDUCED, log 74). -/
def Journal.passed (j : Journal) : Nat := ((j.jobs.take j.job).map ScrubJob.chunks).sum + j.chunk

/-- Is chunk `n` of the pass of a cold reset still to come (R414)? -/
def Journal.coldLeft (j : Journal) (n : Nat) : Bool := j.run && j.cold && decide (j.chunk ≤ n)

/-- Does some tenant hold such a resource in quarantine? -/
def State.quarAny (s : State) (p : Quar → Bool) : Bool := s.tenants.any fun t => t.2.quar.any p

/-- Is a scratch bank quarantined? -/
def State.quarBank (s : State) (core b : Nat) : Bool :=
  s.journal.coldLeft (core / 16 * 140 + core % 16 * 6 + b / 8) || s.journal.failed.contains (core / 16) ||
    s.quarAny fun q => match q with | .scratch c m => c == core && m.getLsbD b | _ => false

/-- Is the private state of a core quarantined? -/
def State.quarPriv (s : State) (core : Nat) : Bool :=
  s.journal.coldLeft (core / 16 * 140 + 96 + core % 16) || s.journal.failed.contains (core / 16) ||
    s.quarAny fun q => match q with | .priv c => c == core | _ => false

/-- Is a cluster's fold store quarantined? -/
def State.quarFold (s : State) (cl : Nat) : Bool :=
  s.journal.coldLeft (cl * 140 + 127) || s.journal.failed.contains cl ||
    s.quarAny fun q => match q with | .fold c _ => c == cl | _ => false

/-- Is a cluster's matrix storage quarantined? -/
def State.quarMatrix (s : State) (cl : Nat) : Bool :=
  s.journal.coldLeft (cl * 140 + 139) || s.journal.failed.contains cl ||
    s.quarAny fun q => match q with | .matrix c _ => c == cl | _ => false

/-- Is some byte of a range of physical addresses quarantined? (DEDUCED, log 53). -/
def State.quarPa (s : State) (base len : Nat) : Bool :=
  (s.journal.failedCh.any fun c => decide (lpBase + c * 0x4_0000_0000 < base + len) && decide (base < lpBase + (c + 1) * 0x4_0000_0000)) ||
  (decide (base < stackEnd) && decide (0 < len) && s.journal.coldLeft (s.nclusters * 140 + (Nat.min (base + len) stackEnd - 1) / 0x10000)) ||
    s.quarAny fun q => match q with | .pa b l => decide (b < base + len) && decide (base < b + l) | _ => false

/-- Does an on-chip address reach a quarantined bank or register (R419)? -/
def State.quarChip (s : State) (k : Nat) : Bool :=
  let c := chipOf k
  if c.unit < 16 then
    match c.region with
    | 0 => s.quarBank c.core (c.off / 0x2000)
    | _ => s.quarPriv c.core
  else match c.region with
    | 0 => s.quarMatrix c.cluster
    | 1 => s.quarFold c.cluster
    | _ => false

/-- Is the on-chip byte within the tenant's windows (R47)? -/
def State.ownsChip (s : State) (ten : Nat) (k : Nat) : Bool :=
  let c := chipOf k
  let t := s.tenant ten
  if c.unit < 16 then
    match c.region with
    | 0 => t.ownsBank c.core (c.off / 0x2000)
    | 5 => false
    | _ => t.ownsCore c.core
  else c.region = 0 && t.matrix.getLsbD c.cluster

/-! ## Translation (R54 to R58) -/

/-- The accesses that the checks of R350 tell apart. -/
inductive Acc | load | store | atomic | fetch
  deriving DecidableEq, Repr

/-- The code of an access in TVAL bits 63:62 (R334). -/
def Acc.code : Acc → Nat
  | .load => 0
  | .store => 1
  | .atomic => 1
  | .fetch => 2

/-- The answer of an address check. -/
inductive Chk
  | ok (key : Nat)
  | bad (code : Nat) (tval : Word)
  | miss
  deriving DecidableEq, Repr

/-- Is every byte of a PA range within one window that permits the access (R57)? Level M is inside every window. -/
def State.inWindow (s : State) (ten : Nat) (lv : Level) (acc : Acc) (pa n : Nat) : Bool :=
  lv == .m || (s.tenant ten).mwin.any fun w =>
    let base := fld w 47 21 * 0x20_0000
    let size := fld w 20 2 * 0x20_0000
    decide (base ≤ pa) && decide (pa + n ≤ base + size) &&
      (match acc with
        | .load => bit w 0
        | .fetch => bit w 0
        | .store => bit w 1
        | .atomic => bit w 0 && bit w 1)

/-- Does a leaf permit the access (R55, R350 step 5)? -/
def leafOk (e : TlbEntry) (lv : Level) (acc : Acc) : Bool :=
  (lv != .u || e.u) &&
    (match acc with
      | .load => e.r
      | .fetch => e.x
      | .store => e.w
      | .atomic => e.r && e.w)

/-- Does a TLB entry cover a VA of the tenant? -/
def TlbEntry.covers (e : TlbEntry) (ten va : Nat) : Bool := e.ten == ten && decide (va / 2 ^ e.lg = e.va / 2 ^ e.lg)

/-- A walk from a level's table down (R54, R58, R350 step 4): a leaf, or the level whose entry fails. -/
def State.walkFrom (s : State) (ten : Nat) (lv : Level) (va : Nat) : List Nat → Nat → Except Nat TlbEntry
  | [], _ => .error 1
  | l :: ls, table =>
    let pa := table + va / 2 ^ (12 + 9 * (l - 1)) % 512 * 8
    if !s.inWindow ten lv .load pa 8 || s.place pa = .nothing then .error l
    else
      let e := wd (leNat (s.rdBytes ten pa 8))
      let ppn := fld e 47 12 * 0x1000
      let leaf := bit e 5 || l = 1
      if !bit e 0 then .error l
      else if !leaf then s.walkFrom ten lv va ls ppn
      else if 4 ≤ l then .error l
      else if ppn % 2 ^ (12 + 9 * (l - 1)) ≠ 0 then .error l
      else .ok { ten := ten, va := va / 2 ^ (12 + 9 * (l - 1)) * 2 ^ (12 + 9 * (l - 1)), lg := 12 + 9 * (l - 1), pa := ppn,
                 u := bit e 4, x := bit e 3, w := bit e 2, r := bit e 1 }

/-- A whole walk of a VA under a root. -/
def State.walk (s : State) (ten : Nat) (lv : Level) (root : Word) (va : Nat) : Except Nat TlbEntry :=
  s.walkFrom ten lv va [5, 4, 3, 2, 1] (fld root 47 12 * 0x1000)

/-- Steps 5 to 7 of R350 with a leaf in hand. `compute`: the access is a compute core's (R51). -/
def State.leafCheck (s : State) (lv : Level) (acc : Acc) (compute : Bool) (va : Word) (n : Nat) (e : TlbEntry) : Chk :=
  let pa := e.pa + va.toNat % 2 ^ e.lg
  if !leafOk e lv acc then .bad 8 (wd (va.toNat % 2 ^ 57 + acc.code * 2 ^ 62))
  else if !s.inWindow e.ten lv acc pa n || s.place pa = .nothing then .bad 6 va
  else match s.place pa with
    | .lpddr _ => if compute then .bad 0x17 va else .ok pa
    | _ => .ok pa

/-- The answer of an address check to what an access has been told of the walk it waited for (R369): it faults, or still waits. -/
def WalkAnswer.chk (a : Option WalkAnswer) (va : Word) : Chk :=
  match a with
  | some a => if a.page = va.toNat / 4096 then .bad a.code (wd (va.toNat % 2 ^ 57 + fld a.tval 63 61 * 2 ^ 61)) else .miss
  | none => .miss

/-- Translation of an instruction's access: a TLB hit is checked, a miss waits for a walk, an answered walk faults (R369). -/
def State.translate (s : State) (r : SlotRef) (ten : Nat) (lv : Level) (acc : Acc) (va : Word) (n : Nat) : Chk :=
  match (s.cluster (s.clusterOf r.core)).tlb.find? fun e => e.covers ten va.toNat with
  | some e => s.leafCheck lv acc (coreKind r.core = .compute) va n e
  | none => WalkAnswer.chk (s.slot r).walk va

/-- Translation of an engine's or a built-in's access: a TLB hit is checked, a miss waits for a walk, an answered walk faults (R58, R369, R373). -/
def State.translateUnit (s : State) (u cluster ten : Nat) (lv : Level) (acc : Acc) (compute : Bool) (va : Word) (n : Nat) : Chk :=
  match (s.cluster cluster).tlb.find? fun e => e.covers ten va.toNat with
  | some e => s.leafCheck lv acc compute va n e
  | none => WalkAnswer.chk ((s.answers.find? fun a => a.1 == u).map (·.2)) va

/-- Translation of what the device reads or writes for itself in one step (a header, a packet, a record, a log): the TLB, or a walk within the step (DESIGN
CHOICE, log 108), whose leaf `State.installNow` then puts into the TLB. -/
def State.translateNow (s : State) (cluster ten : Nat) (lv : Level) (acc : Acc) (compute : Bool) (va : Word) (n : Nat) : Chk :=
  match (s.cluster cluster).tlb.find? fun e => e.covers ten va.toNat with
  | some e => s.leafCheck lv acc compute va n e
  | none =>
    match s.walk ten lv (s.tenant ten).ptroot va.toNat with
    | .ok e => s.leafCheck lv acc compute va n e
    | .error l => .bad 7 (wd (va.toNat % 2 ^ 57 + l * 2 ^ 61))

/-- Steps 2 to 7 of R350 given a translation for bit 56 = 0. -/
def State.addrCheck (s : State) (ten : Nat) (lv : Level) (va : Word) (n : Nat) (tr : Chk) : Chk :=
  if fld va 63 57 ≠ 0 then .bad 6 va
  else if bit va 56 then
    let k := va.toNat
    let c := chipOf k
    if !s.inMap k || !s.inMap (k + n - 1) || !widthOk c n then .bad 6 va
    else if lv != .m && !(s.ownsChip ten k && s.ownsChip ten (k + n - 1)) then .bad 6 va
    else if s.quarChip k || s.quarChip (k + n - 1) then .bad 6 va
    else .ok k
  else tr

/-- Steps 1 to 7 of R350 for an instruction of a slot. -/
def State.check (s : State) (r : SlotRef) (acc : Acc) (va : Word) (n align : Nat) : Chk :=
  let x : Slot := s.slot r
  if va.toNat % align ≠ 0 then .bad 5 va
  else s.addrCheck x.ten x.level va n (s.translate r x.ten x.level acc va n)

/-- The check of one piece by an engine or a built-in handler (R373). -/
def State.checkUnit (s : State) (u cluster ten : Nat) (lv : Level) (acc : Acc) (compute : Bool) (va : Word) (n : Nat) : Chk :=
  s.addrCheck ten lv va n (s.translateUnit u cluster ten lv acc compute va n)

/-- The check of one piece that the device reads or writes for itself (R424). -/
def State.checkNow (s : State) (cluster ten : Nat) (lv : Level) (acc : Acc) (compute : Bool) (va : Word) (n : Nat) : Chk :=
  s.addrCheck ten lv va n (s.translateNow cluster ten lv acc compute va n)

/-- Starts a walk, or joins one in flight on the same die for the same tenant and page (R58, R369), for a slot or for an engine or built-in of a
cluster. -/
def State.addWalk (s : State) (cluster die ten : Nat) (lv : Level) (va : Word) (acc : Acc) (slots : List SlotRef) (units : List (Nat × Nat)) : State :=
  let page := va.toNat / 4096
  let same (w : Walk) : Bool := w.ten == ten && w.page == page && w.die == die && !w.dead
  if s.walks.any same then
    { s with walks := s.walks.map fun w => if same w then
        { w with waiters := w.waiters ++ slots.filter fun r => !w.waiters.contains r
                 units := w.units ++ units.filter fun u => !w.units.contains u } else w }
  else
    { s with fresh := s.fresh + 1
             walks := s.walks ++ [{ id := s.fresh, cluster := cluster, die := die, ten := ten, level := lv, page := page,
                                    root := (s.tenant ten).ptroot, waiters := slots, units := units, kind := acc.code }] }

/-- Starts, or joins, the walk that a slot's access waits for (R58, R369). -/
def State.wantWalk (s : State) (r : SlotRef) (va : Word) (acc : Acc) : State :=
  s.addWalk (s.clusterOf r.core) (s.dieOf r.core) (s.slot r).ten (s.slot r).level va acc [r] []

/-- Starts, or joins, the walk that the access of an engine or a built-in of a cluster waits for. -/
def State.wantUnit (s : State) (u cluster ten : Nat) (lv : Level) (va : Word) (acc : Acc) : State :=
  s.addWalk cluster (s.posOf cluster / 32) ten lv va acc [] [(u, cluster)]

/-- A translation joins the TLB of a cluster unless one of its entries covers the address; a full TLB gives up its oldest entry (DESIGN CHOICE,
log 83). -/
def State.install (s : State) (cluster : Nat) (e : TlbEntry) (va : Nat) : State :=
  s.modCluster cluster fun k =>
    if k.tlb.any fun g => g.covers e.ten va then k
    else { k with tlb := (if 2048 ≤ k.tlb.length then k.tlb.tail else k.tlb) ++ [e] }

/-- The addresses of the table entries that a walk reads, from a level's table down (R54, R58). -/
def State.walkReads (s : State) (ten : Nat) (lv : Level) (va : Nat) : List Nat → Nat → List Nat
  | [], _ => []
  | l :: ls, table =>
    let pa := table + va / 2 ^ (12 + 9 * (l - 1)) % 512 * 8
    if !s.inWindow ten lv .load pa 8 || s.place pa = .nothing then []
    else
      let e := wd (leNat (s.rdBytes ten pa 8))
      pa :: (if bit e 0 && !bit e 5 then s.walkReads ten lv va ls (fld e 47 12 * 0x1000) else [])

/-- The memory requests that a walk of tables in host space makes (R55, R198). -/
def State.walkRequests (s : State) (ten : Nat) (lv : Level) (root : Word) (va : Nat) : State :=
  (s.walkReads ten lv va [5, 4, 3, 2, 1] (fld root 47 12 * 0x1000)).foldl (fun t pa => t.hostReq ten false pa 8) s

/-- The machine after the device has translated an address for itself: the leaf of its walk is in the TLB (R58). -/
def State.installNow (s : State) (cluster ten : Nat) (lv : Level) (va : Word) : State :=
  if bit va 56 || (s.cluster cluster).tlb.any fun e => e.covers ten va.toNat then s
  else match s.walk ten lv (s.tenant ten).ptroot va.toNat with
    | .ok e => (s.walkRequests ten lv (s.tenant ten).ptroot va.toNat).install cluster e va.toNat
    | .error _ => s.walkRequests ten lv (s.tenant ten).ptroot va.toNat

/-- Does a walk run? Each die runs 128 at once; the others wait in order of arrival (R58). -/
def State.walkRuns (s : State) (w : Walk) : Bool :=
  decide ((s.walks.takeWhile fun v => v.id != w.id).countP (fun v => v.die == w.die) < 128)

/-! ## Fault reports, kills and traps -/

/-- Stores a structure that the device writes on its own for party `p`, skipping it when the write fails (R424): the failed check, or none (DEDUCED,
log 45). Each lies in stack memory or cluster scratch (R350 step 8). A bank wakes with the bytes in place (R67). -/
def State.deviceWrite (s : State) (p cluster ten : Nat) (lv : Level) (va : Word) (bs : List Byte) (rels : Rels) : Option (Nat × Word) × State :=
  match s.checkNow cluster ten lv .store false va bs.length with
  | .ok k =>
    if !(inScr k || s.place k = .stack) then (some (6, va), s) else
    let s1 : State := match (if chipBit ≤ k then (chipOf k).bank? else none) with
      | some b => (s.bankWrite (chipOf k).core b).2
      | none => s
    (none, (s1.installNow cluster ten lv va).write p ten k bs rels)
  | .bad c t => (some (c, t), s)
  | .miss => (none, s)

/-- TCAUSE of a report that no strand's access has caused: ASYNC is 0 but for 0x14, which is raised asynchronously alone (R334, R340) (DEDUCED, log 34). -/
def reportCause (c : Nat) : Word := wd (b01 (c = 0x14) * 2 ^ 63 + c)

/-- The 64 bytes of a report (R340). -/
def Report.bytes (r : Report) : List Byte :=
  [r.cause, r.tval, r.tpc, r.tstat, wd (r.tinst.toNat % 2 ^ 32 + r.ocause % 256 * 2 ^ 32), r.src, r.cycle,
    wd (b01 r.killed * 2 ^ 63 + b01 r.fenced * 2 ^ 62 + b01 r.stopped * 2 ^ 61 + b01 r.logfail * 2 ^ 60 + r.seq % 2 ^ 32 * 2 ^ 16
      + r.queue % 1024)].flatMap fun w => leBytes 8 w.toNat

/-- MSI-X vectors of a function: 32 on the PF, 64 on each VF (R198). -/
def msixVectors (fn : Nat) : Nat := if fn = 0 then 32 else 64

/-- Raises a queue's MSI-X vector when INTEN = 1 and the vector exists (R151, R390). -/
def State.raiseVec (s : State) (ten q : Nat) : State :=
  let cfg := ((s.tenant ten).queues.get {} q).cfg
  if bit cfg 62 && decide (fld cfg 55 48 < msixVectors ten) then { s with out := s.out ++ [.msix ten (fld cfg 55 48)] } else s

/-- The stop record of a core (R175). -/
def State.stopRecord (s : State) (core : Nat) : List Byte :=
  let c : Core := s.core core
  let occ := (List.range 4).foldl (fun n i => n + (if (c.slot i).occ = .free then 0 else 2 ^ i)) 0
  let cnt (m : AMap Nat) (i : Nat) : Nat := m.get 0 i % 2 ^ 32 + m.get 0 (i + 1) % 2 ^ 32 * 2 ^ 32
  [s.cycle % 2 ^ 64, occ + b01 c.freeze * 16, cnt c.sent 0, cnt c.sent 2, cnt c.recv 0, cnt c.recv 2, 0, 0].flatMap fun w => leBytes 8 w

/-- Place of a core's record in the area (R175). -/
def State.recordIndex (s : State) (core : Nat) : Nat := if core < 1024 then core else 16 * s.nclusters + coreNum core

/-- A core stops (R174): the message of the halt tree reaches it as one packet of the management class (R175) (DEDUCED, log 94). -/
def State.stopCore (s : State) (core : Nat) (freeze : Bool) : State :=
  (s.countPkt core 3 false).modCore core fun c => { c with stopped := true, freeze := c.freeze || freeze }

/-- Stops the cores of a tenant with FREEZE; the records go to the monitor (R174, R177, R339). -/
def State.freezeTenant (s : State) (ten : Nat) : State :=
  let mine := (List.range (16 * s.nclusters)).filter fun c => (s.tenant ten).ownsCore c
  let mems := (List.range s.channels).map (· + 1024) |>.filter fun c =>
    (s.core c).slots.toList.any fun x => x.occ != .free && x.ten == ten
  let s1 : State := (mine ++ mems).foldl (fun t c =>
    let u : State := t.stopCore c true
    { u with stopArea := u.stopArea.put (u.recordIndex c) (u.stopRecord c) }) s
  s1.modTenant ten fun t => { t with stoppedCores := mine ++ mems }

/-- Writes one fault report (R339): to the tenant's log where it has one, always to the monitor (DEDUCED, log 34). -/
def State.report (s : State) (r : Report) : State :=
  let t : Tenant := s.tenant r.ten
  let sq := t.seq + 1
  let gs := bit t.flog 7 && decide (r.ten ≠ 0)
  let s0 : State := if gs then s.freezeTenant r.ten else s
  let r1 := { r with seq := sq, cycle := wd s.cycle, stopped := gs }
  let s1 : State := s0.modTenant r.ten fun t => { t with seq := sq }
  let lg := fld t.flog 3 0
  let (fail, s2) :=
    if lg = 0 || r.ten = 0 then (none, s1)
    else s1.deviceWrite 0 0 r.ten .s (wd (fld t.flog 56 12 * 0x1000 + (sq - 1) % 2 ^ (lg + 6) * 64)) r1.bytes []
  let s3 : State := { s2 with reports := s2.reports ++ [{ r1 with logfail := fail.isSome }] }
  s3.raiseVec r.ten r.queue

/-- Frees the banks a slot or a retained set holds: they go Off (R28). -/
def State.banksOff (s : State) (core : Nat) (tiles : List Nat) (sb : BitVec 48) : State :=
  let banks := tiles ++ ((List.range 48).filter fun b => sb.getLsbD b).map (· + 16)
  banks.foldl (fun t n => t.bankOff core n) s

/-- Fold entries after the end of a key's hold (R105, R106): a claimed entry is gone, one that waited is free to be offered. -/
def endHold (dom : Nat) (key : Word) (rel : List Nat) (es : List FEntry) : List FEntry :=
  es.filterMap fun e =>
    if e.dom = dom ∧ e.key = key then
      match e.st with
      | .claimed => none
      | .heldWaiting => some { e with st := .waiting, rel := unionIds e.rel rel }
      | .waiting => some e
    else some e

/-- Ends the EXCL hold of a fold handler's key, also where a slice save holds its entries (R154), and its running count (R105, R106, R111). -/
def State.foldRetire (s : State) (cl dom : Nat) (key : Word) (holds : Bool) (rel : List Nat) (count : Bool) : State :=
  s.modCluster cl fun c =>
    let d := c.doms.get {} dom
    let d1 : FDomain := { d with
      hrun := if count then d.hrun - 1 else d.hrun
      rel := unionIds d.rel rel
      keyRel := if holds then d.keyRel.put key.toNat rel else d.keyRel }
    { c with
      folds := if holds then endHold dom key rel c.folds else c.folds
      saved := if holds then c.saved.map fun v => ({ v with folds := endHold dom key rel v.folds } : Slice) else c.saved
      doms := c.doms.put dom d1 }

/-- Abandons the engine operations that a fault of a slot's strand holds (R374). -/
def State.abandonHeld (s : State) (r : SlotRef) (party : Nat) : State :=
  let ab : EngOp → EngOp := fun o => if o.who = r ∧ o.party = party ∧ o.held then { o with held := false, eps := o.eps.put 63 1#64 } else o
  { s with
    cores := s.cores.map fun c => (c.1, { c.2 with queue := c.2.queue.map ab })
    clusters := s.clusters.map fun c => (c.1, { c.2 with tqueue := c.2.tqueue.map ab
                                                         arrays := c.2.arrays.map fun a => { a with run := a.run.map fun m =>
                                                           if m.op.who = r ∧ m.op.party = party ∧ m.op.held then
                                                             { m with op := { m.op with held := false }, failed := true } else m } }) }

/-- Frees a slot without a save (R389, R317): its banks go Off, its flights keep running without it, what its faults hold is abandoned
(R374). -/
def State.freeSlot (s : State) (r : SlotRef) : State :=
  let x : Slot := s.slot r
  let s1 : State := (s.abandonHeld r x.party).banksOff r.core x.tiles x.sb
  let s2 : State := match x.origin with
    | .fold cl dom key holds => if x.occ == Occ.free then s1 else s1.foldRetire cl dom key holds [] true
    | _ => s1
  let s3 : State := s2.modCore r.core fun c => { c with seq := c.seq.filter fun i => i.slot != r.slot }
  s3.setSlot r { x with occ := .free, tiles := [], sb := 0#48, lq := [], sq := [], sa := [], succs := [], pend := [], pre := false,
                        frozen := false, halted := false, saving := false, drain := none, walk := none, armed := false, stepDue := false,
                        waits := 0#32, regRel := [], origin := .firmware, parked := false, withdrawn := [], entry := false, latch := [], took := 0,
                        tookOp := 0 }

/-- Every slot of the device. -/
def State.allSlots (s : State) : List SlotRef :=
  s.cores.flatMap fun c => (List.range 4).map fun n => ⟨c.1, n⟩

/-- Where the lifetime counter of an index is kept: those of a cluster or channel by its physical number, so that it keeps its own through a change of
numbering (R14, R416). -/
def State.lifeKey (s : State) (i : Nat) : Nat :=
  if i < 0x80 then
    (if i % 0x40 < s.nclusters then 0x1000 + i / 0x40 * 0x100 + s.seats.get 0 (s.posOf (i % 0x40)) else 0x3000 + i)
  else if i < 0xC0 then 0x2000 + (i - 0x80) / 0x20 * 0x100 + s.chans.getD ((i - 0x80) % 0x20) 32
  else i

/-- The lifetime counter of an index (R416). -/
def State.lifeCount (s : State) (i : Nat) : Nat := s.life.counters.get 0 (s.lifeKey i)

/-- Adds 1 to a lifetime counter, which saturates at 2^32 - 1 (R416). -/
def State.bumpLife (s : State) (i : Nat) : State :=
  { s with life := { s.life with counters := s.life.counters.put (s.lifeKey i) (Nat.min (2 ^ 32 - 1) (s.lifeCount i + 1)) } }

/-- Inserts an entry (R157): the bank of the insertion count mod 8, or the next that is not full; held while all are full (R390). Its arrival stamp is
that of the insertion (DESIGN CHOICE, log 109). -/
def Cluster.insert (c : Cluster) (now : Nat) (e : RunEntry) : Cluster :=
  match (if c.overflow.isEmpty then ((List.range 8).map fun i => (c.count + i) % 8).find? fun i => decide ((c.banks.getD i []).length < 256)
         else none) with
  | some i => { c with count := c.count + 1, banks := c.banks.set i (c.banks.getD i [] ++ [{ e with stamp := now }]) }
  | none => { c with overflow := c.overflow ++ [e] }

/-- Performs the held insertions that now find room, in arrival order (R390). -/
def Cluster.settle (c : Cluster) (now : Nat) : Cluster := c.overflow.foldl (fun d e => d.insert now e) { c with overflow := [] }

/-- The handle of a task's entry. -/
def RunEntry.task? (e : RunEntry) : Option Word :=
  match e.work with
  | .task a => some a
  | _ => none

/-- Removes run-list work that satisfies a test, what is still on its way to a run list and the shadow copies of its tasks; what the lists held out for want
of room then finds it (R389, R390). -/
def State.dropWork (s : State) (p : RunEntry → Bool) : State :=
  let tasks : List Word := (s.clusters.flatMap fun c => (c.2.banks.flatten ++ c.2.overflow).filter p).filterMap RunEntry.task?
  { s with
    clusters := s.clusters.map fun c => (c.1, Cluster.settle
      { c.2 with banks := c.2.banks.map fun b => b.filter fun e => !p e
                 overflow := c.2.overflow.filter fun e => !p e
                 steal := { c.2.steal with shipped := c.2.steal.shipped.filter fun e => !p e } } s.cycle)
    flights := s.flights.filter fun f => !(match f.act with | .enqueue e _ => p e | _ => false)
    cores := s.cores.map fun c => (c.1, { c.2 with
      runList := c.2.runList.filter fun e => !p e
      tasks := c.2.tasks.filter fun t => !tasks.contains t.handle
      aged := c.2.aged.filter fun e => !p e }) }

/-- Is a run-list entry the launch entry of one of these launches? -/
def RunEntry.ofLaunch (e : RunEntry) (ids : List Nat) : Bool :=
  match e.work with
  | .launch id _ _ => ids.contains id
  | _ => false

/-- The queue in the state word of a saved slot (R168). -/
def SavedSlot.queue (v : SavedSlot) : Nat := fld (wd (leNat ((v.bytes.drop 16).take 8))) 57 48

/-- Drops the slots of a tenant that a slice save holds and whose origin and queue satisfy a test; their fold handlers are over (R154, R389). -/
def State.dropSaved (s : State) (ten : Nat) (p : Origin → Nat → Bool) : State :=
  let gone (v : Slice) : List SavedSlot := v.slots.filter fun e => v.ten == ten && !e.tag.frozen && p e.tag.origin e.queue
  let all := s.clusters.flatMap fun c => c.2.saved.flatMap gone
  let s1 : State := all.foldl (fun t e => match e.tag.origin with
    | .fold cl dom key holds => t.foldRetire cl dom key holds [] true
    | _ => t) s
  { s1 with clusters := s1.clusters.map fun c => (c.1, { c.2 with saved := c.2.saved.map fun v =>
    ({ v with slots := v.slots.filter fun e => !((gone v).contains e) } : Slice) }) }

/-- Does a kill of the queue kill a launch (R338, R340, R389)? -/
def State.kills (s : State) (ten q : Nat) : Bool := s.launches.any fun l => l.ten == ten && l.queue == q

/-- Kills a queue, or the launch and its queue (R389 steps 1 to 4). -/
def State.killQueue (s : State) (ten q : Nat) : State :=
  let ids : List Nat := (s.launches.filter fun l => l.ten == ten && l.queue == q).map (·.id)
  let s1 : State := s.dropWork fun e => (e.ten == ten && e.queue == q) || e.ofLaunch ids
  let s2 : State := { s1 with
    cores := s1.cores.map fun c => (c.1, { c.2 with inbound := c.2.inbound.filter fun m => !(m.ten == ten && m.queue == q) })
    launches := s1.launches.filter fun l => !ids.contains l.id }
  let s2' : State := s2.modTenant ten fun t => { t with spill := t.spill.map fun e => (e.1, e.2.filter fun m => m.queue != q) }
  let s3 : State := s2'.allSlots.foldl (fun t r =>
    let x : Slot := t.slot r
    let mine : Bool := match x.origin with
      | .launch id _ => ids.contains id
      | .firmware => false
      | _ => x.ten == ten && fld x.st 57 48 == q
    if x.occ != .free && !x.frozen && x.ten == ten && mine then t.freeSlot r else t) s2'
  let s3 : State := s3.dropSaved ten fun o n => match o with
    | .launch id _ => ids.contains id
    | .firmware => false
    | _ => n == q
  let s4 : State := s3.cores.foldl (fun t c =>
    let go := c.2.retained.filter fun e => e.ten == ten && e.queue == q
    let t1 := go.foldl (fun u e => u.banksOff c.1 e.tiles e.sb) t
    t1.modCore c.1 fun k => { k with retained := k.retained.filter fun e => !(e.ten == ten && e.queue == q) }) s3
  s4.modTenant ten fun t => { t with queues := t.queues.map fun e =>
    if e.1 = q then (e.1, { e.2 with cfg := setFld e.2.cfg 63 63 0 }) else e }

/-- The tenant's handler address of a core: a monitor core has its own TVEC (R330). -/
def State.tvecOf (s : State) (r : SlotRef) : Word :=
  if coreKind r.core = .monitor then (s.core r.core).tvec else (s.tenant (s.slot r).ten).tvec

/-- Escalation (R338): the slot freezes, its launch or queue is killed, with the queues in `also` (R388), and one report is written. On a monitor core
Platriuz counts it. (DEDUCED, log 69). -/
def State.escalate (s : State) (r : SlotRef) (async : Bool) (c : Nat) (v : Word) (ocause : Nat) (also : List Nat := []) : State :=
  let x : Slot := s.slot r
  let s1 : State := s.setSlot r { x with frozen := true }
  let s1 : State := s1.abandonHeld r x.party
  if coreKind r.core = .monitor then
    s1.bumpLife 0xD0
  else
    let q := fld x.st 57 48
    let s2 : State := (q :: also).foldl (fun t q => t.killQueue x.ten q) s1
    s2.report { ten := x.ten, cause := wd (b01 async * 2 ^ 63 + c), tval := v, tpc := x.trap.tpc, tstat := x.trap.tstat, tinst := x.trap.tinst,
                ocause := ocause, src := s.srcId r, killed := (q :: also).any (s.kills x.ten), queue := q }

/-- The level code of TSTAT.PLEVEL and CTXID.LEVEL. -/
def Level.code : Level → Nat
  | .u => 0
  | .s => 1
  | .m => 2

/-- TSTAT at trap entry (R332, R336): SS kept, PLEVEL, PWD and INH set, the body fields as given. -/
def tstatEntry (x : Slot) (body : Option (Nat × Nat)) : Word :=
  let ss := b01 (bit x.trap.tstat 5)
  let bd := match body with
    | some (k, e) => k % 2 ^ 16 * 2 ^ 48 + e % 16 * 2 ^ 44 + 2 ^ 43
    | none => 0
  wd (bd + b01 x.wdef * 64 + ss * 32 + 16 + x.level.code)

/-- The slot as a trap of code `c` and value `v` leaves it (R336), before the handler's first fetch. An instruction that faults ends a single step without
a step trap (R342). -/
def Slot.trapEntry (x : Slot) (mon async : Bool) (c : Nat) (v : Word) (word : Word) (tvec : Word) (body : Option (Nat × Nat)) : Slot :=
  { x with
    trap := { x.trap with
      tpc := x.pc
      tcause := wd (b01 async * 2 ^ 63 + c)
      tval := v
      tinst := if async then 0#64 else word
      tstat := tstatEntry x body }
    wdef := false
    level := if mon then .m else .s
    walk := none
    drain := none
    waits := 0#32
    armed := false
    entry := true
    latch := []
    pc := wd (fld tvec 56 2 * 4) }

/-- Taking a trap (R336): the one entry of every synchronous and asynchronous trap. A trap within a handler escalates (R338); so does a
trap with no handler address. -/
def State.takeTrap (s : State) (r : SlotRef) (async : Bool) (c : Nat) (v : Word) (word : Word) (body : Option (Nat × Nat)) : State :=
  let x : Slot := s.slot r
  if bit x.trap.tstat 4 then s.escalate r async c v c
  else
    let s1 : State := s.setSlot r (x.trapEntry (coreKind r.core = .monitor) async c v word (s.tvecOf r) body)
    if fld (s.tvecOf r) 56 2 = 0 then s1.escalate r false 0x13 0#64 c else s1

/-- A synchronous trap of the issuing slot, with its word. -/
def State.trap (s : State) (c : Nat) (v : Word) : State := s.takeTrap s.cur false c v (wd s.ir.toNat) none

/-- An asynchronous fault for a strand: it waits for a boundary of its slot, or is written as a report when the strand has left
(R335, R341, R361, R374). -/
def State.asyncFault (s : State) (r : SlotRef) (party ten q : Nat) (f : AFault) : State :=
  if s.holds r party && !(s.slot r).frozen then s.modSlot r fun x => { x with pend := x.pend ++ [f] }
  else s.report { ten := ten, cause := wd (2 ^ 63 + f.code), tval := f.tval, src := s.srcId r, queue := q }

/-- Has the device itself sent the flight's operation (R426), not a strand? Engine parties have high numbers, any other such operation is its own
party. -/
def Flight.own (f : Flight) : Bool := f.pkt.isNone && (f.party == f.id || decide (2 ^ 40 ≤ f.party))

/-- The source identifier of a shared unit, or of a core's own engine (R184). -/
def State.unitId (s : State) (core : Nat) : Word :=
  wd (s.dev * 2 ^ 32 + (if isUnit core then 4 * 2 ^ 29 + (core - 4096) * 4 else if core < 1024 then 2 ^ 29 + core * 16 else 2 * 2 ^ 29 + coreNum core * 16))

/-- The source identifier of what sent a flight (R184): its packet's, its engine's or its slot's. -/
def State.originOf (s : State) (f : Flight) : Word :=
  match f.pkt with
  | some p => p.srcid
  | none => if f.own then s.unitId f.who.core else s.srcId f.who

/-- The same for a flight (DESIGN CHOICE, log 24); for what the device or another device has sent (R426), and for a message whose strand has been saved since
(R168), a report is written. -/
def State.flightFault (s : State) (f : Flight) (c : Nat) (v : Word) : State :=
  if f.own || f.pkt.isSome then s.report { ten := f.ten, cause := reportCause c, tval := v, src := s.originOf f, queue := f.queue }
  else if f.outlived then s.report { ten := f.ten, cause := wd (2 ^ 63 + c), tval := v, src := s.originOf f, queue := f.queue }
  else s.asyncFault f.who f.party f.ten f.queue { code := c, tval := v, handler := f.inh }

/-! ## Issue -/

/-- The instruction retires (R178): RETIRED counts it, an armed step completes. -/
def Slot.retire (x : Slot) : Slot :=
  { x with retired := x.retired + 1#64, stepDue := x.stepDue || x.armed, armed := false, walk := none, yielded := false,
           waits := 0#32, latch := [] }

/-- Retires and goes to the next word. -/
def Slot.next (x : Slot) : Slot := { x.retire with pc := x.pc + 4#64 }

/-- Ends the instruction of the issuing slot: the slot after `f` goes to the next word. -/
def State.done (s : State) (f : Slot → Slot) : State := s.modSl fun x => (f x).next

/-- The wait mode of an S3 operand or of WDEF. -/
def State.wmode (s : State) : Bool := s.sl.wdef

/-- The empty registers among the sources: those on which the instruction waits. -/
def Slot.emptyMask (x : Slot) (src : List (Reg × Bool)) : BitVec 32 :=
  src.foldl (fun m a => if x.isFull a.1 then m else m ||| BitVec.twoPow 32 a.1.toNat) 0#32

/-- An instruction that waited on a register consumes its value: it acquires what the deposit or the departure that filled it released
(R94, R291). -/
def State.consume (s : State) (src : List (Reg × Bool)) : State :=
  let x : Slot := s.sl
  if x.waits = 0#32 then s
  else
    let got := src.filterMap fun a =>
      if x.waits.getLsbD a.1.toNat then (x.regRel.find? fun e => e.1 == a.1.toNat).map (·.2) else none
    (got.foldl (fun t g => t.acquire x.party g.1 g.2) s).modSl fun x => { x with waits := 0#32 }

/-- Has the instruction at issue gone on, from slot `x` to slot `y`: retired, or begun to drain its slot? -/
def Slot.goneOn (x y : Slot) : Bool := y.retired != x.retired || y.drain.isSome

/-- Issue with scalar sources (field order) and destinations: an empty source in trap mode traps 0x04, an empty source in block mode or
an outstanding producer of a destination holds the instruction (a wait is only remembered); else `k` (R220, R348). An instruction that does not go on,
since it traps or has still to wait, has consumed nothing (R345). -/
def State.issue (s : State) (src : List (Reg × Bool)) (dst : List Reg) (k : State → State) : State :=
  match s.sl.sources src with
  | .empty r => s.trap 4 (wd r.toNat)
  | .wait => s.modSl fun x => { x with waits := x.waits ||| x.emptyMask src }
  | .go =>
    if dst.any (s.producing s.cur) then s
    else let t := k (s.consume src)
         if s.sl.goneOn t.sl then t else k s

/-- A one-cycle scalar result: SetS(d, r) and the next word. -/
def State.setD (s : State) (d : Reg) (v : Word) : State := s.done fun x => x.setS d v

/-- A producer: d is marked empty at issue and the act goes on its way (R219). -/
def State.produce (s : State) (d : Reg) (act : Act) (rel : List Nat := []) : State :=
  (s.launchFlight s.cur act rel).done fun x => x.setFull d false

/-- A value as an act that lands in a register. -/
def landReg (d : Reg) (v : Word) : Act := .result (.reg d) (v.setWidth 256) none []

/-- Continues after an address check: a fault traps, a miss waits for a walk (R329). -/
def State.onAddr (s : State) (acc : Acc) (va : Word) (c : Chk) (k : Nat → State → State) : State :=
  match c with
  | .ok key => k key s
  | .bad code v => s.trap code v
  | .miss => s.wantWalk s.cur va acc

/-- Continues after the checks of an access that may cross 4 KiB pages: its parts, page by page, each with its key (R58). -/
def State.onSpan (acc : Acc) (k : List (Nat × Nat) → State → State) : Nat → Word → Nat → List (Nat × Nat) → State → State
  | 0, _, _, got, s => k got s
  | f + 1, va, n, got, s =>
    let m := Nat.min n (4096 - va.toNat % 4096)
    if n = 0 then k got s
    else s.onAddr acc va (s.check s.cur acc va m 1) fun key s => State.onSpan acc k f (va + wd m) (n - m) (got ++ [(key, m)]) s

/-- Is the class present on the issuing core, for compute-only and compute-and-memory classes (R215)? -/
def State.present (s : State) (memoryToo : Bool) : Bool :=
  match coreKind s.cur.core with
  | .compute => true
  | .memory => memoryToo
  | .monitor => false

/-- Guards a class by presence: absent raises 0x03 with the major opcode (R215, R334). -/
def State.needs (s : State) (memoryToo : Bool) (major : Nat) (k : State → State) : State :=
  if s.present memoryToo then k s else s.trap 3 (wd major)

/-- Guards SYS by level: MIGR and GSTOP at M, the other forms at S (R216). -/
def State.priv (s : State) (lv : Level) (k : State → State) : State :=
  match lv, s.sl.level with
  | .u, _ => k s
  | .s, .u => s.trap 2 0#64
  | .s, _ => k s
  | .m, .m => k s
  | .m, _ => s.trap 2 0#64

/-- The tenant's key queue word of the strand. -/
def Slot.queue (x : Slot) : Nat := fld x.st 57 48

end Sys2Proof.Machine
end

