-- ==== Sys2Proof/Machine/Operands.lean ====
section
/-! DEFINITION. Operand forms: scalar arithmetic of both widths, immediates, effective addresses, lanes and row names. -/

namespace Sys2Proof.Machine

/-! ## Scalar arithmetic, at 64 or 32 bits (R233 to R236) -/

/-- A 32-bit form (R234): the operation on bits 31:0, its result sign-extended. -/
def w32 (f : BitVec 32 → BitVec 32 → BitVec 32) (x y : Word) : Word := (f (x.setWidth 32) (y.setWidth 32)).signExtend 64

/-- The form that W selects. -/
def wsel (w : Bool) (f64 : Word → Word → Word) (f32 : BitVec 32 → BitVec 32 → BitVec 32) (x y : Word) : Word :=
  if w then w32 f32 x y else f64 x y

/-- DIV with its borders (R235). -/
def divS {n : Nat} (x y : BitVec n) : BitVec n := if y = 0#n then BitVec.allOnes n else x.sdiv y
/-- DIVU with its borders (R235). -/
def divU {n : Nat} (x y : BitVec n) : BitVec n := if y = 0#n then BitVec.allOnes n else x / y
/-- REM (R235). -/
def remS {n : Nat} (x y : BitVec n) : BitVec n := if y = 0#n then x else x.srem y
/-- REMU (R235). -/
def remU {n : Nat} (x y : BitVec n) : BitVec n := if y = 0#n then x else x % y

/-- SLL by y modulo the width (R233, R234). -/
def shl {n : Nat} (x y : BitVec n) : BitVec n := x <<< (y.toNat % n)
/-- SRL. -/
def shr {n : Nat} (x y : BitVec n) : BitVec n := x >>> (y.toNat % n)
/-- SRA. -/
def sra {n : Nat} (x y : BitVec n) : BitVec n := x.sshiftRight (y.toNat % n)
/-- ROL. -/
def rol {n : Nat} (x y : BitVec n) : BitVec n := x.rotateLeft (y.toNat % n)
/-- ROR. -/
def ror {n : Nat} (x y : BitVec n) : BitVec n := x.rotateRight (y.toNat % n)

/-- MULH: bits 127:64 of the signed product. -/
def mulhS (x y : Word) : Word := BitVec.ofInt 64 (x.toInt * y.toInt / 2 ^ 64)
/-- MULHU: bits 127:64 of the unsigned product. -/
def mulhU (x y : Word) : Word := BitVec.ofNat 64 (x.toNat * y.toNat / 2 ^ 64)

/-- Leading zeros; the width for zero. -/
def clz {n : Nat} (x : BitVec n) : BitVec n := if x = 0#n then BitVec.ofNat n n else BitVec.ofNat n (n - 1 - Nat.log2 x.toNat)
/-- Trailing zeros; the width for zero. -/
def ctz {n : Nat} (x : BitVec n) : BitVec n :=
  BitVec.ofNat n (((List.range n).find? fun i => x.getLsbD i).getD n)
/-- One bits. -/
def popc {n : Nat} (x : BitVec n) : BitVec n := BitVec.ofNat n ((List.range n).countP fun i => x.getLsbD i)

/-- 1 or 0 as a word. -/
def boolW (b : Bool) : Word := if b then 1#64 else 0#64

/-- SEXT (R236). -/
def sextBit (x y : Word) : Word :=
  let n := y.toNat % 64
  BitVec.ofInt 64 (if bitOf x.toNat n then (x.toNat % 2 ^ (n + 1) : Nat) - (2 ^ (n + 1) : Nat) else (x.toNat % 2 ^ (n + 1) : Nat))
/-- BEXT (R236). -/
def bext (x y : Word) : Word := wd (x.toNat / 2 ^ (y.toNat % 64) % 2 ^ (fld y 13 8 + 1))
/-- BINS (R236). -/
def bins (x y z : Word) : Word :=
  let m := wd ((2 ^ (fld y 13 8 + 1) - 1) * 2 ^ (y.toNat % 64))
  (z &&& ~~~m) ||| ((x <<< (y.toNat % 64)) &&& m)

/-- The target of R213. -/
def branchTo (pc : Word) (disp : Int) : Word := pc + BitVec.ofInt 64 (4 * disp)

/-! ## Rows and lanes (R258) -/

/-- Lane `i` of width `w` of a row, as a number. -/
def lane (r : Row) (w i : Nat) : Nat := (r >>> (w * i)).toNat % 2 ^ w

/-- A row from its lanes of width `w`. -/
def ofLanes (w : Nat) : List Nat → Row
  | [] => 0#256
  | x :: xs => BitVec.ofNat 256 (x % 2 ^ w) ||| (ofLanes w xs <<< w)

/-- The lanes of a row. -/
def lanes (r : Row) (w : Nat) : List Nat := (List.range (256 / w)).map (lane r w)

/-- A row from 32 bytes. -/
def rowOf (bs : List Byte) : Row := BitVec.ofNat 256 (leNat bs)
/-- The 32 bytes of a row. -/
def rowBytes (r : Row) : List Byte := leBytes 32 r.toNat

/-- The signed value of a lane. -/
def sLane (w x : Nat) : Int := (IFmt.mk w true).val x

/-- Float format of a type. -/
def fmtOf : FTy → Fmt
  | .f32 => fp32
  | .bf16 => bf16
  | .f16 => fp16

/-! ## Row names (R221, R259) -/

/-- How an instruction uses a row field. -/
inductive RowUse | src | dst | rw
  deriving DecidableEq, Repr

/-- A row field of an instruction: name, use, number of consecutive rows, whether it may be LQ or SQ in that use. -/
structure RowField where
  name : RowName
  use : RowUse
  cnt : Nat := 1
  deriving DecidableEq, Repr

/-- Reserved values and uses of a row field (R221, R356): true when the field is lawful. LQ is a source, SQ a destination; a field that
is read and written is a tile row or ZR. -/
def RowField.lawful (f : RowField) : Bool :=
  let n := f.name.toNat
  if n < 112 then decide (n + f.cnt ≤ 112)
  else if n = 114 then true
  else if n = 112 then f.use == .src
  else if n = 113 then f.use == .dst
  else false

/-- The first tile name of a field that the slot does not map (R221, R356). -/
def RowField.unmapped (f : RowField) (count : Nat) : Option Nat :=
  let n := f.name.toNat
  if n < 112 then ((List.range f.cnt).map (n + ·)).find? fun m => decide (count ≤ m / 16) else none

/-- The core bank of a mapped tile name. -/
def Slot.tileBank (x : Slot) (n : Nat) : Nat := x.tiles.getD (n / 16) 0

/-- Storage key of a tile row of a slot's tile. -/
def tileKey (core bank row : Nat) : Nat := bankAddr core bank + row * 0x20

/-! ## Which rows an instruction names -/

/-- FP32 as an element of a conversion. -/
def eF32 : Elem := .fl fp32

/-- Source and destination of a table-A pair (R272). -/
def tpPair (tp : BitVec 4) : Elem × Elem :=
  match tp.toNat with
  | 0 => (eF32, .fl bf16)
  | 1 => (eF32, .fl fp16)
  | 2 => (eF32, .fl fp8e4)
  | 3 => (eF32, .fl fp8e5)
  | 4 => (.fl bf16, eF32)
  | 5 => (.fl fp16, eF32)
  | 6 => (.fl fp8e4, eF32)
  | 7 => (.fl fp8e5, eF32)
  | 8 => (.fl bf16, .fl fp8e4)
  | 9 => (.fl bf16, .fl fp8e5)
  | 10 => (.fl fp8e4, .fl bf16)
  | 11 => (.fl fp8e5, .fl bf16)
  | 12 => (eF32, .int ⟨32, true⟩)
  | 13 => (.int ⟨32, true⟩, eF32)
  | 14 => (eF32, .int ⟨8, true⟩)
  | _ => (.int ⟨8, true⟩, eF32)

/-- Source and destination of a table-B pair (R272). -/
def tbPair (tb : BitVec 3) : Elem × Elem :=
  match tb.toNat with
  | 0 => (.int ⟨32, true⟩, .int ⟨16, true⟩)
  | 1 => (.int ⟨16, true⟩, .int ⟨8, true⟩)
  | 2 => (.int ⟨16, true⟩, .int ⟨8, false⟩)
  | 3 => (.int ⟨16, true⟩, .int ⟨32, true⟩)
  | 4 => (.int ⟨8, true⟩, .int ⟨16, true⟩)
  | 5 => (.int ⟨8, false⟩, .int ⟨16, true⟩)
  | 6 => (eF32, .int ⟨8, false⟩)
  | _ => (.int ⟨8, false⟩, eF32)

/-- Rows that VPACK reads or VWIDEN writes (R272). -/
def packRatio (tp : BitVec 4) : Nat :=
  let p := tpPair tp
  Nat.max (p.1.width / p.2.width) (p.2.width / p.1.width)

/-- The row fields of a row word in field order d7, a7, b7, and the L bit where it acts (R71, R259, R260). -/
structure RowShape where
  d : Option RowField := none
  a : Option RowField := none
  b : Option RowField := none
  l : Bool := false
  deriving DecidableEq, Repr

/-- The row shape of every row instruction (R258 to R281); other instructions name no row here. -/
def rowShape : Instr → RowShape
  | .vaddF _ d a b l => ⟨some ⟨d, .dst, 1⟩, some ⟨a, .src, 1⟩, some ⟨b, .src, 1⟩, l⟩
  | .vsubF _ d a b l => ⟨some ⟨d, .dst, 1⟩, some ⟨a, .src, 1⟩, some ⟨b, .src, 1⟩, l⟩
  | .vmulF _ d a b l => ⟨some ⟨d, .dst, 1⟩, some ⟨a, .src, 1⟩, some ⟨b, .src, 1⟩, l⟩
  | .vdiv _ d a b l => ⟨some ⟨d, .dst, 1⟩, some ⟨a, .src, 1⟩, some ⟨b, .src, 1⟩, l⟩
  | .vfma _ d a b l => ⟨some ⟨d, .rw, 1⟩, some ⟨a, .src, 1⟩, some ⟨b, .src, 1⟩, l⟩
  | .vfms _ d a b l => ⟨some ⟨d, .rw, 1⟩, some ⟨a, .src, 1⟩, some ⟨b, .src, 1⟩, l⟩
  | .vminF _ d a b l => ⟨some ⟨d, .dst, 1⟩, some ⟨a, .src, 1⟩, some ⟨b, .src, 1⟩, l⟩
  | .vmaxF _ d a b l => ⟨some ⟨d, .dst, 1⟩, some ⟨a, .src, 1⟩, some ⟨b, .src, 1⟩, l⟩
  | .vabsF _ d a l => ⟨some ⟨d, .dst, 1⟩, some ⟨a, .src, 1⟩, none, l⟩
  | .vnegF _ d a l => ⟨some ⟨d, .dst, 1⟩, some ⟨a, .src, 1⟩, none, l⟩
  | .vsqrt _ d a l => ⟨some ⟨d, .dst, 1⟩, some ⟨a, .src, 1⟩, none, l⟩
  | .vscl _ d a b l => ⟨some ⟨d, .dst, 1⟩, some ⟨a, .src, 1⟩, some ⟨b, .src, 1⟩, l⟩
  | .vcpys _ d a b l => ⟨some ⟨d, .dst, 1⟩, some ⟨a, .src, 1⟩, some ⟨b, .src, 1⟩, l⟩
  | .vceqF _ d a b l => ⟨some ⟨d, .dst, 1⟩, some ⟨a, .src, 1⟩, some ⟨b, .src, 1⟩, l⟩
  | .vcltF _ d a b l => ⟨some ⟨d, .dst, 1⟩, some ⟨a, .src, 1⟩, some ⟨b, .src, 1⟩, l⟩
  | .vcle _ d a b l => ⟨some ⟨d, .dst, 1⟩, some ⟨a, .src, 1⟩, some ⟨b, .src, 1⟩, l⟩
  | .vaddI _ d a b l => ⟨some ⟨d, .dst, 1⟩, some ⟨a, .src, 1⟩, some ⟨b, .src, 1⟩, l⟩
  | .vsubI _ d a b l => ⟨some ⟨d, .dst, 1⟩, some ⟨a, .src, 1⟩, some ⟨b, .src, 1⟩, l⟩
  | .vmulI _ d a b l => ⟨some ⟨d, .dst, 1⟩, some ⟨a, .src, 1⟩, some ⟨b, .src, 1⟩, l⟩
  | .vmulh _ d a b l => ⟨some ⟨d, .dst, 1⟩, some ⟨a, .src, 1⟩, some ⟨b, .src, 1⟩, l⟩
  | .vadds _ d a b l => ⟨some ⟨d, .dst, 1⟩, some ⟨a, .src, 1⟩, some ⟨b, .src, 1⟩, l⟩
  | .vsubs _ d a b l => ⟨some ⟨d, .dst, 1⟩, some ⟨a, .src, 1⟩, some ⟨b, .src, 1⟩, l⟩
  | .vminI _ d a b l => ⟨some ⟨d, .dst, 1⟩, some ⟨a, .src, 1⟩, some ⟨b, .src, 1⟩, l⟩
  | .vmaxI _ d a b l => ⟨some ⟨d, .dst, 1⟩, some ⟨a, .src, 1⟩, some ⟨b, .src, 1⟩, l⟩
  | .vminu _ d a b l => ⟨some ⟨d, .dst, 1⟩, some ⟨a, .src, 1⟩, some ⟨b, .src, 1⟩, l⟩
  | .vmaxu _ d a b l => ⟨some ⟨d, .dst, 1⟩, some ⟨a, .src, 1⟩, some ⟨b, .src, 1⟩, l⟩
  | .vceqI _ d a b l => ⟨some ⟨d, .dst, 1⟩, some ⟨a, .src, 1⟩, some ⟨b, .src, 1⟩, l⟩
  | .vcltI _ d a b l => ⟨some ⟨d, .dst, 1⟩, some ⟨a, .src, 1⟩, some ⟨b, .src, 1⟩, l⟩
  | .vcltu _ d a b l => ⟨some ⟨d, .dst, 1⟩, some ⟨a, .src, 1⟩, some ⟨b, .src, 1⟩, l⟩
  | .vshl _ d a _ l => ⟨some ⟨d, .dst, 1⟩, some ⟨a, .src, 1⟩, none, l⟩
  | .vshr _ d a _ l => ⟨some ⟨d, .dst, 1⟩, some ⟨a, .src, 1⟩, none, l⟩
  | .vsra _ d a _ l => ⟨some ⟨d, .dst, 1⟩, some ⟨a, .src, 1⟩, none, l⟩
  | .vabsI _ d a l => ⟨some ⟨d, .dst, 1⟩, some ⟨a, .src, 1⟩, none, l⟩
  | .vnegI _ d a l => ⟨some ⟨d, .dst, 1⟩, some ⟨a, .src, 1⟩, none, l⟩
  | .vand d a b l => ⟨some ⟨d, .dst, 1⟩, some ⟨a, .src, 1⟩, some ⟨b, .src, 1⟩, l⟩
  | .vor d a b l => ⟨some ⟨d, .dst, 1⟩, some ⟨a, .src, 1⟩, some ⟨b, .src, 1⟩, l⟩
  | .vxor d a b l => ⟨some ⟨d, .dst, 1⟩, some ⟨a, .src, 1⟩, some ⟨b, .src, 1⟩, l⟩
  | .vsel d a b l => ⟨some ⟨d, .rw, 1⟩, some ⟨a, .src, 1⟩, some ⟨b, .src, 1⟩, l⟩
  | .vperm d a b l => ⟨some ⟨d, .dst, 1⟩, some ⟨a, .src, 1⟩, some ⟨b, .src, 1⟩, l⟩
  | .vbcst d _ _ => ⟨some ⟨d, .dst, 1⟩, none, none, false⟩
  | .vins d _ _ _ => ⟨some ⟨d, .rw, 1⟩, none, none, false⟩
  | .vext _ a _ _ l => ⟨none, some ⟨a, .src, 1⟩, none, l⟩
  | .vrev d a _ l => ⟨some ⟨d, .dst, 1⟩, some ⟨a, .src, 1⟩, none, l⟩
  | .vzipH d a b l => ⟨some ⟨d, .dst, 2⟩, some ⟨a, .src, 1⟩, some ⟨b, .src, 1⟩, l⟩
  | .vzipW d a b l => ⟨some ⟨d, .dst, 2⟩, some ⟨a, .src, 1⟩, some ⟨b, .src, 1⟩, l⟩
  | .vuzpH d a b l => ⟨some ⟨d, .dst, 2⟩, some ⟨a, .src, 1⟩, some ⟨b, .src, 1⟩, l⟩
  | .vuzpW d a b l => ⟨some ⟨d, .dst, 2⟩, some ⟨a, .src, 1⟩, some ⟨b, .src, 1⟩, l⟩
  | .vpark a _ l => ⟨none, some ⟨a, .src, 1⟩, none, l⟩
  | .vunpk d _ => ⟨some ⟨d, .dst, 1⟩, none, none, false⟩
  | .vcvt d a _ _ _ _ l => ⟨some ⟨d, .dst, 1⟩, some ⟨a, .src, 1⟩, none, l⟩
  | .vpack d a _ _ _ tp l => ⟨some ⟨d, .dst, 1⟩, some ⟨a, .src, packRatio tp⟩, none, l⟩
  | .vwiden d a _ _ _ tp l => ⟨some ⟨d, .dst, packRatio tp⟩, some ⟨a, .src, 1⟩, none, l⟩
  | .vcvtB d a _ _ _ _ l => ⟨some ⟨d, .dst, 1⟩, some ⟨a, .src, 1⟩, none, l⟩
  | .vcvtef d a e l _ => ⟨some ⟨d, .dst, 1⟩, some ⟨a, .src, 1⟩, some ⟨e, .dst, 1⟩, l⟩
  | .vrsum d a _ l => ⟨some ⟨d, .rw, 1⟩, some ⟨a, .src, 1⟩, none, l⟩
  | .vrmax d a _ l => ⟨some ⟨d, .rw, 1⟩, some ⟨a, .src, 1⟩, none, l⟩
  | .vrmin d a _ l => ⟨some ⟨d, .rw, 1⟩, some ⟨a, .src, 1⟩, none, l⟩
  | .vdotF32 d a b l => ⟨some ⟨d, .rw, 1⟩, some ⟨a, .src, 1⟩, some ⟨b, .src, 1⟩, l⟩
  | .vdotBf16 d a b l => ⟨some ⟨d, .rw, 1⟩, some ⟨a, .src, 1⟩, some ⟨b, .src, 1⟩, l⟩
  | .vdotF16 d a b l => ⟨some ⟨d, .rw, 1⟩, some ⟨a, .src, 1⟩, some ⟨b, .src, 1⟩, l⟩
  | .vdotI16 d a b l => ⟨some ⟨d, .rw, 1⟩, some ⟨a, .src, 1⟩, some ⟨b, .src, 1⟩, l⟩
  | .vdotI8 d a b l => ⟨some ⟨d, .rw, 1⟩, some ⟨a, .src, 1⟩, some ⟨b, .src, 1⟩, l⟩
  | .vdotwBf16 d a b l => ⟨some ⟨d, .rw, 1⟩, some ⟨a, .src, 1⟩, some ⟨b, .src, 1⟩, l⟩
  | .vdotwF16 d a b l => ⟨some ⟨d, .rw, 1⟩, some ⟨a, .src, 1⟩, some ⟨b, .src, 1⟩, l⟩
  | .vdotwI16 d a b l => ⟨some ⟨d, .rw, 1⟩, some ⟨a, .src, 1⟩, some ⟨b, .src, 1⟩, l⟩
  | .vdotwI8 d a b l => ⟨some ⟨d, .rw, 1⟩, some ⟨a, .src, 1⟩, some ⟨b, .src, 1⟩, l⟩
  | .vsprs d a _ l => ⟨some ⟨d, .dst, 1⟩, some ⟨a, .src, 1⟩, none, l⟩
  | .vsexp d a _ l => ⟨some ⟨d, .dst, 1⟩, some ⟨a, .src, 1⟩, none, l⟩
  | .vsdot _ a b l => ⟨none, some ⟨a, .src, 1⟩, some ⟨b, .src, 1⟩, l⟩
  | _ => {}

/-- A row word with its row fields renamed, field by field (R164, R271). -/
def renameRows (fd fa fb : RowName → RowName) : Instr → Instr
  | .vaddF t d a b l => .vaddF t (fd d) (fa a) (fb b) l
  | .vsubF t d a b l => .vsubF t (fd d) (fa a) (fb b) l
  | .vmulF t d a b l => .vmulF t (fd d) (fa a) (fb b) l
  | .vdiv t d a b l => .vdiv t (fd d) (fa a) (fb b) l
  | .vfma t d a b l => .vfma t (fd d) (fa a) (fb b) l
  | .vfms t d a b l => .vfms t (fd d) (fa a) (fb b) l
  | .vminF t d a b l => .vminF t (fd d) (fa a) (fb b) l
  | .vmaxF t d a b l => .vmaxF t (fd d) (fa a) (fb b) l
  | .vabsF t d a l => .vabsF t (fd d) (fa a) l
  | .vnegF t d a l => .vnegF t (fd d) (fa a) l
  | .vsqrt t d a l => .vsqrt t (fd d) (fa a) l
  | .vscl t d a b l => .vscl t (fd d) (fa a) (fb b) l
  | .vcpys t d a b l => .vcpys t (fd d) (fa a) (fb b) l
  | .vceqF t d a b l => .vceqF t (fd d) (fa a) (fb b) l
  | .vcltF t d a b l => .vcltF t (fd d) (fa a) (fb b) l
  | .vcle t d a b l => .vcle t (fd d) (fa a) (fb b) l
  | .vaddI t d a b l => .vaddI t (fd d) (fa a) (fb b) l
  | .vsubI t d a b l => .vsubI t (fd d) (fa a) (fb b) l
  | .vmulI t d a b l => .vmulI t (fd d) (fa a) (fb b) l
  | .vmulh t d a b l => .vmulh t (fd d) (fa a) (fb b) l
  | .vadds t d a b l => .vadds t (fd d) (fa a) (fb b) l
  | .vsubs t d a b l => .vsubs t (fd d) (fa a) (fb b) l
  | .vminI t d a b l => .vminI t (fd d) (fa a) (fb b) l
  | .vmaxI t d a b l => .vmaxI t (fd d) (fa a) (fb b) l
  | .vminu t d a b l => .vminu t (fd d) (fa a) (fb b) l
  | .vmaxu t d a b l => .vmaxu t (fd d) (fa a) (fb b) l
  | .vceqI t d a b l => .vceqI t (fd d) (fa a) (fb b) l
  | .vcltI t d a b l => .vcltI t (fd d) (fa a) (fb b) l
  | .vcltu t d a b l => .vcltu t (fd d) (fa a) (fb b) l
  | .vshl t d a n l => .vshl t (fd d) (fa a) n l
  | .vshr t d a n l => .vshr t (fd d) (fa a) n l
  | .vsra t d a n l => .vsra t (fd d) (fa a) n l
  | .vabsI t d a l => .vabsI t (fd d) (fa a) l
  | .vnegI t d a l => .vnegI t (fd d) (fa a) l
  | .vand d a b l => .vand (fd d) (fa a) (fb b) l
  | .vor d a b l => .vor (fd d) (fa a) (fb b) l
  | .vxor d a b l => .vxor (fd d) (fa a) (fb b) l
  | .vsel d a b l => .vsel (fd d) (fa a) (fb b) l
  | .vperm d a b l => .vperm (fd d) (fa a) (fb b) l
  | .vbcst d a w => .vbcst (fd d) a w
  | .vins d a w n => .vins (fd d) a w n
  | .vext d a w n l => .vext d (fa a) w n l
  | .vrev d a w l => .vrev (fd d) (fa a) w l
  | .vzipH d a b l => .vzipH (fd d) (fa a) (fb b) l
  | .vzipW d a b l => .vzipW (fd d) (fa a) (fb b) l
  | .vuzpH d a b l => .vuzpH (fd d) (fa a) (fb b) l
  | .vuzpW d a b l => .vuzpW (fd d) (fa a) (fb b) l
  | .vpark a p l => .vpark (fa a) p l
  | .vunpk d p => .vunpk (fd d) p
  | .vcvt d a rm sat amx tp l => .vcvt (fd d) (fa a) rm sat amx tp l
  | .vpack d a rm sat amx tp l => .vpack (fd d) (fa a) rm sat amx tp l
  | .vwiden d a rm sat amx tp l => .vwiden (fd d) (fa a) rm sat amx tp l
  | .vcvtB d a rm sat amx tb l => .vcvtB (fd d) (fa a) rm sat amx tb l
  | .vcvtef d a e l f16 => .vcvtef (fd d) (fa a) (fb e) l f16
  | .vrsum d a t l => .vrsum (fd d) (fa a) t l
  | .vrmax d a t l => .vrmax (fd d) (fa a) t l
  | .vrmin d a t l => .vrmin (fd d) (fa a) t l
  | .vdotF32 d a b l => .vdotF32 (fd d) (fa a) (fb b) l
  | .vdotBf16 d a b l => .vdotBf16 (fd d) (fa a) (fb b) l
  | .vdotF16 d a b l => .vdotF16 (fd d) (fa a) (fb b) l
  | .vdotI16 d a b l => .vdotI16 (fd d) (fa a) (fb b) l
  | .vdotI8 d a b l => .vdotI8 (fd d) (fa a) (fb b) l
  | .vdotwBf16 d a b l => .vdotwBf16 (fd d) (fa a) (fb b) l
  | .vdotwF16 d a b l => .vdotwF16 (fd d) (fa a) (fb b) l
  | .vdotwI16 d a b l => .vdotwI16 (fd d) (fa a) (fb b) l
  | .vdotwI8 d a b l => .vdotwI8 (fd d) (fa a) (fb b) l
  | .vsprs d a m l => .vsprs (fd d) (fa a) m l
  | .vsexp d a m l => .vsexp (fd d) (fa a) m l
  | .vsdot d a b l => .vsdot d (fa a) (fb b) l
  | i => i

/-- The row fields as a list, in the order of the checks (R344). -/
def RowShape.fields (h : RowShape) : List RowField := h.d.toList ++ h.a.toList ++ h.b.toList

/-- The row that a strided field names in a replay (R164). -/
def strideName (k st : Nat) (n : RowName) : RowName :=
  if n.toNat < 112 then BitVec.ofNat 7 ((n.toNat + k * st) % 112) else n

/-- A body word as replay `k` performs it (R271). -/
def strideInstr (k sd sa sb : Nat) (i : Instr) : Instr :=
  renameRows (strideName k sd) (strideName k sa) (strideName k sb) i

/-! ## The banks that the slot's earlier work will have left (R329) -/

/-- One effect on a bank: code 0 an Off hint, 1 a Retain hint, 2 a write or a BANK to Full, 3 a read. -/
def bankAfter (st : Nat) : Nat → Nat
  | 0 => 0
  | 1 => if st = 0 then 0 else 1
  | 3 => if st = 0 then 0 else 2
  | _ => 2

/-- The state of bank `b` after effects in order. -/
def bankAfterAll (b st : Nat) (effs : List (Nat × Nat)) : Nat :=
  effs.foldl (fun c e => if e.1 = b then bankAfter c e.2 else c) st

/-- The hint of R70 as an effect. -/
def hintEffect (b : Nat) : Hint → List (Nat × Nat)
  | .none => []
  | .rt => [(b, 1)]
  | .dd => [(b, 0)]

/-- The bank of the issuing core that a storage key lies in. -/
def ownBank (core k : Nat) : Option Nat :=
  if chipBit ≤ k && (chipOf k).unit < 16 && (chipOf k).core = core && core < 1024 then (chipOf k).bank? else none

/-- Does a scratch bank belong to the slot (R70)? Banks below 16 are tile banks. -/
def Slot.hasBank (x : Slot) (b : Nat) : Bool := if b < 16 then x.tiles.contains b else x.sb.getLsbD (b - 16)

/-- The bank to which the hint of an access at a key applies: a scratch bank of the slot (R70). -/
def Slot.hintBank (x : Slot) (core k : Nat) : Option Nat :=
  match ownBank core k with
  | some b => if 16 ≤ b && x.hasBank b then some b else none
  | none => none

/-- The tile banks of a field's tile rows. -/
def Slot.fieldBanks (x : Slot) (f : RowField) : List Nat :=
  if f.name.toNat < 112 then (List.range f.cnt).map fun j => x.tileBank (f.name.toNat + j) else []

/-- What a row word does to the slot's tile banks: reads, writes, and last its L bit where it acts. -/
def Slot.rowEffects (x : Slot) (i : Instr) (last : Bool) : List (Nat × Nat) :=
  let h := rowShape i
  let wr : RowField → List (Nat × Nat) := fun f => if f.use == .src then [] else (x.fieldBanks f).map fun b => (b, 2)
  let park : List (Nat × Nat) := match i with
    | .vpark _ p _ => if 64 ≤ p.toNat then [(12 + (p.toNat - 64) / 16, 2)] else []
    | _ => []
  h.fields.flatMap wr ++ park ++
    (if h.l && last then (match h.a with | some f => (x.fieldBanks f).take 1 |>.map fun b => (b, 0) | none => []) else [])

/-- The tile bank to which the hint of an RST applies once its store is performed: that of its source row, where the store goes into the same bank
(R70, R72). ST stores at most 8 bytes. -/
def Slot.rstBank (x : Slot) (core k n : Nat) : Option Nat :=
  match ownBank core k with
  | some b => if n = 32 && b < 16 && x.hasBank b then some b else none
  | none => none

/-- The effects of an access in flight on the banks of its core. -/
def Slot.flightEffects (x : Slot) (core : Nat) (f : Flight) : List (Nat × Nat) :=
  let hb (k : Nat) (h : Hint) : List (Nat × Nat) := match x.hintBank core k with
    | some b => hintEffect b h
    | none => []
  let land (d : Dest) : List (Nat × Nat) := match d with
    | .row n => [(x.tileBank n.toNat, 2)]
    | _ => []
  match f.act with
  | .load d _ k _ _ _ h => (match ownBank core k with | some b => [(b, 3)] | none => []) ++ hb k h ++ land d
  | .store _ k d _ h => (match ownBank core k with | some b => [(b, 2)] | none => []) ++ hb k h ++
      (match x.rstBank core k d.length with | some b => hintEffect b h | none => [])
  | .result d _ _ _ => land d
  | .rows o => (o.rows.filterMap fun e => (ownBank core e.1).map fun b => (b, 2)) ++ o.offs.map fun b => (b, 0)
  | _ => []

/-- The effects of a sequencer entry. -/
def Slot.entryEffects (x : Slot) (e : SeqEntry) : List (Nat × Nat) :=
  match e.instr with
  | .rst r _ h _ => if r.toNat < 112 then hintEffect (x.tileBank r.toNat) h else []
  | i => x.rowEffects i true

/-- Inserts by number of issue. -/
def insertEff (e : Nat × List (Nat × Nat)) : List (Nat × List (Nat × Nat)) → List (Nat × List (Nat × Nat))
  | [] => [e]
  | f :: l => if e.1 ≤ f.1 then e :: f :: l else f :: insertEff e l

/-- The bank effects that the slot's earlier instructions still owe, in order of issue. -/
def State.owedEffects (s : State) (r : SlotRef) : List (Nat × Nat) :=
  let x : Slot := s.slot r
  let c : Core := s.core r.core
  let fl := (s.flightsOf r).map fun f => (f.id, x.flightEffects r.core f)
  let sq := (s.seqOf r).flatMap fun it => match it with
    | .one e => [(e.id, x.entryEffects e)]
    | .rep b => b.words.map fun e =>
        (e.id, (List.range (Nat.min b.count 112)).flatMap fun k =>
          x.rowEffects (strideInstr k b.sd b.sa b.sb e.instr) (decide (k + 1 = Nat.min b.count 112)))
  c.hints ++ c.due ++ ((fl ++ sq).foldr insertEff []).flatMap (·.2)

/-- The state in which the slot's next instruction will find a bank of its core (R329). -/
def State.bankSoon (s : State) (r : SlotRef) (b : Nat) : Nat :=
  bankAfterAll b ((s.core r.core).bank b) (s.owedEffects r)

/-! ## Entering the sequencer (R162) -/

/-- Entries of the sequencer of a core. -/
def Core.seqLen (c : Core) : Nat := (c.seq.flatMap SeqItem.entries).length

/-- Enters one word in the sequencer, which stalls the slot while it is full; scalar destinations are marked empty. -/
def State.pushSeq (s : State) (i : Instr) (scal : List Word) (ea : Option (Word × Nat)) (dst : List Reg) : State :=
  if 16 ≤ (s.core s.cur.core).seqLen then s
  else
    let e : SeqEntry := { slot := s.cur.slot, party := s.sl.party, instr := i, word := s.ir, scal := scal, ea := ea, id := s.fresh, inh := bit s.sl.trap.tstat 4,
                          frm := [RMode.rne, RMode.rtz, RMode.rdn, RMode.rup].getD s.sl.frm.toNat .rne }
    let s1 : State := { s with fresh := s.fresh + 1 }
    (s1.modCore s1.cur.core fun k => { k with seq := k.seq ++ [.one e] }).done fun x =>
      dst.foldl (fun y d => y.setFull d false) x

end Sys2Proof.Machine
end

