-- ==== Sys2Proof/Machine/Scalar.lean ====
section
/-! DEFINITION. Scalar arithmetic, constants, branches and jumps (R233 to R243), the hint region but PREF (R218), TRAP and BRK (R246),
and the two events of a word that cannot be issued (R215, R344, R347). -/

namespace Sys2Proof.Machine

open Host

/-- A one-cycle operation of two scalars. -/
def alu2 (d a b : Reg) (wa wb : Bool) (f : Word → Word → Word) (s : State) : State :=
  s.issue [(a, wa), (b, wb)] [d] fun s => s.setD d (f (s.sl.rd a) (s.sl.rd b))

/-- An operation of two scalars that is a producer (R233). -/
def alu2p (d a b : Reg) (wa wb : Bool) (f : Word → Word → Word) (s : State) : State :=
  s.issue [(a, wa), (b, wb)] [d] fun s => s.produce d (landReg d (f (s.sl.rd a) (s.sl.rd b)))

/-- A one-cycle operation of one scalar. -/
def alu1 (d a : Reg) (wa : Bool) (f : Word → Word) (s : State) : State :=
  s.issue [(a, wa)] [d] fun s => s.setD d (f (s.sl.rd a))

/-- An operation of one scalar in the WDEF mode. -/
def aluI (d a : Reg) (f : Word → Word) (s : State) : State := alu1 d a s.wmode f s

/-- ADD (R233). -/
def execAdd (d a b : Reg) (wa wb w : Bool) (s : State) : Out1 := .next (alu2 d a b wa wb (wsel w (· + ·) (· + ·)) s)
/-- SUB (R233). -/
def execSub (d a b : Reg) (wa wb w : Bool) (s : State) : Out1 := .next (alu2 d a b wa wb (wsel w (· - ·) (· - ·)) s)
/-- MUL (R233). -/
def execMul (d a b : Reg) (wa wb w : Bool) (s : State) : Out1 := .next (alu2p d a b wa wb (wsel w (· * ·) (· * ·)) s)
/-- MULH (R233). -/
def execMulh (d a b : Reg) (wa wb : Bool) (s : State) : Out1 := .next (alu2p d a b wa wb mulhS s)
/-- MULHU (R233). -/
def execMulhu (d a b : Reg) (wa wb : Bool) (s : State) : Out1 := .next (alu2p d a b wa wb mulhU s)
/-- DIV (R235). -/
def execDiv (d a b : Reg) (wa wb w : Bool) (s : State) : Out1 := .next (alu2p d a b wa wb (wsel w divS divS) s)
/-- DIVU (R235). -/
def execDivu (d a b : Reg) (wa wb w : Bool) (s : State) : Out1 := .next (alu2p d a b wa wb (wsel w divU divU) s)
/-- REM (R235). -/
def execRem (d a b : Reg) (wa wb w : Bool) (s : State) : Out1 := .next (alu2p d a b wa wb (wsel w remS remS) s)
/-- REMU (R235). -/
def execRemu (d a b : Reg) (wa wb w : Bool) (s : State) : Out1 := .next (alu2p d a b wa wb (wsel w remU remU) s)
/-- AND (R233). -/
def execAnd (d a b : Reg) (wa wb : Bool) (s : State) : Out1 := .next (alu2 d a b wa wb (· &&& ·) s)
/-- OR (R233). -/
def execOr (d a b : Reg) (wa wb : Bool) (s : State) : Out1 := .next (alu2 d a b wa wb (· ||| ·) s)
/-- XOR (R233). -/
def execXor (d a b : Reg) (wa wb : Bool) (s : State) : Out1 := .next (alu2 d a b wa wb (· ^^^ ·) s)
/-- ANDN (R233). -/
def execAndn (d a b : Reg) (wa wb : Bool) (s : State) : Out1 := .next (alu2 d a b wa wb (fun x y => x &&& ~~~y) s)
/-- ORN (R233). -/
def execOrn (d a b : Reg) (wa wb : Bool) (s : State) : Out1 := .next (alu2 d a b wa wb (fun x y => x ||| ~~~y) s)
/-- SLL (R233). -/
def execSll (d a b : Reg) (wa wb w : Bool) (s : State) : Out1 := .next (alu2 d a b wa wb (wsel w shl shl) s)
/-- SRL (R233). -/
def execSrl (d a b : Reg) (wa wb w : Bool) (s : State) : Out1 := .next (alu2 d a b wa wb (wsel w shr shr) s)
/-- SRA (R233). -/
def execSra (d a b : Reg) (wa wb w : Bool) (s : State) : Out1 := .next (alu2 d a b wa wb (wsel w sra sra) s)
/-- ROL (R233). -/
def execRol (d a b : Reg) (wa wb w : Bool) (s : State) : Out1 := .next (alu2 d a b wa wb (wsel w rol rol) s)
/-- ROR (R233). -/
def execRor (d a b : Reg) (wa wb w : Bool) (s : State) : Out1 := .next (alu2 d a b wa wb (wsel w ror ror) s)
/-- SLT (R233). -/
def execSlt (d a b : Reg) (wa wb : Bool) (s : State) : Out1 := .next (alu2 d a b wa wb (fun x y => boolW (x.slt y)) s)
/-- SLTU (R233). -/
def execSltu (d a b : Reg) (wa wb : Bool) (s : State) : Out1 := .next (alu2 d a b wa wb (fun x y => boolW (x.ult y)) s)
/-- MIN (R233). -/
def execMin (d a b : Reg) (wa wb : Bool) (s : State) : Out1 := .next (alu2 d a b wa wb (fun x y => if y.slt x then y else x) s)
/-- MAX (R233). -/
def execMax (d a b : Reg) (wa wb : Bool) (s : State) : Out1 := .next (alu2 d a b wa wb (fun x y => if x.slt y then y else x) s)
/-- MINU (R233). -/
def execMinu (d a b : Reg) (wa wb : Bool) (s : State) : Out1 := .next (alu2 d a b wa wb (fun x y => if y.ult x then y else x) s)
/-- MAXU (R233). -/
def execMaxu (d a b : Reg) (wa wb : Bool) (s : State) : Out1 := .next (alu2 d a b wa wb (fun x y => if x.ult y then y else x) s)
/-- CLZ (R233, R234). -/
def execClz (d a : Reg) (wa w : Bool) (s : State) : Out1 :=
  .next (alu1 d a wa (fun x => wsel w (fun x _ => clz x) (fun x _ => clz x) x x) s)
/-- CTZ (R233, R234). -/
def execCtz (d a : Reg) (wa w : Bool) (s : State) : Out1 :=
  .next (alu1 d a wa (fun x => wsel w (fun x _ => ctz x) (fun x _ => ctz x) x x) s)
/-- POPC (R233, R234). -/
def execPopc (d a : Reg) (wa w : Bool) (s : State) : Out1 :=
  .next (alu1 d a wa (fun x => wsel w (fun x _ => popc x) (fun x _ => popc x) x x) s)
/-- SEXT (R236). -/
def execSext (d a b : Reg) (wa wb : Bool) (s : State) : Out1 := .next (alu2 d a b wa wb sextBit s)
/-- BEXT (R236). -/
def execBext (d a b : Reg) (wa wb : Bool) (s : State) : Out1 := .next (alu2 d a b wa wb bext s)
/-- BINS (R236): d is a third source, always in block mode. -/
def execBins (d a b : Reg) (wa wb : Bool) (s : State) : Out1 :=
  .next (s.issue [(a, wa), (b, wb), (d, false)] [d] fun s => s.setD d (bins (s.sl.rd a) (s.sl.rd b) (s.sl.rd d)))

/-- ADDI (R237). -/
def execAddi (d a : Reg) (i : BitVec 16) (s : State) : Out1 := .next (aluI d a (fun x => x + i.signExtend 64) s)
/-- ANDI (R237). -/
def execAndi (d a : Reg) (i : BitVec 16) (s : State) : Out1 := .next (aluI d a (fun x => x &&& i.setWidth 64) s)
/-- ORI (R237). -/
def execOri (d a : Reg) (i : BitVec 16) (s : State) : Out1 := .next (aluI d a (fun x => x ||| i.setWidth 64) s)
/-- XORI (R237). -/
def execXori (d a : Reg) (i : BitVec 16) (s : State) : Out1 := .next (aluI d a (fun x => x ^^^ i.setWidth 64) s)
/-- SLTI (R237). -/
def execSlti (d a : Reg) (i : BitVec 16) (s : State) : Out1 := .next (aluI d a (fun x => boolW (x.slt (i.signExtend 64))) s)
/-- SLTIU (R237). -/
def execSltiu (d a : Reg) (i : BitVec 16) (s : State) : Out1 := .next (aluI d a (fun x => boolW (x.ult (i.signExtend 64))) s)

/-- SLLI (R238). -/
def execSlli (d a : Reg) (w : Bool) (n : BitVec 6) (s : State) : Out1 := .next (aluI d a (fun x => wsel w shl shl x (n.setWidth 64)) s)
/-- SRLI (R238). -/
def execSrli (d a : Reg) (w : Bool) (n : BitVec 6) (s : State) : Out1 := .next (aluI d a (fun x => wsel w shr shr x (n.setWidth 64)) s)
/-- SRAI (R238). -/
def execSrai (d a : Reg) (w : Bool) (n : BitVec 6) (s : State) : Out1 := .next (aluI d a (fun x => wsel w sra sra x (n.setWidth 64)) s)
/-- RORI (R238). -/
def execRori (d a : Reg) (w : Bool) (n : BitVec 6) (s : State) : Out1 := .next (aluI d a (fun x => wsel w ror ror x (n.setWidth 64)) s)

/-- LUI (R239). -/
def execLui (d : Reg) (i : BitVec 21) (s : State) : Out1 :=
  .next (s.issue [] [d] fun s => s.setD d (i.signExtend 64 <<< 16))
/-- LUH (R239): d is a source in the WDEF mode. -/
def execLuh (d : Reg) (i : BitVec 21) (s : State) : Out1 :=
  .next (s.issue [(d, s.wmode)] [d] fun s =>
    s.setD d ((s.sl.rd d &&& 0x0000_001F_FFFF_FFFF#64) ||| (i.signExtend 64 <<< 37)))
/-- ADPC (R240). -/
def execAdpc (d : Reg) (i : BitVec 21) (s : State) : Out1 :=
  .next (s.issue [] [d] fun s => s.setD d ((s.sl.pc &&& ~~~0xFFF#64) + (i.signExtend 64 <<< 12)))

/-- Retires and continues at an address. -/
def State.jump (s : State) (f : Slot → Slot) (t : Word) : State := s.modSl fun x => { (f x).retire with pc := t }

/-- A branch on two scalars (R241). -/
def branch (a b : Reg) (i : BitVec 16) (c : Word → Word → Bool) (s : State) : State :=
  s.issue [(a, s.wmode), (b, s.wmode)] [] fun s =>
    if c (s.sl.rd a) (s.sl.rd b) then s.jump id (branchTo s.sl.pc i.toInt) else s.done id

/-- BEQ (R241). -/
def execBeq (a b : Reg) (i : BitVec 16) (s : State) : Out1 := .next (branch a b i (fun x y => x == y) s)
/-- BNE (R241). -/
def execBne (a b : Reg) (i : BitVec 16) (s : State) : Out1 := .next (branch a b i (fun x y => x != y) s)
/-- BLT (R241). -/
def execBlt (a b : Reg) (i : BitVec 16) (s : State) : Out1 := .next (branch a b i (fun x y => x.slt y) s)
/-- BGE (R241). -/
def execBge (a b : Reg) (i : BitVec 16) (s : State) : Out1 := .next (branch a b i (fun x y => !x.slt y) s)
/-- BLTU (R241). -/
def execBltu (a b : Reg) (i : BitVec 16) (s : State) : Out1 := .next (branch a b i (fun x y => x.ult y) s)
/-- BGEU (R241). -/
def execBgeu (a b : Reg) (i : BitVec 16) (s : State) : Out1 := .next (branch a b i (fun x y => !x.ult y) s)

/-- J (R242). -/
def execJ (i : BitVec 26) (s : State) : Out1 := .next (s.jump id (branchTo s.sl.pc i.toInt))
/-- JAL (R242): the link goes to s31. -/
def execJal (i : BitVec 26) (s : State) : Out1 :=
  .next (s.issue [] [31#5] fun s => s.jump (fun x => x.setS 31#5 (x.pc + 4#64)) (branchTo s.sl.pc i.toInt))

/-- The target of JR and JALR; bits 1:0 not zero is a misaligned use (R243, R351). -/
def jumpReg (a : Reg) (o : BitVec 14) (dst : List Reg) (f : Slot → Slot) (s : State) : State :=
  s.issue [(a, s.wmode)] dst fun s =>
    let t := s.sl.rd a + BitVec.ofInt 64 (4 * o.toInt)
    if t.toNat % 4 ≠ 0 then s.trap 5 t else s.jump f t

/-- JR (R243). -/
def execJr (a : Reg) (o : BitVec 14) (s : State) : Out1 := .next (jumpReg a o [] id s)
/-- JALR (R243). -/
def execJalr (d a : Reg) (o : BitVec 14) (s : State) : Out1 := .next (jumpReg a o [d] (fun x => x.setS d (x.pc + 4#64)) s)

/-- TRAP (R246). -/
def execTrap (c : BitVec 20) (s : State) : Out1 := .next (s.trap 0x0E (c.setWidth 64))
/-- BRK (R246). -/
def execBrk (c : BitVec 20) (s : State) : Out1 := .next (s.trap 0x0F (c.setWidth 64))

/-- NOP (R218). -/
def execNop (s : State) : Out1 := .next (s.done id)
/-- BHINT (R218): timing only. -/
def execBhint (_x : Bool) (s : State) : Out1 := .next (s.done id)
/-- YIELD (R218): the slot forgoes its next issue turn. -/
def execYield (s : State) : Out1 := .next (s.modSl fun x => { x.next with yielded := true })

/-- The kinds of core on which a major's class is present (R215): compute, memory, monitor. -/
def majorOn (k : CoreKind) (op : Nat) : Bool :=
  match k with
  | .compute => op != 49
  | .memory => !([0x17, 0x1E, 49].contains op || (0x20 ≤ op && op ≤ 0x29))
  | .monitor => !([0x17, 0x1B, 0x1D, 0x1E].contains op || (0x20 ≤ op && op ≤ 0x29))

/-- Is the major assigned (R215)? -/
def majorAssigned (op : Nat) : Bool := !((0x2A ≤ op && op ≤ 0x2F) || (0x32 ≤ op && op ≤ 0x3B))

/-- May the level run the word (R216)? -/
def levelMay (lv : Level) (w : BitVec 32) : Bool :=
  let op := bits w.toNat 31 26
  let sop := bits w.toNat 3 0
  match lv with
  | .m => true
  | .s => !(op = 49 || (op = 0x1C && bits w.toNat 25 22 = 15) || (op = 0 && (sop = 4 || sop = 5)))
  | .u => !(op = 49 || (op = 0x1C && bits w.toNat 25 22 = 15) || op = 0)

/-- ILLEGAL_INSTRUCTION (R215, R216, R344 steps 2 to 5): a word that names no instruction. -/
def execIllegalInstruction (w : BitVec 32) (s : State) : Out1 :=
  let s := { s with ir := w }
  let op := bits w.toNat 31 26
  .next
    (if !majorAssigned op then s.trap 1 0#64
    else if !levelMay s.sl.level w then s.trap 2 0#64
    else if !majorOn (coreKind s.cur.core) op then s.trap 3 (wd op)
    else s.trap 1 0#64)

/-- FETCH_FAULT (R347): a fetch that fails traps with TINST = 0; in the first fetch of a handler it escalates as HFF (R336). -/
def execFetchFault (code : Nat) (tval : Word) (s : State) : Out1 :=
  let s := { s with ir := 0#32 }
  let x := s.sl
  .next
    (if x.entry then
      s.escalate s.cur false 0x13 x.pc (fld x.trap.tcause 7 0)
    else s.trap code tval)

end Sys2Proof.Machine
end

