-- ==== Sys2Proof/Machine/Csr.lean ====
section
/-! DEFINITION. The control and status registers and the instructions that reach them (R224, R244, R245, R352), the two tenant-wide
writes (R56, R330), TRET (R309, R337) and the boundary events of a slot (R341, R342). -/

namespace Sys2Proof.Machine

open Host

/-- The read right and the write right of a CSR, or none for an unassigned number (R224, R331, R332). -/
def csrRights (c : Nat) : Option (Level × Option Level) :=
  match c with
  | 0x000 | 0x001 | 0x010 | 0x011 | 0x012 | 0x013 | 0x014 | 0x015 | 0x017 => some (.u, none)
  | 0x016 | 0x018 | 0x020 | 0x021 | 0x022 => some (.u, some .u)
  | 0x030 => some (.u, some .s)
  | 0x031 | 0x032 | 0x033 => some (.s, some .s)
  | 0x038 | 0x039 | 0x03A | 0x03B | 0x03C | 0x03D | 0x03E | 0x03F => some (.s, none)
  | 0x040 | 0x041 | 0x042 | 0x043 | 0x044 => some (.u, none)
  | 0x100 | 0x101 | 0x102 | 0x103 | 0x104 | 0x105 | 0x106 => some (.s, some .s)
  | 0x200 => some (.m, none)
  | _ => none

/-- Is a level at or above another? -/
def Level.atLeast (a b : Level) : Bool := decide (b.code ≤ a.code)

/-- CTXID of a slot (R224). -/
def State.ctxid (s : State) (r : SlotRef) : Word :=
  let x := s.slot r
  let k := match coreKind r.core with | .compute => 0 | .memory => 1 | .monitor => 2
  wd (x.ten % 128 * 2 ^ 16 + x.level.code * 2 ^ 14 + k * 2 ^ 12 + coreNum r.core % 1024 * 4 + r.slot % 4)

/-- TILEMAP of a slot (R21). -/
def Slot.tilemap (x : Slot) : Word :=
  wd (x.tiles.length % 8 * 2 ^ 28 + ((List.range 7).map fun i => x.tiles.getD i 0 % 16 * 2 ^ (4 * i)).sum)

/-- SALLOW of a slot (R193). -/
def Slot.sallow (x : Slot) : Word := wd (x.limit % 256 * 256 + (x.limit - x.unacc) % 256)

/-- SCRPOS (R412). -/
def Journal.scrpos (j : Journal) : Word :=
  wd (b01 j.run * 2 ^ 63 + b01 j.rsm * 2 ^ 62 + b01 j.boot * 2 ^ 61 + (if j.boot then 0 else j.vf) * 2 ^ 54
    + (if j.boot then 0 else j.job) * 2 ^ 49 + (if j.boot then j.passed else j.chunk) % 2 ^ 32)

/-- The value of a CSR for the issuing slot. The bank states are those of the end of the last cycle (R66). CSRs of banks, tiles and rows read 0 on cores that have none (R352). -/
def State.csr (s : State) (c : Nat) : Word :=
  let x := s.sl
  let k := s.core s.cur.core
  let compute := coreKind s.cur.core == .compute
  let t := s.tenant x.ten
  match c with
  | 0x000 => wd s.cycle
  | 0x001 => x.retired
  | 0x010 => s.ctxid s.cur
  | 0x011 => x.workid
  | 0x012 => if compute then x.tilemap else 0#64
  | 0x013 => if compute then k.pk else 0#64
  | 0x014 => if compute then k.e0 else 0#64
  | 0x015 => if compute then k.e1 else 0#64
  | 0x016 => boolW x.wdef
  | 0x017 => if compute then x.sb.setWidth 64 else 0#64
  | 0x018 => x.succ
  | 0x020 => x.frm.setWidth 64
  | 0x021 => x.fflags.setWidth 64
  | 0x022 => x.amax.setWidth 64
  | 0x030 => x.sallow
  | 0x031 => t.ptroot
  | 0x032 => t.mspill
  | 0x033 => t.flog
  | 0x040 => s.capmesh
  | 0x041 => s.capfab
  | 0x042 => s.capunits
  | 0x043 => s.capmap
  | 0x044 => s.devloc
  | 0x100 => s.tvecOf s.cur
  | 0x101 => x.trap.tpc
  | 0x102 => x.trap.tcause
  | 0x103 => x.trap.tval
  | 0x104 => x.trap.tinst
  | 0x105 => x.trap.tstat
  | 0x106 => x.trap.tsave
  | 0x200 => s.journal.scrpos
  | _ => if 0x038 ≤ c ∧ c ≤ 0x03F then t.mwin.getD (c - 0x038) 0#64 else 0#64

/-- A write of PTROOT for a tenant, seen by every core and engine of it (R56). -/
def State.setPtroot (s : State) (ten : Nat) (v : Word) : State :=
  s.modTenant ten fun t => { t with ptroot := v &&& 0x0000_FFFF_FFFF_F000#64 }

/-- A write of TVEC: the tenant's, or a monitor core's own (R330). -/
def State.setTvec (s : State) (r : SlotRef) (ten : Nat) (v : Word) : State :=
  let v := v &&& 0x01FF_FFFF_FFFF_FFFC#64
  let a := wd (fld v 56 2 * 4)
  if coreKind r.core = .monitor then s.modCore r.core fun c => { c with tvec := a } else s.modTenant ten fun t => { t with tvec := a }

/-- TSTAT after a write at a level (R332): reserved bits stay 0; at S, PLEVEL does not become 0b10 or 0b11. -/
def tstatWrite (lv : Level) (old v : Word) : Word :=
  let m := v &&& 0xFFFF_F800_0000_0073#64
  if lv = .s ∧ 2 ≤ fld v 1 0 then (m &&& ~~~3#64) ||| (old &&& 3#64) else m

/-- A permitted write of a CSR (R244): only RW fields change. -/
def State.writeCsr (s : State) (c : Nat) (v : Word) : State :=
  let x := s.sl
  let setT (f : TrapRegs → TrapRegs) : State := s.modSl fun x => { x with trap := f x.trap }
  match c with
  | 0x016 => s.modSl fun x => { x with wdef := bit v 0 }
  | 0x018 => s.modSl fun x => { x with succ := v &&& 0x01FF_FFFF_FFFF_FFF0#64 }
  | 0x020 => s.modSl fun x => { x with frm := v.setWidth 2 }
  | 0x021 => s.modSl fun x => { x with fflags := v.setWidth 7 }
  | 0x022 => s.modSl fun x => { x with amax := v.setWidth 31 }
  | 0x030 => if 1 ≤ fld v 15 8 ∧ fld v 15 8 ≤ 64 then s.modSl fun x => { x with limit := fld v 15 8 } else s
  | 0x031 => s.setPtroot x.ten v
  | 0x032 => s.modTenant x.ten fun t => { t with mspill := v &&& 0x01FF_FFFF_FFFF_F00F#64 }
  | 0x033 => s.modTenant x.ten fun t => { t with flog := v &&& 0x01FF_FFFF_FFFF_F08F#64 }
  | 0x100 => s.setTvec s.cur x.ten v
  | 0x101 => setT fun t => { t with tpc := v }
  | 0x102 => setT fun t => { t with tcause := v &&& 0x8000_0000_0000_00FF#64 }
  | 0x103 => setT fun t => { t with tval := v }
  | 0x104 => setT fun t => { t with tinst := v &&& 0xFFFF_FFFF#64 }
  | 0x105 => setT fun t => { t with tstat := tstatWrite x.level t.tstat v }
  | 0x106 => setT fun t => { t with tsave := v }
  | _ => s

/-- Is the CSR ordered with the slot's row instructions through the sequencer (R129, R270)? -/
def csrOrdered (c : Nat) (writes : Bool) : Bool := c == 0x021 || c == 0x022 || (c == 0x013 && !writes)

/-- The rights of a CSR instruction (R352): the trap code, or none (DEDUCED, log 22). -/
def csrFault (lv : Level) (c : Nat) (writes : Bool) : Option Nat :=
  match csrRights c with
  | none => some 1
  | some (r, w) =>
    if !lv.atLeast r then some 2
    else if writes then
      match w with
      | none => some 1
      | some q => if lv.atLeast q then none else some 2
    else none

/-- Has the slot row instructions that have not completed: in the sequencer, or started there with destinations still to write (R261)? -/
def State.rowsUnderWay (s : State) (r : SlotRef) : Bool :=
  !(s.seqOf r).isEmpty || (s.flightsOf r).any fun f => match f.act with | .rows _ => true | _ => false

/-- A CSR instruction (R244): `new` is the value written from the old one, when the form writes. One that is ordered with row
instructions still under way goes through the sequencer behind them. -/
def csrOp (i : Instr) (d : Reg) (src : List (Reg × Bool)) (c : BitVec 12) (new : Option (Word → Word → Word)) (s : State) : State :=
  match csrFault s.sl.level c.toNat new.isSome with
  | some code => s.trap code 0#64
  | none =>
    s.issue src [d] fun s =>
      let v := match src with
        | (a, _) :: _ => s.sl.rd a
        | [] => 0#64
      let old := s.csr c.toNat
      if csrOrdered c.toNat new.isSome && s.rowsUnderWay s.cur then
        s.pushSeq i [v] none [d]
      else
        match new with
        | some f => (s.writeCsr c.toNat (f old v)).setD d old
        | none => s.setD d old

/-- CSRR (R244). -/
def execCsrr (d : Reg) (c : BitVec 12) (s : State) : Out1 := .next (csrOp (.csrr d c) d [] c none s)
/-- CSRW (R244). -/
def execCsrw (d a : Reg) (c : BitVec 12) (s : State) : Out1 :=
  .next (csrOp (.csrw d a c) d [(a, s.wmode)] c (some fun _ v => v) s)
/-- CSRS (R244): with a = s0 it makes no write. -/
def execCsrs (d a : Reg) (c : BitVec 12) (s : State) : Out1 :=
  .next (csrOp (.csrs d a c) d [(a, s.wmode)] c (if a = 0#5 then none else some fun o v => o ||| v) s)
/-- CSRC (R244): with a = s0 it makes no write. -/
def execCsrc (d a : Reg) (c : BitVec 12) (s : State) : Out1 :=
  .next (csrOp (.csrc d a c) d [(a, s.wmode)] c (if a = 0#5 then none else some fun o v => o &&& ~~~v) s)

/-- PTROOT_WRITE (R56): the write takes effect for every core and engine of the tenant. -/
def execPtrootWrite (ten : Nat) (v : Word) (s : State) : Out1 := .next (s.setPtroot ten v)
/-- TVEC_WRITE (R330). -/
def execTvecWrite (ten : Nat) (v : Word) (s : State) : Out1 := .next (s.setTvec ⟨0, 0⟩ ten v)

/-! ## Leaving a handler -/

/-- The level of a PLEVEL code. -/
def levelOf (n : Nat) : Level := if n = 0 then .u else if n = 1 then .s else .m

/-- A held engine operation resumes, or is abandoned when the handler changed TCAUSE.CODE (R374). An abandoned operation carries the
mark EP 63 = 1. -/
def State.settleHeld (s : State) (op : Nat) (resume : Bool) : State :=
  let f : EngOp → EngOp := fun o =>
    if o.id = op ∧ o.held then { o with held := false, eps := if resume then o.eps else o.eps.put 63 1#64 } else o
  { s with
    cores := s.cores.map fun c => (c.1, { c.2 with queue := c.2.queue.map f })
    clusters := s.clusters.map fun c => (c.1, { c.2 with
      tqueue := c.2.tqueue.map f
      arrays := c.2.arrays.map fun a => { a with run := a.run.map fun m =>
        if m.op.id = op ∧ m.op.held then { m with op := { m.op with held := false }, failed := m.failed || !resume }
        else m } }) }

/-- The slot as TRET leaves it (R337). A PC has bits 1:0 zero (R210) (DEDUCED, log 21). -/
def Slot.tret (x : Slot) : Slot :=
  { x.retire with
    level := levelOf (fld x.trap.tstat 1 0)
    wdef := bit x.trap.tstat 6
    trap := { x.trap with tstat := setFld x.trap.tstat 4 4 0 }
    pc := x.trap.tpc &&& ~~~3#64
    armed := bit x.trap.tstat 5
    took := 0
    tookOp := 0 }

/-- Does a core of this kind run at the level of a PLEVEL code (R8)? -/
def runsLevel (core n : Nat) : Bool := if coreKind core = .monitor then n == 2 else decide (n < 2)

/-- TRET (R309, R337). A PLEVEL at which the core does not run (R8) is met as the reserved value 0b11 is (DESIGN CHOICE, log 113). The operation
whose trap has been handled resumes when the handler has left TCAUSE.CODE as it was (R374). -/
def execTret (s : State) : Out1 :=
  .next (s.priv .s fun s =>
    let x := s.sl
    if !bit x.trap.tstat 4 || !runsLevel s.cur.core (fld x.trap.tstat 1 0) then s.trap 1 0#64
    else
      (if x.tookOp = 0 then s else s.settleHeld x.tookOp (fld x.trap.tcause 7 0 == x.took)).setSlot s.cur x.tret)

/-! ## Boundary events (R341) -/

/-- Is a pending fault takeable now? While a handler runs, only a fault of the handler's own access is, and it escalates. -/
def Slot.dueFault (x : Slot) : Option AFault :=
  if bit x.trap.tstat 4 then x.pend.find? fun f => f.handler else x.pend.head?

/-- Has what an instruction has sent on its way retired it (R178)? A SEND retires when it is injected. -/
def Flight.stepped (f : Flight) : Bool :=
  match f.act with
  | .send _ => true
  | .ack => true
  | .marker _ _ => true
  | .coreStop _ _ _ _ _ => true
  | _ => false

/-- Has the instruction of a single step retired (R178)? Nothing earlier delays it. -/
def State.stepOver (s : State) (r : SlotRef) : Bool :=
  let n := (s.slot r).stepFrom
  ((s.seqOf r).all fun i => i.entries.all fun e => decide (e.id < n)) && (s.flightsOf r).all fun f => decide (f.id < n) || f.stepped

/-- Is the single-step trap due? -/
def State.stepTrap (s : State) (r : SlotRef) : Bool :=
  let x := s.slot r
  x.stepDue && !bit x.trap.tstat 4 && s.stepOver r

/-- The fault that the slot takes at its boundary (R341): none while the instruction of a single step has still to retire. -/
def State.faultTaken (s : State) (r : SlotRef) : Option AFault :=
  let x := s.slot r
  if x.stepDue && !bit x.trap.tstat 4 then none else x.dueFault

/-- Does the slot take a pre-emption request of the watchdog at its boundary (R341)? -/
def Slot.preTaken (x : Slot) : Bool := x.pre && !bit x.trap.tstat 4 && !x.stepDue

/-- What the slot takes at its boundary before it issues: the single-step trap, a pending asynchronous fault, a pre-emption request of
the watchdog. -/
def State.boundaryDue (s : State) (r : SlotRef) : Bool := s.stepTrap r || (s.faultTaken r).isSome || (s.slot r).preTaken

/-- May the slot act at all: it holds a strand that is neither frozen nor stopped nor suspended, on a core that runs (R174, R391)? -/
def State.mayAct (s : State) (r : SlotRef) : Bool :=
  let x : Slot := s.slot r
  x.occ != Occ.free && !x.frozen && !x.halted && !x.parked && !(s.core r.core).stopped && !(s.core r.core).fenced

/-- May the slot issue: it may act, and it is not at the end of a single step (R178)? -/
def State.mayRun (s : State) (r : SlotRef) : Bool :=
  let x : Slot := s.slot r
  s.mayAct r && !(x.stepDue && !bit x.trap.tstat 4)

/-- ASYNC_TRAP (R336, R341): the boundary event of a slot that may act. -/
def execAsyncTrap (core slot : Nat) (s : State) : Out1 :=
  let r : SlotRef := ⟨core, slot⟩
  let x := s.slot r
  .next
    (if !s.mayAct r then s
    else if s.stepTrap r then
      (s.setSlot r { x with stepDue := false }).takeTrap r false 0x10 0#64 0#64 none
    else match s.faultTaken r with
      | some f =>
        let s1 := s.setSlot r { x with pend := x.pend.erase f, took := f.code, tookOp := f.op }
        s1.takeTrap r true f.code f.tval 0#64 f.body
      | none =>
        if x.preTaken then (s.setSlot r { x with pre := false }).takeTrap r true 0x11 (wd x.queue) 0#64 none else s)

end Sys2Proof.Machine
end

