-- ==== Sys2Proof/WellFormed.lean ====
section
/-! DEFINITION. Which instructions a word can name: the checks of operand fields that the constructors leave open (R238, R264, R267,
R272, R281, R292, R294, R301). -/

namespace Sys2Proof

/-- Lane width of an integer type (R258). -/
def ITy.width : ITy → Nat
  | .i32 => 32
  | .i16 => 16
  | .i8 => 8

/-- Lanes of a move width (R267). -/
def LaneW.lanes : LaneW → Nat
  | .b => 32
  | .h => 16
  | .w => 8
  | .d => 4

/-- Pairs of table A that VPACK takes (R272). -/
def packable (tp : BitVec 4) : Bool := [0, 1, 2, 3, 8, 9, 14].contains tp.toNat

/-- Pairs of table A that VWIDEN takes (R272). -/
def widenable (tp : BitVec 4) : Bool := [4, 5, 6, 7, 10, 11, 15].contains tp.toNat

/-- Can a word name the instruction? -/
def Instr.wf : Instr → Bool
  | .slli _ _ w n => !(w && n.getLsbD 5)
  | .srli _ _ w n => !(w && n.getLsbD 5)
  | .srai _ _ w n => !(w && n.getLsbD 5)
  | .rori _ _ w n => !(w && n.getLsbD 5)
  | .gbar l => decide (l.toNat < 7)
  | .mbw _ k _ => decide (k.toNat < 6)
  | .mbr _ k => decide (k.toNat < 6)
  | .ego e _ => e != .scrub
  | .vshl t _ _ n _ => decide (n.toNat < t.width)
  | .vshr t _ _ n _ => decide (n.toNat < t.width)
  | .vsra t _ _ n _ => decide (n.toNat < t.width)
  | .vins _ _ w n => decide (n.toNat < w.lanes)
  | .vext _ _ w n _ => decide (n.toNat < w.lanes)
  | .vpack _ _ _ _ _ tp _ => packable tp
  | .vwiden _ _ _ _ _ tp _ => widenable tp
  | .vsdot d _ _ _ => !d.getLsbD 0
  | _ => true

end Sys2Proof
end

