-- ==== Sys2Proof/Decode.lean ====
section
/-! DEFINITION. The decoder, total on any 32-bit word, and the encoder of well-formed instructions (R210 to R224 and the encoding
tables of the instruction reference). A word the decoder refuses is ILLEGAL_INSTRUCTION's (R215, R216). -/

namespace Sys2Proof

open BitVec

/-! ## The formats (R211) -/

/-- A word of format S3. -/
def mkS3 (op : BitVec 6) (d : BitVec 5) (a : BitVec 5) (b : BitVec 5) (wa : Bool) (wb : Bool) (fn : BitVec 9) : BitVec 32 :=
  op ++ d ++ a ++ b ++ ofBool wa ++ ofBool wb ++ fn

/-- A word of format SI (and B, with a5 and b5 in the places of d5 and a5). -/
def mkSI (op : BitVec 6) (d : BitVec 5) (a : BitVec 5) (i : BitVec 16) : BitVec 32 :=
  op ++ d ++ a ++ i

/-- A word of format SU. -/
def mkSU (op : BitVec 6) (d : BitVec 5) (i : BitVec 21) : BitVec 32 :=
  op ++ d ++ i

/-- A word of format J. -/
def mkJ (op : BitVec 6) (i : BitVec 26) : BitVec 32 :=
  op ++ i

/-- A word of format M. -/
def mkM (op : BitVec 6) (d : BitVec 5) (a : BitVec 5) (z : BitVec 3) (h : BitVec 2) (o : BitVec 2) (i : BitVec 9) : BitVec 32 :=
  op ++ d ++ a ++ z ++ h ++ o ++ i

/-- A word of format ROW. -/
def mkROW (op : BitVec 6) (r : BitVec 7) (a : BitVec 5) (st : Bool) (h : BitVec 2) (i : BitVec 11) : BitVec 32 :=
  op ++ r ++ a ++ ofBool st ++ h ++ i

/-- A word of format V. -/
def mkV (op : BitVec 6) (d : BitVec 7) (a : BitVec 7) (b : BitVec 7) (l : Bool) (fn : BitVec 4) : BitVec 32 :=
  op ++ d ++ a ++ b ++ ofBool l ++ fn

/-- A word of format E. -/
def mkE (op : BitVec 6) (e : BitVec 4) (fn : BitVec 6) (a : BitVec 5) (b : BitVec 5) (d : BitVec 5) (sh : Bool) : BitVec 32 :=
  op ++ e ++ fn ++ a ++ b ++ d ++ ofBool sh

/-- A word of format C. -/
def mkC (op : BitVec 6) (d : BitVec 5) (a : BitVec 5) (k : BitVec 2) (c : BitVec 12) : BitVec 32 :=
  op ++ d ++ a ++ k ++ c ++ 0#2

/-- A word of format the hint region (R218). -/
def mkH (op : BitVec 6) (hk : BitVec 4) (x : Bool) (a : BitVec 5) (i : BitVec 16) : BitVec 32 :=
  op ++ hk ++ ofBool x ++ a ++ i

/-! ## Codes of fields (R70, R83, R121, R214, R215, R223, R265, R275, R308) -/

/-- sz3 of a load. -/
def LdSize.code : LdSize → BitVec 3
  | .b => 0#3 | .h => 1#3 | .w => 2#3 | .d => 3#3 | .bu => 4#3 | .hu => 5#3 | .wu => 6#3
/-- sz3 of a store. -/
def StSize.code : StSize → BitVec 3
  | .b => 0#3 | .h => 1#3 | .w => 2#3 | .d => 3#3
/-- lu2. -/
def Hint.code : Hint → BitVec 2
  | .none => 0#2 | .rt => 1#2 | .dd => 2#2
/-- ord2. -/
def Ordering2.code : Ordering2 → BitVec 2
  | .plain => 0#2 | .acq => 1#2 | .rel => 2#2 | .ar => 3#2
/-- Scope codes. -/
def Scope.code : Scope → BitVec 3
  | .slot => 0#3 | .core => 1#3 | .cluster => 2#3 | .device => 3#3 | .fabric => 4#3
/-- Engine codes. -/
def EngCode.code : EngCode → BitVec 4
  | .copy => 0#4 | .matrix => 1#4 | .fold => 2#4 | .task => 3#4 | .stream => 4#4 | .scrub => 15#4
/-- ST of BANK. -/
def BankReq.code : BankReq → BitVec 2
  | .off => 0#2 | .retain => 1#2 | .full => 2#2
/-- The conversion field of a rounding mode. -/
def RMode.code3 : RMode → BitVec 3
  | .rne => 0#3 | .rtz => 1#3 | .rdn => 2#3 | .rup => 3#3
/-- W of the moves. -/
def LaneW.code : LaneW → BitVec 2
  | .b => 0#2 | .h => 1#2 | .w => 2#2 | .d => 3#2
/-- Majors of the float types. -/
def FTy.major : FTy → BitVec 6
  | .f32 => 32#6 | .bf16 => 33#6 | .f16 => 34#6
/-- Majors of the integer types. -/
def ITy.major : ITy → BitVec 6
  | .i32 => 35#6 | .i16 => 36#6 | .i8 => 37#6
/-- Type codes of the reductions. -/
def RedTy.code : RedTy → BitVec 3
  | .f32 => 0#3 | .bf16 => 1#3 | .f16 => 2#3 | .i32 => 3#3 | .i16 => 4#3 | .i8 => 5#3

/-- Reads sz3 of a load. -/
def ldSize? (x : BitVec 3) : Option LdSize :=
  match x.toNat with
  | 0 => some .b | 1 => some .h | 2 => some .w | 3 => some .d | 4 => some .bu | 5 => some .hu | 6 => some .wu | _ => none
/-- Reads sz3 of a store. -/
def stSize? (x : BitVec 3) : Option StSize :=
  match x.toNat with
  | 0 => some .b | 1 => some .h | 2 => some .w | 3 => some .d | _ => none
/-- Reads lu2. -/
def hint? (x : BitVec 2) : Option Hint :=
  match x.toNat with
  | 0 => some .none | 1 => some .rt | 2 => some .dd | _ => none
/-- Reads ord2. -/
def ord2 (x : BitVec 2) : Ordering2 :=
  match x.toNat with
  | 0 => .plain | 1 => .acq | 2 => .rel | _ => .ar
/-- Reads a scope code. -/
def scope? (x : BitVec 3) : Option Scope :=
  match x.toNat with
  | 0 => some .slot | 1 => some .core | 2 => some .cluster | 3 => some .device | 4 => some .fabric | _ => none
/-- Reads an engine code. -/
def eng? (x : BitVec 4) : Option EngCode :=
  match x.toNat with
  | 0 => some .copy | 1 => some .matrix | 2 => some .fold | 3 => some .task | 4 => some .stream | 15 => some .scrub | _ => none
/-- Reads ST of BANK. -/
def bankReq? (x : BitVec 2) : Option BankReq :=
  match x.toNat with
  | 0 => some .off | 1 => some .retain | 2 => some .full | _ => none
/-- Reads the mode of a conversion. -/
def rmode? (x : BitVec 3) : Option RMode :=
  match x.toNat with
  | 0 => some .rne | 1 => some .rtz | 2 => some .rdn | 3 => some .rup | _ => none
/-- Reads W of a move. -/
def laneW (x : BitVec 2) : LaneW :=
  match x.toNat with
  | 0 => .b | 1 => .h | 2 => .w | _ => .d
/-- Reads the type of a reduction. -/
def redTy? (x : BitVec 3) : Option RedTy :=
  match x.toNat with
  | 0 => some .f32 | 1 => some .bf16 | 2 => some .f16 | 3 => some .i32 | 4 => some .i16 | 5 => some .i8 | _ => none

/-! ## The decoder, class by class -/

/-- Major 0x01 (R233). -/
def decAlu (d a b : Reg) (wa wb W : Bool) (opc : Nat) : Option Instr :=
  match opc with
  | 0x00 => some (.add d a b wa wb W)
  | 0x01 => some (.sub d a b wa wb W)
  | 0x02 => some (.mul d a b wa wb W)
  | 0x03 => if W then none else some (.mulh d a b wa wb)
  | 0x04 => if W then none else some (.mulhu d a b wa wb)
  | 0x05 => some (.div d a b wa wb W)
  | 0x06 => some (.divu d a b wa wb W)
  | 0x07 => some (.rem d a b wa wb W)
  | 0x08 => some (.remu d a b wa wb W)
  | 0x10 => if W then none else some (.and d a b wa wb)
  | 0x11 => if W then none else some (.or d a b wa wb)
  | 0x12 => if W then none else some (.xor d a b wa wb)
  | 0x13 => if W then none else some (.andn d a b wa wb)
  | 0x14 => if W then none else some (.orn d a b wa wb)
  | 0x20 => some (.sll d a b wa wb W)
  | 0x21 => some (.srl d a b wa wb W)
  | 0x22 => some (.sra d a b wa wb W)
  | 0x23 => some (.rol d a b wa wb W)
  | 0x24 => some (.ror d a b wa wb W)
  | 0x30 => if W then none else some (.slt d a b wa wb)
  | 0x31 => if W then none else some (.sltu d a b wa wb)
  | 0x32 => if W then none else some (.min d a b wa wb)
  | 0x33 => if W then none else some (.max d a b wa wb)
  | 0x34 => if W then none else some (.minu d a b wa wb)
  | 0x35 => if W then none else some (.maxu d a b wa wb)
  | 0x40 => some (.clz d a wa W)
  | 0x41 => some (.ctz d a wa W)
  | 0x42 => some (.popc d a wa W)
  | 0x43 => if W then none else some (.sext d a b wa wb)
  | 0x44 => if W then none else some (.bext d a b wa wb)
  | 0x45 => if W then none else some (.bins d a b wa wb)
  | _ => none

/-- Major 0x08 (R238). -/
def decShi (d a : Reg) (i : BitVec 16) : Option Instr :=
  let w := i.getLsbD 13
  let n := i.extractLsb' 0 6
  if w && n.getLsbD 5 then none
  else match (i.extractLsb' 14 2).toNat with
    | 0 => some (.slli d a w n)
    | 1 => some (.srli d a w n)
    | 2 => some (.srai d a w n)
    | _ => some (.rori d a w n)

/-- Major 0x14 (R243). -/
def decJreg (d a : Reg) (i : BitVec 16) : Option Instr :=
  match (i.extractLsb' 14 2).toNat with
  | 0 => some (.jr a (i.extractLsb' 0 14))
  | 1 => some (.jalr d a (i.extractLsb' 0 14))
  | _ => none

/-- Majors 0x15 and 0x16 (R282). -/
def decLd (d a : Reg) (z : BitVec 3) (h o : BitVec 2) (i : BitVec 9) : Option Instr :=
  match ldSize? z, hint? h with
  | some z, some h => some (.ld d a z h (ord2 o) i)
  | _, _ => none

/-- Major 0x16 (R282). -/
def decSt (d a : Reg) (z : BitVec 3) (h o : BitVec 2) (i : BitVec 9) : Option Instr :=
  match stSize? z, hint? h with
  | some z, some h => some (.st d a z h (ord2 o) i)
  | _, _ => none

/-- Major 0x17 (R285). -/
def decRow (r : RowName) (a : Reg) (st : Bool) (h : BitVec 2) (i : BitVec 11) : Option Instr :=
  match hint? h with
  | some h => if st then some (.rst r a h i) else some (.rld r a h i)
  | none => none

/-- Major 0x18 (R286). -/
def decAtom (d a b : Reg) (wa wb : Bool) (fn : BitVec 9) : Option Instr :=
  let o := ord2 (fn.extractLsb' 7 2)
  let dbl := fn.getLsbD 6
  match (fn.extractLsb' 0 4).toNat with
  | 0 => some (.aadd d a b wa wb o dbl)
  | 1 => some (.aand d a b wa wb o dbl)
  | 2 => some (.aor d a b wa wb o dbl)
  | 3 => some (.axor d a b wa wb o dbl)
  | 4 => some (.amin d a b wa wb o dbl)
  | 5 => some (.amax d a b wa wb o dbl)
  | 6 => some (.aminu d a b wa wb o dbl)
  | 7 => some (.amaxu d a b wa wb o dbl)
  | 8 => some (.aswp d a b wa wb o dbl)
  | 9 => some (.acas d a b wa wb o dbl)
  | 10 => if dbl then none else some (.afadd d a b wa wb o)
  | _ => none

/-- Major 0x19 (R289 to R293). -/
def decSync (d a b : Reg) (wa wb : Bool) (fn : BitVec 9) : Option Instr :=
  match (fn.extractLsb' 0 4).toNat with
  | 0 => (scope? (fn.extractLsb' 4 3)).map .fence
  | 1 => some (.qfence (fn.extractLsb' 4 5))
  | 2 => some (.cbar d a b wa wb)
  | 3 => if (fn.extractLsb' 4 3).toNat = 7 then none else some (.gbar (fn.extractLsb' 4 3))
  | 4 => some (.waitfe a)
  | 5 => some (.sete a)
  | _ => none

/-- Major 0x1A (R294 to R297). -/
def decMsg (d a b : Reg) (wa : Bool) (fn : BitVec 9) : Option Instr :=
  match (fn.extractLsb' 0 4).toNat with
  | 0 => if 6 ≤ b.toNat then none else some (.mbw a (b.extractLsb' 0 3) wa)
  | 1 => if 6 ≤ b.toNat then none else some (.mbr d (b.extractLsb' 0 3))
  | 2 => some (.send d)
  | 3 => some (.mcst d)
  | 4 => some (.mseq d a wa)
  | _ => none

/-- Major 0x1B (R298 to R300). -/
def decFold (d a b : Reg) (wa wb : Bool) (fn : BitVec 9) : Option Instr :=
  match (fn.extractLsb' 0 4).toNat with
  | 0 => some (.post d a b wa wb (fn.extractLsb' 4 4))
  | 1 => some .frel
  | 2 => some (.fdstat d (fn.extractLsb' 4 4))
  | _ => none

/-- Major 0x1C (R301, R364). With eng4 = 15 the word is strict: a field that its form does not use is zero. -/
def decEng (e : BitVec 4) (fn : BitVec 6) (a b d : Reg) (sh : Bool) : Option Instr :=
  match eng? e with
  | none => none
  | some g =>
    let strict := g == .scrub
    match fn.toNat with
    | 0 => if sh || (strict && d != 0#5) then none else some (.ewr g a b)
    | 1 => if strict && a != 0#5 then none else if sh then some (.erdAct g b d) else some (.erd g b d)
    | 2 => if sh || strict then none else some (.ego g a)
    | 3 => if sh || (strict && (b != 0#5 || d != 0#5)) then none else some (.ewait g a)
    | 4 => if sh || (strict && b != 0#5) then none else some (.estat g a d)
    | 5 => if sh || g != .matrix then none else some (.ttq a d)
    | _ => none

/-- Major 0x1D (R247). -/
def decStrd (d a b : Reg) (wa wb rt : Bool) (fn : Nat) : Option Instr :=
  match fn with
  | 0 => if rt then none else some (.spawn a wa)
  | 1 => some (.susp rt)
  | 2 => some (.await a wa rt)
  | 3 => if rt then none else some (.decr d a b wa wb)
  | 4 => if rt then some (.haltRt a wa) else some .halt
  | 5 => if rt then none else some (.taskq a wa)
  | 6 => if rt then none else some (.lnch d a wa)
  | 7 => if rt then none else some (.wid d a b wa wb)
  | _ => none

/-- Major 0x1E (R308). -/
def decBank (d : Reg) (fn : BitVec 9) : Option Instr :=
  if fn.getLsbD 8 then some (.bstat d (fn.extractLsb' 0 6))
  else (bankReq? (fn.extractLsb' 6 2)).map fun st => .bank st (fn.extractLsb' 0 6)

/-- Major 0x1F (R244). -/
def decCsr (d a : Reg) (k : BitVec 2) (c : BitVec 12) : Option Instr :=
  match k.toNat with
  | 0 => some (.csrr d c)
  | 1 => some (.csrw d a c)
  | 2 => some (.csrs d a c)
  | _ => some (.csrc d a c)

/-- The float majors (R262). -/
def decVF (t : FTy) (d a b : RowName) (l : Bool) (fn : BitVec 4) : Instr :=
  match fn.toNat with
  | 0 => .vaddF t d a b l
  | 1 => .vsubF t d a b l
  | 2 => .vmulF t d a b l
  | 3 => .vdiv t d a b l
  | 4 => .vfma t d a b l
  | 5 => .vfms t d a b l
  | 6 => .vminF t d a b l
  | 7 => .vmaxF t d a b l
  | 8 => .vabsF t d a l
  | 9 => .vnegF t d a l
  | 10 => .vsqrt t d a l
  | 11 => .vscl t d a b l
  | 12 => .vcpys t d a b l
  | 13 => .vceqF t d a b l
  | 14 => .vcltF t d a b l
  | _ => .vcle t d a b l

/-- The integer majors (R264). -/
def decVI (t : ITy) (d a b : RowName) (l : Bool) (fn : BitVec 4) : Option Instr :=
  match fn.toNat with
  | 0 => some (.vaddI t d a b l)
  | 1 => some (.vsubI t d a b l)
  | 2 => some (.vmulI t d a b l)
  | 3 => some (.vmulh t d a b l)
  | 4 => some (.vadds t d a b l)
  | 5 => some (.vsubs t d a b l)
  | 6 => some (.vminI t d a b l)
  | 7 => some (.vmaxI t d a b l)
  | 8 => some (.vminu t d a b l)
  | 9 => some (.vmaxu t d a b l)
  | 10 => some (.vceqI t d a b l)
  | 11 => some (.vcltI t d a b l)
  | 12 => some (.vcltu t d a b l)
  | 14 => some (.vabsI t d a l)
  | 15 => some (.vnegI t d a l)
  | _ =>
    let n := b.extractLsb' 0 5
    if t.width ≤ n.toNat then none
    else match (b.extractLsb' 5 2).toNat with
      | 0 => some (.vshl t d a n l)
      | 1 => some (.vshr t d a n l)
      | 2 => some (.vsra t d a n l)
      | _ => none

/-- Major 0x26 (R265). -/
def decMov (d a b : RowName) (l : Bool) (fn : BitVec 4) : Option Instr :=
  let w := laneW (b.extractLsb' 5 2)
  let n := b.extractLsb' 0 5
  match fn.toNat with
  | 0 => some (.vand d a b l)
  | 1 => some (.vor d a b l)
  | 2 => some (.vxor d a b l)
  | 3 => some (.vsel d a b l)
  | 4 => some (.vperm d a b l)
  | 5 => some (.vbcst d (a.extractLsb' 0 5) w)
  | 6 => if w.lanes ≤ n.toNat then none else some (.vins d (a.extractLsb' 0 5) w n)
  | 7 => if w.lanes ≤ n.toNat then none else some (.vext (d.extractLsb' 0 5) a w n l)
  | 8 => some (.vrev d a w l)
  | 9 => some (.vzipH d a b l)
  | 10 => some (.vzipW d a b l)
  | 11 => some (.vuzpH d a b l)
  | 12 => some (.vuzpW d a b l)
  | 13 => some (.vpark a b l)
  | 14 => some (.vunpk d b)
  | _ => some (.vrep (d.extractLsb' 0 5) (a.extractLsb' 0 4) (b.extractLsb' 0 5))

/-- Major 0x27 (R272 to R274). -/
def decCvt (d a b : RowName) (l : Bool) (fn : BitVec 4) : Option Instr :=
  let sat := b.getLsbD 3
  let amx := b.getLsbD 2
  let tp := fn.extractLsb' 0 2 ++ b.extractLsb' 0 2
  let tb := fn.extractLsb' 0 1 ++ b.extractLsb' 0 2
  match (fn.extractLsb' 2 2).toNat with
  | 0 => (rmode? (b.extractLsb' 4 3)).map fun rm => .vcvt d a rm sat amx tp l
  | 1 => if packable tp then (rmode? (b.extractLsb' 4 3)).map fun rm => .vpack d a rm sat amx tp l else none
  | 2 => if widenable tp then (rmode? (b.extractLsb' 4 3)).map fun rm => .vwiden d a rm sat amx tp l else none
  | _ =>
    if fn.getLsbD 1 then some (.vcvtef d a b l (fn.getLsbD 0))
    else (rmode? (b.extractLsb' 4 3)).map fun rm => .vcvtB d a rm sat amx tb l

/-- Major 0x28 (R275). -/
def decRed (d a b : RowName) (l : Bool) (fn : BitVec 4) : Option Instr :=
  match fn.toNat with
  | 0 => (redTy? (b.extractLsb' 0 3)).map fun t => .vrsum d a t l
  | 1 => (redTy? (b.extractLsb' 0 3)).map fun t => .vrmax d a t l
  | 2 => (redTy? (b.extractLsb' 0 3)).map fun t => .vrmin d a t l
  | 3 => some (.vdotF32 d a b l)
  | 4 => some (.vdotBf16 d a b l)
  | 5 => some (.vdotF16 d a b l)
  | 6 => some (.vdotI16 d a b l)
  | 7 => some (.vdotI8 d a b l)
  | 8 => some (.vdotwBf16 d a b l)
  | 9 => some (.vdotwF16 d a b l)
  | 10 => some (.vdotwI16 d a b l)
  | 11 => some (.vdotwI8 d a b l)
  | _ => none

/-- Major 0x29 (R278 to R281). -/
def decSpr (d a b : RowName) (l : Bool) (fn : BitVec 4) : Option Instr :=
  match fn.toNat with
  | 0 => some (.vsprs d a (b.extractLsb' 0 5) l)
  | 1 => some (.vsexp d a (b.extractLsb' 0 5) l)
  | 2 => if d.getLsbD 0 then none else some (.vsdot (d.extractLsb' 0 5) a b l)
  | _ => none

/-- Major 0x00, strict (R367). -/
def decSys (d a b : Reg) (wa wb : Bool) (fn : BitVec 9) : Option Instr :=
  match fn.toNat with
  | 1 => if d = 0#5 ∧ a = 0#5 ∧ b = 0#5 ∧ wa = false ∧ wb = false then some .tret else none
  | 2 => some (.ctxsave d a b wa wb)
  | 3 => if b = 0#5 ∧ wb = false then some (.ctxload d a wa) else none
  | 4 => some (.migr d a b wa wb)
  | 5 => some (.gstop d a b wa wb)
  | 6 => if d = 0#5 then some (.tlbinv a b wa wb) else none
  | 7 => if d = 0#5 ∧ a = 0#5 ∧ wa = false then some (.tlbinva b wb) else none
  | _ => none

/-- Major 0x31, strict (R368) (DEDUCED, log 20). -/
def decSec (d a b : Reg) (wa : Bool) (fn : BitVec 9) : Option Instr :=
  if b = 0#5 then
    match fn.toNat with
    | 1 => if d = 0#5 then some (.kzero a wa) else none
    | 2 => some (.kload d a wa)
    | 3 => some (.scrub d a wa)
    | 4 => some (.tnassign d a wa)
    | 5 => some (.tnfree d a wa)
    | 6 => some (.tnstat d a wa)
    | _ => none
  else none

/-- Major 0x3C (R218). -/
def decHint (hk : BitVec 4) (x : Bool) (a : Reg) (i : BitVec 16) : Instr :=
  match hk.toNat with
  | 1 => .pref a i
  | 2 => .bhint x
  | 3 => .yield
  | _ => .nop

/-- An S3 word. -/
def decS3 (op : Nat) (d a b : Reg) (wa wb : Bool) (fn : BitVec 9) : Option Instr :=
  match op with
  | 0 => decSys d a b wa wb fn
  | 1 => decAlu d a b wa wb (fn.getLsbD 8) (fn.extractLsb' 0 8).toNat
  | 24 => decAtom d a b wa wb fn
  | 25 => decSync d a b wa wb fn
  | 26 => decMsg d a b wa fn
  | 27 => decFold d a b wa wb fn
  | 29 => decStrd d a b wa wb (fn.getLsbD 8) (fn.extractLsb' 0 8).toNat
  | 30 => decBank d fn
  | 49 => decSec d a b wa fn
  | _ => none

/-- An SI or B word. -/
def decSI (op : Nat) (d a : Reg) (i : BitVec 16) : Option Instr :=
  match op with
  | 2 => some (.addi d a i)
  | 3 => some (.andi d a i)
  | 4 => some (.ori d a i)
  | 5 => some (.xori d a i)
  | 6 => some (.slti d a i)
  | 7 => some (.sltiu d a i)
  | 8 => decShi d a i
  | 12 => some (.beq d a i)
  | 13 => some (.bne d a i)
  | 14 => some (.blt d a i)
  | 15 => some (.bge d a i)
  | 16 => some (.bltu d a i)
  | 17 => some (.bgeu d a i)
  | 20 => decJreg d a i
  | _ => none

/-- An SU word. -/
def decSU (op : Nat) (d : Reg) (i : BitVec 21) : Option Instr :=
  match op with
  | 9 => some (.lui d i)
  | 10 => some (.luh d i)
  | 11 => some (.adpc d i)
  | 48 => if i.getLsbD 20 then some (.brk (i.extractLsb' 0 20)) else some (.trap (i.extractLsb' 0 20))
  | _ => none

/-- A V word. -/
def decV (op : Nat) (d a b : RowName) (l : Bool) (fn : BitVec 4) : Option Instr :=
  match op with
  | 32 => some (decVF .f32 d a b l fn)
  | 33 => some (decVF .bf16 d a b l fn)
  | 34 => some (decVF .f16 d a b l fn)
  | 35 => decVI .i32 d a b l fn
  | 36 => decVI .i16 d a b l fn
  | 37 => decVI .i8 d a b l fn
  | 38 => decMov d a b l fn
  | 39 => decCvt d a b l fn
  | 40 => decRed d a b l fn
  | 41 => decSpr d a b l fn
  | _ => none

/-- The format that a major selects (R215). -/
inductive Format | s3 | si | su | j | m | row | v | e | c | h | nop | none
  deriving DecidableEq, Repr

/-- Format of a major. -/
def formatOf (op : Nat) : Format :=
  match op with
  | 0 | 1 | 24 | 25 | 26 | 27 | 29 | 30 | 49 => .s3
  | 2 | 3 | 4 | 5 | 6 | 7 | 8 | 12 | 13 | 14 | 15 | 16 | 17 | 20 => .si
  | 9 | 10 | 11 | 48 => .su
  | 18 | 19 => .j
  | 21 | 22 => .m
  | 23 => .row
  | 32 | 33 | 34 | 35 | 36 | 37 | 38 | 39 | 40 | 41 => .v
  | 28 => .e
  | 31 => .c
  | 60 => .h
  | 61 | 62 | 63 => .nop
  | _ => .none

/-- The instruction of a word, or none where the word raises the illegal-instruction trap (R215, R216). -/
def decode (w : BitVec 32) : Option Instr :=
  let op := (w.extractLsb' 26 6).toNat
  match formatOf op with
  | .s3 => decS3 op (w.extractLsb' 21 5) (w.extractLsb' 16 5) (w.extractLsb' 11 5) (w.getLsbD 10) (w.getLsbD 9) (w.extractLsb' 0 9)
  | .si => decSI op (w.extractLsb' 21 5) (w.extractLsb' 16 5) (w.extractLsb' 0 16)
  | .su => decSU op (w.extractLsb' 21 5) (w.extractLsb' 0 21)
  | .j => if op = 18 then some (.j (w.extractLsb' 0 26)) else some (.jal (w.extractLsb' 0 26))
  | .m =>
    if op = 21 then
      decLd (w.extractLsb' 21 5) (w.extractLsb' 16 5) (w.extractLsb' 13 3) (w.extractLsb' 11 2) (w.extractLsb' 9 2) (w.extractLsb' 0 9)
    else
      decSt (w.extractLsb' 21 5) (w.extractLsb' 16 5) (w.extractLsb' 13 3) (w.extractLsb' 11 2) (w.extractLsb' 9 2) (w.extractLsb' 0 9)
  | .row => decRow (w.extractLsb' 19 7) (w.extractLsb' 14 5) (w.getLsbD 13) (w.extractLsb' 11 2) (w.extractLsb' 0 11)
  | .v => decV op (w.extractLsb' 19 7) (w.extractLsb' 12 7) (w.extractLsb' 5 7) (w.getLsbD 4) (w.extractLsb' 0 4)
  | .e => decEng (w.extractLsb' 22 4) (w.extractLsb' 16 6) (w.extractLsb' 11 5) (w.extractLsb' 6 5) (w.extractLsb' 1 5) (w.getLsbD 0)
  | .c => decCsr (w.extractLsb' 21 5) (w.extractLsb' 16 5) (w.extractLsb' 14 2) (w.extractLsb' 2 12)
  | .h => some (decHint (w.extractLsb' 22 4) (w.getLsbD 21) (w.extractLsb' 16 5) (w.extractLsb' 0 16))
  | .nop => some .nop
  | .none => none

/-- The decoder on a word numbered as the opcode table numbers it: every instruction is one 32-bit word; an event has no bits. -/
def decodeTableWord (nbits w : Nat) : Option Instr := if nbits = 32 then decode (BitVec.ofNat 32 w) else none

/-! ## The encoder -/

/-- The word of an instruction, reserved fields zero; none for an event, which no word names. -/
def encode : Instr → Option (BitVec 32)
  | .add d a b wa wb w => some (mkS3 1#6 d a b wa wb (ofBool w ++ 0x00#8))
  | .sub d a b wa wb w => some (mkS3 1#6 d a b wa wb (ofBool w ++ 0x01#8))
  | .mul d a b wa wb w => some (mkS3 1#6 d a b wa wb (ofBool w ++ 0x02#8))
  | .mulh d a b wa wb => some (mkS3 1#6 d a b wa wb (0#1 ++ 0x03#8))
  | .mulhu d a b wa wb => some (mkS3 1#6 d a b wa wb (0#1 ++ 0x04#8))
  | .div d a b wa wb w => some (mkS3 1#6 d a b wa wb (ofBool w ++ 0x05#8))
  | .divu d a b wa wb w => some (mkS3 1#6 d a b wa wb (ofBool w ++ 0x06#8))
  | .rem d a b wa wb w => some (mkS3 1#6 d a b wa wb (ofBool w ++ 0x07#8))
  | .remu d a b wa wb w => some (mkS3 1#6 d a b wa wb (ofBool w ++ 0x08#8))
  | .and d a b wa wb => some (mkS3 1#6 d a b wa wb (0#1 ++ 0x10#8))
  | .or d a b wa wb => some (mkS3 1#6 d a b wa wb (0#1 ++ 0x11#8))
  | .xor d a b wa wb => some (mkS3 1#6 d a b wa wb (0#1 ++ 0x12#8))
  | .andn d a b wa wb => some (mkS3 1#6 d a b wa wb (0#1 ++ 0x13#8))
  | .orn d a b wa wb => some (mkS3 1#6 d a b wa wb (0#1 ++ 0x14#8))
  | .sll d a b wa wb w => some (mkS3 1#6 d a b wa wb (ofBool w ++ 0x20#8))
  | .srl d a b wa wb w => some (mkS3 1#6 d a b wa wb (ofBool w ++ 0x21#8))
  | .sra d a b wa wb w => some (mkS3 1#6 d a b wa wb (ofBool w ++ 0x22#8))
  | .rol d a b wa wb w => some (mkS3 1#6 d a b wa wb (ofBool w ++ 0x23#8))
  | .ror d a b wa wb w => some (mkS3 1#6 d a b wa wb (ofBool w ++ 0x24#8))
  | .slt d a b wa wb => some (mkS3 1#6 d a b wa wb (0#1 ++ 0x30#8))
  | .sltu d a b wa wb => some (mkS3 1#6 d a b wa wb (0#1 ++ 0x31#8))
  | .min d a b wa wb => some (mkS3 1#6 d a b wa wb (0#1 ++ 0x32#8))
  | .max d a b wa wb => some (mkS3 1#6 d a b wa wb (0#1 ++ 0x33#8))
  | .minu d a b wa wb => some (mkS3 1#6 d a b wa wb (0#1 ++ 0x34#8))
  | .maxu d a b wa wb => some (mkS3 1#6 d a b wa wb (0#1 ++ 0x35#8))
  | .clz d a wa w => some (mkS3 1#6 d a 0#5 wa false (ofBool w ++ 0x40#8))
  | .ctz d a wa w => some (mkS3 1#6 d a 0#5 wa false (ofBool w ++ 0x41#8))
  | .popc d a wa w => some (mkS3 1#6 d a 0#5 wa false (ofBool w ++ 0x42#8))
  | .sext d a b wa wb => some (mkS3 1#6 d a b wa wb (0#1 ++ 0x43#8))
  | .bext d a b wa wb => some (mkS3 1#6 d a b wa wb (0#1 ++ 0x44#8))
  | .bins d a b wa wb => some (mkS3 1#6 d a b wa wb (0#1 ++ 0x45#8))
  | .addi d a i => some (mkSI 2#6 d a i)
  | .andi d a i => some (mkSI 3#6 d a i)
  | .ori d a i => some (mkSI 4#6 d a i)
  | .xori d a i => some (mkSI 5#6 d a i)
  | .slti d a i => some (mkSI 6#6 d a i)
  | .sltiu d a i => some (mkSI 7#6 d a i)
  | .slli d a w n => some (mkSI 8#6 d a (0#2 ++ ofBool w ++ 0#7 ++ n))
  | .srli d a w n => some (mkSI 8#6 d a (1#2 ++ ofBool w ++ 0#7 ++ n))
  | .srai d a w n => some (mkSI 8#6 d a (2#2 ++ ofBool w ++ 0#7 ++ n))
  | .rori d a w n => some (mkSI 8#6 d a (3#2 ++ ofBool w ++ 0#7 ++ n))
  | .lui d i => some (mkSU 9#6 d i)
  | .luh d i => some (mkSU 10#6 d i)
  | .adpc d i => some (mkSU 11#6 d i)
  | .beq a b i => some (mkSI 12#6 a b i)
  | .bne a b i => some (mkSI 13#6 a b i)
  | .blt a b i => some (mkSI 14#6 a b i)
  | .bge a b i => some (mkSI 15#6 a b i)
  | .bltu a b i => some (mkSI 16#6 a b i)
  | .bgeu a b i => some (mkSI 17#6 a b i)
  | .j i => some (mkJ 18#6 i)
  | .jal i => some (mkJ 19#6 i)
  | .jr a o => some (mkSI 20#6 0#5 a (0#2 ++ o))
  | .jalr d a o => some (mkSI 20#6 d a (1#2 ++ o))
  | .ld d a z h o i => some (mkM 21#6 d a z.code h.code o.code i)
  | .st d a z h o i => some (mkM 22#6 d a z.code h.code o.code i)
  | .rld r a h i => some (mkROW 23#6 r a false h.code i)
  | .rst r a h i => some (mkROW 23#6 r a true h.code i)
  | .aadd d a b wa wb o dbl => some (mkS3 24#6 d a b wa wb (o.code ++ ofBool dbl ++ 0#2 ++ 0#4))
  | .aand d a b wa wb o dbl => some (mkS3 24#6 d a b wa wb (o.code ++ ofBool dbl ++ 0#2 ++ 1#4))
  | .aor d a b wa wb o dbl => some (mkS3 24#6 d a b wa wb (o.code ++ ofBool dbl ++ 0#2 ++ 2#4))
  | .axor d a b wa wb o dbl => some (mkS3 24#6 d a b wa wb (o.code ++ ofBool dbl ++ 0#2 ++ 3#4))
  | .amin d a b wa wb o dbl => some (mkS3 24#6 d a b wa wb (o.code ++ ofBool dbl ++ 0#2 ++ 4#4))
  | .amax d a b wa wb o dbl => some (mkS3 24#6 d a b wa wb (o.code ++ ofBool dbl ++ 0#2 ++ 5#4))
  | .aminu d a b wa wb o dbl => some (mkS3 24#6 d a b wa wb (o.code ++ ofBool dbl ++ 0#2 ++ 6#4))
  | .amaxu d a b wa wb o dbl => some (mkS3 24#6 d a b wa wb (o.code ++ ofBool dbl ++ 0#2 ++ 7#4))
  | .aswp d a b wa wb o dbl => some (mkS3 24#6 d a b wa wb (o.code ++ ofBool dbl ++ 0#2 ++ 8#4))
  | .acas d a b wa wb o dbl => some (mkS3 24#6 d a b wa wb (o.code ++ ofBool dbl ++ 0#2 ++ 9#4))
  | .afadd d a b wa wb o => some (mkS3 24#6 d a b wa wb (o.code ++ 0#1 ++ 0#2 ++ 10#4))
  | .fence sc => some (mkS3 25#6 0#5 0#5 0#5 false false (0#2 ++ sc.code ++ 0#4))
  | .qfence m => some (mkS3 25#6 0#5 0#5 0#5 false false (m ++ 1#4))
  | .cbar d a b wa wb => some (mkS3 25#6 d a b wa wb (0#5 ++ 2#4))
  | .gbar l => some (mkS3 25#6 0#5 0#5 0#5 false false (0#2 ++ l ++ 3#4))
  | .waitfe a => some (mkS3 25#6 0#5 a 0#5 false false (0#5 ++ 4#4))
  | .sete a => some (mkS3 25#6 0#5 a 0#5 false false (0#5 ++ 5#4))
  | .mbw a k wa => some (mkS3 26#6 0#5 a (0#2 ++ k) wa false 0#9)
  | .mbr d k => some (mkS3 26#6 d 0#5 (0#2 ++ k) false false 1#9)
  | .send d => some (mkS3 26#6 d 0#5 0#5 false false 2#9)
  | .mcst d => some (mkS3 26#6 d 0#5 0#5 false false 3#9)
  | .mseq d a wa => some (mkS3 26#6 d a 0#5 wa false 4#9)
  | .post d a b wa wb m => some (mkS3 27#6 d a b wa wb (0#1 ++ m ++ 0#4))
  | .frel => some (mkS3 27#6 0#5 0#5 0#5 false false 1#9)
  | .fdstat d m => some (mkS3 27#6 d 0#5 0#5 false false (0#1 ++ m ++ 2#4))
  | .ewr e a b => some (mkE 28#6 e.code 0#6 a b 0#5 false)
  | .erd e b d => some (mkE 28#6 e.code 1#6 0#5 b d false)
  | .erdAct e b d => some (mkE 28#6 e.code 1#6 0#5 b d true)
  | .ego e a => some (mkE 28#6 e.code 2#6 a 0#5 0#5 false)
  | .ewait e a => some (mkE 28#6 e.code 3#6 a 0#5 0#5 false)
  | .estat e a d => some (mkE 28#6 e.code 4#6 a 0#5 d false)
  | .ttq a d => some (mkE 28#6 1#4 5#6 a 0#5 d false)
  | .spawn a wa => some (mkS3 29#6 0#5 a 0#5 wa false (0#1 ++ 0#8))
  | .susp rt => some (mkS3 29#6 0#5 0#5 0#5 false false (ofBool rt ++ 1#8))
  | .await a wa rt => some (mkS3 29#6 0#5 a 0#5 wa false (ofBool rt ++ 2#8))
  | .decr d a b wa wb => some (mkS3 29#6 d a b wa wb (0#1 ++ 3#8))
  | .halt => some (mkS3 29#6 0#5 0#5 0#5 false false (0#1 ++ 4#8))
  | .haltRt a wa => some (mkS3 29#6 0#5 a 0#5 wa false (1#1 ++ 4#8))
  | .taskq a wa => some (mkS3 29#6 0#5 a 0#5 wa false (0#1 ++ 5#8))
  | .lnch d a wa => some (mkS3 29#6 d a 0#5 wa false (0#1 ++ 6#8))
  | .wid d a b wa wb => some (mkS3 29#6 d a b wa wb (0#1 ++ 7#8))
  | .bank st n => some (mkS3 30#6 0#5 0#5 0#5 false false (0#1 ++ st.code ++ n))
  | .bstat d n => some (mkS3 30#6 d 0#5 0#5 false false (1#1 ++ 0#2 ++ n))
  | .csrr d c => some (mkC 31#6 d 0#5 0#2 c)
  | .csrw d a c => some (mkC 31#6 d a 1#2 c)
  | .csrs d a c => some (mkC 31#6 d a 2#2 c)
  | .csrc d a c => some (mkC 31#6 d a 3#2 c)
  | .ptrootWrite _ _ => none
  | .tvecWrite _ _ => none
  | .vaddF t d a b l => some (mkV t.major d a b l 0#4)
  | .vsubF t d a b l => some (mkV t.major d a b l 1#4)
  | .vmulF t d a b l => some (mkV t.major d a b l 2#4)
  | .vdiv t d a b l => some (mkV t.major d a b l 3#4)
  | .vfma t d a b l => some (mkV t.major d a b l 4#4)
  | .vfms t d a b l => some (mkV t.major d a b l 5#4)
  | .vminF t d a b l => some (mkV t.major d a b l 6#4)
  | .vmaxF t d a b l => some (mkV t.major d a b l 7#4)
  | .vabsF t d a l => some (mkV t.major d a 0#7 l 8#4)
  | .vnegF t d a l => some (mkV t.major d a 0#7 l 9#4)
  | .vsqrt t d a l => some (mkV t.major d a 0#7 l 10#4)
  | .vscl t d a b l => some (mkV t.major d a b l 11#4)
  | .vcpys t d a b l => some (mkV t.major d a b l 12#4)
  | .vceqF t d a b l => some (mkV t.major d a b l 13#4)
  | .vcltF t d a b l => some (mkV t.major d a b l 14#4)
  | .vcle t d a b l => some (mkV t.major d a b l 15#4)
  | .vaddI t d a b l => some (mkV t.major d a b l 0#4)
  | .vsubI t d a b l => some (mkV t.major d a b l 1#4)
  | .vmulI t d a b l => some (mkV t.major d a b l 2#4)
  | .vmulh t d a b l => some (mkV t.major d a b l 3#4)
  | .vadds t d a b l => some (mkV t.major d a b l 4#4)
  | .vsubs t d a b l => some (mkV t.major d a b l 5#4)
  | .vminI t d a b l => some (mkV t.major d a b l 6#4)
  | .vmaxI t d a b l => some (mkV t.major d a b l 7#4)
  | .vminu t d a b l => some (mkV t.major d a b l 8#4)
  | .vmaxu t d a b l => some (mkV t.major d a b l 9#4)
  | .vceqI t d a b l => some (mkV t.major d a b l 10#4)
  | .vcltI t d a b l => some (mkV t.major d a b l 11#4)
  | .vcltu t d a b l => some (mkV t.major d a b l 12#4)
  | .vshl t d a n l => some (mkV t.major d a (0#2 ++ n) l 13#4)
  | .vshr t d a n l => some (mkV t.major d a (1#2 ++ n) l 13#4)
  | .vsra t d a n l => some (mkV t.major d a (2#2 ++ n) l 13#4)
  | .vabsI t d a l => some (mkV t.major d a 0#7 l 14#4)
  | .vnegI t d a l => some (mkV t.major d a 0#7 l 15#4)
  | .vand d a b l => some (mkV 38#6 d a b l 0#4)
  | .vor d a b l => some (mkV 38#6 d a b l 1#4)
  | .vxor d a b l => some (mkV 38#6 d a b l 2#4)
  | .vsel d a b l => some (mkV 38#6 d a b l 3#4)
  | .vperm d a b l => some (mkV 38#6 d a b l 4#4)
  | .vbcst d a w => some (mkV 38#6 d (0#2 ++ a) (w.code ++ 0#5) false 5#4)
  | .vins d a w n => some (mkV 38#6 d (0#2 ++ a) (w.code ++ n) false 6#4)
  | .vext d a w n l => some (mkV 38#6 (0#2 ++ d) a (w.code ++ n) l 7#4)
  | .vrev d a w l => some (mkV 38#6 d a (w.code ++ 0#5) l 8#4)
  | .vzipH d a b l => some (mkV 38#6 d a b l 9#4)
  | .vzipW d a b l => some (mkV 38#6 d a b l 10#4)
  | .vuzpH d a b l => some (mkV 38#6 d a b l 11#4)
  | .vuzpW d a b l => some (mkV 38#6 d a b l 12#4)
  | .vpark a p l => some (mkV 38#6 0#7 a p l 13#4)
  | .vunpk d p => some (mkV 38#6 d 0#7 p false 14#4)
  | .vrep a n b => some (mkV 38#6 (0#2 ++ a) (0#3 ++ n) (0#2 ++ b) false 15#4)
  | .vcvt d a rm sat amx tp l => some (mkV 39#6 d a (rm.code3 ++ ofBool sat ++ ofBool amx ++ tp.extractLsb' 0 2) l (0#2 ++ tp.extractLsb' 2 2))
  | .vpack d a rm sat amx tp l => some (mkV 39#6 d a (rm.code3 ++ ofBool sat ++ ofBool amx ++ tp.extractLsb' 0 2) l (1#2 ++ tp.extractLsb' 2 2))
  | .vwiden d a rm sat amx tp l => some (mkV 39#6 d a (rm.code3 ++ ofBool sat ++ ofBool amx ++ tp.extractLsb' 0 2) l (2#2 ++ tp.extractLsb' 2 2))
  | .vcvtB d a rm sat amx tb l => some (mkV 39#6 d a (rm.code3 ++ ofBool sat ++ ofBool amx ++ tb.extractLsb' 0 2) l (6#3 ++ tb.extractLsb' 2 1))
  | .vcvtef d a e l f16 => some (mkV 39#6 d a e l (7#3 ++ ofBool f16))
  | .vrsum d a t l => some (mkV 40#6 d a (0#4 ++ t.code) l 0#4)
  | .vrmax d a t l => some (mkV 40#6 d a (0#4 ++ t.code) l 1#4)
  | .vrmin d a t l => some (mkV 40#6 d a (0#4 ++ t.code) l 2#4)
  | .vdotF32 d a b l => some (mkV 40#6 d a b l 3#4)
  | .vdotBf16 d a b l => some (mkV 40#6 d a b l 4#4)
  | .vdotF16 d a b l => some (mkV 40#6 d a b l 5#4)
  | .vdotI16 d a b l => some (mkV 40#6 d a b l 6#4)
  | .vdotI8 d a b l => some (mkV 40#6 d a b l 7#4)
  | .vdotwBf16 d a b l => some (mkV 40#6 d a b l 8#4)
  | .vdotwF16 d a b l => some (mkV 40#6 d a b l 9#4)
  | .vdotwI16 d a b l => some (mkV 40#6 d a b l 10#4)
  | .vdotwI8 d a b l => some (mkV 40#6 d a b l 11#4)
  | .vsprs d a m l => some (mkV 41#6 d a (0#2 ++ m) l 0#4)
  | .vsexp d a m l => some (mkV 41#6 d a (0#2 ++ m) l 1#4)
  | .vsdot d a b l => some (mkV 41#6 (0#2 ++ d) a b l 2#4)
  | .trap c => some (mkSU 48#6 0#5 (0#1 ++ c))
  | .brk c => some (mkSU 48#6 0#5 (1#1 ++ c))
  | .nop => some (0xF000_0000#32)
  | .pref a i => some (mkH 60#6 1#4 false a i)
  | .bhint x => some (mkH 60#6 2#4 x 0#5 0#16)
  | .yield => some (mkH 60#6 3#4 false 0#5 0#16)
  | .tret => some (mkS3 0#6 0#5 0#5 0#5 false false 1#9)
  | .ctxsave d a b wa wb => some (mkS3 0#6 d a b wa wb 2#9)
  | .ctxload d a wa => some (mkS3 0#6 d a 0#5 wa false 3#9)
  | .migr d a b wa wb => some (mkS3 0#6 d a b wa wb 4#9)
  | .gstop d a b wa wb => some (mkS3 0#6 d a b wa wb 5#9)
  | .tlbinv a b wa wb => some (mkS3 0#6 0#5 a b wa wb 6#9)
  | .tlbinva b wb => some (mkS3 0#6 0#5 0#5 b false wb 7#9)
  | .kzero a wa => some (mkS3 49#6 0#5 a 0#5 wa false 1#9)
  | .kload d a wa => some (mkS3 49#6 d a 0#5 wa false 2#9)
  | .scrub d a wa => some (mkS3 49#6 d a 0#5 wa false 3#9)
  | .tnassign d a wa => some (mkS3 49#6 d a 0#5 wa false 4#9)
  | .tnfree d a wa => some (mkS3 49#6 d a 0#5 wa false 5#9)
  | .tnstat d a wa => some (mkS3 49#6 d a 0#5 wa false 6#9)
  | .resultLands _ => none
  | .sequencerExecute _ _ => none
  | .strandDrainEnd _ _ => none
  | .bankWakeComplete _ _ => none
  | .deposit _ => none
  | .remoteAccess _ _ => none
  | .atomicPerform _ => none
  | .cellDecr _ => none
  | .cellTaskq _ => none
  | .cellAwait _ => none
  | .haltRtBind _ => none
  | .cbarArrival _ => none
  | .enqueueArrival _ => none
  | .taskPrefetch _ _ => none
  | .queueDoorbell _ _ _ => none
  | .headerFetch _ _ => none
  | .launchAccept  => none
  | .lnchHeaderRead _ => none
  | .launchDeal _ _ => none
  | .persistAdmit _ => none
  | .runListPop _ => none
  | .memoryCorePop _ => none
  | .agePromotion _ => none
  | .launchComplete _ => none
  | .foldOffer _ _ => none
  | .foldClaim _ => none
  | .foldPost _ => none
  | .logRefill _ _ => none
  | .foldCommitTake _ => none
  | .foldCompletionAction _ _ => none
  | .adaptChange _ _ _ => none
  | .engineOpStart _ => none
  | .tileTaskDispatch _ => none
  | .matrixUnitComplete _ _ => none
  | .matrixOpComplete _ _ => none
  | .copyComplete _ => none
  | .streamComplete _ => none
  | .taskEngineComplete _ => none
  | .walkComplete _ => none
  | .hostRequestFail _ => none
  | .asyncTrap _ _ => none
  | .watchdogPre _ _ => none
  | .watchdogKill _ _ => none
  | .watchdogFence _ _ => none
  | .sliceSwitch _ => none
  | .clusterIdle _ => none
  | .stealRequest _ => none
  | .stealAnswer _ => none
  | .stealBackoffExpiry _ => none
  | .seepLineLand _ _ => none
  | .ctxsaveComplete _ => none
  | .migrationRestore _ => none
  | .forwardRetire _ _ => none
  | .coreStop _ _ => none
  | .gstopComplete _ => none
  | .handlerMessageArrival _ => none
  | .builtinStore _ => none
  | .builtinLoad _ => none
  | .builtinAtomic _ => none
  | .builtinPost _ => none
  | .builtinDecr _ => none
  | .sendAck _ => none
  | .mcstStamp _ => none
  | .mcstStampReturn _ => none
  | .multicastStoreArrival _ => none
  | .gapplyReport _ _ _ => none
  | .sluiceGReport _ => none
  | .resendRequest _ => none
  | .memberLoss _ _ => none
  | .sequencerFailover _ _ _ => none
  | .operationTimeout _ => none
  | .meshFlitResend _ _ _ => none
  | .delmelFrameReceive _ _ _ _ => none
  | .portRetrain _ _ _ => none
  | .regionRestitch _ _ => none
  | .qstatusWrite _ _ _ => none
  | .tsliceWrite _ _ => none
  | .pwrcapWrite _ => none
  | .pwgtWrite _ _ _ => none
  | .registerWrite _ _ _ => none
  | .mboxAssign _ => none
  | .mboxFree _ => none
  | .mboxShare _ _ => none
  | .mboxPart _ => none
  | .mboxLife _ => none
  | .configWrite _ _ => none
  | .bar2UnprotectedRequest _ _ => none
  | .getVersion _ => none
  | .getCapabilities _ => none
  | .negotiateAlgorithms _ _ => none
  | .getDigests _ => none
  | .getCertificate _ => none
  | .challenge _ => none
  | .getMeasurements _ _ => none
  | .keyExchange _ _ => none
  | .finish _ => none
  | .keyUpdate _ => none
  | .endSession _ => none
  | .vendorDefinedRequest _ _ _ _ => none
  | .securedMessage _ _ => none
  | .lockInterface _ => none
  | .ideKm _ _ => none
  | .coldReset _ => none
  | .warmReset _ => none
  | .recoveryImagePush _ => none
  | .scrubChunkComplete  => none
  | .patrolRead _ _ => none
  | .keyIntegrityCheck _ _ => none
  | .lifetimeHourTick _ _ => none
  | .illegalInstruction _ => none
  | .fetchFault _ _ => none
  | .tdispStartInterface _ => none

end Sys2Proof
end

