-- ==== Sys2Proof/Machine/Access.lean ====
section
/-! DEFINITION. Accesses as they are performed: register windows and unit regions (R44 to R46), banks, the order of R85, fetching a
word (R347), deposits (R62 to R64) and hints (R72). -/

namespace Sys2Proof.Machine

open Host

/-! ## Regions that registers stand behind -/

/-- Is the key in a region of registers or of a unit, not in byte storage? -/
def isWindow (k : Nat) : Bool :=
  decide (chipBit ≤ k) &&
    (let c := chipOf k
     if c.unit < 16 then decide (2 ≤ c.region) else decide (1 ≤ c.region))

/-- Is the key in the accumulators and weight buffers of MACC, below the park areas (R46)? -/
def isMacc (k : Nat) : Bool :=
  decide (chipBit ≤ k) && decide (k < farBit) && decide ((chipOf k).unit = 31) && decide ((chipOf k).region = 0) && decide ((chipOf k).off < 0xB8000)

/-- Bytes of MACC as they are read: no rule lays them out, and they are free values (DESIGN CHOICE, log 80). -/
def State.maccBytes (s : State) (k n : Nat) : List Byte :=
  (List.range n).map fun i => (Config.unitWord ((k + i) / 8 * 8) s.cycle >>> (8 * ((k + i) % 8))).setWidth 8

/-- A store into MACC changes accumulators that run there to free values (DESIGN CHOICE, log 80). -/
def State.maccStore (s : State) (k : Nat) : State :=
  if !isMacc k then s
  else s.modCluster (chipOf k).cluster fun c => { c with arrays := c.arrays.map fun a => { a with run := a.run.map fun m =>
    { m with acc := m.acc.mapIdx fun i row => row.mapIdx fun j _ => Config.accWord s.cycle i j } } }

/-- Is the key that of a register that a deposit writes: a core's TILE, SFILE or MBUILD region (R62)? -/
def isDeposit (k : Nat) : Bool :=
  decide (chipBit ≤ k) && decide ((chipOf k).unit < 16) && decide (1 ≤ (chipOf k).region) && decide ((chipOf k).region ≤ 3)

/-- The header word of a quarantine-buffer line (R170). -/
def SeepLine.head (l : SeepLine) : Word :=
  wd (b01 l.v * 2 ^ 63 + b01 l.landed * 2 ^ 62 + l.kind % 4 * 2 ^ 60 + l.slot % 4 * 2 ^ 58 + fld l.dest 56 0)

/-- Code of a fold entry's state (R96). -/
def FState.code : FState → Nat
  | .waiting => 1
  | .claimed => 2
  | .heldWaiting => 3

/-- A word of a fold entry (R96). -/
def FEntry.word (e : FEntry) : Nat → Word
  | 0 => e.key
  | 1 => e.val.setWidth 64
  | 2 => (e.val >>> 64).setWidth 64
  | _ => wd (e.dom % 16 * 2 ^ 60 + e.st.code * 2 ^ 58 + b01 e.ovr * 2 ^ 57 + b01 e.nan * 2 ^ 56 + b01 e.logged * 2 ^ 55 + e.posts % 2 ^ 32)

/-- The full/empty word of a slot (R45). -/
def Slot.fullWord (x : Slot) : Word := (x.full ||| 1#32).setWidth 64

/-- A word read through a register or unit region (R44 to R46). -/
def State.winWord (s : State) (k : Nat) : Word :=
  let c := chipOf k
  let o := c.off
  if farBit ≤ k then Config.farWord k s.cycle
  else if c.unit < 16 then
    let co : Core := s.core c.core
    match c.region with
    | 2 => if o < 0x400 then (co.slot (o / 0x100)).rd (BitVec.ofNat 5 (o % 0x100 / 8)) else (co.slot ((o - 0x400) / 8)).fullWord
    | 3 => (co.slot (o / 0x40)).mb.toList.getD (o % 0x40 / 8) 0#64
    | 4 => if o < 0x200 then co.active.get 0#64 (o / 8) else epMask 0 ((o - 0x200) / 8) (co.shadow.get 0#64 ((o - 0x200) / 8))
    | _ =>
      let l : SeepLine := co.seep.get {} (o / 0x40)
      let w := o % 0x40 / 8
      if w = 0 then l.head else if w ≤ 4 then (l.data >>> (64 * (w - 1))).setWidth 64 else 0#64
  else
    let cl : Cluster := s.cluster c.cluster
    match c.region with
    | 1 => match cl.folds.find? fun e => e.bank == o / 0x10000 && e.index == o % 0x10000 / 0x20 with
      | some e => e.word (o % 0x20 / 8)
      | none => 0#64
    | 2 => if 0x800 ≤ o ∧ o < 0x800 + 8 * 65 then wd (cl.under.get 0 ((o - 0x800) / 8)) else Config.unitWord k s.cycle
    | _ => Config.unitWord k s.cycle

/-- A deposit into one register word (R45, R63, R64): a scalar is set full and carries the release of the deposit. -/
def Slot.depositReg (x : Slot) (r : Reg) (v : Word) (rels : Rels) : Slot :=
  if r = 0#5 then x
  else
    let y : Slot := x.setS r v
    { y with regRel := if rels.isEmpty then y.regRel.filter fun e => e.1 != r.toNat else y.regRel.put r.toNat (3, rels) }

/-- A word written through a register or unit region. Fields that are read-only keep their values (R96, R170). -/
def State.winStore (s : State) (k : Nat) (v : Word) (rels : Rels) : State :=
  let c := chipOf k
  let o := c.off
  if c.unit < 16 then
    match c.region with
    | 2 =>
      if o < 0x400 then s.modSlot ⟨c.core, o / 0x100⟩ fun x => x.depositReg (BitVec.ofNat 5 (o % 0x100 / 8)) v rels
      else s.modSlot ⟨c.core, (o - 0x400) / 8⟩ fun x => { x with full := v.setWidth 32 ||| 1#32 }
    | 3 => s.modSlot ⟨c.core, o / 0x40⟩ fun x => { x with mb := x.mb.setIfInBounds (o % 0x40 / 8) (mbMask (o % 0x40 / 8) v) }
    | 4 => s.modCore c.core fun d =>
        if o < 0x200 then { d with active := d.active.put (o / 8) (epMask 0 (o / 8) v) }
        else { d with shadow := d.shadow.put ((o - 0x200) / 8) (epHold 0 ((o - 0x200) / 8) v) }
    | _ => s
  else if c.region = 2 ∧ 0x800 ≤ o ∧ o < 0x800 + 8 * 65 then
    s.modCluster c.cluster fun d => { d with under := d.under.put ((o - 0x800) / 8) v.toNat }
  else s

/-- Words written one after another through register regions: a 32-byte piece is a deposit into four registers (R305). -/
def State.winStores (s : State) (k : Nat) (rels : Rels) : List Word → State
  | [] => s
  | v :: vs => (s.winStore k v rels).winStores (k + 8) rels vs

/-! ## Forwarding (R173) -/

/-- Does a forwarding entry's old place hold an on-chip address? -/
def Forward.names (f : Forward) (c : Chip) : Bool :=
  match c.region with
  | 0 => f.sb.getLsbD (c.off / 0x2000)
  | 2 => f.oldSlot == (if c.off < 0x400 then c.off / 0x100 else (c.off - 0x400) / 8)
  | 3 => f.oldSlot == c.off / 0x40
  | _ => false

/-- Has the part of an entry's old place that an on-chip address names been granted again? -/
def Forward.back (f : Forward) (c : Chip) : Bool := if c.region = 0 then f.backSb.getLsbD (c.off / 0x2000) else f.backSlot

/-- What a retired entry still bars: of its old place what has not been granted again (R399); none when that is nothing. -/
def Forward.left (f : Forward) : Option Forward :=
  if !f.retired then some f
  else
    let g : Forward := { f with oldSlot := if f.backSlot then 4 else f.oldSlot, sb := f.sb &&& ~~~f.backSb }
    if g.oldSlot = 4 && g.sb = 0#48 then none else some g

/-- The forwarding entry of the old place that an on-chip key names (R173). The old core itself reaches there what it has granted again (DEDUCED,
log 25). -/
def State.forwardOf (s : State) (from_ k : Nat) : Option (Nat × Forward) :=
  if k < chipBit || 16 ≤ (chipOf k).unit then none
  else
    let c := chipOf k
    ((s.core c.core).forwards.find? fun f => !f.retired && f.names c && !(c.core == from_ && f.back c)).map fun f => (c.core, f)

/-- Does an access from another core reach a moved slot or bank whose forwarding entry has retired (R399)? It is not performed. -/
def State.goneAt (s : State) (from_ k : Nat) : Bool :=
  decide (chipBit ≤ k) && decide ((chipOf k).unit < 16) && (chipOf k).core != from_ &&
    ((s.core (chipOf k).core).forwards.any fun f => f.retired && f.names (chipOf k)) && (s.forwardOf from_ k).isNone

/-- Counts a packet that a core's network interface delivers (R175). -/
def State.deliver (s : State) (t : Option Nat) (cls : Nat) : State :=
  match t with
  | some t => s.countPkt t cls false
  | none => s

/-- Counts a response from a target to a core (R175). -/
def State.countResponse (s : State) (t : Option Nat) (core : Nat) : State :=
  (match t with
    | some t => s.countPkt t 1 true
    | none => s).countPkt core 1 false

/-- The bytes an entry accesses. -/
def Act.range : Act → Option (Nat × Nat)
  | .load _ _ k n _ _ _ => some (k, n)
  | .store _ k d _ _ => some (k, d.length)
  | .atomic _ _ dbl _ k _ _ _ => some (k, if dbl then 8 else 4)
  | .decr _ c _ => some (c.toNat, 16)
  | .taskq h => some (h.toNat, 16)
  | .await c _ _ => some (c.toNat, 16)
  | .cbar _ c _ => some (c.toNat, 16)
  | _ => none

/-- The packet of a flight has been delivered and, where it has a result, answered: the counts of R175. A built-in's reply is a response. -/
def State.exchanged (s : State) (f : Flight) : State :=
  if f.reply then s.deliver ((f.act.range.map (·.1)).bind unitCore) 1
  else match f.act.pkt f.who.core with
  | none => s
  | some (c, t) => if f.act.dest == .none then s.deliver t c else (s.deliver t c).countResponse t f.who.core

/-- Does an act say that a request has been performed, so that a response is under way? -/
def Act.answers : Act → Bool
  | .result _ _ _ _ => true
  | .cbarWait _ _ _ _ => true
  | .ack => true
  | .stampReturn _ _ _ => true
  | _ => false

/-! ## What is timed (R397) -/

/-- Does a storage key lie in another core, or in another cluster (R397)? -/
def State.farFrom (s : State) (core k : Nat) : Bool :=
  decide (chipBit ≤ k) && (match unitCore k with
    | some t => t != core
    | none => (chipOf k).cluster != s.clusterOf core)

/-- The limit of a wait in cycles of 700 MHz (R397): 100 µs for a target on the device, 2 ms for another. -/
def State.waitLimit (s : State) (dev : Nat) : Nat := if dev = s.dev then 70000 else 1400000

/-- What TVAL names an operation that is owed a response, and how long it waits (R397); an MCST is named by its group (DEDUCED, log 41). -/
def State.timed? (s : State) (f : Flight) : Option (Word × Nat) :=
  let here (v : Word) : Option (Word × Nat) := some (v, 70000)
  let at_ (va : Word) (k : Nat) : Option (Word × Nat) := if s.farFrom f.who.core k then here va else none
  if f.owed.isSome then f.owed
  else if f.reply || f.pkt.isSome then none
  else match f.act with
  | .load _ va k _ _ _ _ => at_ va k
  | .store va k _ _ _ => if f.ready then at_ va k else none
  | .atomic _ _ _ va k _ _ _ => at_ va k
  | .send ws => some (wordAt ws 1, s.waitLimit (msgDev ws))
  | .post _ _ key _ _ _ => here key
  | .mcst _ g _ _ _ => some (wd g, s.waitLimit (s.groups.get {} g).entry.seqdev)
  | .decr _ c _ => here c
  | .taskq h => here h
  | .await c _ _ => here c
  | .bind h _ => here h
  | .cbar _ c _ => here c
  | _ => none

/-- Replaces a flight's act; a response enters the mesh where the request was performed, and its operation stays timed. -/
def State.setAct (s : State) (id : Nat) (a : Act) : State :=
  s.modFlight id fun f =>
    if a.answers && !f.act.answers then { f with act := a, hop := s.hopBack f, owed := s.timed? f } else { f with act := a }

/-- Adds a record to the management log, a ring of 4,096 (R396). -/
def State.logMgmt (s : State) (r : MgmtRec) : State :=
  let d : Nat → Nat := fun c => s.dropped.get 0 c % 2 ^ 16
  let x : MgmtRec := { r with dev := s.dev, drops := wd (d 0 + d 1 * 2 ^ 16 + d 2 * 2 ^ 32 + d 3 * 2 ^ 48), cycle := wd s.cycle }
  { s with mlog := (s.mlog ++ [x]).drop (s.mlog.length + 1 - 4096) }

/-- A response for an operation that has timed out is discarded and logged (R397). -/
def State.discardLate (s : State) (f : Flight) : State := (s.dropFlight f.id).logMgmt { kind := 7, pos := s.seatPos f.who.core }

/-! ## Accesses that are not performed -/

/-- The core from which an access by a flight comes, for forwarding (R173). -/
def Flight.from? (f : Flight) : Nat := if f.pkt.isSome then 4096 else f.who.core

/-- Is a device reachable (R188)? -/
def State.reaches (s : State) (dev : Nat) : Bool := dev == s.dev || s.routes.get .invalid dev != .invalid

/-- Would an access have to follow a strand to a device that cannot be reached (R173, R398)? -/
def State.cutOff (s : State) (from_ k : Nat) : Bool :=
  match s.forwardOf from_ k with
  | some (_, f) => (match f.dev with
    | some d => !s.reaches d
    | none => false)
  | none => false

/-- Is an access to an on-chip key not performed: at a moved place that has retired (R399) or is on a device that cannot be reached (R398), or in a
quarantined bank or register (R419)? -/
def State.barredAt (s : State) (from_ k : Nat) : Bool :=
  s.goneAt from_ k || s.cutOff from_ k || (decide (chipBit ≤ k) && decide (k < farBit) && s.quarChip k)

/-- An access that is not performed, though its packet has been delivered (R175): its result is 0 and its sender takes fault 0x06 (R399); where no route
leads on, it ends as a timeout does (R397, R398). -/
def State.refuse (s : State) (f : Flight) (va : Word) : State :=
  let cut := match f.act.range with
    | some r => s.cutOff f.from? r.1
    | none => false
  let s1 : State := match f.act.dest with
    | .none => (s.exchanged f).dropFlight f.id
    | d => (s.exchanged f).setAct f.id (.result d (if cut then BitVec.allOnes 256 else 0#256) none [])
  s1.flightFault f (if cut then 0x19 else 6) va

/-- The key that an access really reaches, and the machine with the entry's use noted. An access that follows a strand to another device leaves this
one; what it finds there is a free value (DESIGN CHOICE, log 48). -/
def State.redirect (s : State) (from_ k : Nat) : Nat × State :=
  match s.forwardOf from_ k with
  | none => (k, s)
  | some (core, f) =>
    let c := chipOf k
    let off := match c.region with
      | 2 => if c.off < 0x400 then f.newSlot * 0x100 + c.off % 0x100 else 0x400 + f.newSlot * 8
      | 3 => f.newSlot * 0x40 + c.off % 0x40
      | _ => c.off
    let dst := chipAddr (f.newCore / 16) (f.newCore % 16) c.region off
    let s1 : State := s.modCore core fun d => { d with forwards := d.forwards.map fun g => if g = f then { g with used := s.cycle } else g }
    match f.dev with
    | none => (dst, s1)
    | some d => (farKey d dst, { s1 with out := s1.out ++ [.forwarded d dst] })

/-! ## Reads and writes as they are performed -/

/-- What a read meets when it is performed. -/
inductive ReadAns
  | held (s : State)
  | dead (granule : Nat)
  | val (bs : List Byte) (poison : Option Nat) (rels : Rels) (s : State)

/-- Bytes as a reader gets them: those of poisoned granules as zeros (R379), those of MACC as they stand there. -/
def State.cleaned (s : State) (ten k : Nat) (bs : List Byte) : List Byte :=
  if isMacc k then s.maccBytes k bs.length
  else if s.lostKey ten k then bs.map fun _ => 0#8 else
  (List.range bs.length).map fun i => if s.poison.contains ((k + i) / 16 * 16) then 0#8 else bs.getD i 0#8

/-- Every write that a location holds, in home order. -/
def State.homeView (s : State) (k n : Nat) : List Nat := (s.writes.filter fun w => w.touches k n).map (·.id)

/-- The words of a register or unit region as bytes. -/
def State.winBytes (s : State) (k n : Nat) : List Byte :=
  ((List.range ((n + 7) / 8)).flatMap fun i => leBytes 8 (s.winWord (k + 8 * i)).toNat).take n

/-- A read of a register or unit region: the words as they stand, which is all of W(u) applied, with what its writes release (R79, R94)
(DESIGN CHOICE, log 6). -/
def State.readWin (s : State) (party ten k n : Nat) : List Byte × Rels × State :=
  let (_, rels, s') := s.read party ten k n (s.homeView k n)
  (s.winBytes k n, rels, s')

/-- A read of a party at a storage key: a register region answers with its words, a bank that is not Full holds the read, an Off bank
answers dead (R67, R372). -/
def State.readAt (s : State) (party ten k n : Nat) (view : List Nat) : ReadAns :=
  if isWindow k then
    let (bs, rels, s') := s.readWin party ten k n
    .val bs none rels s'
  else
    let go (s : State) : ReadAns :=
      let (bs, rels, s') := s.read party ten k n view
      .val (s.cleaned ten k bs) (s.poisoned ten k n) rels s'
    if chipBit ≤ k then
      match (chipOf k).bank? with
      | some b =>
        match s.bankRead (chipOf k).core b with
        | (.dead, _) => .dead (granule k)
        | (.wait, s') => .held s'
        | (.ok, s') => go s'
      | none => go s
    else go s

/-- A write through a register or unit region: a write of the reference machine (R79, R94), and the words stored. -/
def State.writeWin (s : State) (party ten k : Nat) (bs : List Byte) (rels : Rels) : State :=
  (s.noteWrite party ten k bs rels).winStores k (rels ++ (s.party party).fence) (leWords bs (bs.length / 8))

/-- A write of a party at a storage key, with what it releases; none, with the machine, when its bank holds it (R67). -/
def State.writeAt (s : State) (party ten k : Nat) (bs : List Byte) (rels : Rels) : Option State × State :=
  if isWindow k then (some (s.writeWin party ten k bs rels), s)
  else if chipBit ≤ k then
    match (chipOf k).bank? with
    | some b =>
      match s.bankWrite (chipOf k).core b with
      | (.wait, s') => (none, s')
      | (_, s') => (some (s'.write party ten k bs rels), s')
    | none => (some ((s.write party ten k bs rels).maccStore k), s)
  else (some (s.write party ten k bs rels), s)

/-- A write whose wait for a wake is part of its own latency: the bank is Waking with the bytes in place (R67, DESIGN CHOICE, log 12). -/
def State.writeNow (s : State) (party ten k : Nat) (bs : List Byte) (rels : Rels) : State :=
  if isWindow k then s.writeWin party ten k bs rels
  else
    let s1 : State :=
      if chipBit ≤ k then
        match (chipOf k).bank? with
        | some b => if (s.core (chipOf k).core).bank b = 2 then s else s.wake (chipOf k).core b
        | none => s
      else s
    (s1.write party ten k bs rels).maccStore k

/-- The writes that a composite read of the turn takes (R80): those of the turn's view that touch it, or all of W(u). -/
def State.turnView (s : State) (k n : Nat) : List Nat :=
  if s.view.contains 0 then s.homeView k n
  else s.view.filter fun i => s.writes.any fun w => w.id == i && w.touches k n

/-- A read by a composite operation of the device, seeing what the turn's view names: Retain and Waking banks count as read after their wake;
none when Off. -/
def State.readNow (s : State) (party ten k n : Nat) : Option (List Byte × Rels × State) :=
  let go (s : State) : List Byte × Rels × State :=
    let (bs, rels, s') := s.read party ten k n (s.turnView k n)
    (s.cleaned ten k bs, rels, s')
  if isWindow k then some (s.readWin party ten k n)
  else if chipBit ≤ k then
    match (chipOf k).bank? with
    | some b =>
      if (s.core (chipOf k).core).bank b = 0 then none
      else some (go (if (s.core (chipOf k).core).bank b = 2 then s else s.wake (chipOf k).core b))
    | none => some (go s)
  else some (go s)

/-- A read by the device itself, which is no party of R77: it takes every write that the home holds (DESIGN CHOICE, log 6), from Retain and Waking
banks as after their wake (log 12); none when the bank is Off. -/
def State.readDev (s : State) (ten k n : Nat) : Option (List Byte × Rels × State) := ({ s with view := [0] } : State).readNow 0 ten k n |>.map fun r =>
  (r.1, r.2.1, { r.2.2 with view := s.view })

/-- The parts of a range that lie in aligned 32-byte groups (R78). -/
def groups32 : Nat → Nat → Nat → List (Nat × Nat)
  | 0, _, _ => []
  | f + 1, k, n => if n = 0 then [] else
    let m := Nat.min n (32 - k % 32)
    (k, m) :: groups32 f (k + m) (n - m)

/-- A read of several parts, each one step of the reference machine, as the turn sees them. -/
def State.readParts (party ten : Nat) : List (Nat × Nat) → State → ReadAns
  | [], s => .val [] none [] s
  | (k, n) :: l, s =>
    match s.readAt party ten k n (s.turnView k n) with
    | .val bs po rels s1 =>
      (match State.readParts party ten l s1 with
        | .val bs2 po2 rels2 s2 => .val (bs ++ bs2) (po.or po2) (rels ++ rels2) s2
        | a => a)
    | a => a

/-- A range that has to wait for a bank to wake: the machine with the wake begun (R67, R68). -/
def State.wakeFirst (s : State) (k n : Nat) : Option State :=
  let one (k : Nat) : Option State :=
    if chipBit ≤ k then
      match (chipOf k).bank? with
      | some b =>
        let st := (s.core (chipOf k).core).bank b
        if st = 1 ∨ st = 3 then some (s.wake (chipOf k).core b) else none
      | none => none
    else none
  (one k).or (one (k + n - 1))

/-! ## Program order among the accesses of a party (R85) -/

/-- Has the entry still to be performed? -/
def Act.pending : Act → Bool
  | .result _ _ _ _ => false
  | .rows _ => false
  | .cbarWait _ _ _ _ => false
  | .ack => false
  | .stampReturn _ _ _ => false
  | .stamped _ _ => false
  | .ctxsave _ _ _ => false
  | .migr _ _ _ _ => false
  | .coreStop _ _ _ _ _ => false
  | .gstop _ _ _ => false
  | .copyRead _ _ _ _ _ _ _ => false
  | .halted _ => false
  | .unit _ _ _ => false
  | .fetch _ _ => false
  | _ => true

/-- Does a word of ordering hold an acquire? -/
def ordAcq : Ordering2 → Bool
  | .acq => true
  | .ar => true
  | _ => false
/-- Does a word of ordering hold a release? -/
def ordRel : Ordering2 → Bool
  | .rel => true
  | .ar => true
  | _ => false

/-- Is the entry an acquire event? A store with an acquire ends in an implied FENCE (R83). -/
def Act.isAcq : Act → Bool
  | .load _ _ _ _ _ a _ => a
  | .store _ _ _ o _ => ordAcq o
  | .atomic _ _ _ _ _ _ _ o => ordAcq o
  | _ => false

/-- Is the entry a release event (R83)? -/
def Act.isRel : Act → Bool
  | .store _ _ _ o _ => ordRel o || ordAcq o
  | .atomic _ _ _ _ _ _ _ o => ordRel o
  | .decr _ _ _ => true
  | .taskq _ => true
  | .await _ _ _ => true
  | .bind _ _ => true
  | .cbar _ _ _ => true
  | .mcst _ _ _ _ _ => true
  | _ => false

/-- The number of an engine queue among the queues that an enqueue can go to. -/
def engKey : EngQueue → Nat × Nat
  | .copy c => (1, c)
  | .matrix c a => (2, 2 * c + a)
  | .fold c => (3, c)
  | .task c => (4, c)
  | .stream c => (5, c)

/-- The place to which the target word of a message sends it (R190): the device, and there a core, by its number or by an address in one of its regions, a
cluster's shared units, or what a translated address may reach. -/
def sendTarget (m1 : Word) : Nat :=
  fld m1 63 52 * 2 ^ 16 + (match fld m1 51 50 with
    | 2 => fld m1 10 0
    | 1 => if fld m1 28 24 < 16 then fld m1 34 29 * 16 + fld m1 28 24 else 2 ^ 12 + fld m1 34 29
    | _ => 2 ^ 13)

/-- The queue that an enqueue goes to (R88): run lists and engine queues by number, messages by the place that they go to, whatever their address (R183).
All messages of a strand to translated addresses of one device count as going to one place, since the unit is known only there (DESIGN CHOICE, log 110). -/
def Act.queueKey : Act → Option (Nat × Nat)
  | .enqueue _ c => some (0, c)
  | .engine q _ => some (engKey q)
  | .marker q _ => some (engKey q)
  | .send ws => some (6, sendTarget (wordAt ws 1))
  | .taskq h => some (0, (chipOf h.toNat).cluster)
  | _ => none

/-- The group of an MCST: two of one sender to one group are stamped in program order (R92). -/
def Act.group? : Act → Option Nat
  | .mcst _ g _ _ _ => some g
  | _ => none

/-- Is the entry an enqueue (R88)? -/
def Act.isEnq (a : Act) : Bool := a.queueKey.isSome

/-- Is the entry a POST? -/
def Act.isPost : Act → Bool
  | .post _ _ _ _ _ _ => true
  | _ => false

/-- Is the entry a plain access to storage (R85)? -/
def Act.isPlain : Act → Bool
  | .load _ _ _ _ _ a _ => !a
  | .store _ _ _ o _ => o == .plain
  | .atomic _ _ _ _ _ _ _ o => o == .plain
  | _ => false

/-- Is the entry an access to storage? -/
def Act.isAccess : Act → Bool
  | .load _ _ _ _ _ _ _ => true
  | .store _ _ _ _ _ => true
  | .atomic _ _ _ _ _ _ _ _ => true
  | _ => false

/-- Do two accesses touch a common granule? -/
def sameGranule (a b : Nat × Nat) : Bool := (granules a.1 (Nat.max 1 a.2)).any fun g => (granules b.1 (Nat.max 1 b.2)).contains g

/-- May the later entry `f` be performed before the entry `e` of the same party (R85)? The table's rows that say yes: two plain accesses to
different granules, an enqueue before one to another queue or before an access, two POSTs; and MCSTs to different groups (R92). A later
entry that is a release as well (every enqueue and POST is one) passes an earlier one only where such a row names both (DEDUCED, log 81). -/
def mayPass (e f : Act) : Bool :=
  (e.isPlain && f.isPlain && !(match e.range, f.range with | some a, some b => sameGranule a b | _, _ => false)) ||
  (e.isEnq && f.isEnq && e.queueKey != f.queueKey) ||
  (e.isEnq && f.isAccess && !f.isRel) ||
  (e.isPost && f.isPost) ||
  (match e.group?, f.group? with | some g, some h => g != h | _, _ => false)

/-- Must entry `e` be performed before the later entry `f` of the same party (R85)? -/
def blocks (e f : Act) : Bool := e.pending && (e.isAcq || !mayPass e f)

/-- May the flight be performed now: its packet has arrived (R179), and its party's earlier entries let it (R85)? -/
def State.performable (s : State) (f : Flight) : Bool :=
  f.ready && !f.landing && f.hop.isNone && !(s.flights.any fun e => e.party == f.party && decide (e.id < f.id) && blocks e.act f.act)

/-! ## Arrival at a unit or a bank (R60, R68) -/

/-- The source identifier by which a flight's request is known (R184). -/
def State.flightSrc (s : State) (f : Flight) : Nat := (s.originOf f).toNat

/-- The place of a request to an address among those of one cycle (R60 steps 2 to 4): a remote one by its source identifier; then the cluster's
own cores by number, its task scheduler and its fold store. -/
def State.reqRank (s : State) (f : Flight) (k : Nat) : Nat :=
  let cl := (chipOf k).cluster
  if chipBit ≤ k && f.pkt.isNone && f.who.core < 1024 && f.who.core / 16 = cl then 2 ^ 60 + f.who.core % 16
  else if chipBit ≤ k && isUnit f.who.core && (f.who.core - 4096) / 4 = cl then 2 ^ 60 + 16 + f.who.core % 4
  else s.flightSrc f

/-- The location at which an atomic unit performs a request (R59). -/
def Act.location : Act → Option (Nat × Nat)
  | .atomic _ _ dbl _ k _ _ _ => some (k, if dbl then 8 else 4)
  | .decr _ c _ => some (c.toNat, 16)
  | .taskq h => some (h.toNat, 16)
  | .await c _ _ => some (c.toNat, 16)
  | .cbar _ c _ => some (c.toNat, 16)
  | .bind h _ => some (h.toNat, 16)
  | _ => none

/-- The level at which the device's own reads for a tenant are checked; key 0 stands for level M (R202). -/
def State.devLevel (_s : State) (ten : Nat) : Level := if ten = 0 then .m else .u

/-- PRIO of a message (R190). -/
def msgPrio (ws : List Word) : Nat := fld (wordAt ws 0) 63 58
/-- Is the handler of a message built in? -/
def msgBuiltin (ws : List Word) : Bool := decide (msgHandler ws < 0x1000)
/-- The address that m1 names in space 0b00 or 0b01. -/
def msgVa (ws : List Word) : Word := if msgSpace ws = 1 then wd (chipBit + msgAddr ws % 2 ^ 35) else wd (msgAddr ws)
/-- Bytes of a STORE, LOAD or ATOMIC. -/
def msgBytes (ws : List Word) : Nat :=
  if msgHandler ws = 0x20 then (if bit (wordAt ws 2) 4 then 8 else 4) else msgPrio ws + 1

/-- The cluster whose TLB translates for a built-in: that of the on-chip address, else cluster 0 (DEDUCED, log 43). -/
def msgCluster (va : Word) : Nat := if bit va 56 then (chipOf va.toNat).cluster else 0

/-- The check of a tenant's built-in at its target (R191): the windows of the sending tenant, at level U (DEDUCED, log 43), by the cluster's TLB or the
walk that it has waited for (R58). -/
def State.msgCheck (s : State) (f : Flight) (acc : Acc) (ws : List Word) : Chk :=
  s.checkUnit f.id (msgCluster (msgVa ws)) f.ten (s.devLevel f.ten) acc false (msgVa ws) (msgBytes ws)

/-- The location at which a flight's request is performed: also that of a built-in ATOMIC or DECR (R191). -/
def State.locationOf (s : State) (f : Flight) : Option (Nat × Nat) :=
  match f.act with
  | .send ws =>
    if msgDev ws ≠ s.dev then none
    else if msgHandler ws = 0x20 then
      (match s.msgCheck f .atomic ws with
        | .ok k => some ((s.redirect f.from? k).1, msgBytes ws)
        | _ => none)
    else if msgHandler ws = 0x40 then some ((s.redirect f.from? (msgVa ws).toNat).1, 16)
    else none
  | a => a.location.map fun l => ((s.redirect f.who.core l.1).1, l.2)

/-- Do two ranges of bytes meet? -/
def meets (a b : Nat × Nat) : Bool := decide (a.1 < b.1 + b.2) && decide (b.1 < a.1 + a.2)

/-- Notes that a flight has reached its unit or bank, in this cycle and after all that reached one before, with the writes that a load held there
will read (R60, R68, R80). -/
def State.noteReach (s : State) (f : Flight) (view : List Nat) : State :=
  if f.reached.isSome then s
  else ({ s with fresh := s.fresh + 1 } : State).modFlight f.id fun g => { g with reached := some (s.cycle, s.fresh), view := view }

/-- Does request `g` come before `f` at the location of `f` (R60): it reached the unit in an earlier cycle, or in the same and ranks first? -/
def State.comesBefore (s : State) (g f : Flight) (at_ : Nat × Nat) : Bool :=
  match g.reached, f.reached, s.locationOf g with
  | some (c, _), some (d, _), some l =>
    g.id != f.id && meets l at_ &&
      (decide (c < d) || (c == d && (decide (s.reqRank g at_.1 < s.reqRank f at_.1) ||
        (s.reqRank g at_.1 == s.reqRank f at_.1 && decide (g.id < f.id)))))
  | _, _, _ => false

/-- Did `g` come before `f` to a bank that held both (R60, R68): in an earlier cycle; in one cycle two atomics in the order of R60 steps 2 to 4, and others
in the order in which they reached it? -/
def State.heldBefore (s : State) (g f : Flight) : Bool :=
  match g.reached, f.reached with
  | some (c, m), some (d, n) =>
    decide (c < d) || (c == d &&
      (match s.locationOf g, s.locationOf f with
        | some a, some b =>
          decide (s.reqRank g a.1 < s.reqRank f b.1) || (s.reqRank g a.1 == s.reqRank f b.1 && decide (m < n))
        | _, _ => decide (m < n)))
  | _, _ => false

/-- May an atomic unit perform a request now (R60)? It reached the unit in an earlier cycle, so that every request of its own cycle is known; none
at its location comes before it; and the unit has performed none there in this cycle. -/
def State.itsTurn (s : State) (f : Flight) (at_ : Nat × Nat) : Bool :=
  (match f.reached with
    | some (c, _) => decide (c < s.cycle)
    | none => false) &&
  !(s.servedAt.any (meets at_)) && !(s.flights.any fun g => s.comesBefore g f at_)

/-- Has another atomic of the core already gone out in this cycle (R60)? Its slots and its copy engine share one port. -/
def State.portBusy (s : State) (f : Flight) : Bool :=
  f.pkt.isNone && !isUnit f.who.core && s.flights.any fun g =>
    g.id != f.id && g.pkt.isNone && g.who.core == f.who.core && g.act.location.isSome && (match g.reached with
      | some (c, _) => c == s.cycle
      | none => false)

/-- A request at its atomic unit (R60): it reaches the unit; once its turn has come, `k` performs it. -/
def State.onTurn (s : State) (f : Flight) (k : State → State) : State :=
  if !s.performable f then s
  else match s.locationOf f with
    | none => s
    | some at_ =>
      if f.reached.isNone then (if s.portBusy f then s else s.noteReach f [])
      else if !s.itsTurn f at_ then s
      else k { s with servedAt := at_ :: s.servedAt }

/-- Has every earlier entry of the issuing strand been performed (R82, R85)? -/
def State.quiet (s : State) : Bool := (s.flightsOf s.cur).all fun f => !f.act.pending

/-- Have the issuing strand's earlier entries been performed as far as the release event of `a`, which takes place at issue, needs it (R82, R83)?
Enqueues and POSTs still under way are not waited for by another enqueue or POST: their own order is that of `mayPass` (DEDUCED, log 81). -/
def State.quietFor (s : State) (a : Act) : Bool :=
  (s.flightsOf s.cur).all fun f => !f.act.pending || (!f.act.isAcq && ((f.act.isEnq && a.isEnq) || mayPass f.act a))

/-- FENCE of a party as one step (R84): it acquires what is pending, and its later writes carry its release set. -/
def State.fence (s : State) (p scope : Nat) : State :=
  let s1 : State := s.acquire p scope []
  s1.modParty p fun q => { q with fence := [(p * 8 + scope, q.floor)] }


/-! ## Results that land -/

/-- The last-use hint of a performed access of `n` bytes: it takes effect at the end of the cycle (R70, R72). -/
def State.applyHint (s : State) (f : Flight) (k n : Nat) (store : Bool) (h : Hint) : State :=
  if s.holds f.who f.party then
    match ((s.slot f.who).hintBank f.who.core k).or (if store then (s.slot f.who).rstBank f.who.core k n else none) with
    | some b => (hintEffect b h).foldl (fun t e => t.hintDue f.who.core e.1 e.2) s
    | none => s
  else s

/-- Sign- or zero-extension of a loaded value (R282). -/
def extend (signed : Bool) (n v : Nat) : Row :=
  if signed then (BitVec.ofInt 64 (sLane (8 * n) v)).setWidth 256 else BitVec.ofNat 256 v

/-- Lands a value in a scalar of the slot (R219); a CBAR departure carries what its arrivals released at cluster scope (R291). -/
def Slot.land (x : Slot) (r : Reg) (v : Word) (rel : Rels) : Slot :=
  let y : Slot := x.setS r v
  { y with regRel := if rel.isEmpty then y.regRel.filter fun e => e.1 != r.toNat else y.regRel.put r.toNat (2, rel) }

/-! ## Fetching (R86, R347) -/

/-- What a fetch finds; `own`: an earlier access of the strand to the granule has still to be performed (R85). -/
inductive Fetched
  | word (w : BitVec 32) (s : State)
  | bad (code : Nat) (tval : Word)
  | miss
  | own
  | wake (core bank key : Nat)

/-- The fetch of the word at a PC of a slot (R347): a load of 4 B with permission X in place of R, and a plain read of the strand (R86), which sees
what the turn's view names (R80). It waits for the strand's earlier accesses to the granule; it is no entry of the issue queue, so that it waits for
nothing else there (DEDUCED, log 82). A strand that has moved finds its code in the bank that has moved with it (R173). -/
def State.fetchAt (s : State) (r : SlotRef) (pc : Word) : Fetched :=
  let x : Slot := s.slot r
  let get (s : State) (k : Nat) : Fetched :=
    if (s.flightsOf r).any fun f => f.act.pending && (match f.act.range with | some a => sameGranule a (k, 4) | none => false) then .own
    else
      let (bs, rels, s1) := s.read x.party x.ten k 4 (s.turnView k 4)
      .word (BitVec.ofNat 32 (leNat bs)) (s1.pending x.party rels)
  match s.addrCheck x.ten x.level pc 4 (s.translate r x.ten x.level .fetch pc 4) with
  | .bad c t => .bad c t
  | .miss => .miss
  | .ok k0 =>
    if s.goneAt r.core k0 then .bad 6 pc
    else
      let (k, s) := s.redirect r.core k0
      if chipBit ≤ k then
        match (chipOf k).bank? with
        | some b =>
          match (s.core (chipOf k).core).bank b with
          | 0 => .bad 9 (wd (granule k))
          | 2 => get s k
          | _ => .wake (chipOf k).core b k
        | none => .bad 6 pc
      else get s k

/-- A fetch that a Waking bank holds (R68, R347): it is performed when the wake ends. -/
def State.holdFetch (s : State) (r : SlotRef) (pc : Word) (k : Nat) : State :=
  if s.flights.any fun f => f.who == r && f.act == .fetch pc k then s
  else { s with
    fresh := s.fresh + 1
    flights := s.flights ++ [{ id := s.fresh, who := r, party := (s.slot r).party, ten := (s.slot r).ten, level := (s.slot r).level, queue := 0
                               born := s.cycle, act := .fetch pc k, reached := some (s.cycle, s.fresh) }] }

/-- A fetch that was held is performed: the word waits in the slot, if that still holds the strand. -/
def State.landFetch (s : State) (f : Flight) (pc : Word) : State :=
  let s1 : State := s.dropFlight f.id
  if !s1.holds f.who f.party then s1
  else match s1.fetchAt f.who pc with
    | .word w t => t.modSlot f.who fun x => { x with latch := x.latch ++ [(pc, w)] }
    | _ => s1

/-- A slot of which a word has been fetched: the first fetch of its trap handler, if it is in one, is over (R336). -/
def State.entered (s : State) (r : SlotRef) : State := if (s.slot r).entry then s.modSlot r fun x => { x with entry := false } else s

/-- The fetch of a word for a slot: one that has waited for its bank, or a fetch now. -/
def State.fetchWord (s : State) (r : SlotRef) (pc : Word) : Fetched :=
  match (s.slot r).latch.find? fun e => e.1 == pc with
  | some (_, w) => .word w (s.entered r)
  | none => match s.fetchAt r pc with
    | .word w t => .word w (t.entered r)
    | o => o

end Sys2Proof.Machine
end

