-- ==== Sys2Proof/Machine/Memory.lean ====
section
/-! DEFINITION. Loads, stores and rows (R282 to R285), atomics (R286 to R288), synchronisation (R289 to R293), banks (R308), PREF
(R218), TLB removal (R314), and the events that perform accesses and land results. -/

namespace Sys2Proof.Machine

open Host

/-! ## Loads and stores at issue -/

/-- Size and signedness of a load (R214, R282). -/
def ldSize : LdSize → Nat × Bool
  | .b => (1, true)
  | .h => (2, true)
  | .w => (4, true)
  | .d => (8, false)
  | .bu => (1, false)
  | .hu => (2, false)
  | .wu => (4, false)
/-- Size of a store (R214). -/
def stSize : StSize → Nat
  | .b => 1
  | .h => 2
  | .w => 4
  | .d => 8

/-- Step 8 of R350 for LD and ST: LPDDR-6 from memory cores only (R283). -/
def State.placeLS (s : State) (k : Nat) : Bool :=
  match s.place k with
  | .lpddr _ => coreKind s.cur.core == .memory
  | _ => true

/-- Step 8 of R350 for RLD and RST (R285). -/
def State.placeRow (s : State) (k : Nat) : Bool :=
  match s.place k with
  | .lpddr _ => false
  | _ => !isWindow k

/-- Step 8 of R350 for atomics (R286). -/
def State.placeAtomic (s : State) (k : Nat) : Bool :=
  match s.place k with
  | .chip => inScr k
  | .stack => true
  | .lpddr _ => coreKind s.cur.core == .memory
  | _ => false

/-- Step 9 of R350: the bank of the issuing core that a read will find Off (R329). -/
def State.deadOwn (s : State) (k : Nat) : Option Nat :=
  match ownBank s.cur.core k with
  | some b => if s.bankSoon s.cur b = 0 then some b else none
  | none => none

/-- Steps 8 and 9 of R350 after a successful check. -/
def State.atPlace (s : State) (va : Word) (key : Nat) (okPlace : Nat → Bool) (reads : Bool) (k : State → State) : State :=
  if !okPlace key then s.trap 6 va
  else if reads then
    match s.deadOwn key with
    | some b => s.trap 9 (wd b)
    | none => k s
  else k s

/-- Steps 8 and 9 of R350 for every part of a wide read. -/
def State.atPlaces (s : State) (va : Word) (parts : List (Nat × Nat)) (okPlace : Nat → Bool) (k : State → State) : State :=
  if parts.any fun p => !okPlace p.1 then s.trap 6 va
  else match parts.findSome? fun p => (s.deadOwn p.1).or (s.deadOwn (p.1 + p.2 - 1)) with
    | some b => s.trap 9 (wd b)
    | none => k s

/-- LD (R282 to R284). -/
def execLd (d a : Reg) (z : LdSize) (h : Hint) (o : Ordering2) (i : BitVec 9) (s : State) : Out1 :=
  .next (s.issue [(a, s.wmode)] [d] fun s =>
    let n := (ldSize z).1
    let va := s.sl.rd a + BitVec.ofInt 64 (i.toInt * n)
    s.onAddr .load va (s.check s.cur .load va n n) fun key s =>
      s.atPlace va key s.placeLS true fun s =>
        if ordRel o && !s.quiet then s  -- the implied FENCE (R83)
        else (if ordRel o then s.fence s.sl.party 3 else s).produce d (.load (.reg d) va key n (ldSize z).2 (ordAcq o) h))

/-- ST (R282 to R284). -/
def execSt (d a : Reg) (z : StSize) (h : Hint) (o : Ordering2) (i : BitVec 9) (s : State) : Out1 :=
  .next (s.issue [(a, s.wmode), (d, s.wmode)] [] fun s =>
    let n := stSize z
    let va := s.sl.rd a + BitVec.ofInt 64 (i.toInt * n)
    s.onAddr .store va (s.check s.cur .store va n n) fun key s =>
      s.atPlace va key s.placeLS false fun s =>
        (s.launchFlight s.cur (.store va key (leBytes n (s.sl.rd d).toNat) o h)).done id)

/-- The checks of a row field (R356), steps 8 of R344, then `k`. -/
def State.rowNames (s : State) (fs : List RowField) (k : State → State) : State :=
  if fs.any fun f => !f.lawful then s.trap 1 0#64
  else match fs.findSome? fun f => f.unmapped s.sl.tiles.length with
    | some n => s.trap 9 (wd (2 ^ 63 + n))
    | none => k s

/-- The address of a row access. -/
def State.rowEa (s : State) (a : Reg) (i : BitVec 11) : Word := s.sl.rd a + BitVec.ofInt 64 (32 * i.toInt)

/-- RLD (R285): LQ reserves its tail entry and is performed by the access half; a tile row goes through the sequencer. Its hint applies to the addressed
scratch bank also when the row is LQ or ZR, which R70 takes out as rows of no tile bank (DEDUCED, log 102). -/
def execRld (r : RowName) (a : Reg) (h : Hint) (i : BitVec 11) (s : State) : Out1 :=
  .next (s.needs false 0x17 fun s => s.issue [(a, s.wmode)] [] fun s =>
    s.rowNames (if r = 112#7 then [] else [⟨r, .dst, 1⟩]) fun s =>
    if r = 113#7 then s.trap 1 0#64
    else
      let va := s.rowEa a i
      s.onAddr .load va (s.check s.cur .load va 32 32) fun key s =>
        s.atPlace va key s.placeRow true fun s =>
          if r = 112#7 then
            if 16 ≤ s.sl.lq.length then s
            else
              let id := s.fresh
              (s.launchFlight s.cur (.load .lq va key 32 false false h)).done fun x => { x with lq := x.lq ++ [{ flight := id }] }
          else if r = 114#7 then (s.launchFlight s.cur (.load .none va key 32 false false h)).done id
          else if 16 ≤ (s.core s.cur.core).seqLen then s
          else
            let id := s.fresh
            let s1 : State := (s.launchFlight s.cur (.load (.row r) va key 32 false false h)).modFlight id fun f => { f with ready := false }
            s1.pushSeq (.rld r a h i) [] (some (va, id)) [])

/-- RST (R285): SQ pairs a pushed row with the address; a tile row goes through the sequencer. -/
def execRst (r : RowName) (a : Reg) (h : Hint) (i : BitVec 11) (s : State) : Out1 :=
  .next (s.needs false 0x17 fun s => s.issue [(a, s.wmode)] [] fun s =>
    s.rowNames (if r = 113#7 then [] else [⟨r, .src, 1⟩]) fun s =>
    if r = 112#7 then s.trap 1 0#64
    else
      let va := s.rowEa a i
      s.onAddr .store va (s.check s.cur .store va 32 32) fun key s =>
        s.atPlace va key s.placeRow false fun s =>
          let x : Slot := s.sl
          if r = 113#7 then
            match x.sq with
            | v :: rest => (s.launchFlight s.cur (.store va key (rowBytes v.bits) .plain .none)).done fun x => { x with sq := rest }
            | [] =>
              if 16 ≤ x.sa.length then s
              else
                let id := s.fresh
                let s1 : State := (s.launchFlight s.cur (.store va key (rowBytes 0#256) .plain .none)).modFlight id fun f => { f with ready := false }
                s1.done fun x => { x with sa := x.sa ++ [⟨va, key, id⟩] }
          else if r = 114#7 then (s.launchFlight s.cur (.store va key (rowBytes 0#256) .plain .none)).done id
          else if s.bankSoon s.cur (x.tileBank r.toNat) = 0 then s.trap 9 (wd (x.tileBank r.toNat))
          else if 16 ≤ (s.core s.cur.core).seqLen then s
          else
            let id := s.fresh
            let s1 : State := (s.launchFlight s.cur (.store va key (rowBytes 0#256) .plain .none)).modFlight id fun f => { f with ready := false }
            s1.pushSeq (.rst r a h i) [] (some (va, id)) [])

/-! ## Atomics -/

/-- The new value of an atomic (R286, R288), on values of the access width. -/
def atomicNew (op w old x c : Nat) : Nat :=
  let sv : Nat → Int := fun v => (IFmt.mk w true).val v
  match op with
  | 0 => (old + x) % 2 ^ w
  | 1 => old &&& x
  | 2 => old ||| x
  | 3 => old ^^^ x
  | 4 => if sv x < sv old then x else old
  | 5 => if sv old < sv x then x else old
  | 6 => Nat.min old x
  | 7 => Nat.max old x
  | 8 => x
  | 9 => if old = c then x else old
  | _ => afadd old x

/-- An atomic at issue (R286, R287). -/
def atomic (op : Nat) (d a b : Reg) (wa wb : Bool) (o : Ordering2) (dbl : Bool) (s : State) : State :=
  s.issue ([(a, wa), (b, wb)] ++ (if op = 9 then [(d, false)] else [])) [d] fun s =>
    let n := if dbl then 8 else 4
    let va := s.sl.rd a
    s.onAddr .atomic va (s.check s.cur .atomic va n n) fun key s =>
      s.atPlace va key s.placeAtomic true fun s =>
        s.produce d (.atomic (.reg d) op dbl va key (s.sl.rd b) (s.sl.rd d) o)

/-- AADD (R286). -/
def execAadd (d a b : Reg) (wa wb : Bool) (o : Ordering2) (dbl : Bool) (s : State) : Out1 := .next (atomic 0 d a b wa wb o dbl s)
/-- AAND (R286). -/
def execAand (d a b : Reg) (wa wb : Bool) (o : Ordering2) (dbl : Bool) (s : State) : Out1 := .next (atomic 1 d a b wa wb o dbl s)
/-- AOR (R286). -/
def execAor (d a b : Reg) (wa wb : Bool) (o : Ordering2) (dbl : Bool) (s : State) : Out1 := .next (atomic 2 d a b wa wb o dbl s)
/-- AXOR (R286). -/
def execAxor (d a b : Reg) (wa wb : Bool) (o : Ordering2) (dbl : Bool) (s : State) : Out1 := .next (atomic 3 d a b wa wb o dbl s)
/-- AMIN (R286). -/
def execAmin (d a b : Reg) (wa wb : Bool) (o : Ordering2) (dbl : Bool) (s : State) : Out1 := .next (atomic 4 d a b wa wb o dbl s)
/-- AMAX (R286). -/
def execAmax (d a b : Reg) (wa wb : Bool) (o : Ordering2) (dbl : Bool) (s : State) : Out1 := .next (atomic 5 d a b wa wb o dbl s)
/-- AMINU (R286). -/
def execAminu (d a b : Reg) (wa wb : Bool) (o : Ordering2) (dbl : Bool) (s : State) : Out1 := .next (atomic 6 d a b wa wb o dbl s)
/-- AMAXU (R286). -/
def execAmaxu (d a b : Reg) (wa wb : Bool) (o : Ordering2) (dbl : Bool) (s : State) : Out1 := .next (atomic 7 d a b wa wb o dbl s)
/-- ASWP (R286). -/
def execAswp (d a b : Reg) (wa wb : Bool) (o : Ordering2) (dbl : Bool) (s : State) : Out1 := .next (atomic 8 d a b wa wb o dbl s)
/-- ACAS (R286): d is the compare value, read in block mode. -/
def execAcas (d a b : Reg) (wa wb : Bool) (o : Ordering2) (dbl : Bool) (s : State) : Out1 := .next (atomic 9 d a b wa wb o dbl s)
/-- AFADD (R288): words only. -/
def execAfadd (d a b : Reg) (wa wb : Bool) (o : Ordering2) (s : State) : Out1 := .next (atomic 10 d a b wa wb o false s)

/-! ## Synchronisation -/

/-- Code of a scope (R83). -/
def scopeCode : Scope → Nat
  | .slot => 0
  | .core => 1
  | .cluster => 2
  | .device => 3
  | .fabric => 4

/-- FENCE (R84, R289): it waits for the issuer's earlier entries. -/
def execFence (sc : Scope) (s : State) : Out1 :=
  .next (if s.quiet then (s.fence s.sl.party (scopeCode sc)).done id else s)

/-- The queues of an issuing core that a QFENCE mask can name (R360). -/
def qfenceAbsent (k : CoreKind) (m : BitVec 5) : Option Nat :=
  let absent : List Nat := match k with
    | .compute => [4]
    | .memory => [0, 1]
    | .monitor => [0, 1, 2, 3, 4]
  (List.range 5).find? fun b => m.getLsbD b && absent.contains b

/-- Is a queue entry a marker of QFENCE (R88)? -/
def EngOp.isMarker (o : EngOp) : Bool := o.eps.get 0#64 64 == 1#64

/-- The marker of a QFENCE in a queue: its number is the flight's, EP65 names the QFENCE. -/
def mkMarker (f : Flight) (fence : Nat) : EngOp :=
  { id := f.id, who := f.who, party := f.party, ten := f.ten, level := f.level, queue := f.queue, eps := [(64, 1#64), (65, wd fence)] }

/-- The QFENCE that a marker belongs to. -/
def EngOp.fenceOf (o : EngOp) : Nat := (o.eps.get 0#64 65).toNat

/-- Numbers of the operations that entered an array through its MATRIX queue and are not complete, the running one among them; tile tasks are not
held in an engine queue (R87). -/
def MArray.opIds (a : MArray) : List Nat :=
  (a.queue.filter fun o => !o.isMarker).map (·.id) ++ (a.run.toList.filterMap fun r => if r.recd.isNone then some r.op.id else none)

/-- The queues that a mask of QFENCE names on a core (R290). -/
def State.fenceQueues (s : State) (m : BitVec 5) : List EngQueue :=
  let k := s.cur.core
  let cl := s.clusterOf k
  (if m.getLsbD 0 then [.copy k] else []) ++ (if m.getLsbD 1 then [.matrix cl 0, .matrix cl 1] else []) ++
    (if m.getLsbD 2 then [.fold cl] else []) ++ (if m.getLsbD 3 then [.task cl] else []) ++ (if m.getLsbD 4 then [.stream k] else [])

/-- QFENCE (R88, R290): a marker goes to the tail of each queue named, behind the enqueues that the strand has sent there; the strand goes on. -/
def execQfence (m : BitVec 5) (s : State) : Out1 :=
  .next (match qfenceAbsent (coreKind s.cur.core) m with
    | some b => s.trap 3 (wd (0x19 + b * 256))
    | none =>
      let qs := s.fenceQueues m
      if qs.isEmpty then s.done id
      else
        let n := s.fresh
        let s1 : State := { s with fresh := n + 1, qfences := s.qfences ++ [{ id := n, left := qs.length }] }
        (qs.foldl (fun t q => t.launchFlight s.cur (.marker q n)) s1).done id)

/-- CBAR (R291). -/
def execCbar (d a b : Reg) (wa wb : Bool) (s : State) : Out1 :=
  .next (s.issue [(a, wa), (b, wb)] [d] fun s =>
    let va := s.sl.rd a
    s.onAddr .atomic va (s.check s.cur .atomic va 8 16) fun key s =>
      s.atPlace va key (fun k => inScr k && (chipOf k).cluster == s.clusterOf s.cur.core) true fun s =>
        s.produce d (.cbar (.reg d) va (Nat.max 1 (fld (s.sl.rd b) 15 0))))

/-- WAITFE (R293): it blocks in every mode and never traps. -/
def execWaitfe (a : Reg) (s : State) : Out1 := .next (s.issue [(a, false)] [] fun s => s.done id)
/-- SETE (R293). -/
def execSete (a : Reg) (s : State) : Out1 := .next (s.issue [] [a] fun s => s.done fun x => x.setFull a false)

/-- PREF (R218): it may start a walk, and this model starts it; it waits on nothing and changes nothing visible (DESIGN CHOICE, log 27). -/
def execPref (a : Reg) (i : BitVec 16) (s : State) : Out1 :=
  let x : Slot := s.sl
  let va := x.rd a + BitVec.ofInt 64 (32 * i.toInt)
  let cl := s.clusterOf s.cur.core
  let die := s.dieOf s.cur.core
  let busy := (s.walks.filter fun w => w.die == die).length
  let same := s.walks.any fun w => w.ten == x.ten && w.page == va.toNat / 4096 && w.die == die && !w.dead
  .next
    (if x.isFull a && fld va 63 56 = 0 && !same && !((s.cluster cl).tlb.any fun e => e.covers x.ten va.toNat) && busy < 96 then
      ({ s with fresh := s.fresh + 1
                walks := s.walks ++ [{ id := s.fresh, cluster := cl, die := die, ten := x.ten, level := x.level, page := va.toNat / 4096,
                                       root := (s.tenant x.ten).ptroot, waiters := [], kind := 0, pref := true }] } : State).done id
    else s.done id)

/-! ## Banks -/

/-- Code of the state that BANK names, as `State.bankEvent` takes it. -/
def bankReqCode : BankReq → Nat
  | .off => 0
  | .retain => 1
  | .full => 2

/-- Is an earlier access of the slot to the bank still to be performed (R308)? -/
def State.bankBusy (s : State) (r : SlotRef) (b : Nat) : Bool :=
  let x : Slot := s.slot r
  let reads (i : Instr) : List Nat := (rowShape i).fields.flatMap x.fieldBanks
  ((s.flightsOf r).any fun f =>
    (match f.act.range with | some (k, _) => ownBank r.core k == some b | none => false) ||
      (match f.act with | .rows o => o.rows.any fun e => ownBank r.core e.1 == some b | _ => false) ||
      (match f.act.dest with | .row n => x.tileBank n.toNat == b | _ => false)) ||
  (s.seqOf r).any fun it => match it with
    | .one e => (match e.instr with | .rst n _ _ _ => n.toNat < 112 && x.tileBank n.toNat == b | i => (reads i).contains b)
    | .rep v => v.words.any fun e => (List.range (Nat.min v.count 112)).any fun k =>
        (reads (strideInstr k v.sd v.sa v.sb e.instr)).contains b

/-- BANK (R308): after the slot's earlier accesses to the bank, at the end of the cycle; meanwhile it is held at issue (DESIGN CHOICE, log 112). -/
def execBank (st : BankReq) (n : BitVec 6) (s : State) : Out1 :=
  .next (s.needs false 0x1E fun s =>
    if !s.sl.hasBank n.toNat then s.trap 6 (wd (bankAddr s.cur.core n.toNat))
    else if s.bankBusy s.cur n.toNat then s
    else (s.hintDue s.cur.core n.toNat (bankReqCode st)).done id)

/-- BSTAT (R308): the state at the end of the cycle before (R66). -/
def execBstat (d : Reg) (n : BitVec 6) (s : State) : Out1 :=
  .next (s.needs false 0x1E fun s => s.issue [] [d] fun s => s.setD d (wd ((s.core s.cur.core).bankShown n.toNat)))

/-! ## Performing accesses -/

/-- Which of the `n` atomic groups of a wide access the turn performs (R78): the one that the turn names, or the first that is still to be performed. -/
def State.partOf (s : State) (f : Flight) (n : Nat) : Nat :=
  let left := (List.range n).filter fun i => !f.parts.contains i
  if s.part ≠ 0 && left.contains (s.part - 1) then s.part - 1 else left.headD 0

/-- The 8-byte group of a row access to host space that the turn performs (R285). -/
def State.hostPart (s : State) (f : Flight) : Nat := s.partOf f 4

/-- Performs one group of a row load from host space. -/
def State.loadPart (s : State) (f : Flight) (d : Dest) (k : Nat) (view : List Nat) : State :=
  let i := s.hostPart f
  let (bs, rels, s1) := s.read f.party f.ten (k + 8 * i) 8 view
  let got := f.gather ||| (BitVec.ofNat 256 (leNat bs) <<< (64 * i))
  let s2 : State := s1.pending f.party rels
  if f.parts.length < 3 then s2.modFlight f.id fun g => { g with parts := g.parts ++ [i], gather := got }
  else (s2.exchanged f).setAct f.id (.result d got none [])

/-- Performs a load in flight (R80, R372, R379). -/
def State.performLoad (s : State) (f : Flight) (view : List Nat) : State :=
  match f.act with
  | .load d va key n signed acq h =>
    if s.barredAt f.who.core key then s.refuse f va else
    let (k, s1) := s.redirect f.who.core key
    if s.place k = .host && n = 32 then s1.loadPart f d k view
    else match s1.readAt f.party f.ten k n view with
    | .held s' => s'.noteReach f view
    | .dead g => ((s1.exchanged f).setAct f.id (.result d 0#256 none [])).flightFault f 9 (wd g)
    | .val bs po rels s2 =>
      let s3 : State := if acq then s2.acquire f.party 3 rels else s2.pending f.party rels
      let v : Row := match d with
        | .reg _ => extend signed n (leNat bs)
        | _ => rowOf bs
      let s4 : State := ((s3.exchanged f).setAct f.id (.result d v po [])).applyHint f k n false h
      match po with
      | some g => s4.flightFault f 0x14 (wd g)
      | none => s4
  | _ => s

/-- Performs one group of a row store to host space. -/
def State.storePart (s : State) (f : Flight) (k : Nat) (bs : List Byte) : State :=
  let i := s.hostPart f
  let s1 : State := s.write f.party f.ten (k + 8 * i) ((bs.drop (8 * i)).take 8) []
  if f.parts.length < 3 then s1.modFlight f.id fun g => { g with parts := g.parts ++ [i] } else (s1.exchanged f).dropFlight f.id

/-- Performs a store in flight (R79, R84). -/
def State.performStore (s : State) (f : Flight) : State :=
  match f.act with
  | .store va key bs o h =>
    if s.barredAt f.who.core key then s.refuse f va else
    let (k, s1) := s.redirect f.who.core key
    let rels := if ordRel o then s1.relOf f.party 3 else []
    if s.place k = .host && bs.length = 32 then s1.storePart f k bs
    else match s1.writeAt f.party f.ten k bs rels with
    | (none, s') => s'.noteReach f []
    | (some s2, _) =>
      let s3 : State := if ordRel o then s2.released f.party else s2
      let s4 : State := if ordAcq o then s3.fence f.party 3 else s3
      ((s4.exchanged f).applyHint f k bs.length true h).dropFlight f.id
  | _ => s

/-- Notes a flag of the result-digest report (R208): 0 APPROX, 1 OVR, 2 NANE, 3 ORDDEP. -/
def State.noteFlag (s : State) (ten n : Nat) : State :=
  s.modTenant ten fun t => { t with flags := t.flags ||| BitVec.twoPow 4 n }


/-- Performs an atomic in flight (R81, R286, R379) (DEDUCED, log 28). -/
def State.performAtomic (s : State) (f : Flight) : State :=
  match f.act with
  | .atomic d op dbl va key x c o =>
    if s.barredAt f.who.core key then s.refuse f va else
    let n := if dbl then 8 else 4
    let w := 8 * n
    let (k, s1) := s.redirect f.who.core key
    match s1.readAt f.party f.ten k n (s1.homeView k n) with
    | .held s' => s'.noteReach f []
    | .dead g => ((s1.exchanged f).setAct f.id (.result d 0#256 none [])).flightFault f 9 (wd g)
    | .val _ (some g) _ s2 => ((s2.exchanged f).setAct f.id (.result d 0#256 none [])).flightFault f 0x14 (wd g)
    | .val _ none rels s2 =>
      let old := leNat (s2.rdBytes f.ten k n)
      let new := atomicNew op w old (x.toNat % 2 ^ w) (c.toNat % 2 ^ w)
      let s3 : State := s2.write f.party f.ten k (leBytes n new) (rels ++ (if ordRel o then s2.relOf f.party 3 else []))
      let s4 : State := if ordRel o then s3.released f.party else s3
      let s5 : State := if ordAcq o then s4.acquire f.party 3 rels else s4.pending f.party rels
      let s6 : State := if op = 10 then s5.noteFlag f.ten 3 else s5
      (s6.exchanged f).setAct f.id (.result d (extend (!dbl) n old) none [])
  | _ => s

/-- A cell operation at its atomic engine, when the cell's bank lets it through: the home read of its two words with what they
release, for a party that then holds all of the location (R81). -/
inductive CellAns
  | held (s : State)
  | dead
  | poisoned
  | words (count waiter : Word) (rels : Rels) (s : State)

/-- Reaches a 16-byte cell in scratch. -/
def State.cellAt (s : State) (party ten k : Nat) : CellAns :=
  match s.readAt party ten k 16 (s.homeView k 16) with
  | .held s' => .held s'
  | .dead _ => .dead
  | .val _ (some _) _ _ => .poisoned
  | .val _ none rels s' => .words (wd (leNat (s.rdBytes ten k 8))) (wd (leNat (s.rdBytes ten (k + 8) 8))) rels s'

/-- The queue to which a task packet is charged, when it can be read (R387, R388). -/
def State.packetQueue (s : State) (ten : Nat) (p : Word) : List Nat :=
  if (s.poisoned ten (p.toNat + 16) 8).isSome then [] else [fld (wd (leNat (s.rdBytes ten (p.toNat + 16) 8))) 57 48]

/-- Is the cell of a flight that of a task packet: a handle is what the operation names, or the cell's bytes name itself as its waiter (DEDUCED, log 111)? -/
def State.onPacket (s : State) (f : Flight) (cell : Word) : Bool :=
  f.packet || (match f.act with
    | .taskq _ => true
    | .bind _ _ => true
    | _ => false) || wd (leNat (s.rdBytes f.ten (cell.toNat + 8) 8)) == wd (2 ^ 62 + fld cell 56 0)

/-- A poisoned counter cell (R338, R388): report 0x15; the launch of the issuing strand, whose slot freezes, and that of the packet are killed. -/
def State.poisonedCell (s : State) (f : Flight) (cell : Word) : State :=
  let also := if s.onPacket f cell then s.packetQueue f.ten cell else []
  let s1 : State := match f.act with
    | .send _ => s
    | a => (match a.dest with
      | .none => (s.exchanged f).dropFlight f.id
      | d => (s.exchanged f).setAct f.id (.result d (BitVec.ofNat 256 (2 ^ 64 - 1)) none []))
  if !f.own && f.pkt.isNone && s.holds f.who f.party && !(s.slot f.who).frozen then s1.escalate f.who false 0x15 cell 0 also
  else
    ((f.queue :: also).foldl (fun t q => t.killQueue f.ten q) s1).report
      { ten := f.ten, cause := 0x15#64, tval := cell, src := s.originOf f, killed := (f.queue :: also).any (s.kills f.ten), queue := f.queue }

/-- The arrival of a CBAR at its counter (R291). -/
def State.performCbar (s : State) (f : Flight) : State :=
  match f.act with
  | .cbar d cell n =>
    if s.barredAt f.who.core cell.toNat then s.refuse f cell else
    let (k, s0) := s.redirect f.who.core cell.toNat
    match s0.cellAt f.party f.ten k with
    | .held s' => s'.noteReach f []
    | .dead => ((s0.exchanged f).setAct f.id (.result d 0#256 none [])).flightFault f 9 (wd (granule k))
    | .poisoned => s0.poisonedCell f cell
    | .words count gen rels s1 =>
      let done := decide (n ≤ count.toNat + 1)
      let c' : Word := if done then 0#64 else count + 1#64
      let g' : Word := if done then gen + 1#64 else gen
      let s2 : State := (s1.write f.party f.ten k (leBytes 8 c'.toNat ++ leBytes 8 g'.toNat)
        (rels ++ s1.relOf f.party 2)).released f.party
      (s2.exchanged f).setAct f.id (.cbarWait d (wd k) gen [])
  | _ => s

/-- CBAR_ARRIVAL (R60, R291). -/
def execCbarArrival (id : Nat) (s : State) : Out1 :=
  .next (match s.flight? id with
    | some f => (match f.act with
      | .cbar _ _ _ => s.onTurn f fun s => s.performCbar f
      | _ => s)
    | none => s)

/-- Is the flight held at a bank of a core that is not yet Full (R68)? -/
def State.heldAtBank (s : State) (f : Flight) : Bool :=
  f.reached.isSome && (match f.act.range with
    | some (k, _) => decide (chipBit ≤ k) && (match (chipOf k).bank? with
      | some b => (s.core (chipOf k).core).bank b == 3
      | none => false)
    | none => false)

/-- REMOTE_ACCESS (R80, R372): a load, or a store that is no deposit, is performed or held at its bank. -/
def execRemoteAccess (id : Nat) (view : List Nat) (s : State) : Out1 :=
  .next (match s.flight? id with
    | some f =>
      if !s.performable f || s.heldAtBank f then s
      else match f.act with
        | .load _ _ _ _ _ _ _ => s.performLoad f view
        | .store _ k _ _ _ => if isDeposit k then s else s.performStore f
        | _ => s
    | none => s)

/-- A store into a register reaches it: it lands at the end of the cycle, after local reads and writes (R62, R63); at a tile bank that has to wake
it is held (R67). -/
def State.queueDeposit (s : State) (f : Flight) : State :=
  match f.act with
  | .store va key bs _ _ =>
    if s.barredAt f.who.core key then s.refuse f va else
    let (k, s1) := s.redirect f.who.core key
    let go (s : State) : State :=
      (s.modFlight f.id fun g => { g with landing := true }).queueLanding
        { op := f.id, party := f.party, ten := f.ten, rank := s.reqRank f k, key := k, data := bs }
    match (chipOf k).bank? with
    | some b => (match s1.bankWrite (chipOf k).core b with
      | (.wait, s') => s'.noteReach f []
      | _ => go s1)
    | none => go s1
  | _ => s

/-- DEPOSIT (R62 to R64): a store into registers lands at the end of this cycle. -/
def execDeposit (id : Nat) (s : State) : Out1 :=
  .next (match s.flight? id with
    | some f =>
      if !s.performable f || s.heldAtBank f then s
      else match f.act with
        | .store _ k _ _ _ => if isDeposit k then s.queueDeposit f else s
        | _ => s
    | none => s)

/-- Lands one deposit; at a tile bank that has to wake it is held (R63, R67). -/
def State.landDeposit (s : State) (d : Deposit) : State :=
  match s.flight? d.op with
  | some f => (s.modFlight d.op fun g => { g with landing := false }).performStore { f with landing := false }
  | none => (match s.writeAt d.party d.ten d.key d.data d.rels with
    | (some t, _) => { t with poison := unionIds t.poison d.bad }
    | (none, t) => t.queueLanding d)

/-- Inserts a deposit in the order of R60 steps 2 to 4. -/
def insertDeposit (d : Deposit) : List Deposit → List Deposit
  | [] => [d]
  | e :: l => if d.rank < e.rank then d :: e :: l else e :: insertDeposit d l

/-- The deposits of a cycle land, after its local reads and writes (R63). -/
def State.landDeposits (s : State) : State :=
  (s.deposits.foldl (fun l d => insertDeposit d l) []).foldl State.landDeposit { s with deposits := [] }

/-- ATOMIC_PERFORM (R60, R286). -/
def execAtomicPerform (id : Nat) (s : State) : Out1 :=
  .next (match s.flight? id with
    | some f => (match f.act with
      | .atomic _ _ _ _ _ _ _ _ => s.onTurn f fun s => s.performAtomic f
      | _ => s)
    | none => s)

/-- A row that lands in a slot's tile: none, with the machine, when its bank has to wake first (R67). -/
def State.landRow (s : State) (r : SlotRef) (party : Nat) (n : Nat) (v : Row) : Option State × State :=
  let x : Slot := s.slot r
  s.writeAt party x.ten (tileKey r.core (x.tileBank n) (n % 16)) (rowBytes v) []

/-- Lands a result (R219): its destination is written and set full; a row whose bank has to wake is held there (R67). -/
def State.landResult (s : State) (f : Flight) : State :=
  match f.act with
  | .result d v po _ =>
    let s1 : State := s.dropFlight f.id
    if f.late then s.discardLate f
    else if !s.holds f.who f.party then s1
    else match d with
      | .none => s1
      | .reg r => s1.modSlot f.who fun x => x.land r (v.setWidth 64) []
      | .lq => s1.modSlot f.who fun x =>
          { x with lq := x.lq.map fun p => if p.flight = f.id then { p with row := some ⟨v, po⟩ } else p }
      | .row n => (match s.landRow f.who f.party n.toNat v with
        | (some t, _) => t.dropFlight f.id
        | (none, t) => t.noteReach f [])
  | _ => s

/-- Writes the rows of a started entry one after another; those that are left, where a bank has to wake first (R67). -/
def State.landRows (s : State) (party ten : Nat) : List (Nat × Row) → List (Nat × Row) × State
  | [] => ([], s)
  | e :: es =>
    match s.writeAt party ten e.1 (rowBytes e.2) [] with
    | (some t, _) => t.landRows party ten es
    | (none, t) => (e :: es, t)

/-- Pushes a row on SQ: it pairs with the oldest queued address, whose store is then complete (R163). -/
def State.pushSq (s : State) (r : SlotRef) (v : Row) : State :=
  match (s.slot r).sa with
  | a :: rest =>
    (s.modSlot r fun x => { x with sa := rest }).modFlight a.flight fun f =>
      match f.act with
      | .store va key _ o h => { f with act := .store va key (rowBytes v) o h, ready := true, born := s.cycle }
      | _ => f
  | [] => s.modSlot r fun x => { x with sq := x.sq ++ [⟨v, none⟩] }

/-- What a started entry writes beside its rows: SQ, the scalar, FFLAGS and AMAX (R127, R128), and which park rows are full. -/
def State.landOthers (s : State) (r : SlotRef) (o : RowWrites) : State :=
  let s1 : State := (o.sq.foldl (fun t v => t.pushSq r v) s).modSlot r fun x =>
    let y : Slot := { x with fflags := x.fflags ||| o.fl, amax := BitVec.ofNat 31 (Nat.max x.amax.toNat o.amax) }
    match o.reg with
    | some (d, v) => if o.full then y.land d v [] else y.wr d v
    | none => y
  match o.pk with
  | some (p, on) => s1.modCore r.core fun c => { c with pk := if on then c.pk ||| BitVec.twoPow 64 p else c.pk &&& ~~~(BitVec.twoPow 64 p) }
  | none => s1

/-- Has an entry of the core on the same park row started before this one? They have one latency, so that it writes first (R261, R270). -/
def State.parkBehind (s : State) (f : Flight) (o : RowWrites) : Bool :=
  match o.pk with
  | none => false
  | some (p, _) => s.flights.any fun g => g.who.core == f.who.core && decide (g.id < f.id) && (match g.act with
    | .rows q => q.pk.any fun e => e.1 == p
    | _ => false)

/-- An entry that the sequencer has started writes its destinations (R261): the writes are local (R63); it is complete when its rows are written, also
those that a bank holds (R67, R270); L bits act at the end of the cycle of the last one (R72), those of a VREP body after every entry of it (R358). -/
def State.landEntry (s : State) (f : Flight) : State :=
  match f.act with
  | .rows o =>
    if !s.holds f.who f.party then s.dropFlight f.id
    else if s.parkBehind f o then s
    else if !o.offs.isEmpty && (s.flightsOf f.who).any (fun g => decide (g.id < f.id) && (match g.act with | .rows _ => true | _ => false)) then s
    else
      let (left, s1) := s.landRows f.party f.ten o.rows
      if left.isEmpty then (o.offs.foldl (fun t b => t.hintDue f.who.core b 0) (s1.landOthers f.who o)).dropFlight f.id
      else
        let f1 : Flight := { f with act := .rows { o with rows := left } }
        (s1.modFlight f.id fun g => { g with act := f1.act }).noteReach f []
  | _ => s

/-! ## Pieces of copies (R305) -/

/-- 32-byte pieces of a row of a copy or stream operation. -/
def EngOp.perRow (o : EngOp) : Nat := fld (o.eps.get 0#64 2) 47 32 / 32
/-- Its rows. -/
def EngOp.rows (o : EngOp) : Nat := fld (o.eps.get 0#64 2) 31 0

/-- Are all 8-byte groups of row `i` done? -/
def EngOp.rowDone (o : EngOp) (i : Nat) : Bool :=
  decide (i < o.done) || (List.range (4 * o.perRow)).all fun j => o.parts.contains (4 * o.perRow * i + j)

/-- Takes the rows that are complete from the front of those under way. -/
def EngOp.settle (o : EngOp) : Nat → EngOp
  | 0 => o
  | f + 1 =>
    let w := 4 * o.perRow
    if w ≠ 0 && o.parts.length ≥ w && o.rowDone o.done then
      ({ o with done := o.done + 1, parts := o.parts.filter fun p => decide (w * (o.done + 1) ≤ p) } : EngOp).settle f
    else o

/-- The operation with more groups done. -/
def EngOp.addParts (o : EngOp) (ps : List Nat) : EngOp := ({ o with parts := o.parts ++ ps } : EngOp).settle (o.parts.length + ps.length)

/-- DONE (R305): the rows completed. -/
def EngOp.doneRows (o : EngOp) : Nat :=
  o.done + (((o.parts.map fun p => p / (4 * o.perRow)).eraseDups).filter fun i => o.rowDone i).length

/-- Changes an operation of a core's queue, and DONE of a copy (R305). -/
def State.modCopy (s : State) (core id : Nat) (f : EngOp → EngOp) : State :=
  s.modCore core fun c =>
    let q := c.queue.map fun x => if x.id = id then f x else x
    { c with queue := q
             active := if core < 1024 then (match q.find? fun x => x.id == id with | some o => c.active.put 7 (wd o.doneRows) | none => c.active) else c.active }

/-- The place of a copy engine's request among those of one cycle (R60): its core's. -/
def State.copyRank (s : State) (core k : Nat) : Nat :=
  if (chipOf k).cluster = core / 16 then 2 ^ 60 + core % 16 else (s.unitId core).toNat

/-- Writes what a copy or stream operation has read, and notes the groups done (R62, R305, R379): a deposit lands at the end of the cycle; none, with
the machine, when a bank holds the write (R67). -/
def State.landPiece (s : State) (core party : Nat) (o : EngOp) (k : Nat) (bs : List Byte) (bad parts : List Nat) (rels : Rels) : Option State × State :=
  let mark (t : State) : State := t.modCopy core o.id fun x => x.addParts parts
  if isDeposit k then
    let go (t : State) : State :=
      mark (t.queueLanding { op := o.id, party := party, ten := o.ten, rank := s.copyRank core k, key := k, data := bs, rels := rels, bad := if isWindow k then [] else bad })
    match (chipOf k).bank? with
    | some b => (match s.bankWrite (chipOf k).core b with
      | (.wait, s') => (none, s')
      | _ => (some (go s), s))
    | none => (some (go s), s)
  else match s.writeAt party o.ten k bs rels with
    | (none, s') => (none, s')
    | (some t, _) => (some (mark { t with poison := unionIds t.poison bad }), s)

/-- A piece that a copy has read is written (R305). -/
def State.landCopy (s : State) (f : Flight) : State :=
  match f.act with
  | .copyRead core op part _ k bad last =>
    (match (s.core core).queue.find? fun o => o.id == op with
      | none => s.dropFlight f.id
      | some o =>
        let n := if f.parts.length = 1 then 8 else 32
        (match s.landPiece core f.party o k ((rowBytes f.gather).take n) bad (if n = 8 then [part] else (List.range 4).map (part / 4 * 4 + ·))
            (if last then s.relOf f.party 3 else []) with
          | (some t, _) => t.dropFlight f.id
          | (none, t) => t.noteReach f []))
  | _ => s

/-- RESULT_LANDS (R219, R261, R291): a result is written and its destination set full; a CBAR departs once GEN has moved. -/
def execResultLands (id : Nat) (s : State) : Out1 :=
  .next (match s.flight? id with
    | some f =>
      if f.seep.isSome || f.hop.isSome then s
      else match f.act with
        | .result _ _ _ _ => s.landResult f
        | .rows _ => s.landEntry f
        | .copyRead _ _ _ _ _ _ _ => s.landCopy f
        | .cbarWait d cell gen _ =>
          let now := wd (leNat (s.rdBytes f.ten (cell.toNat + 8) 8))
          if now = gen then s
          else
            let (_, rels, _) := s.read f.party f.ten cell.toNat 16 (s.homeView cell.toNat 16)
            let s1 : State := s.dropFlight id
            if f.late then s.discardLate f
            else if !s.holds f.who f.party then s1
            else match d with
              | .reg r => s1.modSlot f.who fun x => x.land r (gen + 1#64) rels
              | _ => s1
        | _ => s
    | none => s)

/-- Is a store of a slot's strand still to be performed that a walk for it has to follow (R58)? A store whose row can only come from a row instruction
that the strand has still to issue is not made yet. -/
def State.storesOwed (s : State) (r : SlotRef) : Bool :=
  (s.flightsOf r).any fun f => match f.act with
    | .store _ _ _ _ _ => f.ready || !((s.slot r).sa.any fun a => a.flight == f.id) ||
        (s.seqOf r).any fun i => i.entries.any fun e => (rowShape e.instr).fields.any fun d => d.name == 113#7 && d.use == .dst
    | _ => false

/-- The fault of a walk goes to the slots, engines and built-ins that waited for it (R369). -/
def State.answerWalk (s : State) (w : Walk) (a : WalkAnswer) : State :=
  let s1 : State := w.waiters.foldl (fun t r => t.modSlot r fun x => if x.ten = w.ten then { x with walk := some a } else x) s
  { s1 with answers := w.units.foldl (fun m u => m.put u.1 a) s1.answers }

/-- WALK_COMPLETE (R58, R369): a walk that a walker runs, and that reads after every store of the strands that wait, installs a translation in
the TLBs of those that wait, or leaves its fault with them. A full TLB gives up its oldest entry (R58 leaves the choice open: DESIGN CHOICE, log 83). -/
def execWalkComplete (id : Nat) (s : State) : Out1 :=
  .next (match s.walks.find? fun w => w.id == id with
    | none => s
    | some w =>
      if w.waiters.any s.storesOwed || !s.walkRuns w then s
      else
        let s1 : State := { s with walks := s.walks.filter fun v => v.id != id }
        if w.dead then s1
        else
          let s2 : State := s1.walkRequests w.ten w.level w.root (w.page * 4096)
          match s.walk w.ten w.level w.root (w.page * 4096) with
          | .ok e =>
            (w.cluster :: (w.waiters.map fun r => s.clusterOf r.core) ++ w.units.map (·.2)).foldl (fun t c => t.install c e (w.page * 4096)) s2
          | .error l => s2.answerWalk w ⟨w.page, 7, wd (l * 2 ^ 61)⟩)

/-! ## Removing translations (R314) -/

/-- Removes a tenant's entries that satisfy a test from every TLB; no walk of the tenant that is under way installs anything (R218, R314). -/
def State.untranslate (s : State) (ten : Nat) (p : TlbEntry → Bool) : State :=
  { s with
    clusters := s.clusters.map fun c => (c.1, { c.2 with tlb := c.2.tlb.filter fun e => !(e.ten == ten && p e) })
    walks := s.walks.map fun w => if w.ten = ten then { w with dead := true } else w }

/-- The tenant that TLBINV and TLBINVA act for, or none when out of range (R314, R367). -/
def State.invTenant (s : State) (b : Reg) : Option Nat :=
  if s.sl.level = .m then
    let v := fld (s.sl.rd b) 6 0
    if 1 ≤ v ∧ v ≤ 64 then some v else none
  else some s.sl.ten

/-- TLBINV (R314). -/
def execTlbinv (a b : Reg) (wa wb : Bool) (s : State) : Out1 :=
  .next (s.priv .s fun s =>
    s.issue ((a, wa) :: (if s.sl.level = .m then [(b, wb)] else [])) [] fun s =>
      match s.invTenant b with
      | none => s.trap 1 0#64
      | some t =>
        let va := (s.sl.rd a).toNat % 2 ^ 57
        (s.untranslate t fun e => e.covers t va).done id)

/-- TLBINVA (R314): at level S the field b5 and its wait bit are unused and must be zero (R367). -/
def execTlbinva (b : Reg) (wb : Bool) (s : State) : Out1 :=
  .next (s.priv .s fun s =>
    if s.sl.level ≠ .m ∧ (b ≠ 0#5 ∨ wb) then s.trap 1 0#64
    else
      s.issue (if s.sl.level = .m then [(b, wb)] else []) [] fun s =>
        match s.invTenant b with
        | none => s.trap 1 0#64
        | some t => (s.untranslate t fun _ => true).done id)

end Sys2Proof.Machine
end

