-- ==== Sys2Proof/Machine/RunList.lean ====
section
/-! DEFINITION. Run lists (R34, R157, R160), counter cells (R29, R386 to R388, R426), the waiters they fire (R33, R427), and the events
that reach a cell. -/

namespace Sys2Proof.Machine

open Host

/-! ## Run-list entries -/

/-- The number by which entries of equal priority and stamp rank (R157): the handle address; for a launch entry its number (DEDUCED, log 37). -/
def Work.key : Work → Nat
  | .record a => a.toNat
  | .task a => a.toNat
  | .launch id _ _ => id
  | .resume r => r.core * 4 + r.slot

/-- Does `a` rank above `b` (R157): priority, then the earlier stamp, then the lower handle. -/
def RunEntry.above (a b : RunEntry) : Bool :=
  decide (b.prio < a.prio) ||
    (a.prio == b.prio && (decide (a.stamp < b.stamp) || (a.stamp == b.stamp && decide (a.work.key < b.work.key))))

/-- The highest-ranked entry of a list. -/
def topEntry : List RunEntry → Option RunEntry
  | [] => none
  | e :: es =>
    match topEntry es with
    | none => some e
    | some f => if f.above e then some f else some e

/-- The oldest entry of a list; of several with the same stamp the first in it (DESIGN CHOICE, log 109). -/
def oldestEntry : List RunEntry → Option RunEntry
  | [] => none
  | e :: es =>
    match oldestEntry es with
    | none => some e
    | some f => if f.stamp < e.stamp then some f else some e

/-- The run list of a core: its cluster's, or a memory core's own (R33, R160). -/
def listOf (core : Nat) : Nat := if core < 1024 then core / 16 else core

/-- The entries in the banks of a cluster. -/
def Cluster.entries (c : Cluster) : List RunEntry := c.banks.flatten

/-- Enters an entry in a run list: a cluster's, or from 1024 on a memory core's, whose first 64 entries are in the list (R160). There an entry that is held
out has the stamp of its arrival (DESIGN CHOICE, log 109). -/
def State.enterRunList (s : State) (list : Nat) (e : RunEntry) : State :=
  if list < 1024 then s.modCluster list fun c => c.insert s.cycle e
  else s.modCore list fun c => { c with runList := c.runList ++ [{ e with stamp := s.cycle }] }

/-- Takes an entry out of a cluster's banks. -/
def Cluster.remove (c : Cluster) (now : Nat) (e : RunEntry) : Cluster :=
  match c.banks.findIdx? fun b => b.contains e with
  | some i => ({ c with banks := c.banks.set i ((c.banks.getD i []).erase e) } : Cluster).settle now
  | none => c

/-! ## State words (R24, R30) -/

/-- PRIO of a state word. -/
def stPrio (w : Word) : Nat := fld w 63 58
/-- QUEUE. -/
def stQueue (w : Word) : Nat := fld w 57 48
/-- TILES. -/
def stTiles (w : Word) : Nat := fld w 47 45
/-- SBANKS. -/
def stSbanks (w : Word) : Nat := fld w 44 39
/-- A state word with bits 38:0 as the device writes them in a record (R24). -/
def stRecord (w : Word) (retain : Bool) (core : Nat) : Word :=
  let mem := coreKind core == .memory
  wd (w.toNat / 2 ^ 39 * 2 ^ 39 + b01 retain * 2 ^ 37 + (if retain then coreNum core % 1024 * 2 ^ 27 else 0)
    + b01 mem * 2 ^ 26 + (if mem then coreNum core % 32 * 2 ^ 21 else 0))

/-- Does a task header break R30 (R386)? -/
def headerBad (w : Word) : Bool :=
  decide (fld w 5 0 < 4) || decide (32 < fld w 5 0) || decide (fld w 5 0 - 4 < fld w 36 32) || decide (48 ≤ stPrio w) ||
    decide (49 ≤ stSbanks w)

/-! ## What the device reads on a tenant's behalf -/

/-- The level of a strand that starts on a core for a tenant: level M is there on monitor cores alone (R8, R216). -/
def startLevel (core ten : Nat) : Level := if ten = 0 && coreKind core = .monitor then .m else .u

/-- Does the channel of a memory core hold a byte of one of the tenant's windows (R203)? -/
def State.memCoreOf (s : State) (ten m : Nat) : Bool :=
  decide (m < s.channels) &&
    (decide (ten = 0) || (s.tenant ten).mwin.any fun w =>
      let base := fld w 47 21 * 0x20_0000
      let size := fld w 20 2 * 0x20_0000
      decide (0 < size) && decide (base < lpBase + (m + 1) * 0x4_0000_0000) &&
        decide (lpBase + m * 0x4_0000_0000 < base + size))

/-- Is a core the tenant's (R202, R203)? -/
def State.coreOf (s : State) (ten core : Nat) : Bool :=
  match coreKind core with
  | .compute => decide (core < 16 * s.nclusters) && (decide (ten = 0) || (s.tenant ten).ownsCore core)
  | .memory => s.memCoreOf ten (coreNum core)
  | .monitor => decide (ten = 0)

/-- Is a cluster in the tenant's partition (R203)? -/
def State.inPartition (s : State) (ten cluster : Nat) : Bool :=
  decide (cluster < s.nclusters) && (List.range 16).any fun i => s.coreOf ten (16 * cluster + i)

/-- The answer to a read by the device. -/
inductive Got
  | fail (code : Nat)
  | poison
  | ok (ws : List Word) (s : State)

/-- Reads `n` words of cluster scratch or stack memory for a tenant, word by word (R58, R427): a read by the device takes every write that its
home holds (DESIGN CHOICE, log 6), and follows a forwarding entry (R173). -/
def State.fetchWords (cluster ten : Nat) : Nat → Word → State → Got
  | 0, _, s => .ok [] s
  | n + 1, va, s =>
    match s.checkNow cluster ten (s.devLevel ten) .load false va 8 with
    | .bad c _ => .fail c
    | .miss => .fail 7
    | .ok k0 =>
      if !(inScr k0 || s.place k0 = .stack) || s.goneAt 4096 k0 then .fail 6
      else
        let (k, s1) := (s.installNow cluster ten (s.devLevel ten) va).redirect 4096 k0
        match s1.readDev ten k 8 with
        | none => .fail 9
        | some (bs, _, s2) =>
          if (s.poisoned ten k 8).isSome then .poison
          else match State.fetchWords cluster ten n (va + 8#64) s2 with
            | .ok ws s3 => .ok (wd (leNat bs) :: ws) s3
            | g => g

/-- The launch to which a run-list entry belongs: its launch entry, the record of one of its strands, or its pinned slot (R389). -/
def State.launchOf? (s : State) (e : RunEntry) : Option Nat :=
  match e.work with
  | .launch id _ _ => some id
  | .record a => (s.launches.find? fun l => l.ten == e.ten && l.recs.any fun r => r.1 == a.toNat).map (·.id)
  | .resume r => (match (s.slot r).origin with
    | .launch id _ => some id
    | _ => none)
  | .task _ => none

/-- A lost task (R387): the report, and the kill of the queue when it can be read, else of every launch of the tenant with an entry in
the cluster's run list. -/
def State.lostTask (s : State) (cluster ten : Nat) (handle : Word) (q : Option Nat) : State :=
  let qs : List Nat := match q with
    | some q => [q]
    | none =>
      let lists := (s.cores.filter fun c => s.clusterOf c.1 == cluster).flatMap (·.2.runList)
      let ids := (((s.cluster cluster).entries ++ lists).filter fun e => e.ten == ten).filterMap s.launchOf?
      ((s.launches.filter fun l => ids.contains l.id).map (·.queue)).eraseDups
  (qs.foldl (fun t q => t.killQueue ten q) s).report
    { ten := ten, cause := 0x16#64, tval := handle, killed := qs.any (s.kills ten), queue := q.getD 0 }

/-! ## Waiters (R29, R33) -/

/-- The state word of a saved slot (R168). -/
def SavedSlot.st (v : SavedSlot) : Word := wd (leNat ((v.bytes.drop 16).take 8))

/-- The pinned slot of the tenant that is suspended at a record address, with its state word (R41); a slice save may hold it (R154). -/
def State.parkedAt (s : State) (ten : Nat) (addr : Word) : Option (SlotRef × Word) :=
  let live := s.allSlots.find? fun r =>
    let x : Slot := s.slot r
    x.occ == Occ.pinned && x.parked && x.ten == ten && x.recAddr == addr
  let saved := (s.clusters.flatMap fun c => (c.2.saved.filter fun v => v.ten == ten).flatMap (·.slots)).find? fun v =>
    v.tag.pinned && v.tag.parked && v.tag.recAddr == addr
  (live.map fun r => (r, (s.slot r).st)).or (saved.map fun v => (v.at_, v.st))

/-- The entry of a pinned slot of a tenant that waits to go on. -/
def parkedEntry (now ten : Nat) (p : SlotRef × Word) (rel : Rels) : RunEntry :=
  { work := .resume p.1, prio := fld p.2 63 58, stamp := now, ten := ten, queue := fld p.2 57 48, home := some p.1.core, rel := rel, st := p.2 }

/-- The entry of a live pinned slot. -/
def State.resumeEntry (s : State) (r : SlotRef) (rel : Rels) : RunEntry := parkedEntry s.cycle (s.slot r).ten (r, (s.slot r).st) rel

/-- The state word by which a task ranks and its grants are judged: that of its shadow copy, or of its packet as it stands. Looking at it is no read
of the reference machine: the packet is read once, at the prefetch or at the start (R32, R255) (DESIGN CHOICE, log 84). -/
def State.taskState (s : State) (ten : Nat) (p : Word) : Word :=
  let w := match (s.core (chipOf p.toNat).core).tasks.find? fun t => t.handle == p with
    | some t => wordAt t.words 0
    | none => wd (leNat (s.rdBytes ten (p.toNat + 16) 8))
  if headerBad w || (s.poisoned ten (p.toNat + 16) 8).isSome then 0#64 else w

/-- A task's entry as its state word now stands. -/
def State.freshEntry (s : State) (e : RunEntry) : RunEntry :=
  match e.work with
  | .task p => let w := s.taskState e.ten p
               { e with prio := stPrio w, queue := stQueue w, st := w }
  | _ => e

/-- A cluster's run list with the entries of tasks as their state words now stand. -/
def State.refreshTasks (s : State) (cluster : Nat) : State :=
  s.modCluster cluster fun c => { c with banks := c.banks.map fun b => b.map s.freshEntry, overflow := c.overflow.map s.freshEntry }

/-- Retained banks of a handle go Off (R28, R33, R249). -/
def State.dropRetained (s : State) (ten : Nat) (handle : Word) : State :=
  s.cores.foldl (fun t c =>
    let mine := c.2.retained.filter fun e => e.handle == handle && e.ten == ten
    let t1 := mine.foldl (fun u e => u.banksOff c.1 e.tiles e.sb) t
    if mine.isEmpty then t else t1.modCore c.1 fun k => { k with retained := k.retained.filter fun e => !(e.handle == handle && e.ten == ten) }) s

/-- Enters a task in the run list of its home core's cluster. A task whose header the prefetcher found bad never starts (R386). -/
def State.enterTask (s : State) (ten : Nat) (p : Word) (rel : Rels) : State :=
  let core := (chipOf p.toNat).core
  if !(bit p 56) || fld p 63 57 ≠ 0 || !inScr p.toNat || !s.inMap p.toNat || !s.coreOf ten core then
    s.report { ten := ten, cause := 6#64, tval := p }
  else match (s.core core).tasks.find? fun t => t.handle == p && t.bad with
    | some t => (s.modCore core fun c => { c with tasks := c.tasks.erase t }).dropRetained ten p
    | none =>
      s.enterRunList (core / 16) (s.freshEntry { work := .task p, prio := 0, stamp := s.cycle, ten := ten, queue := 0, home := some core, rel := rel })

/-- The run list that a fired record joins (R33): MCORE's, that of HOMECORE's cluster, or the cell's cluster; none when the core named
is not of the tenant (R427). -/
def State.recordList (s : State) (cluster ten : Nat) (w : Word) : Option Nat :=
  if bit w 26 then (if s.coreOf ten (1024 + fld w 25 21) then some (1024 + fld w 25 21) else none)
  else if bit w 37 then (if s.coreOf ten (fld w 36 27) then some (fld w 36 27 / 16) else none)
  else some cluster

/-- Enqueues a waiter of kind 1 (a task packet) or 2 (a record) that a cell of a cluster fires (R29, R33) (DEDUCED, log 30). -/
def State.fireWaiter (s : State) (cluster ten kind : Nat) (addr : Word) (rel : Rels) : State :=
  match kind with
  | 0 => s
  | 1 => s.enterTask ten addr rel
  | 2 =>
    match s.parkedAt ten addr with
    | some p => s.enterRunList (listOf p.1.core) (parkedEntry s.cycle ten p rel)
    | none =>
      match State.fetchWords cluster ten 1 (addr + 48#64) s with
      | .fail c => s.report { ten := ten, cause := wd c, tval := addr }
      | .poison => s.lostTask cluster ten addr none
      | .ok ws s' =>
        let w := wordAt ws 0
        match s'.recordList cluster ten w with
        | none => s'.report { ten := ten, cause := 6#64, tval := addr, queue := stQueue w }
        | some l => s'.enterRunList l { work := .record addr, prio := stPrio w, stamp := s.cycle, ten := ten, queue := stQueue w, rel := rel,
                                        st := w }
  | _ => s.report { ten := ten, cause := 0x0C#64, tval := 0x301#64 }

/-! ## Operations on a cell -/

/-- A WAITER word (R29). -/
def waiterWord (kind : Nat) (addr : Word) : Word := wd (kind * 2 ^ 62 + fld addr 56 0)

/-- Is the address that of a counter cell: 16-byte aligned in the SCR region of a core of a cluster of the tenant's partition (R29, R203, R426)? The code, or
none.
(DEDUCED, log 72). -/
def State.cellFault (s : State) (ten : Nat) (cell : Word) : Option Nat :=
  if cell.toNat % 16 ≠ 0 then some 5
  else if fld cell 63 57 ≠ 0 || !bit cell 56 || !inScr cell.toNat || !s.inMap cell.toNat || !s.inPartition ten (chipOf cell.toNat).cluster then some 6
  else none

/-- The checks of a cell that an instruction names (R353): those of R426, the tenant's windows (R47), and that its bank, where the issuing core's, will not
be Off (R350 step 9): a code with its value, or none (DEDUCED, log 33). -/
def State.cellBad (s : State) (x : Slot) (cell : Word) : Option (Nat × Word) :=
  match s.cellFault x.ten cell with
  | some c => some (c, cell)
  | none =>
    if (x.level != .m && !s.ownsChip x.ten cell.toNat) || s.quarChip cell.toNat then some (6, cell)
    else (s.deadOwn cell.toNat).map fun b => (9, wd b)

/-- Notes that the COUNT of a task whose WAITER names it has fallen to 1, when a shadow slot of its home core is free (R32). -/
def State.noteFall (s : State) (ten k : Nat) (count c' waiter : Word) : State :=
  if count ≠ 1#64 && c' == 1#64 && fld waiter 63 62 = 1 && fld waiter 56 0 = k then
    s.modCore (chipOf k).core fun c => if c.tasks.length + c.falls.length < 2 then { c with falls := c.falls ++ [(wd k, ten)] } else c
  else s

/-- DECR of an amount on a cell whose words were read (R29). -/
def State.decrCell (s : State) (party ten k : Nat) (count waiter amount : Word) (rels : Rels) : State :=
  let c' : Word := if count ≤ amount then 0#64 else count - amount
  let kind := fld waiter 63 62
  let fires := count != 0#64 && c' == 0#64 && kind != 0
  let s1 : State := s.write party ten k (leBytes 8 c'.toNat ++ leBytes 8 (if fires then 0#64 else waiter).toNat) rels
  let cl := (chipOf k).cluster
  let s2 : State := if fires then s1.fireWaiter cl ten kind (wd (fld waiter 56 0)) rels else s1.noteFall ten k count c' waiter
  if count < amount then s2.modCluster cl fun c => { c with under := c.under.put ten ((c.under.get 0 ten + 1) % 2 ^ 64) } else s2

/-- Forgets what the prefetcher holds of an earlier life of a packet: it is enqueued anew (R31, R32). -/
def State.freshPacket (s : State) (k : Nat) : State :=
  s.modCore (chipOf k).core fun c =>
    { c with tasks := c.tasks.filter fun t => t.handle.toNat != k, falls := c.falls.filter fun e => e.1.toNat != k }

/-- TASKQ (kind 1) or AWAIT (kind 2) on a cell whose words were read (R29). -/
def State.waitCell (s : State) (party ten k kind : Nat) (addr count : Word) (rels : Rels) : State :=
  let s1 : State := if kind = 1 then s.freshPacket k else s
  if count = 0#64 then s1.fireWaiter (chipOf k).cluster ten kind addr rels
  else s1.write party ten (k + 8) (leBytes 8 (waiterWord kind addr).toNat) rels

/-- Ends a flight with a result for its destination, or without one. -/
def State.finish (s : State) (f : Flight) (v : Word) : State :=
  match f.act.dest with
  | .none => s.dropFlight f.id
  | d => s.setAct f.id (.result d (v.setWidth 256) none [])

/-- What an operation on a cell releases (R33, R83): all that its strand has performed; what the device sends carries its own set. -/
def State.cellRel (s : State) (f : Flight) : Rels := if f.own then [(3, f.rel)] else s.relOf f.party 3

/-- Performs `k` on the key, words and releases of a flight's cell (R29, R372, R388); a cell whose bank is not Full holds the request (R68). -/
def State.performCell (s : State) (f : Flight) (cell : Word) (k : Nat → Word → Word → Rels → State → State) : State :=
  if s.barredAt f.from? cell.toNat then s.refuse f cell else
  let (key, s1) := s.redirect f.who.core cell.toNat
  if farBit ≤ key then (s1.exchanged f).finish f (Config.farWord key s.cycle) else
  match s1.cellAt f.party f.ten key with
  | .held s' => s'.noteReach f []
  | .dead => ((s1.exchanged f).finish f 0#64).flightFault f 9 (wd (granule key))
  | .poisoned => s1.poisonedCell f cell
  | .words count waiter rels s2 => k key count waiter (rels ++ s2.cellRel f) (s2.exchanged f)

/-- Reaches the cell of a flight's request, and performs `k` when its turn at the atomic engine comes (R29, R60, R426). -/
def State.onCell (s : State) (f : Flight) (cell : Word) (k : Nat → Word → Word → Rels → State → State) : State :=
  if !s.performable f then s
  else match s.cellFault f.ten cell with
    | some c => (s.finish f 0#64).report { ten := f.ten, cause := wd c, tval := cell, src := s.originOf f, queue := f.queue }
    | none => s.onTurn f fun s => s.performCell f cell k

/-- The operation of a flight on its cell (R29). -/
def cellOp (f : Flight) (key : Nat) (count waiter : Word) (rels : Rels) (s : State) : State :=
  match f.act with
  | .decr _ _ amount => ((s.decrCell f.party f.ten key count waiter amount rels).released f.party).finish f count
  | .taskq h => ((s.waitCell f.party f.ten key 1 h count rels).released f.party).finish f 0#64
  | .await _ recd _ => ((s.waitCell f.party f.ten key 2 recd count rels).released f.party).finish f 0#64
  | _ => s

/-- CELL_DECR (R29, R252). -/
def execCellDecr (id : Nat) (s : State) : Out1 :=
  .next (match s.flight? id with
    | some f => (match f.act with
      | .decr _ cell _ => s.onCell f cell (cellOp f)
      | _ => s)
    | none => s)

/-- CELL_TASKQ (R29, R255). -/
def execCellTaskq (id : Nat) (s : State) : Out1 :=
  .next (match s.flight? id with
    | some f => (match f.act with
      | .taskq h => s.onCell f h (cellOp f)
      | _ => s)
    | none => s)

/-- CELL_AWAIT (R29, R251). -/
def execCellAwait (id : Nat) (s : State) : Out1 :=
  .next (match s.flight? id with
    | some f => (match f.act with
      | .await cell _ _ => s.onCell f cell (cellOp f)
      | _ => s)
    | none => s)

/-- The binding of a halted strand's banks, kept under `held`, to the successor task `h` whose cell was reached (R254); they are then charged to the queue
of the task (R389). -/
def bindOp (f : Flight) (h held : Word) (key : Nat) (count waiter : Word) (rels : Rels) (s : State) : State :=
  let taken := (s.core f.who.core).retained.any fun e => e.handle == h && e.ten == f.ten
  if count = 0#64 || taken then s.finish f 0#64
  else
    let s2 : State := s.write f.party f.ten key (leBytes 8 count.toNat ++ leBytes 8 waiter.toNat) rels
    let q := s.packetQueue f.ten h
    ((s2.released f.party).modCore f.who.core fun c =>
      { c with retained := c.retained.map fun e => if e.handle = held ∧ e.ten = f.ten then { e with handle := h, queue := q.headD e.queue } else e }).finish f 0#64

/-- After a binding's turn: once it is over, whatever is still kept under `held` was not bound and goes Off (R254). -/
def State.bindOver (s : State) (f : Flight) (held : Word) : State :=
  if (s.flight? f.id).any (fun g => match g.act with | .bind _ _ => true | _ => false) then s else s.dropRetained f.ten held

/-- HALT_RT_BIND (R254): the banks of the halted strand, kept under `held`, go to the successor, or Off. -/
def execHaltRtBind (id : Nat) (s : State) : Out1 :=
  .next (match s.flight? id with
    | some f => (match f.act with
      | .bind h held => if !s.performable f then s else (s.onCell f h (bindOp f h held)).bindOver f held
      | _ => s)
    | none => s)

/-! ## What the device sends (R426) -/

/-- An operation that the device itself sends, from a core or a shared unit, as a party's entry, with what it releases (R426). -/
def State.sendOwn (s : State) (core party ten q : Nat) (act : Act) (rel : List Nat) : State :=
  { s.inject core act with
    fresh := s.fresh + 1
    flights := s.flights ++ [{ id := s.fresh, who := ⟨core, 0⟩, party := party, ten := ten, level := .u, queue := q, born := s.cycle, act := act, rel := rel
                               hop := s.hopFor core act }] }

/-- A DECR of 1 that the device sends, as a party of its own (R426). -/
def State.sendDecr (s : State) (core ten q : Nat) (cell : Word) (rel : List Nat) : State :=
  if cell = 0#64 then s else s.sendOwn core s.fresh ten q (.decr .none cell 1#64) rel

/-! ## Prefetching (R32) -/

/-- A task whose header the prefetcher finds to break R30 is discarded (R386): its entry where it is listed, else, once its cell fires, what that would enter. -/
def State.dropBad (s : State) (core ten : Nat) (handle w : Word) : State :=
  let mine (e : RunEntry) : Bool := e.ten == ten && e.task? == some handle
  let c : Cluster := s.cluster (core / 16)
  if (c.entries ++ c.overflow).any mine then (s.dropWork mine).dropRetained ten handle
  else s.modCore core fun c => { c with tasks := c.tasks ++ [{ handle := handle, words := [w], bad := true }] }

/-- TASK_PREFETCH (R32, R386): the COUNT of a task has fallen to 1 with a shadow slot free; the copy is read for the tenant of that DECR (DEDUCED,
log 85). A packet that cannot be read is left to the start, and so is one whose bank has first to wake. -/
def execTaskPrefetch (core : Nat) (handle : Word) (s : State) : Out1 :=
  .next (match (s.core core).falls.find? fun e => e.1 == handle with
    | none => s
    | some (h, ten) =>
      let s0 : State := s.modCore core fun c => { c with falls := c.falls.erase (h, ten) }
      let keep (t : State) (e : ShadowTask) : State := t.modCore core fun c => { c with tasks := c.tasks ++ [e] }
      match State.fetchWords (core / 16) ten 1 (handle + 16#64) s0 with
      | .fail _ => s0
      | .poison => keep s0 { handle := handle, words := [], poison := true }
      | .ok ws s1 =>
        let w := wordAt ws 0
        if headerBad w then
          (s1.dropBad core ten handle w).report { ten := ten, cause := 0x0C#64, tval := 0x302#64, queue := stQueue w }
        else match State.fetchWords (core / 16) ten (fld w 5 0 - 2) (handle + 16#64) s1 with
          | .fail _ => s1
          | .poison => keep s1 { handle := handle, words := [w], poison := true }
          | .ok ws2 s2 => keep s2 { handle := handle, words := ws2 })

end Sys2Proof.Machine
end

