-- ==== Sys2Proof/Machine/Strand.lean ====
section
/-! DEFINITION. The strand instructions (R247 to R257, R353), GBAR (R40, R292), the end of a drain (R248), and how a strand starts and
ends (R25, R27, R28). -/

namespace Sys2Proof.Machine

open Host

/-! ## Starting a strand (R25) -/

/-- s30 at a start: the byte after the highest granted scratch bank, or 0. -/
def topOfScratch (core : Nat) (sb : BitVec 48) : Word :=
  match ((List.range 48).filter fun b => sb.getLsbD b).getLast? with
  | some b => wd (bankAddr core (16 + b) + 0x2000)
  | none => 0#64

/-- The scalar file at a start: s1 to s6 as given, s30 the top of the granted scratch. -/
def startFile (regs : List Word) (top : Word) : Vector Word 32 :=
  Vector.ofFn fun i => if i.val = 0 then 0#64 else if i.val ≤ 6 then wordAt regs (i.val - 1) else if i.val = 30 then top else 0#64

/-- What a start puts into a slot beside its registers. -/
structure StartSpec where
  pc : Word
  ten : Nat
  regs : List Word
  succ : Word := 0#64
  workid : Word := 0#64
  st : Word := 0#64
  tiles : List Nat := []
  sb : BitVec 48 := 0#48
  origin : Origin
  succs : List Word := []
  recAddr : Word := 0#64
  pinned : Bool := false
  gbars : AMap Nat := []
  rel : Rels := []
  deriving DecidableEq, Repr

/-- The slot of a strand that starts (R25, R129, R193, R222): it keeps RETIRED, which counts for the slot (R224) (DEDUCED, log 38). -/
def StartSpec.slot (p : StartSpec) (core : Nat) (old : Slot) : Slot :=
  { occ := if p.pinned then .pinned else .running
    pc := wd (fld p.pc 56 2 * 4)
    level := startLevel core p.ten
    ten := p.ten
    s := startFile p.regs (topOfScratch core p.sb)
    succ := p.succ &&& 0x01FF_FFFF_FFFF_FFF0#64
    workid := p.workid
    st := stateWord p.st
    recAddr := p.recAddr
    tiles := p.tiles
    sb := p.sb
    retired := old.retired
    origin := p.origin
    succs := p.succs
    gbars := p.gbars }

/-- A grant of a slot and of scratch banks ends what retired forwarding entries hold there, and is noted in the others (R399). -/
def State.regrant (s : State) (r : SlotRef) (sb : BitVec 48) : State :=
  s.modCore r.core fun c => { c with forwards := (c.forwards.map fun f =>
    ({ f with backSb := f.backSb ||| f.sb &&& sb, backSlot := f.backSlot || f.oldSlot == r.slot } : Forward)).filterMap Forward.left }

/-- A strand starts in a slot: its start acquires what enabled it (R33). -/
def State.startStrand (s : State) (r : SlotRef) (p : StartSpec) : State :=
  let (party, s1) := (s.regrant r p.sb).newParty r.core r.slot p.rel
  s1.setSlot r { p.slot r.core (s.slot r) with party := party }

/-! ## Acting for a slot that is not the one that issues -/

/-- Runs `f` with a slot and a word in the place of the issuing slot and its word. -/
def State.onSlot (s : State) (r : SlotRef) (w : BitVec 32) (f : State → State) : State :=
  let t : State := f { s with cur := r, ir := w }
  { t with cur := s.cur, ir := s.ir }

/-- Has the slot drained (R248)? -/
def State.drained (s : State) (r : SlotRef) : Bool :=
  (s.seqOf r).isEmpty &&
    (s.flightsOf r).all fun f => f.act.dest == .none &&
      (match f.act with
        | .load _ _ _ _ _ _ _ => false
        | .store _ _ _ _ _ => !f.ready
        | .atomic _ _ _ _ _ _ _ _ => false
        | .result _ _ _ _ => false
        | .rows _ => false
        | _ => true)

/-- Is every earlier entry of the issuing strand performed, but for store addresses without a row, which the drain discards (R248)? -/
def State.quietDrain (s : State) : Bool :=
  (s.flightsOf s.cur).all fun f => !f.act.pending || (match f.act with | .store _ _ _ _ _ => !f.ready | _ => false)

/-- Drops what a drain discards (R248): LQ rows, SQ rows and unpaired store addresses. -/
def State.discardQueues (s : State) : State :=
  let gone := (s.flightsOf s.cur).filter fun f => (match f.act with | .store _ _ _ _ _ => !f.ready | _ => false)
  ({ s with flights := s.flights.filter fun f => !gone.contains f } : State).modSl fun x => { x with lq := [], sq := [], sa := [] }

/-! ## Launch bookkeeping (R37 to R40) -/

/-- Extent of field i of a launch. -/
def Launch.ext (l : Launch) (i : Nat) : Nat := (wordAt l.words (6 + i)).toNat + 1
/-- NF. -/
def Launch.nf (l : Launch) : Nat := fld (wordAt l.words 5) 50 48
/-- Strands of a level-L group (R38). -/
def Launch.groupSize (l : Launch) (lev : Nat) : Nat := (List.range (Nat.min lev l.nf)).foldl (fun n i => n * l.ext i) 1
/-- PLACE. -/
def Launch.place (l : Launch) : Word := wordAt l.words 14
/-- DEAL. -/
def Launch.deal (l : Launch) : Nat := fld l.place 14 12
/-- Number of targets. -/
def Launch.targets (l : Launch) : Nat := fld l.place 11 6 + 1
/-- POOL. -/
def Launch.pool (l : Launch) : Nat := fld l.place 20 15
/-- STATE. -/
def Launch.state (l : Launch) : Word := wordAt l.words 12
/-- Does the launch target memory cores? -/
def Launch.memc (l : Launch) : Bool := bit l.place 21
/-- Is it PERSIST? -/
def Launch.persist (l : Launch) : Bool := bit l.state 38
/-- The target index of an ordinal (R38). -/
def Launch.targetOf (l : Launch) (n : Nat) : Nat := n / l.groupSize l.deal % l.targets
/-- The ordinal of rank r in a target's share, in ascending order (R38). -/
def Launch.ordinalAt (l : Launch) (t r : Nat) : Nat :=
  let b := l.groupSize l.deal
  (r / b * l.targets + t) * b + r % b
/-- Strands dealt to target t (R38). -/
def Launch.shareOf (l : Launch) (t : Nat) : Nat :=
  let b := l.groupSize l.deal
  (l.total / b + l.targets - 1 - t) / l.targets * b
/-- The work ID of an ordinal (R36, R37): field 0 is the innermost. -/
def Launch.workId (l : Launch) (n : Nat) : Word :=
  let go := (List.range l.nf).foldl (fun (a : Nat × Nat × Nat) i =>
    (a.1 / l.ext i, a.2.1 + a.1 % l.ext i * 2 ^ a.2.2, a.2.2 + fld (wordAt l.words 5) (8 * i + 7) (8 * i))) (n, 0, 0)
  wd go.2.1

/-- A launch by number. -/
def State.launch? (s : State) (id : Nat) : Option Launch := s.launches.find? fun l => l.id == id
/-- Changes a launch. -/
def State.modLaunch (s : State) (id : Nat) (f : Launch → Launch) : State :=
  { s with launches := s.launches.map fun l => if l.id = id then f l else l }

/-- Is a group barrier complete (R40): every strand of the group has arrived or has halted? -/
def Launch.barrierReady (l : Launch) (b : Nat × Nat × Nat × List (RunEntry × Nat)) : Bool :=
  let sz := l.groupSize b.1
  decide (sz ≤ b.2.2.2.length + (l.haltedOrd.filter fun n => n / sz == b.2.1).length)

/-- Does a level-L group lie within one target (R38, R40)? It is no larger than what is dealt at once. -/
def Launch.oneTarget (l : Launch) (lev : Nat) : Bool := decide (l.groupSize lev ≤ l.groupSize l.deal) || l.targets == 1

/-- Releases the group barriers of a launch that have become complete: every arrived record enters its run list, and its resumption acquires what
every arrival released, and what the strands of the group that have halted did (R40, R83). R40 gives the entries no order: the model enters them in the order
of arrival (DESIGN CHOICE, log 86). -/
def State.settleBarriers (s : State) (id : Nat) : State :=
  match s.launch? id with
  | none => s
  | some l =>
    let s1 : State := s.modLaunch id fun l => { l with barriers := l.barriers.filter fun b => !l.barrierReady b }
    (l.barriers.filter l.barrierReady).foldl (fun t b =>
      let scope := if l.oneTarget b.1 then 2 else 3
      let gone := l.haltRel.filter fun e => e.1 / l.groupSize b.1 == b.2.1
      let all : Rels := (b.2.2.2.flatMap fun e => e.1.rel.take 1) ++ gone.map fun e => (e.2.1 * 8 + scope, e.2.2)
      b.2.2.2.foldl (fun u e => u.enterRunList e.2 { e.1 with rel := e.1.rel ++ all }) t) s1

/-- A strand of a launch has halted: it counts for its target and at every later barrier of its groups, as a release (R40, R83). -/
def State.launchHalt (s : State) (id n party : Nat) : State :=
  (s.modLaunch id fun l => { l with
    halted := l.halted + 1
    haltedOn := l.haltedOn.put (l.targetOf n) (l.haltedOn.get 0 (l.targetOf n) + 1)
    haltedOrd := l.haltedOrd ++ [n]
    haltRel := l.haltRel ++ [(n, party, s.relSet party)]
    recs := l.recs.filter fun e => e.2.1 != n }).settleBarriers id

/-- Notes the record of a suspended launch strand, so that it belongs to its launch when it resumes (R389). -/
def State.noteRecord (s : State) (x : Slot) (addr : Word) : State :=
  match x.origin with
  | .launch id n => s.modLaunch id fun l => { l with recs := (addr.toNat, n, x.gbars) :: l.recs.filter fun e => e.2.1 != n }
  | _ => s

/-! ## Suspension (R27, R250, R251) -/

/-- The checks of the record address of a strand that suspends (R353). -/
def State.onRecord (s : State) (k : Nat → State → State) : State :=
  let va := s.sl.rd 6#5
  s.onAddr .store va (s.check s.cur .store va 64 64) fun key s =>
    if !(inScr key || s.place key = .stack) then s.trap 6 va else k key s

/-- Writes the record of the issuing strand (R27, R250), as a release at device scope (R33). -/
def State.writeRecord (s : State) (key : Nat) (rt : Bool) : State :=
  let x : Slot := s.sl
  let held := !x.tiles.isEmpty || x.sb != 0#48
  let ws : List Word := [x.pc + 4#64, x.workid, x.rd 2#5, x.rd 3#5, x.rd 4#5, x.rd 5#5, stRecord x.st (rt && held) s.cur.core, x.succ]
  (s.writeNow x.party x.ten key (ws.flatMap fun w => leBytes 8 w.toNat) (s.relOf x.party 3)).released x.party

/-- The banks of a strand that suspends (R27, R74): Off, or in Retain for its record. -/
def State.leaveBanks (s : State) (rt : Bool) (handle : Word) : State :=
  let x : Slot := s.sl
  let core := s.cur.core
  let held := !x.tiles.isEmpty || x.sb != 0#48
  let s1 : State :=
    if !rt then s.banksOff core x.tiles x.sb
    else if !held then s
    else
      let banks := x.tiles ++ ((List.range 48).filter fun b => x.sb.getLsbD b).map (· + 16)
      let s2 : State := banks.foldl (fun t b => t.bankEvent core b 1) s
      s2.modCore core fun c => { c with retained := c.retained ++ [⟨handle, x.tiles, x.sb, x.ten, x.queue⟩] }
  s1.modSl fun x => { x with tiles := [], sb := 0#48 }

/-- The strand leaves its slot without ending. Faults that still wait for it are written as reports. -/
def State.leaveSlot (s : State) : State :=
  let x : Slot := s.sl
  let s1 : State := x.pend.foldl (fun t f => t.report
    { ten := x.ten, cause := wd (2 ^ 63 + f.code), tval := f.tval, src := s.srcId s.cur, queue := x.queue }) s
  (s1.modSl Slot.retire).freeSlot s.cur

/-- A pinned strand suspends in its slot (R41): its record address is remembered, the next word is next. What a fault of it holds is abandoned (R374). -/
def State.park (s : State) : State :=
  (s.abandonHeld s.cur s.sl.party).modSl fun x => { x.next with parked := true, recAddr := x.rd 6#5, drain := none, armed := false, stepDue := false }

/-- SUSP at the end of its drain (R250) (DEDUCED, log 77). -/
def State.suspend (s : State) (rt : Bool) : State :=
  let x : Slot := s.sl
  if x.occ = .pinned then
    let s1 : State := s.park
    (s1.released x.party).enterRunList (listOf s.cur.core) (s1.resumeEntry s.cur (s.relOf x.party 3))
  else
    s.onRecord fun key s =>
      let addr := x.rd 6#5
      let s0 : State := s.writeRecord key rt
      let s1 : State := ((s0.noteRecord x addr).leaveBanks rt addr).leaveSlot
      s1.enterRunList (listOf s.cur.core)
        { work := .record addr, prio := stPrio x.st, stamp := s.cycle, ten := x.ten, queue := x.queue, rel := s0.relOf x.party 3
          st := stRecord x.st (rt && (!x.tiles.isEmpty || x.sb != 0#48)) s.cur.core }

/-- AWAIT at the end of its drain (R251). -/
def State.await (s : State) (a : Reg) (rt : Bool) : State :=
  let x : Slot := s.sl
  let cell := x.rd a
  match s.cellBad x cell with
  | some (c, v) => s.trap c v
  | none =>
    let act (s : State) : Act := .await cell (x.rd 6#5) (s.resumeEntry s.cur [])
    if x.occ = .pinned then
      (s.launchFlight s.cur (act s)).park
    else
      s.onRecord fun key s =>
        let s2 : State := ((s.writeRecord key rt).noteRecord x (x.rd 6#5)).leaveBanks rt (x.rd 6#5)
        (s2.launchFlight s.cur (act s2)).leaveSlot

/-! ## HALT (R28, R253, R254) -/

/-- The end of a strand, as a release after all that it has done (R40, R82, R105): for the domain of a fold handler, or for its launch. -/
def State.strandOver (s : State) (party : Nat) (o : Origin) : State :=
  match o with
  | .fold cl dom key holds => s.foldRetire cl dom key holds (s.relSet party) true
  | .launch id n => s.launchHalt id n party
  | _ => s

/-- The ends of strands whose earlier entries have now been performed (R82). -/
def State.settleHalts (s : State) : State :=
  s.flights.foldl (fun t f => match f.act with
    | .halted o => if t.performable f then (t.strandOver f.party o).dropFlight f.id else t
    | _ => t) s

/-- Ends the strand of the issuing slot (R28): the successor DECRs, the DECR to SUCC, the banks, the slot. -/
def State.endStrand (s : State) : State :=
  let x : Slot := s.sl
  let r := s.cur
  let s1 : State := x.succs.foldl (fun t h => (t.launchFlight r (.decr .none h 1#64)).modFlight t.fresh fun f => { f with packet := true }) s
  let s2 : State := if x.succ = 0#64 then s1 else s1.launchFlight r (.decr .none x.succ 1#64)
  let s3 : State := if s2.quiet then s2.strandOver x.party x.origin else s2.launchFlight r (.halted x.origin)
  (s3.modSl fun y => { y with origin := .firmware }).leaveSlot

/-- HALT and HALT.rt at the end of the drain. -/
def State.haltNow (s : State) (a : Reg) (rt : Bool) : State :=
  let x : Slot := s.sl
  if !rt || (x.tiles.isEmpty && x.sb == 0#48) then s.endStrand
  else
    let h := x.rd a
    if h.toNat % 16 ≠ 0 then s.trap 5 h
    else if fld h 63 57 ≠ 0 || !bit h 56 || !inScr h.toNat || !s.inMap h.toNat || (chipOf h.toNat).core ≠ s.cur.core ||
        (x.level != .m && !s.ownsChip x.ten h.toNat) || s.quarChip h.toNat then s.trap 6 h
    else
      let held := wd (2 ^ 63 + s.fresh)
      let s2 : State := s.launchFlight s.cur (.bind h held)
      (s2.leaveBanks true held).endStrand

/-! ## GBAR (R40, R292) -/

/-- An arrival at occurrence `k` of the barrier of group `g` at level `lv`. -/
def State.arriveAt (s : State) (id lv g k list : Nat) (e : RunEntry) : State :=
  (s.modLaunch id fun l =>
    if l.barriers.any fun b => b.1 == lv && b.2.1 == g && b.2.2.1 == k then
      { l with barriers := l.barriers.map fun b =>
          if b.1 = lv ∧ b.2.1 = g ∧ b.2.2.1 = k then (b.1, b.2.1, b.2.2.1, b.2.2.2 ++ [(e, list)]) else b }
    else { l with barriers := l.barriers ++ [(lv, g, k, [(e, list)])] }).settleBarriers id

/-- What an arrival at a barrier releases (R40): at cluster scope where the group lies within one target, else at device scope; and its record
write, at device scope, for its own resumption. -/
def State.arrivalRel (s : State) (l : Launch) (lv party : Nat) : Rels :=
  s.relOf party (if l.oneTarget lv then 2 else 3) ++ s.relOf party 3

/-- GBAR at the end of its drain. -/
def State.gbarNow (s : State) (lev : Nat) : State :=
  let x : Slot := s.sl
  let goOn : State := s.modSl fun y => { y.next with drain := none }
  match x.origin with
  | .launch id n =>
    match s.launch? id with
    | none => goOn
    | some l =>
      let lv := Nat.min lev l.nf
      if lv = 0 then goOn
      else
        let k := x.gbars.get 0 lv + 1
        let g := n / l.groupSize lv
        let list := listOf s.cur.core
        if x.occ = .pinned then
          let s1 : State := s.park.modSl fun y => { y with gbars := y.gbars.put lv k }
          (s1.released x.party).arriveAt id lv g k list (s1.resumeEntry s.cur (s.arrivalRel l lv x.party))
        else
          s.onRecord fun key s =>
            let addr := x.rd 6#5
            let s0 : State := s.writeRecord key false
            let s1 : State := ((s0.noteRecord { x with gbars := x.gbars.put lv k } addr).leaveBanks false addr).leaveSlot
            s1.arriveAt id lv g k list
              { work := .record addr, prio := stPrio x.st, stamp := s.cycle, ten := x.ten, queue := x.queue, rel := s0.arrivalRel l lv x.party
                st := stRecord x.st false s.cur.core }
  | _ => goOn

/-! ## The instructions at issue -/

/-- Starts the drain of the issuing slot (R248): the instruction issues when the drain ends. -/
def State.startDrain (s : State) (i : Instr) : State := s.modSl fun x => { x with drain := some i, dword := s.ir }

/-- Did the strand start from a task packet or as a handler (R353)? -/
def Origin.noRecord : Origin → Bool
  | .task => true
  | .message => true
  | .fold _ _ _ _ => true
  | _ => false

/-- SUSP (R250). -/
def execSusp (rt : Bool) (s : State) : Out1 :=
  .next (s.needs true 0x1D fun s => if s.sl.origin.noRecord then s.trap 1 0#64 else s.startDrain (.susp rt))

/-- AWAIT (R251) (DEDUCED, log 40). -/
def execAwait (a : Reg) (wa rt : Bool) (s : State) : Out1 :=
  .next (s.needs true 0x1D fun s =>
    if s.sl.origin.noRecord then s.trap 1 0#64 else s.issue [(a, wa)] [] fun s => s.startDrain (.await a wa rt))

/-- HALT (R253). -/
def execHalt (s : State) : Out1 := .next (s.needs true 0x1D fun s => s.startDrain .halt)

/-- HALT.rt (R254): a strand without banks does not read a. -/
def execHaltRt (a : Reg) (wa : Bool) (s : State) : Out1 :=
  .next (s.needs true 0x1D fun s =>
    if s.sl.tiles.isEmpty && s.sl.sb == 0#48 then s.startDrain .halt
    else s.issue [(a, wa)] [] fun s => s.startDrain (.haltRt a wa))

/-- GBAR (R292). -/
def execGbar (l : BitVec 3) (s : State) : Out1 :=
  .next (if l = 7#3 then s.trap 1 0#64 else s.startDrain (.gbar l))

/-- STRAND_DRAIN_END (R248): the drain of a slot has ended and every earlier entry of the strand is performed (R85). The queues are discarded, also
where the instruction then traps (R353). -/
def execStrandDrainEnd (core slot : Nat) (s : State) : Out1 :=
  let r : SlotRef := ⟨core, slot⟩
  .next (match (s.slot r).drain with
    | none => s
    | some i =>
      if !s.mayRun r || !s.drained r || s.boundaryDue r then s
      else s.onSlot r (s.slot r).dword fun s =>
        let t : State := s.discardQueues
        match i with
        | .susp rt => if s.quietDrain then t.suspend rt else s
        | .await a _ rt => if s.quietDrain then t.await a rt else s
        | .halt => t.haltNow 0#5 false
        | .haltRt a _ => t.haltNow a true
        | .gbar l => if s.quietDrain then t.gbarNow l.toNat else s
        | _ => s)

/-- An asynchronous fault of the issuing strand that its own instruction has met (R335). -/
def State.faultHere (s : State) (c : Nat) (v : Word) : State :=
  s.asyncFault s.cur s.sl.party s.sl.ten s.sl.queue { code := c, tval := v, handler := bit s.sl.trap.tstat 4 }

/-- SPAWN (R249, R353): the record's state word is read and rewritten, and the enqueue goes on its way. A poisoned state word arrives as zeros (R379); where
another core's bank is Off, or has moved away and been given up, SPAWN is not performed (R372, R399) (DEDUCED, log 33). -/
def execSpawn (a : Reg) (wa : Bool) (s : State) : Out1 :=
  .next (s.needs true 0x1D fun s => s.issue [(a, wa)] [] fun s =>
    let va := s.sl.rd a
    s.onAddr .atomic va (s.check s.cur .atomic va 64 64) fun key0 s =>
      s.atPlace va key0 (fun k => inScr k || s.place k == .stack) true fun s =>
        let x : Slot := s.sl
        let list := listOf s.cur.core
        let entry (st : Word) : RunEntry :=
          { work := .record va, prio := stPrio st, stamp := s.cycle, ten := x.ten, queue := stQueue st, st := st }
        if !s.quietFor (.enqueue (entry 0#64) list) then s
        else if s.barredAt s.cur.core key0 then (s.faultHere 6 va).done id
        else
          let (key, s) := s.redirect s.cur.core key0
          match s.readAt x.party x.ten (key + 48) 8 (s.turnView (key + 48) 8) with
          | .held s' => s'
          | .dead g => (s.faultHere 9 (wd g)).done id
          | .val bs po rels s0 =>
            let s1 : State := s0.pending x.party rels
            let st := wd (leNat bs)
            let mem := coreKind s.cur.core == .memory
            if 48 ≤ stPrio st || 49 ≤ stSbanks st || (mem && (stTiles st != 0 || stSbanks st != 0)) then s.trap 0x0C 0x306#64
            else
              let st' := setFld (setFld (setFld st 37 27 0) 26 26 (b01 mem)) 25 21 (if mem then coreNum s.cur.core else fld st 25 21)
              let s2 : State := ((s1.writeNow x.party x.ten (key + 48) (leBytes 8 st'.toNat) (s1.relOf x.party 3)).released x.party).dropRetained
                x.ten va
              let s3 : State := match po with
                | some g => s2.faultHere 0x14 (wd g)
                | none => s2
              (s3.launchFlight s.cur (.enqueue (entry st') list)).done id)

/-- DECR (R252, R353). -/
def execDecr (d a b : Reg) (wa wb : Bool) (s : State) : Out1 :=
  .next (s.needs true 0x1D fun s => s.issue [(a, wa), (b, wb)] [d] fun s =>
    let cell := s.sl.rd a
    match s.cellBad s.sl cell with
    | some (c, v) => s.trap c v
    | none => s.produce d (.decr (if d = 0#5 then .none else .reg d) cell (if b = 0#5 then 1#64 else s.sl.rd b)))

/-- TASKQ (R255, R353). -/
def execTaskq (a : Reg) (wa : Bool) (s : State) : Out1 :=
  .next (s.needs true 0x1D fun s => s.issue [(a, wa)] [] fun s =>
    let h := s.sl.rd a
    match s.cellBad s.sl h with
    | some (c, v) => s.trap c v
    | none => (s.launchFlight s.cur (.taskq h)).done id)

/-- LNCH (R39, R256, R353): a release at issue, then its header is read, at issue too; the child is accepted or refused later. -/
def execLnch (d a : Reg) (wa : Bool) (s : State) : Out1 :=
  .next (s.needs true 0x1D fun s => s.issue [(a, wa)] [d] fun s =>
    let va := s.sl.rd a
    if va.toNat % 64 ≠ 0 then s.trap 5 va
    else State.onSpan .load (fun parts s =>
      s.atPlaces va parts (fun k => inScr k || s.place k == .stack) fun s =>
        let x : Slot := s.sl
        if !s.quietFor (.lnch .none va [] none) then s
        else
          let s1 : State := s.released x.party
          let go (s2 : State) (ws : List Word) (bad : Option (Nat × Word)) : State := s2.produce d (.lnch (.reg d) va ws bad) (s.relSet x.party)
          if parts.any fun p => s.barredAt s.cur.core p.1 then go s1 [] (some (6, va))
          else
          let (ks, s1) := parts.foldl (fun (a : List (Nat × Nat) × State) p =>
            let (k, t) := a.2.redirect s.cur.core p.1
            (a.1 ++ [(k, p.2)], t)) ([], s1)
          match State.readParts x.party x.ten (ks.flatMap fun p => groups32 5 p.1 p.2) s1 with
          | .held s' => s'
          | .dead g => go s1 [] (some (9, wd g))
          | .val _ (some g) _ s2 => go s2 [] (some (0x14, wd g))
          | .val bs none rels s2 => go (s2.pending x.party rels) (leWords bs 16) none) 2 va 128 [] s)

/-- The field that WID extracts (R257). -/
def widField (f workid : Word) (i : Nat) : Word :=
  if 6 ≤ i then 0#64
  else
    let off := ((List.range i).map fun j => fld f (8 * j + 7) (8 * j)).sum
    let w := Nat.min (fld f (8 * i + 7) (8 * i)) 64
    if 64 ≤ off then 0#64 else wd (workid.toNat / 2 ^ off % 2 ^ w)

/-- WID (R257). -/
def execWid (d a b : Reg) (wa wb : Bool) (s : State) : Out1 :=
  .next (s.needs true 0x1D fun s => s.issue [(a, wa), (b, wb)] [d] fun s =>
    s.setD d (widField (s.sl.rd a) s.sl.workid (s.sl.rd b).toNat))

end Sys2Proof.Machine
end

