-- ==== Sys2Proof/Machine/Sched.lean ====
section
/-! DEFINITION. Grants (R20, R21, R28, R36), the pops of a cluster and of a memory core (R34, R158, R160, R192), donation of work
(R161). -/

namespace Sys2Proof.Machine

open Host

/-! ## Grants -/

/-- Is a slot of a core promised to a fold claim under way (R103)? -/
def State.promised (s : State) (core slot : Nat) : Bool :=
  core < 1024 && (s.cluster (core / 16)).doms.any fun d => match d.2.taken with
    | some (_, c, n) => c == core && n == slot
    | none => false

/-- The free slot of a core that a strand takes: R20 and R158 name the core only, and the model takes the lowest-numbered (DESIGN CHOICE, log 88). -/
def State.freeSlotOf (s : State) (core : Nat) : Option Nat :=
  (List.range 4).find? fun n => ((s.core core).slot n).occ == Occ.free && !s.promised core n

/-- Tile banks that a slot holds or that are retained. -/
def Core.heldTiles (c : Core) : List Nat := c.slots.toList.flatMap (·.tiles) ++ c.retained.flatMap (·.tiles)
/-- Scratch banks that a slot holds or that are retained. -/
def Core.heldSb (c : Core) : BitVec 48 :=
  c.retained.foldl (fun m e => m ||| e.sb) (c.slots.toList.foldl (fun m x => m ||| x.sb) 0#48)

/-- The scratch banks 48 − POOL to 47 (R36). -/
def poolMask (p : Nat) : BitVec 48 := BitVec.ofNat 48 (2 ^ 48 - 2 ^ (48 - p))

/-- Does a launch still reserve its pool on a target (R36)? -/
def Launch.reserves (l : Launch) (t : Nat) : Bool := decide (l.haltedOn.get 0 t < l.shareOf t)

/-- The banks of a core that launches reserve as their pools (R36). -/
def State.reservedOn (s : State) (core : Nat) : BitVec 48 :=
  s.launches.foldl (fun m l =>
    let tb := fld l.place 5 0
    if !l.memc && decide (core < 1024) && decide (tb ≤ core / 16) && decide (core / 16 < tb + l.targets) && l.reserves (core / 16 - tb) &&
        s.coreOf l.ten core then m ||| poolMask l.pool else m) 0#48

/-- Inserts in ascending order. -/
def insertNat (n : Nat) : List Nat → List Nat
  | [] => [n]
  | m :: l => if n ≤ m then n :: m :: l else m :: insertNat n l

/-- Bank numbers in ascending order, as T0 and upward map them (R21). -/
def ascending (l : List Nat) : List Nat := l.foldr insertNat []

/-- The highest `n` banks of a mask, or none when it has fewer. -/
def takeHigh (m : BitVec 48) (n : Nat) : Option (BitVec 48) :=
  let bs := ((List.range 48).reverse.filter fun b => m.getLsbD b).take n
  if bs.length = n then some (bs.foldl (fun a b => a ||| BitVec.twoPow 48 b) 0#48) else none

/-- The banks that a strand gets on a core (R20): `pool` when it starts from its launch's enumeration, `bound` the banks kept for it, which come first,
in their old order (R28, R254) (DEDUCED, log 39). -/
def State.grant (s : State) (ten core nt ns : Nat) (pool : Option Nat) (bound : Option Retained) : Option (List Nat × BitVec 48) :=
  if 1024 ≤ core then some ([], 0#48)
  else
    let c : Core := s.core core
    let bt := (bound.map (·.tiles)).getD []
    let bs := (bound.map (·.sb)).getD 0#48
    let nbs := ((List.range 48).filter fun b => bs.getLsbD b).length
    let freeT := ((List.range 16).filter fun b => !c.heldTiles.contains b).take (nt - bt.length)
    let own : BitVec 48 := if ten = 0 then BitVec.allOnes 48 else (s.tenant ten).scr.get 0#48 core
    let free := own &&& ~~~c.heldSb
    let want := ns - nbs
    let sb := match pool with
      | some p => takeHigh (free &&& poolMask p) want
      | none =>
        let res := s.reservedOn core
        match takeHigh (free &&& ~~~res) want with
        | some m => some m
        | none =>
          let first := free &&& ~~~res
          let k := ((List.range 48).filter fun b => first.getLsbD b).length
          (takeHigh (free &&& res) (want - k)).map (first ||| ·)
    match sb with
    | some m => if freeT.length = nt - bt.length then some (bt ++ ascending freeT, bs ||| m) else none
    | none => none

/-- Granted banks that were not kept start Off (R20, R269). -/
def State.takeBanks (s : State) (core : Nat) (tiles : List Nat) (sb : BitVec 48) (bound : Option Retained) : State :=
  let bt := (bound.map (·.tiles)).getD []
  let bs := (bound.map (·.sb)).getD 0#48
  s.banksOff core (tiles.filter fun b => !bt.contains b) (sb &&& ~~~bs)

/-! ## Where an entry may start (R33, R157) -/

/-- Is the tenant in its slice on the cluster of a compute core (R152)? While a slice boundary saves the outgoing tenant, none is (R154). -/
def State.inSlice (s : State) (ten core : Nat) : Bool :=
  if 1024 ≤ core then true
  else
    let c := s.cluster (core / 16)
    c.share.isEmpty || decide (ten = 0) || (c.leaving.isNone && c.share.getD c.turn 0 == ten)

/-- May an entry start on a core, grants apart? -/
def State.mayStart (s : State) (e : RunEntry) (core : Nat) : Bool :=
  s.inSlice e.ten core &&
    (match e.work with
      | .record _ =>
        if bit e.st 26 then core == 1024 + fld e.st 25 21
        else if bit e.st 37 then core == fld e.st 36 27
        else decide (core < 1024) && s.coreOf e.ten core
      | .task _ => e.home == some core
      | .launch id lo _ => (match s.launch? id with
        | some l => (if l.memc then decide (1024 ≤ core) else decide (core < 1024) && s.coreOf e.ten core) &&
            (!l.persist || l.memc || core % 16 == lo % 16)
        | none => false)
      | .resume r => r.core == core)

/-- The banks kept for a record or a task on a core. -/
def State.keptFor (s : State) (e : RunEntry) (core : Nat) : Option Retained :=
  let find (a : Word) : Option Retained := (s.core core).retained.find? fun x => x.handle == a && x.ten == e.ten
  match e.work with
  | .record a => if bit e.st 37 then find a else none
  | .task p => find p
  | _ => none

/-- The record address of a slot that PERSIST_ADMIT has pinned for a strand that has still to start: no record has it. -/
def unstartedAddr : Word := BitVec.allOnes 64

/-- The slot of a core that is pinned for a strand of a PERSIST launch that has still to start (R41). -/
def State.pinnedFor (s : State) (core id ordinal : Nat) : Option Nat :=
  (List.range 4).find? fun n =>
    let x : Slot := s.slot ⟨core, n⟩
    x.occ == Occ.pinned && x.parked && x.recAddr == unstartedAddr && x.origin == .launch id ordinal

/-- The PERSIST launch whose launch entry this is. -/
def State.persistOf (s : State) (e : RunEntry) : Option Launch :=
  match e.work with
  | .launch id _ _ => (s.launch? id).filter fun l => l.persist
  | _ => none

/-- The slot and the banks with which an entry can start on a core now. -/
def State.grantFor (s : State) (e : RunEntry) (core : Nat) : Option (Nat × List Nat × BitVec 48) :=
  match s.persistOf e with
  | some l => (match e.work with
    | .launch id lo _ => (s.pinnedFor core id (l.ordinalAt (e.home.getD 0) lo)).map fun n =>
        (n, (s.slot ⟨core, n⟩).tiles, (s.slot ⟨core, n⟩).sb)
    | _ => none)
  | none =>
  match e.work with
  | .resume r =>
    let x : Slot := s.slot r
    if x.occ == Occ.pinned && x.parked && x.ten == e.ten then some (r.slot, [], 0#48) else none
  | w =>
    match s.freeSlotOf core with
    | none => none
    | some n =>
      let pool := match w with
        | .launch id _ _ => (s.launch? id).map (·.pool)
        | _ => none
      let st := match w with
        | .launch id _ _ => ((s.launch? id).map (·.state)).getD 0#64
        | _ => e.st
      (s.grant e.ten core (stTiles st) (stSbanks st) pool (s.keptFor e core)).map fun g => (n, g.1, g.2)

/-- Could the banks that the entry's tenant owns on the core ever meet its grants (R34, DEDUCED, log 56)? -/
def State.couldGrant (s : State) (e : RunEntry) (core : Nat) : Bool :=
  let own : BitVec 48 := if e.ten = 0 then BitVec.allOnes 48 else (s.tenant e.ten).scr.get 0#48 core
  let count (m : BitVec 48) : Nat := ((List.range 48).filter fun b => m.getLsbD b).length
  match e.work with
  | .resume _ => true
  | .launch id _ _ => (match s.launch? id with
    | some l => decide (stSbanks l.state ≤ count (own &&& poolMask l.pool))
    | none => false)
  | _ => decide (stSbanks e.st ≤ count own)

/-- Does a core start anything (R174, R391)? -/
def State.coreOpen (s : State) (core : Nat) : Bool :=
  !(s.core core).stopped && !(s.core core).fenced && !(decide (core < 1024) && s.quarPriv core)

/-- Are two entries the same one? A launch entry is known by its launch, target and lowest rank: a donation and a fresh look at a task's header
leave it the same (R34, R161). -/
def RunEntry.same (a b : RunEntry) : Bool :=
  a.stamp == b.stamp && a.ten == b.ten && a.home == b.home &&
    (match a.work, b.work with
      | .launch i lo _, .launch j lp _ => i == j && lo == lp
      | x, y => x == y)

/-- Entries of a list that may run on a core now (R34, R157). -/
def State.candidates (s : State) (core : Nat) (es : List RunEntry) : List RunEntry :=
  es.filter fun e =>
    (match (s.core core).aged with
      | some a => e.same a
      | none => !((List.range 16).any fun i => (s.core (core / 16 * 16 + i)).aged.any e.same)) &&
    s.mayStart e core && (s.grantFor e core).isSome

/-! ## Starting -/

/-- The launch and ordinal of a suspended strand's record (R389). -/
def State.recordOf (s : State) (ten : Nat) (addr : Word) : Option (Nat × Nat × AMap Nat) :=
  s.launches.findSome? fun l => if l.ten = ten then (l.recs.find? fun e => e.1 == addr.toNat).map fun e => (l.id, e.2.1, e.2.2) else none

/-- Does a record's state word name a core that is not of its tenant (R427)? -/
def State.recordForeign (s : State) (ten : Nat) (w : Word) : Bool :=
  (bit w 26 && !s.coreOf ten (1024 + fld w 25 21)) || (bit w 37 && !s.coreOf ten (fld w 36 27))

/-- Starts a record (R25, R427). -/
def State.startRecord (s : State) (e : RunEntry) (addr : Word) (r : SlotRef) (tiles : List Nat) (sb : BitVec 48) : State :=
  match State.fetchWords (s.clusterOf r.core) e.ten 8 addr s with
  | .fail c => s.report { ten := e.ten, cause := wd c, tval := addr, queue := e.queue }
  | .poison => s.lostTask (s.clusterOf r.core) e.ten addr (some e.queue)
  | .ok ws s1 =>
    if s.recordForeign e.ten (wordAt ws 6) then s.report { ten := e.ten, cause := 6#64, tval := addr, queue := e.queue } else
    let keep := s1.modCore r.core fun c => { c with retained := c.retained.filter fun x => !(x.handle == addr && x.ten == e.ten) }
    let (origin, gb) := match s.recordOf e.ten addr with
      | some (id, n, g) => (Origin.launch id n, g)
      | none => (Origin.record, [])
    keep.startStrand r { pc := wordAt ws 0, ten := e.ten, regs := [wordAt ws 1, wordAt ws 2, wordAt ws 3, wordAt ws 4, wordAt ws 5, addr]
                         succ := wordAt ws 7, workid := wordAt ws 1, st := wordAt ws 6, tiles := tiles, sb := sb, origin := origin
                         recAddr := addr, gbars := gb, rel := e.rel }

/-- The words of a packet from +16 on: the shadow copy, or the packet as it stands (R32). -/
def State.packetWords (s : State) (e : RunEntry) (p : Word) (core : Nat) : Got :=
  match (s.core core).tasks.find? fun t => t.handle == p with
  | some t =>
    let s1 : State := s.modCore core fun c => { c with tasks := c.tasks.erase t }
    if t.poison then .poison else .ok t.words s1
  | none =>
    match State.fetchWords (core / 16) e.ten 1 (p + 16#64) s with
    | .ok ws s1 =>
      if headerBad (wordAt ws 0) then .ok ws s1 else State.fetchWords (core / 16) e.ten (fld (wordAt ws 0) 5 0 - 2) (p + 16#64) s1
    | g => g

/-- QUEUE of a task's header where it can be read: that of the shadow copy, or of the packet as it stands (R387). -/
def State.headerQueue (s : State) (ten : Nat) (p : Word) (core : Nat) : Option Nat :=
  match (s.core core).tasks.find? fun t => t.handle == p with
  | some t => t.words.head?.map stQueue
  | none => (s.packetQueue ten p).head?

/-- Forgets what the prefetcher of a core holds of a task (R32). -/
def State.forgetTask (s : State) (core : Nat) (p : Word) : State :=
  s.modCore core fun c => { c with tasks := c.tasks.filter fun t => t.handle != p, falls := c.falls.filter fun x => x.1 != p }

/-- Starts a task (R25, R30, R386, R387, R427). -/
def State.startTask (s : State) (e : RunEntry) (p : Word) (r : SlotRef) (tiles : List Nat) (sb : BitVec 48) : State :=
  let ended (t : State) : State := (t.forgetTask r.core p).dropRetained e.ten p
  match s.packetWords e p r.core with
  | .fail c => (ended s).report { ten := e.ten, cause := wd c, tval := p, queue := e.queue }
  | .poison => (ended s).lostTask (r.core / 16) e.ten p (s.headerQueue e.ten p r.core)
  | .ok ws s1 =>
    let h := wordAt ws 0
    if headerBad h then (ended s1).report { ten := e.ten, cause := 0x0C#64, tval := 0x302#64, queue := stQueue h }
    else
    let len := fld h 5 0
      let ns := fld h 36 32
      let pay : Nat → Word := fun i => if i < len - 4 - ns then wordAt ws (2 + i) else 0#64
      let keep := (s1.forgetTask r.core p).modCore r.core fun c =>
        { c with retained := c.retained.filter fun x => !(x.handle == p && x.ten == e.ten) }
      keep.startStrand r { pc := wordAt ws 1, ten := e.ten, regs := [pay 0, pay 1, pay 2, pay 3, pay 4, p], workid := pay 0, st := h
                           tiles := tiles, sb := sb, origin := .task, succs := (ws.drop (len - 2 - ns)).take ns, rel := e.rel }

/-- The strand of an ordinal of a launch (R36, R37, R39). -/
def Launch.spec (l : Launch) (n : Nat) (tiles : List Nat) (sb : BitVec 48) : StartSpec :=
  let wid := l.workId n
  let w : Nat → Word := wordAt l.words
  { pc := w 0, ten := l.ten, regs := [wid, w 1, w 2, w 3, w 4, w 13 + wd (64 * n)], succ := w 15, workid := wid, st := l.state
    tiles := tiles, sb := sb, origin := .launch l.id n, recAddr := w 13 + wd (64 * n), pinned := l.persist, rel := [(3, l.rel)] }

/-- Starts an entry in a slot with its grants; a launch entry starts the strand of its lowest rank. -/
def State.startEntry (s : State) (e : RunEntry) (r : SlotRef) (tiles : List Nat) (sb : BitVec 48) : State :=
  match e.work with
  | .record a => s.startRecord e a r tiles sb
  | .task p => s.startTask e p r tiles sb
  | .launch id lo _ => (match s.launch? id with
    | some l => s.startStrand r (l.spec (l.ordinalAt (e.home.getD 0) lo) tiles sb)
    | none => s)
  | .resume q => (s.modSlot q fun x => { x with parked := false }).acquire (s.slot q).party 3 e.rel

/-- What a launch entry stands for after its lowest rank has started (R155). -/
def RunEntry.after (e : RunEntry) (now : Nat) : Option RunEntry :=
  match e.work with
  | .launch id lo hi => if lo + 1 < hi then some { e with work := .launch id (lo + 1) hi, stamp := now } else none
  | _ => none

/-- The spilled message of a core that refills its queue next: each tenant's ring is taken in its order (R192); among tenants, whose rings share no
order, the one that arrived first (DESIGN CHOICE, log 87). -/
def State.nextSpilled (s : State) (core : Nat) : Option HMsg :=
  s.tenants.foldl (fun (a : Option HMsg) t => match a, (t.2.spill.get [] core).head? with
    | none, o => o
    | a, none => a
    | some m, some n => if n.stamp < m.stamp then some n else some m) none

/-- Refills the inbound queue of a core from the spill rings while it has room (R192); that of a fenced core takes nothing (R391). -/
def State.refill (s : State) (core : Nat) : Nat → State
  | 0 => s
  | f + 1 =>
    if 32 ≤ (s.core core).inbound.length || (s.core core).fenced then s
    else match s.nextSpilled core with
      | none => s
      | some m =>
        ((s.modCore core fun c => { c with inbound := c.inbound ++ [m] }).modTenant m.ten fun t =>
          { t with spill := t.spill.put core (t.spill.get [] core).tail, spillHead := t.spillHead.put core (t.spillHead.get 0 core + 1) }).refill core f

/-- Starts a message of a core's inbound queue (R25, R192), which refills from the spill rings. -/
def State.startMessage (s : State) (core slot : Nat) (m : HMsg) : State :=
  ((s.modCore core fun c => { c with inbound := c.inbound.erase m }).refill core 32).startStrand ⟨core, slot⟩
    { pc := m.pc, ten := m.ten, regs := m.src :: m.args, st := wd (m.prio * 2 ^ 58 + m.queue * 2 ^ 48), origin := .message, rel := m.rel }

/-! ## Pops (R158) -/

/-- Step of R104. -/
def lfsrStep (l : BitVec 32) : BitVec 32 := if l.getLsbD 0 then (l >>> 1) ^^^ 0x80200003#32 else l >>> 1

/-- The run-list LFSR of a cluster: at boot 0x5A5A_0001 XOR (k << 8) (R158). -/
def State.runLfsr (s : State) (k : Nat) : BitVec 32 :=
  let c := s.cluster k
  if c.seeded then c.lfsr else 0x5A5A0001#32 ^^^ BitVec.ofNat 32 (k * 256)

/-- The fold offers that a core may take (R103): domain key, entry key, priority and stamp. -/
def State.offers (s : State) (core : Nat) : List (Nat × Word × Nat × Nat) :=
  if (s.freeSlotOf core).isNone || (s.core core).aged.isSome then []
  else (s.cluster (core / 16)).doms.filterMap fun d => match (if d.2.offered = some s.cycle then d.2.offer else none) with
    | some (key, stamp) => if s.inSlice (d.1 / 16) core && s.coreOf (d.1 / 16) core then some (d.1, key, fld d.2.dctl 31 26, stamp) else none
    | none => none

/-- The best of the fold offers: priority, then age, then the lower domain. -/
def bestOffer : List (Nat × Word × Nat × Nat) → Option (Nat × Word × Nat × Nat)
  | [] => none
  | o :: os =>
    match bestOffer os with
    | none => some o
    | some p => if o.2.2.1 < p.2.2.1 || (o.2.2.1 = p.2.2.1 && p.2.2.2 < o.2.2.2) then some p else some o

/-- The inbound message that a core could start: the first whose tenant is in its slice (R152, DESIGN CHOICE, log 87). -/
def State.messageFor (s : State) (core : Nat) : Option HMsg :=
  if (s.freeSlotOf core).isNone || (s.core core).aged.isSome then none
  else (s.core core).inbound.find? fun m => s.inSlice m.ten core

/-- What a pop takes. -/
inductive Pick
  | entry (e : RunEntry)
  | offer (dom : Nat) (key : Word) (prio stamp : Nat)
  | message (m : HMsg)
  deriving DecidableEq, Repr

/-- Priority and stamp of a pick. -/
def Pick.rank : Pick → Nat × Nat
  | .entry e => (e.prio, e.stamp)
  | .offer _ _ p t => (p, t)
  | .message m => (m.prio, m.stamp)

/-- The higher-ranked of two picks. Of two that tie the first is taken: the entry before a fold offer (R158), and, as no rule orders those, before an inbound
message (DESIGN CHOICE, log 114). -/
def Pick.better (a b : Option Pick) : Option Pick :=
  match a, b with
  | none, y => y
  | x, none => x
  | some x, some y =>
    if x.rank.1 < y.rank.1 || (x.rank.1 = y.rank.1 && y.rank.2 < x.rank.2) then some y else some x

/-- The pop of R158 for a core, and the LFSR after it. -/
def State.popFor (s : State) (core : Nat) : Option Pick × BitVec 32 :=
  let k := core / 16
  let c := s.cluster k
  let l := s.runLfsr k
  let es := s.candidates core c.entries
  let os := s.offers core
  let late : Nat → Bool := fun stamp => decide (65536 < s.cycle - stamp)
  let lateE := oldestEntry (es.filter fun e => late e.stamp)
  let lateO := (os.filter fun o => late o.2.2.2).foldl (fun (a : Option (Nat × Word × Nat × Nat)) o => match a with
    | some b => if o.2.2.2 < b.2.2.2 then some o else some b
    | none => some o) none
  let offer (o : Option (Nat × Word × Nat × Nat)) : Option Pick := o.map fun o => .offer o.1 o.2.1 o.2.2.1 o.2.2.2
  if es.isEmpty && os.isEmpty then (none, l)
  else match lateE, lateO with
    | some e, some o => (if o.2.2.2 < e.stamp then offer (some o) else some (.entry e), l)
    | some e, none => (some (.entry e), l)
    | none, some o => (offer (some o), l)
    | none, none =>
      let b1 := l.toNat % 8
      let l1 := lfsrStep l
      let b2 := l1.toNat % 8
      let l2 := lfsrStep l1
      let b2 := if b2 = b1 then (b1 + 1) % 8 else b2
      let head (b : Nat) : List RunEntry := s.candidates core (c.banks.getD b [])
      let two := head b1 ++ head b2
      let x := topEntry (if two.isEmpty then es else two)
      (Pick.better (x.map .entry) (offer (bestOffer os)), l2)

/-- A run-list entry with an uncorrectable error (R387): it is removed, and neither its handle nor its QUEUE can be read (DEDUCED, log 105). -/
def State.lostEntry (s : State) (core : Nat) (e : RunEntry) : State :=
  let t := s.lostTask (s.clusterOf core) e.ten 0#64 none
  if core < 1024 then
    (t.modCluster (core / 16) fun c => c.remove s.cycle e).modCore core fun c => { c with aged := if c.aged.any e.same then none else c.aged }
  else t.modCore core fun c => { c with runList := c.runList.erase e }

/-- Carries out a pick on a compute core. -/
def State.takePick (s : State) (core : Nat) : Pick → State
  | .message m => (match s.freeSlotOf core with
    | some n => s.startMessage core n m
    | none => s)
  | .offer dom key _ _ => (match s.freeSlotOf core with
    | some n => s.modCluster (core / 16) fun c =>
        { c with doms := c.doms.put dom { c.doms.get {} dom with offer := none, taken := some (key, core, n), takenAt := s.cycle } }
    | none => s)
  | .entry e => if e.poison then s.lostEntry core e else (match s.grantFor e core with
    | some (n, tiles, sb) =>
      let s1 : State := (s.modCluster (core / 16) fun c =>
        match e.after s.cycle with
        | some e' => { c with banks := c.banks.map fun b => b.map fun x => if x = e then e' else x }
        | none => c.remove s.cycle e).modCore core fun c => { c with aged := if c.aged.any e.same then none else c.aged }
      ((if (s.persistOf e).isSome then s1 else s1.takeBanks core tiles sb (s.keptFor e core)).startEntry e ⟨core, n⟩ tiles sb)
    | none => s)

/-- The bank that the read of a record or a packet at its start has to wait for: the machine with its wake begun (R67). -/
def State.startWait (s : State) (p : Pick) (core : Nat) : Option State :=
  match p with
  | .entry e => if e.poison then none else (match e.work with
    | .record a => if bit a 56 then s.wakeFirst (s.redirect 4096 a.toNat).1 64 else none
    | .task a =>
      if (s.core core).tasks.any fun t => t.handle == a then none
      else s.wakeFirst (s.redirect 4096 a.toNat).1 (8 * Nat.max 4 (fld e.st 5 0))
    | _ => none)
  | _ => none

/-- What a core takes in a pop, and the LFSR after it (R158, R192). -/
def State.pickFor (s : State) (core : Nat) : Option Pick × BitVec 32 :=
  let (p, l) := s.popFor core
  (Pick.better p ((s.messageFor core).map .message), l)

/-- MEMORY_CORE_POP (R160): one start in a cycle. -/
def execMemoryCorePop (core : Nat) (s : State) : Out1 :=
  let s0 : State := s.refill core 32
  .next
    (if coreKind core ≠ .memory || !s.coreOpen core || (s.core core).popped = some s.cycle then s
    else
      let es := s0.candidates core ((s0.core core).runList.take 64)
      let x := match oldestEntry (es.filter fun e => decide (65536 < s.cycle - e.stamp)) with
        | some e => some e
        | none => topEntry es
      match Pick.better (x.map .entry) ((s0.messageFor core).map .message) with
      | none => s0
      | some q =>
        match s0.startWait q core with
        | some s' => s'
        | none =>
          let s1 : State := s0.modCore core fun c => { c with popped := some s.cycle }
          match q with
          | .entry e => if e.poison then s1.lostEntry core e else (match s0.grantFor e core with
            | some (n, tiles, sb) =>
              (s1.modCore core fun c => { c with runList := match e.after s.cycle with
                | some e' => c.runList.map fun y => if y = e then e' else y
                | none => c.runList.erase e }).startEntry e ⟨core, n⟩ tiles sb
            | none => s0)
          | .message m => (match s0.freeSlotOf core with
            | some n => s1.startMessage core n m
            | none => s0)
          | _ => s0)

/-- AGE_PROMOTION (R34): an entry that has waited is selected for the core, which then starts nothing else before it. -/
def execAgePromotion (core : Nat) (s : State) : Out1 :=
  .next
    (if 1024 ≤ core || (s.core core).aged.isSome || !s.coreOpen core then s
    else
      let taken := (List.range 16).filterMap fun i => (s.core (core / 16 * 16 + i)).aged
      let es := (s.cluster (core / 16)).entries.filter fun e =>
        decide (65536 < s.cycle - e.stamp) && s.mayStart e core && !(taken.any e.same) && s.couldGrant e core && (match e.work with | .resume _ => false | _ => true)
      match oldestEntry es with
      | some e => s.modCore core fun c => { c with aged := some e }
      | none => s)

/-! ## Donation (R161) -/

/-- The tenant whose turn it is on a cluster, or that owns its cores. -/
def State.tenantOn (s : State) (cluster : Nat) : Option Nat :=
  let c := s.cluster cluster
  if c.share.isEmpty then (s.tenants.find? fun t => (List.range 16).any fun i => t.2.ownsCore (16 * cluster + i)).map (·.1)
  else some (c.share.getD c.turn 0)

/-- The populated neighbours of a cluster in the tenant's partition: north, east, south, west (R11, R161). -/
def State.neighbours (s : State) (ten cluster : Nat) : List Nat :=
  let p := s.posOf cluster
  let at_ : List (Option Nat) := [if 8 ≤ p then some (p - 8) else none, if p % 8 < 7 then some (p + 1) else none,
    if p < 56 then some (p + 8) else none, if 0 < p % 8 then some (p - 1) else none]
  (at_.filterMap id).filterMap fun q =>
    if bitOf s.capmap.toNat q && s.inPartition ten (s.clusterAt q) then some (s.clusterAt q) else none

/-- Is the cluster idle for its tenant now, in that tenant's slice: a core with a free slot, and nothing that may run on such a core? -/
def State.idleNow (s : State) (cluster : Nat) : Bool :=
  let cores := ((List.range 16).map (16 * cluster + ·)).filter fun c =>
    s.coreOpen c && (s.freeSlotOf c).isSome && (match s.tenantOn cluster with | some t => s.coreOf t c | none => false)
  (s.cluster cluster).leaving.isNone && !cores.isEmpty && cores.all fun c => (s.candidates c (s.cluster cluster).entries).isEmpty && (s.offers c).isEmpty

/-- Has the cluster been idle for its tenant for 64 cycles on end (R161)? -/
def State.longIdle (s : State) (cluster : Nat) : Bool :=
  s.idleNow cluster && (match (s.cluster cluster).steal.idleSince with
    | some t => decide (64 ≤ s.cycle - t)
    | none => false)

/-- Sends the next steal request of a cluster (DEDUCED, log 36). -/
def State.askNext (s : State) (cluster : Nat) : State :=
  match s.tenantOn cluster with
  | none => s
  | some t =>
    let ns := s.neighbours t cluster
    if ns.isEmpty then s
    else s.modCluster cluster fun c =>
      { c with steal := { c.steal with waiting := some (ns.getD (c.steal.asked % ns.length) 0), ten := t, answered := false, shipped := none } }

/-- CLUSTER_IDLE (R161): the cluster has been idle for 64 cycles; it sends its first request. -/
def execClusterIdle (cluster : Nat) (s : State) : Out1 :=
  let st := (s.cluster cluster).steal
  .next
    (if s.nclusters ≤ cluster then s
    else if !s.idleNow cluster then s.modCluster cluster fun c => { c with steal := { c.steal with idleSince := none } }
    else match st.idleSince with
      | none => s.modCluster cluster fun c => { c with steal := { c.steal with idleSince := some s.cycle } }
      | some _ => if !s.longIdle cluster || st.waiting.isSome || st.backoff.isSome then s else s.askNext cluster)

/-- The launch entry that a victim gives away (R161). -/
def State.donation (s : State) (victim ten : Nat) : Option RunEntry :=
  topEntry ((s.cluster victim).entries.filter fun e => e.ten == ten && (match e.work with
    | .launch id lo hi => decide (2 ≤ hi - lo) && (match s.launch? id with | some l => !l.persist && !l.memc | none => false)
    | _ => false))

/-- STEAL_REQUEST (R161): the victim that a cluster has asked answers. It keeps the lowest half of the entry, which stays the same entry for a core
that R34 has given it to. -/
def execStealRequest (cluster : Nat) (s : State) : Out1 :=
  let st := (s.cluster cluster).steal
  .next (match st.waiting with
    | some v =>
      if st.answered then s
      else
        let answer (o : Option RunEntry) (t : State) : State :=
          t.modCluster cluster fun c => { c with steal := { c.steal with shipped := o, answered := true } }
        match s.donation v st.ten with
        | some e => (match e.work with
          | .launch id lo hi =>
            let mid := lo + (hi - lo + 1) / 2
            answer (some { e with work := .launch id mid hi }) (s.modCluster v fun c =>
              { c with banks := c.banks.map fun b => b.map fun x => if x = e then { e with work := .launch id lo mid } else x })
          | _ => answer none s)
        | none => answer none s
    | none => s)

/-- STEAL_ANSWER (R161): the thief enters what was shipped; refused, it asks the next neighbour while it is still idle for the tenant, and after four
refusals waits 1,024 cycles. -/
def execStealAnswer (cluster : Nat) (s : State) : Out1 :=
  let st := (s.cluster cluster).steal
  .next
    (if !st.answered then s
    else match st.shipped with
      | some e => (s.modCluster cluster fun c => { c with steal := {} }).enterRunList cluster e
      | none =>
        if 3 ≤ st.asked then
          s.modCluster cluster fun c => { c with steal := { idleSince := st.idleSince, backoff := some (s.cycle + 1024) } }
        else if !s.longIdle cluster || s.tenantOn cluster ≠ some st.ten then
          s.modCluster cluster fun c => { c with steal := { idleSince := st.idleSince } }
        else (s.modCluster cluster fun c => { c with steal := { c.steal with asked := c.steal.asked + 1, waiting := none, answered := false } }).askNext cluster)

/-- STEAL_BACKOFF_EXPIRY (R161): the cluster may ask again; the cycles for which it has been idle count on. -/
def execStealBackoffExpiry (cluster : Nat) (s : State) : Out1 :=
  .next (match (s.cluster cluster).steal.backoff with
    | some t => if t ≤ s.cycle then s.modCluster cluster fun c => { c with steal := { idleSince := c.steal.idleSince } } else s
    | none => s)

end Sys2Proof.Machine
end

