-- ==== Sys2Proof/Machine/Launch.lean ====
section
/-! DEFINITION. Launches: the header rules (R35, R41, R354, R390), the host queues and the arbiter (R149 to R153), acceptance, dealing and
completion (R39, R151, R155), PERSIST admission (R41), and the watchdog (R165, R391). -/

namespace Sys2Proof.Machine

open Host

/-! ## The header (R35) -/

/-- The launch that sixteen header words describe; `arrived` is the place of its arrival among all (R156). -/
def launchOf (ws : List Word) (id ten : Nat) (ring : Option Nat) (arrived now : Nat) (rel : List Nat) : Launch :=
  let l : Launch :=
    { id := id, ten := ten, queue := stQueue (wordAt ws 12), ring := ring, words := ws, total := 0, accepted := now, arrived := arrived, rel := rel }
  { l with total := l.groupSize l.nf, undealt := List.range l.targets, admitted := !l.persist }

/-- The compute cores of a launch's targets that the tenant owns (R36). -/
def State.targetCores (s : State) (l : Launch) : List Nat :=
  if l.memc then []
  else (List.range l.targets).flatMap fun t =>
    ((List.range 16).map ((fld l.place 5 0 + t) * 16 + ·)).filter fun c => s.coreOf l.ten c

/-- Is word `i` of a header a failing word (R354)? -/
def State.wordFails (s : State) (l : Launch) (i : Nat) : Bool :=
  let f := wordAt l.words 5
  let w : Nat → Nat := fun j => fld f (8 * j + 7) (8 * j)
  let st := l.state
  let idx := List.range 6
  match i with
  | 0 => fld (wordAt l.words 0) 1 0 != 0
  | 5 => l.nf == 0 || l.nf == 7 || (idx.any fun j => if j < l.nf then w j == 0 else w j != 0) ||
      decide (64 < ((List.range (Nat.min l.nf 6)).map w).sum)
  | 12 => decide (48 ≤ stPrio st) || decide (49 ≤ stSbanks st) || decide (l.pool < stSbanks st) ||
      (l.memc && (stTiles st != 0 || stSbanks st != 0))
  | 13 => fld (wordAt l.words 13) 5 0 != 0
  | 14 =>
    let tb := fld l.place 5 0
    decide (49 ≤ l.pool) || decide (l.nf < l.deal) ||
      ((List.range l.targets).any fun t => if l.memc then !s.memCoreOf l.ten (tb + t) else !s.inPartition l.ten (tb + t)) ||
      (l.persist && (List.range l.targets).any fun t => decide ((if l.memc then 4 else 64) < l.shareOf t)) ||
      ((s.targetCores l).any fun c => decide (l.ten ≠ 0) && poolMask l.pool &&& ~~~((s.tenant l.ten).scr.get 0#48 c) != 0#48)
  | 15 =>
    let c := wordAt l.words 15
    fld c 3 0 != 0 || (c != 0#64 && ((s.cellFault l.ten c).isSome || decide (2 ^ 64 ≤ l.total)))
  | _ =>
    if 6 ≤ i ∧ i ≤ 11 then (if i - 6 < l.nf then decide (2 ^ w (i - 6) < l.ext (i - 6)) else wordAt l.words i != 0#64) else false

/-- The lowest failing word of a header, or none. -/
def State.headerFault (s : State) (l : Launch) : Option Nat := (List.range 16).find? (s.wordFails l)

/-- The oldest incomplete launch of a queue. -/
def State.oldestLaunch (s : State) (ten q : Nat) : Option Launch := s.launches.find? fun l => l.ten == ten && l.queue == q

/-- Changes a host queue of a tenant. -/
def State.modQueue (s : State) (ten q : Nat) (f : HQueue → HQueue) : State :=
  s.modTenant ten fun t => { t with queues := t.queues.put q (f (t.queues.get {} q)) }

/-- Accepts a launch (R39, R151): COMPL is set, the watchdog starts when nothing else of its queue runs (R165). A COMPL cell whose bank has first to
wake holds the acceptance (R67). -/
def State.acceptLaunch (s : State) (l : Launch) : State :=
  let compl := wordAt l.words 15
  let (k, s0) := if compl = 0#64 then (0, s) else s.redirect 4096 compl.toNat
  let s1 : State := if compl = 0#64 then s else s0.writeNow 0 l.ten k (leBytes 8 l.total) [(3, l.rel)]
  let s2 : State := if (s.oldestLaunch l.ten l.queue).isSome then s1
    else s1.modQueue l.ten l.queue fun q => { q with wstart := s.cycle, wstep := 0 }
  { s2 with launches := s2.launches ++ [l] }

/-- The bank for which an acceptance has to wait: the machine with its wake begun. -/
def State.acceptWait (s : State) (l : Launch) : Option State :=
  let compl := wordAt l.words 15
  if compl = 0#64 then none else s.wakeFirst (s.redirect 4096 compl.toNat).1 8

/-- Regions that could not be stitched are back on plain mesh links before the next launch is accepted (R404). -/
def State.settleStitch (s : State) : State :=
  { s with stitched := s.stitched.filter fun r => !(s.unstitch.any fun u => u.meets r), unstitch := [] }

/-- LNCH_HEADER_READ (R256, R354): the header has been read, and the child is accepted or refused. -/
def execLnchHeaderRead (id : Nat) (s : State) : Out1 :=
  .next (match s.flight? id with
    | some f => (match f.act with
      | .lnch _ _ _ (some (c, v)) => (s.finish f 0#64).flightFault f c v
      | .lnch _ _ ws none =>
        let l := launchOf ws s.fresh f.ten none f.id s.cycle f.rel
        (match s.headerFault l with
          | some i => (s.finish f 0#64).flightFault f 0x0C (wd (0x300 + i))
          | none => (match s.acceptWait l with
            | some s' => s'
            | none => (({ s.settleStitch with fresh := s.fresh + 1 } : State).acceptLaunch l).finish f (wd l.total)))
      | _ => s)
    | none => s)

/-! ## Host queues (R149, R150) -/

/-- QUEUE_DOORBELL (R150): a host write of QWP. -/
def execQueueDoorbell (vf q : Nat) (v : Word) (s : State) : Out1 :=
  .next (if q < (s.tenant vf).nq then s.modQueue vf q fun h => { h with wp := fld v 31 0 } else s)

/-- HEADER_FETCH (R150, R390): the next header of a queue's ring is read into the header buffer. -/
def execHeaderFetch (vf q : Nat) (s : State) : Out1 :=
  .next
    (let t := s.tenant vf
     let h := t.queues.get {} q
     if t.nq ≤ q || !bit h.cfg 63 || h.wp = h.rp || 8 ≤ t.hbuf.length || !t.served then s
     else
       let va := wd (fld h.base 56 12 * 0x1000 + 128 * (h.rp % 2 ^ fld h.cfg 4 0))
       let fail (c : Nat) (v : Word) : State :=
         (s.modQueue vf q fun h => { h with cfg := setFld h.cfg 63 63 0 }).report { ten := vf, cause := reportCause c, tval := v, queue := q }
       match s.checkNow 0 vf .s .load false va 128 with
       | .bad c _ => fail c va
       | .miss => s
       | .ok k =>
         if !(s.place k = .stack || s.place k = .host) then fail 6 va
         else match s.readDev vf k 128 with
           | none => s
           | some (bs, _, s1) =>
             match s.poisoned vf k 128 with
             | some g => fail 0x14 (wd g)
             | none =>
               (({ s1 with fresh := s1.fresh + 1 } : State).modTenant vf fun t => { t with hbuf := t.hbuf ++ [⟨q, leWords bs 16, s1.fresh⟩] }).modQueue vf q fun h =>
                 { h with rp := (h.rp + 1) % 2 ^ 32 })

/-! ## The arbiter (R153) -/

/-- Weight of a process. -/
def Tenant.weight (t : Tenant) (p : Nat) : Nat := if p < 8 then fld t.pwgt0 (8 * p + 7) (8 * p) else fld t.pwgt1 (8 * p - 57) (8 * p - 64)

/-- The queues of a tenant with a buffered header that the arbiter may serve. -/
def Tenant.pendingQueues (t : Tenant) : List Nat :=
  if !t.served then []
  else (((t.hbuf.map (·.queue)).eraseDups).filter fun q =>
    let c := (t.queues.get {} q).cfg
    bit c 63 && t.weight (fld c 41 38) != 0)

/-- The process of a queue. -/
def Tenant.procOf (t : Tenant) (q : Nat) : Nat := fld (t.queues.get {} q).cfg 41 38

/-- The queue that the arbiter serves within a tenant, and the tenant with its credits. -/
def Tenant.choose (t : Tenant) : Option (Nat × Tenant) :=
  let qs := t.pendingQueues
  let withCredit (u : Tenant) : Option Nat := (List.range 16).find? fun p => (qs.any fun q => t.procOf q == p) && decide (0 < u.credit.get 0 p)
  let refilled : Tenant := { t with credit := (List.range 16).foldl (fun m p => m.put p (t.weight p)) t.credit }
  let pick (u : Tenant) : Option (Nat × Tenant) :=
    (withCredit u).bind fun p =>
      let u' : Tenant := { u with credit := u.credit.put p (u.credit.get 0 p - 1) }
      let mine := qs.filter fun q => t.procOf q == p
      let prio : Nat → Nat := fun q => fld (t.queues.get {} q).cfg 47 42
      (mine.foldl (fun (a : Option Nat) q => match a with
        | some b => if prio b < prio q || (prio b = prio q && q < b) then some q else some b
        | none => some q) none).map fun q => (q, u')
  match pick t with
  | some r => some r
  | none => pick refilled

/-- Takes the first buffered header of a queue. -/
def takeHeader (q : Nat) : List Header → Option (Header × List Header)
  | [] => none
  | h :: hs => if h.queue = q then some (h, hs) else (takeHeader q hs).map fun r => (r.1, h :: r.2)

/-- LAUNCH_ACCEPT (R153, R390): one acceptance of the arbiter in a cycle. -/
def execLaunchAccept (s : State) : Out1 :=
  let s : State := s.settleStitch
  let vfs := (s.tenants.filter fun t => !t.2.pendingQueues.isEmpty).map (·.1)
  .next
    (if s.accepted = some s.cycle then s
    else match (match vfs.find? fun v => decide (s.lastVf < v) with | some v => some v | none => vfs.head?) with
    | none => s
    | some v =>
      match (s.tenant v).choose with
      | none => s
      | some (q, t) =>
        match takeHeader q t.hbuf with
        | none => s
        | some (h, rest) =>
          let s1 : State := ({ s with lastVf := v, fresh := s.fresh + 1, accepted := some s.cycle } : State).modTenant v fun _ => { t with hbuf := rest }
          let l := launchOf h.words s.fresh v (some q) h.arrived s.cycle []
          match s1.headerFault l with
          | some i => s1.report { ten := v, cause := 0x0C#64, tval := wd (0x300 + i), queue := q }
          | none => (match s.acceptWait l with
            | some s' => s'
            | none => s1.acceptLaunch l))

/-! ## Dealing, admission, completion -/

/-- LAUNCH_DEAL (R155): a launch entry joins a target's run list. -/
def execLaunchDeal (launch target : Nat) (s : State) : Out1 :=
  .next (match s.launch? launch with
    | none => s
    | some l =>
      if !l.undealt.contains target || !l.admitted then s
      else
        let s1 : State := s.modLaunch launch fun l => { l with undealt := l.undealt.erase target }
        let n := l.shareOf target
        let tb := fld l.place 5 0
        if n = 0 then s1
        else s1.enterRunList (if l.memc then 1024 + tb + target else tb + target)
          { work := .launch launch 0 n, prio := stPrio l.state, stamp := s.cycle, ten := l.ten, queue := l.queue, home := some target
            rel := [(3, l.rel)], st := l.state })

/-- Pins the slot and the banks for the strand of a PERSIST launch with rank `r` in target `t`, or none when its core cannot (R41) (DEDUCED, log 76).
The strand itself starts from its launch entry (R155). -/
def State.pinSlot (s : State) (l : Launch) (t r : Nat) : Option State :=
  let core := if l.memc then 1024 + fld l.place 5 0 + t else (fld l.place 5 0 + t) * 16 + r % 16
  if !s.coreOf l.ten core || !s.coreOpen core || !s.inSlice l.ten core || (s.core core).aged.isSome then none
  else match s.freeSlotOf core with
    | none => none
    | some n => (s.grant l.ten core (stTiles l.state) (stSbanks l.state) (some l.pool) none).map fun g =>
        let r' : SlotRef := ⟨core, n⟩
        let s1 : State := (s.takeBanks core g.1 g.2 none).regrant r' g.2
        s1.modSlot r' fun x =>
          { x with occ := .pinned, parked := true, ten := l.ten, st := l.state, tiles := g.1, sb := g.2
                   origin := .launch l.id (l.ordinalAt t r), recAddr := unstartedAddr, party := 0, pc := wordAt l.words 0 }

/-- Does some PERSIST launch of the tenant that arrived before another still wait for admission: one that is accepted, one whose header is buffered in a queue
that the arbiter serves, or one that LNCH has read (R41, R156) (DEDUCED, log 31)? -/
def State.admitBehind (s : State) (l : Launch) : Bool :=
  let t := s.tenant l.ten
  (s.launches.any fun m => m.ten == l.ten && !m.admitted && decide (m.arrived < l.arrived)) ||
  (t.hbuf.any fun h => bit (wordAt h.words 12) 38 && decide (h.arrived < l.arrived) && t.pendingQueues.contains h.queue) ||
  (s.flights.any fun f => f.ten == l.ten && decide (f.id < l.arrived) && (match f.act with
    | .lnch _ _ ws none => bit (wordAt ws 12) 38
    | _ => false))

/-- PERSIST_ADMIT (R41): a slot is pinned for every strand of the launch, or nothing changes (DEDUCED, log 31). -/
def execPersistAdmit (launch : Nat) (s : State) : Out1 :=
  .next (match s.launch? launch with
    | none => s
    | some l =>
      if l.admitted || s.admitBehind l then s
      else
        let all := (List.range l.targets).flatMap fun t => (List.range (l.shareOf t)).map fun r => (t, r)
        match all.foldl (fun (a : Option State) p => a.bind fun u => u.pinSlot l p.1 p.2) (some s) with
        | some s1 => s1.modLaunch launch fun l => { l with admitted := true }
        | none => s)

/-- Notes a launch that completes with APPROX status, in its queue and for the next report (R113, R149, R208). -/
def State.noteApprox (s : State) (l : Launch) : State :=
  if l.approx then (s.modQueue l.ten l.queue fun q => { q with approx := true }).noteFlag l.ten 0 else s

/-- LAUNCH_COMPLETE (R149, R151, R165): the last strand has halted and its decrement has been performed. DONE counts in the queue that is charged; the
vector is that of the queue whose ring it came from. -/
def execLaunchComplete (launch : Nat) (s : State) : Out1 :=
  .next (match s.launch? launch with
    | none => s
    | some l =>
      let compl := wordAt l.words 15
      let owed := s.flights.any fun f => f.ten == l.ten && (match f.act with | .decr _ c _ => c == compl | _ => false)
      if l.halted < l.total || owed then s
      else
        let first := (s.oldestLaunch l.ten l.queue).any fun m => m.id == launch
        let s1 : State := { s with launches := s.launches.filter fun m => m.id != launch }
        let s2 : State := (s1.modQueue l.ten l.queue fun q =>
          { q with done := (q.done + 1) % 2 ^ 32
                   wstart := if first then s.cycle else q.wstart, wstep := if first then 0 else q.wstep }).noteApprox l
        match l.ring with
        | some q => s2.raiseVec l.ten q
        | none => s2)

/-! ## The watchdog (R165, R391) -/

/-- Has step `n` of a queue's watchdog come due, its limit being `lim` microseconds? -/
def HQueue.due (h : HQueue) (now n lim : Nat) : Bool := h.wstep == n && lim != 0 && decide (h.wstart + 700 * lim ≤ now)

/-- WATCHDOG_PRE (R165, R343). -/
def execWatchdogPre (vf q : Nat) (s : State) : Out1 :=
  let h := (s.tenant vf).queues.get {} q
  .next (match s.oldestLaunch vf q with
    | some l =>
      if !h.due s.cycle 0 (fld h.wdog 19 0) then s
      else
        let s1 : State := s.modQueue vf q fun h => { h with wstep := 1, wstart := s.cycle }
        s1.allSlots.foldl (fun t r =>
          let x : Slot := t.slot r
          match x.origin with
          | .launch id _ => if x.occ != Occ.free && id == l.id then t.modSlot r fun x => { x with pre := true } else t
          | _ => t) s1
    | none => s)

/-- WATCHDOG_KILL (R165, R389, R391). -/
def execWatchdogKill (vf q : Nat) (s : State) : Out1 :=
  let h := (s.tenant vf).queues.get {} q
  .next
    (if !h.due s.cycle 1 (fld h.wdog 39 20) || fld h.wdog 19 0 = 0 || (s.oldestLaunch vf q).isNone then s
    else
      let ids := (s.launches.filter fun l => l.ten == vf && l.queue == q).map (·.id)
      let s1 : State := (s.modQueue vf q fun h => { h with wstep := 0, fences := h.fences ++ [(s.cycle, ids)] }).killQueue vf q
      s1.report { ten := vf, cause := 0x12#64, tval := wd q, killed := true, queue := q })

/-- Does a slot still hold a strand of one of the launches? -/
def State.holdsAny (s : State) (ids : List Nat) (r : SlotRef) : Bool :=
  let x : Slot := s.slot r
  x.occ != .free && (match x.origin with | .launch id _ => ids.contains id | _ => false)

/-- WATCHDOG_FENCE (R165, R391): every core on which a slot of the killed launch is still held is fenced (DEDUCED, log 35). -/
def execWatchdogFence (vf q : Nat) (s : State) : Out1 :=
  let h := (s.tenant vf).queues.get {} q
  let lim := fld h.wdog 59 40
  .next
    (if lim = 0 || fld h.wdog 39 20 = 0 || fld h.wdog 19 0 = 0 then s
    else match h.fences with
      | [] => s
      | (t0, ids) :: rest =>
        if s.cycle < t0 + 700 * lim then s
        else
          let s1 : State := s.modQueue vf q fun h => { h with fences := rest }
          let held := s.allSlots.filter (s.holdsAny ids)
          let firsts := held.filter fun r => held.find? (fun a => a.core == r.core) == some r
          firsts.foldl (fun t r => (t.modCore r.core fun c => { c with fenced := true }).report
            { ten := vf, cause := 0x12#64, tval := wd q, src := s.srcId r, killed := true, fenced := true, queue := q }) s1)

end Sys2Proof.Machine
end

