-- ==== Sys2Proof/Machine/Engine.lean ====
section
/-! DEFINITION. Engine parameters and queues (R87, R88, R223, R301 to R304, R364, R365), the copy and stream engines (R52, R53, R305), the
TASK engine (R306), faults inside an engine (R373, R374), and the arrival of enqueues. -/

namespace Sys2Proof.Machine

open Host

/-! ## Engines and queues -/

/-- Engine code (R223). -/
def engNum : EngCode → Nat
  | .copy => 0
  | .matrix => 1
  | .fold => 2
  | .task => 3
  | .stream => 4
  | .scrub => 15

/-- Is an engine present on a kind of core (R223)? -/
def engPresent (k : CoreKind) : EngCode → Bool
  | .copy => k == .compute
  | .matrix => k == .compute
  | .fold => k != .monitor
  | .task => k != .monitor
  | .stream => k == .memory
  | .scrub => k == .monitor

/-- Number of parameter registers of an engine (R302). -/
def engRegs : EngCode → Nat
  | .copy => 8
  | .matrix => 32
  | .fold => 64
  | .task => 3
  | .stream => 7
  | .scrub => 64

/-- The number under which a party keeps what completions of a queue released. -/
def qCode : EngQueue → Nat
  | .copy _ => 0
  | .matrix _ a => 16 + a
  | .fold _ => 2
  | .task _ => 3
  | .stream _ => 4

/-- Array `a` of a cluster. -/
def Cluster.array (c : Cluster) (a : Nat) : MArray := c.arrays.toList.getD a {}
/-- Changes an array. -/
def Cluster.modArray (c : Cluster) (a : Nat) (f : MArray → MArray) : Cluster := { c with arrays := c.arrays.setIfInBounds a (f (c.array a)) }

/-- The queue that an engine instruction of the issuing core names. -/
def State.engQueue (s : State) (e : EngCode) (v : Word) : EngQueue :=
  let core := s.cur.core
  let cl := s.clusterOf core
  match e with
  | .copy => .copy core
  | .matrix => .matrix cl (v.toNat % 2)
  | .fold => .fold cl
  | .task => .task cl
  | _ => .stream core

/-- What stands in a queue, markers among it; the operation that an array runs directly is its head. -/
def State.queueOps (s : State) : EngQueue → List EngOp
  | .copy c => (s.core c).queue
  | .stream c => (s.core c).queue
  | .matrix k a =>
    let m := (s.cluster k).array a
    (match m.run with | some r => if r.recd.isNone then [r.op] else [] | none => []) ++ m.queue
  | .fold k => (s.cluster k).fqueue
  | .task k => (s.cluster k).tqueue

/-- Changes the list behind a queue. -/
def State.mapQueue (s : State) (q : EngQueue) (f : List EngOp → List EngOp) : State :=
  match q with
  | .copy c => s.modCore c fun k => { k with queue := f k.queue }
  | .stream c => s.modCore c fun k => { k with queue := f k.queue }
  | .matrix k a => s.modCluster k fun c => c.modArray a fun m => { m with queue := f m.queue }
  | .fold k => s.modCluster k fun c => { c with fqueue := f c.fqueue }
  | .task k => s.modCluster k fun c => { c with tqueue := f c.tqueue }

/-- Operations that the issuing strand has entered in a queue and that have not completed, those on their way among them. -/
def State.ownOps (s : State) (q : EngQueue) : List EngOp :=
  let mine : EngOp → Bool := fun o => o.who == s.cur && o.party == s.sl.party && !o.isMarker
  (s.queueOps q).filter mine ++ (s.flightsOf s.cur).filterMap fun f => match f.act with
    | .engine p o => if p = q then some o else none
    | _ => none

/-- The depth of a queue (R302). -/
def qDepth : EngQueue → Nat
  | .copy _ => 8
  | _ => 4

/-- Is a queue full, operations on their way to it counted? -/
def State.queueFull (s : State) (q : EngQueue) : Bool :=
  let coming := (s.flights.filter fun f => match f.act with | .engine p _ => p == q | _ => false).length
  decide (qDepth q ≤ ((s.queueOps q).filter fun o => !o.isMarker).length + coming)

/-- An operation has completed (R83, R88): the QFENCEs that wait for it, and the strand that entered it, get what it released. -/
def State.released2 (s : State) (q : EngQueue) (op : EngOp) (rel : List Nat) : State :=
  ({ s with qfences := s.qfences.map fun f =>
      if f.waits.contains op.id then { f with waits := f.waits.erase op.id, rel := unionIds f.rel rel } else f } : State).modParty op.party
    fun p => { p with eng := p.eng.put (qCode q) (unionIds (p.eng.get [] (qCode q)) rel) }

/-- An operation of a queue has completed: it leaves the queue (R87). -/
def State.completeOp (s : State) (q : EngQueue) (op : EngOp) (rel : List Nat) : State :=
  (s.mapQueue q fun l => l.filter fun o => o.id != op.id).released2 q op rel

/-- May a marker let what follows it start (R88): every marker of its QFENCE has arrived, and all that arrived before them has completed? -/
def State.markerOpen (s : State) (o : EngOp) : Bool :=
  match s.qfences.find? fun f => f.id == o.fenceOf with
  | some f => f.left == 0 && f.waits.isEmpty
  | none => true

/-- Drops the markers at a queue's head that are open; the engine acquires what they waited for (R88). -/
def State.passMarkers (s : State) (q : EngQueue) : Nat → State
  | 0 => s
  | n + 1 =>
    match (match q with | .matrix k a => ((s.cluster k).array a).queue | _ => s.queueOps q) with
    | o :: _ =>
      if o.isMarker && s.markerOpen o then
        let rel := ((s.qfences.find? fun f => f.id == o.fenceOf).map (·.rel)).getD []
        ((s.mapQueue q List.tail).acquireIds (engPartyId q) rel).passMarkers q n
      else s
    | [] => s

/-- The operations in a queue that a marker which arrives there waits for. -/
def State.queueIds (s : State) : EngQueue → List Nat
  | .matrix k a => ((s.cluster k).array a).opIds
  | q => ((s.queueOps q).filter fun o => !o.isMarker).map (·.id)

/-- Is the cluster under FREEZE (R177)? -/
def State.clusterFrozen (s : State) (k : Nat) : Bool := (List.range 16).any fun i => (s.core (16 * k + i)).freeze

/-! ## Parameter registers -/

/-- A parameter register of the issuing core's engine (R223, R301): of FOLD's active set, a domain as it was committed. -/
def State.readEp (s : State) (e : EngCode) (n : Nat) (act : Bool) : Word :=
  let c : Core := s.core s.cur.core
  let k : Cluster := s.cluster (s.clusterOf s.cur.core)
  match e with
  | .matrix => let m := k.array (n / 16); if act then m.active.get 0#64 (n % 16) else m.shadow.get 0#64 (n % 16)
  | .fold =>
    if act then
      let d : FDomain := k.doms.get {} (s.sl.ten * 16 + n / 4)
      [d.dctl, d.hpc, d.log, d.compl].getD (n % 4) 0#64
    else k.fstage.get 0#64 n
  | .task => if act then k.tactive.get 0#64 n else k.tshadow.get 0#64 n
  | _ => if act then c.active.get 0#64 n else epMask (engNum e) n (c.shadow.get 0#64 n)

/-- Writes a parameter register of a shadow set; a reserved field reads as zero (R4). -/
def State.writeEp (s : State) (e : EngCode) (n : Nat) (v : Word) : State :=
  let cl := s.clusterOf s.cur.core
  match e with
  | .matrix => s.modCluster cl fun k => k.modArray (n / 16) fun m => { m with shadow := m.shadow.put (n % 16) (epMask 1 n v) }
  | .fold => s.modCluster cl fun k => { k with fstage := k.fstage.put n (epMask 2 n v) }
  | .task => s.modCluster cl fun k => { k with tshadow := k.tshadow.put n (epMask 3 n v) }
  | _ => s.modCore s.cur.core fun c => { c with shadow := c.shadow.put n (epHold (engNum e) n v) }

/-- Steps 3 to 6 of R344 for an engine word: SCRUB is privileged, an absent engine raises 0x03. -/
def State.onEngine (s : State) (e : EngCode) (k : State → State) : State :=
  let go (s : State) : State := if engPresent (coreKind s.cur.core) e then k s else s.trap 3 (wd (0x1C + engNum e * 256))
  match e with
  | .scrub => s.priv .m go
  | _ => go s

/-- EWR (R301). -/
def execEwr (e : EngCode) (a b : Reg) (s : State) : Out1 :=
  .next (s.onEngine e fun s => s.issue [(a, s.wmode), (b, s.wmode)] [] fun s =>
    let n := fld (s.sl.rd b) 5 0
    if engRegs e ≤ n then s.trap 0x0C (wd (n + engNum e * 256)) else (s.writeEp e n (s.sl.rd a)).done id)

/-- ERD and ERD.act. -/
def readRegister (e : EngCode) (b d : Reg) (act : Bool) (s : State) : State :=
  s.onEngine e fun s => s.issue [(b, s.wmode)] [d] fun s =>
    let n := fld (s.sl.rd b) 5 0
    if engRegs e ≤ n then s.trap 0x0C (wd (n + engNum e * 256)) else s.produce d (landReg d (s.readEp e n act))

/-- ERD (R301). -/
def execErd (e : EngCode) (b d : Reg) (s : State) : Out1 := .next (readRegister e b d false s)
/-- ERD.act (R301). -/
def execErdAct (e : EngCode) (b d : Reg) (s : State) : Out1 := .next (readRegister e b d true s)

/-! ## EGO (R302, R365) -/

/-- May an on-chip address be an operand of a copy (R305)? -/
def copyRegion (dst : Bool) (a : Word) : Bool :=
  let c := chipOf a.toNat
  if c.unit < 16 then decide (c.region ≤ 1) || (dst && (c.region == 2 || c.region == 3)) else c.unit == 31 && c.region == 0

/-- The lowest failing register of a copy or stream set (R365) (DEDUCED, log 32). -/
def copyFault (g : Nat → Word) (stream : Bool) : Option Nat :=
  let addrBad (n : Nat) : Bool :=
    fld (g n) 4 0 != 0 || fld (g n) 63 57 != 0 || (bit (g n) 56 && !copyRegion (n == 1) (g n)) ||
      (stream && bit (g n) 56 && !(decide ((chipOf (g n).toNat).unit < 16) && decide ((chipOf (g n).toNat).region ≤ 1)))
  if addrBad 0 || (stream && bit (g 0) 56 && bit (g 1) 56) then some 0
  else if addrBad 1 then some 1
  else if fld (g 2) 47 32 % 32 ≠ 0 || fld (g 2) 47 32 = 0 || fld (g 2) 31 0 = 0 then some 2
  else if fld (g 3) 47 0 % 32 ≠ 0 then some 3
  else if fld (g 4) 47 0 % 32 ≠ 0 then some 4
  else none

/-- Is a weight code sparse (R133)? -/
def isSparse (w : Nat) : Bool := decide (8 ≤ w) && decide (w ≤ 11)
/-- Does a weight code use scales? -/
def isGrouped (w : Nat) : Bool := w == 6 || w == 7 || w == 11

/-- The activation codes that a weight code accepts (R135). -/
def pairOk (w a : Nat) : Bool :=
  match w with
  | 0 => decide (a ≤ 3)
  | 1 => a == 0 || a == 2 || a == 3
  | 2 => decide (a ≤ 3)
  | 3 => decide (a ≤ 3)
  | 4 => a == 4 || a == 5
  | 5 => a == 4 || a == 5
  | 6 => a == 0 || a == 2 || a == 3
  | 7 => a == 0 || a == 2 || a == 3
  | 8 => a == 0 || a == 2 || a == 3
  | 9 => a == 0 || a == 2 || a == 3
  | 10 => a == 4 || a == 5
  | 11 => a == 0 || a == 2 || a == 3
  | 12 => a == 12
  | 13 => a == 13
  | _ => false

/-- The lowest failing word of a matrix record (R365). Of a combining record B, AFMT, and K, are ignored, and every WFMT has a meaning (R146), so that
nothing of theirs fails (DEDUCED, log 90). -/
def matrixFault (g : Nat → Word) : Option Nat :=
  let mode := g 7
  let w := fld mode 3 0
  let a := fld mode 7 4
  let comb := bit mode 11
  (List.range 16).find? fun i =>
    if comb && (i == 2 || i == 3) then false
    else if i = 0 ∨ i = 2 ∨ i = 4 then fld (g i) 4 0 != 0
    else if i = 1 ∨ i = 3 ∨ i = 5 then fld (g i) 15 0 % 32 != 0 || fld (g i) 47 16 % 32 != 0
    else if i = 6 then
      fld (g 6) 15 0 == 0 || fld (g 6) 31 16 == 0 || (!comb && fld (g 6) 55 32 == 0) || (!comb && isSparse w && fld (g 6) 55 32 % 32 != 0)
    else if i = 7 then !comb && (decide (14 ≤ w) || decide (14 ≤ a) || !pairOk w a)
    else if i = 13 then !comb && ((isSparse w && fld (g 13) 31 16 % 8 != 0) || (isGrouped w && fld (g 13) 15 0 % 2 != 0))
    else false

/-- The lowest failing register of a domain's set (R365). -/
def foldFault (g : Nat → Word) : Option Nat :=
  let lg := fld (g 2) 4 0
  if 48 ≤ fld (g 0) 31 26 || fld (g 0) 21 20 = 3 || fld (g 0) 19 17 = 7 then some 0
  else if (1 ≤ lg ∧ lg ≤ 7) || 25 ≤ lg || (lg ≠ 0 && bit (g 2) 56) then some 2
  else if fld (g 3) 56 4 ≠ 0 && !(bit (g 3) 56 && inScr (fld (g 3) 56 4 * 16)) then some 3
  else none

/-- The copy of the shadow set that EGO takes: four registers for FOLD, sixteen for an array. -/
def State.takeSet (s : State) (e : EngCode) (v : Word) : EpSet :=
  match e with
  | .matrix => ((s.cluster (s.clusterOf s.cur.core)).array (v.toNat % 2)).shadow
  | .fold => (List.range 4).map fun i => (i, s.readEp .fold (4 * (v.toNat % 16) + i) false)
  | .task => (List.range (engRegs .task)).map fun i => (i, s.readEp .task i false)
  | _ => (List.range (engRegs e)).map fun i => (i, (s.core s.cur.core).shadow.get 0#64 i)

/-- The failing register of a set that EGO would enter (R365), by its EP number. -/
def egoFault (e : EngCode) (v : Word) (g : EpSet) : Option Nat :=
  let w : Nat → Word := g.get 0#64
  match e with
  | .copy => copyFault w false
  | .stream => copyFault w true
  | .matrix => (matrixFault w).map (16 * (v.toNat % 2) + ·)
  | .fold => (foldFault w).map (4 * (v.toNat % 16) + ·)
  | .task => if fld (w 1) 16 0 = 0 ∨ 65536 < fld (w 1) 16 0 then some 1 else none
  | .scrub => none

/-- Does the tenant hold what the word names (R364)? (DEDUCED, log 70). -/
def State.engOwned (s : State) (e : EngCode) (ego : Bool) : Bool :=
  match e with
  | .matrix => s.sl.level == .m || (s.tenant s.sl.ten).matrix.getLsbD (s.clusterOf s.cur.core)
  | .fold => !ego || (s.tenant s.sl.ten).fold != 0#64
  | _ => true

/-- Does an address lie in the channel of the issuing memory core? None when it has no translation yet. -/
def State.inChannel (s : State) (acc : Acc) (a : Word) : Option Bool :=
  if bit a 56 then some false
  else match s.translateNow (s.clusterOf s.cur.core) s.sl.ten s.sl.level acc false a 32 with
    | .ok k => some (s.place k = .lpddr (coreNum s.cur.core))
    | _ => none

/-- Does a stream set lie in the core's channel on both sides, or on neither (R52, R365)? R365 speaks of translated addresses and names R52, whose
transfers have one side "in channel m after translation" and the other, perhaps, in stack memory (DEDUCED, log 32). -/
def State.streamSides (s : State) (e : EngCode) (g : EpSet) : Bool :=
  e = .stream && (match s.inChannel .load (g.get 0#64 0), s.inChannel .store (g.get 0#64 1) with
    | some a, some b => a == b
    | _, _ => false)

/-- Does an engine word read S(a) (R302)? An ignored source is not checked (R220). -/
def readsA (e : EngCode) (ego : Bool) : Bool := e == .matrix || (ego && e == .fold)

/-- The source of EGO, EWAIT or ESTAT. -/
def State.engSource (s : State) (e : EngCode) (ego : Bool) (a : Reg) : List (Reg × Bool) := if readsA e ego then [(a, s.wmode)] else []

/-- EGO (R302): the copy of the shadow set goes on its way to the queue, and releases when it arrives there (R88). -/
def execEgo (e : EngCode) (a : Reg) (s : State) : Out1 :=
  .next (s.onEngine e fun s =>
    if e = .scrub then s.trap 1 0#64
    else s.issue (s.engSource e true a) [] fun s =>
      let v := s.sl.rd a
      let q := s.engQueue e v
      let g := s.takeSet e v
      if !s.engOwned e true then s.trap 6 0#64
      else match (if s.streamSides e g then some 0 else none).or (egoFault e v g) with
        | some n => s.trap 0x0C (wd (n + engNum e * 256))
        | none =>
          if s.queueFull q then s
          else
            let x : Slot := s.sl
            let op : EngOp := { id := s.fresh, who := s.cur, party := x.party, ten := x.ten, level := x.level, queue := x.queue, eps := g
                                arg := v.toNat % 16, core := s.cur.core }
            (s.launchFlight s.cur (.engine q op)).done id)

/-- Acquires what the completions of a queue have released to the strand (R83). -/
def State.acquireEng (s : State) (q : EngQueue) : State :=
  let p := s.sl.party
  s.acquireIds p ((s.party p).eng.get [] (qCode q))

/-- EWAIT (R303): an acquire, which R85 lets pass no earlier entry. -/
def execEwait (e : EngCode) (a : Reg) (s : State) : Out1 :=
  .next (s.onEngine e fun s => s.issue (s.engSource e false a) [] fun s =>
    let q := s.engQueue e (s.sl.rd a)
    if !s.engOwned e false then s.trap 6 0#64
    else if e = .scrub then (if s.journal.run then s else s.done id)
    else if (s.ownOps q).isEmpty && s.quiet then (s.acquireEng q).done id
    else s)

/-- The status word of ESTAT (R302). -/
def State.estat (s : State) (e : EngCode) (q : EngQueue) : Word :=
  let mine := s.ownOps q
  let done := b01 mine.isEmpty * 2 ^ 63
  let k : Cluster := s.cluster (s.clusterOf s.cur.core)
  match e with
  | .copy => wd (done + mine.length % 16)
  | .matrix => (match q with | .matrix _ a => (k.array a).active.get 0#64 15 | _ => 0#64)
  | .fold => wd done
  | .task => wd (done + k.tileTasks.length % 256 * 2 ^ 16 + k.entries.length % 2 ^ 16)
  | .stream =>
    let left := match (s.core s.cur.core).queue.find? fun o => o.started with
      | some o => fld (o.eps.get 0#64 2) 31 0 - o.done
      | none => 0
    wd (done + left * 2 ^ 16 + mine.length % 16)
  | .scrub => wd (b01 (!s.journal.run) * 2 ^ 63 + (if s.journal.run then s.journal.vf % 128 else 0))

/-- ESTAT (R303): a word that reports DONE acquires, after every earlier entry (R85). -/
def execEstat (e : EngCode) (a d : Reg) (s : State) : Out1 :=
  .next (s.onEngine e fun s => s.issue (s.engSource e false a) [d] fun s =>
    let q := s.engQueue e (s.sl.rd a)
    if !s.engOwned e false then s.trap 6 0#64
    else
      let w := s.estat e q
      let done := e != .scrub && (match e with
        | .matrix => (s.ownOps q).isEmpty && decide (2 ≤ fld w 63 62)
        | _ => bit w 63)
      if done && !s.quiet then s
      else (if done then s.acquireEng q else s).produce d (landReg d w))

/-- TTQ (R304): for a tenant that holds the engine, as EGO (R141, DEDUCED, log 70). -/
def execTtq (a d : Reg) (s : State) : Out1 :=
  .next (s.onEngine .matrix fun s => s.issue [(a, s.wmode)] [d] fun s =>
    let va := s.sl.rd a
    if !s.engOwned .matrix true then s.trap 6 0#64
    else s.onAddr .load va (s.check s.cur .load va 64 64) fun key s =>
      if !(inScr key || s.place key = .stack) then s.trap 6 va
      else if !s.quiet then s
      else
        let cl := s.clusterOf s.cur.core
        let x : Slot := s.sl
        if 64 ≤ (s.cluster cl).tileTasks.length then (s.released x.party).setD d 1#64
        else
          let t : TileTask := { addr := va, who := s.cur, core := s.cur.core, party := x.party, ten := x.ten, level := x.level, queue := x.queue
                                rel := s.relSet x.party }
          ((s.released x.party).modCluster cl fun k => { k with tileTasks := k.tileTasks ++ [t] }).setD d 0#64)

/-! ## Arrivals and starts -/

/-- ENQUEUE_ARRIVAL (R88): an entry arrives in its run list, an operation or a marker in its engine queue; an entry or operation is a release event
when it arrives (R33, R82). A marker stands for what the operations that arrived before it have released and will release. -/
def execEnqueueArrival (id : Nat) (s : State) : Out1 :=
  .next (match s.flight? id with
    | some f =>
      if !s.performable f then s
      else match f.act with
        | .enqueue e l => ((s.dropFlight id).released f.party).enterRunList l { e with rel := s.relOf f.party 3 }
        | .engine q op => ((s.dropFlight id).released f.party).mapQueue q fun l => l ++ [{ op with rel := s.relSet f.party }]
        | .marker q n =>
          ({ s.dropFlight id with qfences := s.qfences.map fun x =>
              if x.id = n then { x with left := x.left - 1, waits := unionIds x.waits (s.queueIds q), rel := unionIds x.rel (s.relSet (engPartyId q)) }
              else x } : State).mapQueue q
            fun l => l ++ [mkMarker f n]
        | _ => s
    | none => s)

/-- Is the engine of a queue under FREEZE (R177)? -/
def State.engFrozen (s : State) : EngQueue → Bool
  | .copy c => (s.core c).freeze
  | .stream c => (s.core c).freeze
  | .matrix k _ => s.clusterFrozen k
  | .fold k => s.clusterFrozen k
  | .task k => s.clusterFrozen k

/-- The operation's start acquires its EGO, and what the engine's earlier operations have left it (R83, R87). -/
def State.startOp (s : State) (q : EngQueue) (o : EngOp) : State := s.acquireIds (engPartyId q) o.rel

/-- ENGINE_OP_START (R87, R302): the head of a queue starts once the one before it has completed; its copy becomes the active set. -/
def execEngineOpStart (q : EngQueue) (s : State) : Out1 :=
  let s1 : State := s.passMarkers q 16
  .next (match q with
    | .matrix k a =>
      let m := (s1.cluster k).array a
      (match m.run, m.queue with
        | none, o :: os =>
          if s1.engFrozen q || o.isMarker then s1
          else (s1.startOp q o).modCluster k fun c => c.modArray a fun m =>
            { m with queue := os, active := o.eps.put 15 0x4000000000000000#64, run := some { op := { o with started := true }, recd := none } }
        | _, _ => s1)
    | _ =>
      match s1.queueOps q with
      | o :: _ =>
        if o.started || s1.engFrozen q || o.isMarker then s1
        else
          let s2 : State := (s1.startOp q o).mapQueue q fun l => l.map fun p => if p.id = o.id then { p with started := true } else p
          (match q with
            | .copy c => s2.modCore c fun k => { k with active := o.eps.put 7 0#64 }
            | .stream c => s2.modCore c fun k => { k with active := o.eps }
            | .task k => s2.modCluster k fun c => { c with tactive := o.eps }
            | _ => s2)
      | [] => s1)

/-! ## Faults inside an engine (R373, R374) -/

/-- Was the operation abandoned by its strand's handler (R374)? -/
def EngOp.abandoned (o : EngOp) : Bool := o.eps.get 0#64 63 == 1#64

/-- Is a fault of a piece resumable (R373)? -/
def resumable (c : Nat) : Bool := c == 7 || c == 8

/-- Does a fault hold the operation: it is resumable and the strand that entered it still holds its slot (R374)? -/
def State.holdsOp (s : State) (o : EngOp) (c : Nat) : Bool := resumable c && s.holds o.who o.party && !(s.slot o.who).frozen

/-- The trap or the report of a fault in an operation (R374), which the fault may hold. -/
def State.opFault (s : State) (o : EngOp) (c : Nat) (v : Word) (holds : Bool := false) : State :=
  s.asyncFault o.who o.party o.ten o.queue { code := c, tval := v, op := if holds then o.id else 0 }

/-- Why a piece of an engine's work is not performed: it fails, with a code and a value (R373); the bank at a key has to wake first, with the machine in which
it wakes (R67); or its translation has to be walked for, with the machine in which the walk is under way (R58). -/
inductive Stop
  | fault (code : Nat) (tval : Word)
  | held (key : Nat) (s : State)
  | walk (s : State)

/-- The answer of a check as what a piece of an engine's work goes on with. -/
def State.checked (s : State) (u cluster ten : Nat) (lv : Level) (acc : Acc) (va : Word) (c : Chk) : Except Stop Nat :=
  match c with
  | .ok k => .ok k
  | .bad code v => .error (.fault code v)
  | .miss => .error (.walk (s.wantUnit u cluster ten lv va acc))

/-- Forgets the fault in which the walk of an engine or a built-in has ended, once it has been raised (R369). -/
def State.forgetAnswer (s : State) (u : Nat) : State := { s with answers := s.answers.filter fun a => a.1 != u }

/-- An access of an engine that a Waking bank holds: it is performed when the wake ends, in the order of arrival (R68), with the view of its turn. -/
def State.holdUnit (s : State) (q : EngQueue) (part k : Nat) : State :=
  if s.flights.any fun f => f.act == .unit q part k then s
  else { s with
    fresh := s.fresh + 1
    flights := s.flights ++ [{ id := s.fresh, who := ⟨unitKey 0 0, 0⟩, party := engPartyId q, ten := 0, level := .u, queue := 0, born := s.cycle
                               act := .unit q part k, reached := some (s.cycle, s.fresh), view := s.view }] }

/-! ## Copies and streams -/

/-- The rotation of R49 on an address in a scratch region. -/
def rotated (a : Word) (code i : Nat) : Word :=
  if code = 0 || !(bit a 56 && inScr a.toNat && decide ((chipOf a.toNat).off < 0x60000)) then a
  else setFld a 18 13 ((fld a 18 13 + i * code % 8) % 48)

/-- The check of one 32-byte piece (R373); a register region is reached word by word (R305). -/
def State.pieceCheck (s : State) (u cl : Nat) (o : EngOp) (acc : Acc) (compute : Bool) (va : Word) : Chk :=
  if bit va 56 && isWindow va.toNat && acc == .store then
    if (List.range 4).any fun i => (match s.checkUnit u cl o.ten o.level acc compute (va + wd (8 * i)) 8 with | .ok _ => false | _ => true)
    then .bad 6 va else .ok va.toNat
  else s.checkUnit u cl o.ten o.level acc compute va 32

/-- May the two sides of a piece lie where they do: a copy anywhere but in LPDDR-6 (R305), a stream with one side in the channel of its memory core
and the other in stack memory or on the chip (R52)? The side that may not. -/
def State.sidesBad (s : State) (stream : Option Nat) (sk dk : Nat) : Option Bool :=
  let ok (k : Nat) : Bool := match s.place k with
    | .chip => true
    | .stack => true
    | .host => stream.isNone
    | _ => false
  match stream with
  | none => if !ok sk then some false else if !ok dk then some true else none
  | some m =>
    let mine (k : Nat) : Bool := s.place k == .lpddr m
    if !(mine sk || ok sk) then some false
    else if !(mine dk || ok dk) || mine sk == mine dk then some true else none

/-- Source address of 32-byte piece `n` of a copy or stream. -/
def EngOp.pieceSrc (o : EngOp) (n : Nat) : Word :=
  wd (fld (o.eps.get 0#64 0) 56 0 + n / o.perRow * fld (o.eps.get 0#64 3) 47 0 + 32 * (n % o.perRow))
/-- Its destination: the rule of R49 applied to the piece's own address (DEDUCED, log 89). -/
def EngOp.pieceDst (o : EngOp) (n : Nat) : Word :=
  rotated (wd (fld (o.eps.get 0#64 1) 56 0 + n / o.perRow * fld (o.eps.get 0#64 4) 47 0 + 32 * (n % o.perRow))) (fld (o.eps.get 0#64 5) 2 0)
    (n / o.perRow)

/-- Does the piece belong to the last row of an operation with LASTREL (R305)? -/
def EngOp.lastRel (o : EngOp) (n : Nat) : Bool := bit (o.eps.get 0#64 5) 8 && decide (n / o.perRow + 1 = o.rows)

/-- The queue of a core's copy engine, or of its stream engine. -/
def copyQueue (core : Nat) (stream : Option Nat) : EngQueue := if stream.isNone then .copy core else .stream core

/-- The keys that a piece reaches, with its forwarding entries used (R58, R173, R373). -/
def State.pieceKeys (s : State) (core : Nat) (o : EngOp) (stream : Option Nat) (n : Nat) : Except Stop (Nat × Nat × State) :=
  let cl := s.clusterOf core
  let u := o.id
  let src := o.pieceSrc n
  let dst := o.pieceDst n
  match s.checked u cl o.ten o.level .load src (s.pieceCheck u cl o .load stream.isNone src) with
  | .error e => .error e
  | .ok sk0 =>
    match s.checked u cl o.ten o.level .store dst (s.pieceCheck u cl o .store stream.isNone dst) with
    | .error e => .error e
    | .ok dk0 =>
      match s.sidesBad stream sk0 dk0 with
      | some false => .error (.fault 6 src)
      | some true => .error (.fault 6 dst)
      | none =>
        if s.goneAt core sk0 then .error (.fault 6 src)
        else if s.goneAt core dk0 then .error (.fault 6 dst)
        else
          let (sk, s1) := s.redirect core sk0
          let (dk, s2) := s1.redirect core dk0
          .ok (sk, dk, s2)

/-- Counts the packets of an engine's access (R175). -/
def State.countFar (s : State) (core k : Nat) (reads : Bool) : State :=
  match keyPkt core 0 k with
  | none => s
  | some (_, t) => if reads then ((s.countPkt core 0 true).deliver t 0).countResponse t core else (s.countPkt core 0 true).deliver t 0

/-- Moves group `m` of an operation, which is 8 bytes where host space is touched and its whole 32-byte piece elsewhere (R78); `only`: it is read and
stays in flight, as it does where a bank holds its write. The poison of a source granule goes with it (R379). -/
def State.movePiece (s : State) (core : Nat) (o : EngOp) (stream : Option Nat) (m : Nat) (only : Bool) : Except Stop State :=
  let p := engPartyId (copyQueue core stream)
  let n := m / 4
  match s.pieceKeys core o stream n with
  | .error e => .error e
  | .ok (sk, dk, s0) =>
    let host := s.place sk == .host || s.place dk == .host
    let off := if host then 8 * (m % 4) else 0
    let len := if host then 8 else 32
    match s0.readAt p o.ten (sk + off) len (s0.turnView (sk + off) len) with
    | .held s' => .error (.held (sk + off) s')
    | .dead g => .error (.fault 9 (wd g))
    | .val bs _ rels s1 =>
      let s2 : State := ((s1.pending p rels).countFar core sk true).countFar core dk false
      let bad := if isWindow dk then [] else (List.range ((len + 15) / 16)).filterMap fun i =>
        if s.lostKey o.ten sk || s.poison.contains (granule (sk + off + 16 * i)) then some (granule (dk + off + 16 * i)) else none
      let f : Flight :=
        { id := s2.fresh, who := o.who, party := p, ten := o.ten, level := o.level, queue := o.queue, born := s.cycle
          act := .copyRead core o.id m (o.pieceDst n + wd off) (dk + off) bad (o.lastRel n)
          gather := rowOf bs, parts := if host then [m] else [] }
      let s3 : State := { s2 with fresh := s2.fresh + 1, flights := s2.flights ++ [f] }
      .ok (if only then s3 else s3.landCopy f)

/-- Is group `m` of an operation to be moved now: not done, not on its way, and the last row of LASTREL only after all others (R305)? -/
def State.partDue (s : State) (o : EngOp) (m : Nat) : Bool :=
  decide (4 * o.perRow * o.done ≤ m) && decide (m < 4 * o.perRow * o.rows) && !o.parts.contains m && (!o.lastRel (m / 4) || o.done + 1 == o.rows) &&
    !s.flights.any fun f => match f.act with | .copyRead _ op part _ _ _ _ => op == o.id && (part == m || (part / 4 == m / 4 && f.parts.isEmpty)) | _ => false

/-- Does one group of an operation: the machine, and the fault that it has met. A group that has to wait for a bank is held there (R68). -/
def State.tryPiece (s : State) (core : Nat) (o : EngOp) (stream : Option Nat) (m : Nat) (only : Bool) : State × Option (Nat × Word) :=
  match s.movePiece core o stream m only with
  | .ok t => (t, none)
  | .error (.held k t) => (t.holdUnit (copyQueue core stream) (2 * m + 1 + b01 only) k, none)
  | .error (.walk t) => (t, none)
  | .error (.fault c v) => (s, some (c, v))

/-- Moves groups in ascending order, but for those that have to wait: the machine, and the fault that stopped it. -/
def State.moveAll (core id : Nat) (stream : Option Nat) : Nat → Nat → State → State × Option (Nat × Word)
  | 0, _, s => (s, none)
  | f + 1, m, s =>
    match (s.core core).queue.find? fun o => o.id == id with
    | none => (s, none)
    | some o =>
      if !s.partDue o m then State.moveAll core id stream f (m + 1) s
      else match s.tryPiece core o stream m false with
        | (t, none) => State.moveAll core id stream f (m + 1) t
        | (t, some e) => (t, some e)

/-- The CELL of an operation. -/
def EngOp.cell (o : EngOp) (n : Nat) : Word := wd (fld (o.eps.get 0#64 n) 56 0)

/-- Completes an operation of a queue as a release, and sends the DECR to its cell (R53, R305, R306). -/
def State.endOp (s : State) (core : Nat) (q : EngQueue) (o : EngOp) (cell : Word) : State :=
  let rel := s.relSet (engPartyId q)
  (s.completeOp q o rel).sendDecr core o.ten o.queue cell rel

/-- Is every access of the operation performed (R87)? -/
def State.copyOver (s : State) (o : EngOp) : Bool :=
  o.done == o.rows && !(s.deposits.any fun d => d.op == o.id) &&
    !s.flights.any fun f => match f.act with | .copyRead _ op _ _ _ _ _ => op == o.id | _ => false

/-- An operation whose resumable fault holds it: the rows not counted in DONE are to be performed again (R374). -/
def EngOp.hold (o : EngOp) : EngOp := { o with held := true, parts := o.parts.filter fun p => o.rowDone (p / (4 * o.perRow)) }

/-- Runs the copy or stream operation at the head of a core's queue: all that is left of it, or the one group that the turn names, moved or only read. -/
def State.runCopy (s : State) (core : Nat) (stream : Option Nat) (q : EngQueue) (cellOf : EngOp → Word) : State :=
  match (s.core core).queue with
  | [] => s
  | o :: _ =>
    if !o.started || o.held || s.engFrozen q || ((s.slot o.who).halted && s.holds o.who o.party) then s
    else if o.abandoned then s.endOp core q o (cellOf o)
    else
      let (s1, e) : State × Option (Nat × Word) :=
        if s.part = 0 then State.moveAll core o.id stream (4 * o.perRow * (o.rows - o.done)) (4 * o.perRow * o.done) s
        else
          let m := (s.part - 1) / 2
          if !s.partDue o m then (s, none) else s.tryPiece core o stream m (stream.isNone && s.part % 2 = 0)
      match e with
      | none =>
        (match (s1.core core).queue.find? fun x => x.id == o.id with
          | some x => if s1.copyOver x then s1.endOp core q x (cellOf o) else s1
          | none => s1)
      | some (c, v) =>
        let s2 : State := s1.forgetAnswer o.id
        if s2.holdsOp o c then (s2.mapQueue q fun l => l.map fun x => if x.id = o.id then x.hold else x).opFault o c v true
        else (s2.opFault o c v).endOp core q o (cellOf o)

/-- COPY_COMPLETE (R305) (DESIGN CHOICE, log 19). -/
def execCopyComplete (core : Nat) (s : State) : Out1 :=
  .next (if coreKind core = .compute then s.runCopy core none (.copy core) (fun o => wd (fld (o.cell 6) 56 4 * 16)) else s)

/-- A group that may be moved now, the first of those from `m` on. -/
def State.firstDue (s : State) (o : EngOp) : Nat → Nat → Option Nat
  | 0, _ => none
  | n + 1, m => if s.partDue o m then some m else State.firstDue s o n (m + 1)

/-- The request to host space that the group which a started copy operation moves next makes first: the address, and where it is a read that of the group's
destination, with the group (R371). -/
structure HostPiece where
  core : Nat
  op : EngOp
  va : Word
  dst : Option Nat
  group : Nat
  deriving DecidableEq, Repr

/-- The started copy operation of an id whose next group reaches host space. -/
def State.hostPiece (s : State) (id : Nat) : Option HostPiece :=
  s.cores.findSome? fun c => match c.2.queue with
    | [] => none
    | o :: _ =>
      if coreKind c.1 ≠ .compute || o.id != id || !o.started || o.held || o.abandoned || c.2.freeze then none
      else match s.firstDue o (4 * o.perRow * (o.rows - o.done)) (4 * o.perRow * o.done) with
        | none => none
        | some m => match s.pieceKeys c.1 o none (m / 4) with
          | .ok (sk, dk, _) =>
            if s.place sk = .host then some ⟨c.1, o, o.pieceSrc (m / 4) + wd (8 * (m % 4)), some (dk + 8 * (m % 4)), m⟩
            else if s.place dk = .host then some ⟨c.1, o, o.pieceDst (m / 4) + wd (8 * (m % 4)), none, m⟩
            else none
          | .error _ => none

/-- A copy whose request to host space failed: 0x17 goes to its engine, and the operation is abandoned (R371, R373, R374). -/
def State.hostFailed (s : State) (core : Nat) (o : EngOp) (va : Word) : State :=
  (s.opFault o 0x17 va).endOp core (.copy core) o (wd (fld (o.cell 6) 56 4 * 16))

/-- A read of host space that failed for a copy writes all ones into its destination (R371). -/
def State.hostOnes (s : State) (p : HostPiece) : State :=
  match p.dst with
  | none => s
  | some k => match s.landPiece p.core (engPartyId (.copy p.core)) p.op k (List.replicate 8 0xFF#8) [] [p.group] [] with
    | (some t, _) => t
    | (none, _) => s.writeNow (engPartyId (.copy p.core)) p.op.ten k (List.replicate 8 0xFF#8) []

/-- STREAM_COMPLETE (R52, R53). -/
def execStreamComplete (core : Nat) (s : State) : Out1 :=
  .next (if coreKind core = .memory then s.runCopy core (some (coreNum core)) (.stream core) (fun o => o.cell 6) else s)

/-! ## The TASK engine (R306) -/

/-- Reads the next handle of a bulk TASK operation and sends its TASKQ, which releases what the start acquired (R306). -/
def State.nextTaskq (s : State) (cl : Nat) (o : EngOp) : Except Stop State :=
  let q : EngQueue := .task cl
  let p := engPartyId q
  let va := wd (fld (o.eps.get 0#64 0) 56 3 * 8 + 8 * o.done)
  match s.checked o.id cl o.ten o.level .load va (s.checkUnit o.id cl o.ten o.level .load true va 8) with
  | .error e => .error e
  | .ok k0 =>
    if !(inScr k0 || s.place k0 = .stack) || s.goneAt 4096 k0 then .error (.fault 6 va)
    else
      let (k, s0) := s.redirect 4096 k0
      match s0.readAt p o.ten k 8 (s0.turnView k 8) with
      | .held s' => .error (.held k s')
      | .dead g => .error (.fault 9 (wd g))
      | .val _ (some g) _ _ => .error (.fault 0x14 (wd g))
      | .val bs none rels s1 =>
        .ok (((s1.pending p rels).sendOwn (unitKey cl 0) p o.ten o.queue (.taskq (wd (leNat bs))) o.rel).mapQueue q fun l =>
          l.map fun x => if x.id = o.id then { x with done := o.done + 1 } else x)

/-- Sends TASKQs in list order as far as they go: the machine, and the fault that stopped it. -/
def State.bulkTaskq (cl : Nat) : Nat → State → State × Option (Nat × Word)
  | 0, s => (s, none)
  | n + 1, s =>
    match (s.cluster cl).tqueue with
    | [] => (s, none)
    | o :: _ =>
      if fld (o.eps.get 0#64 1) 16 0 ≤ o.done then (s, none)
      else match s.nextTaskq cl o with
        | .ok t => State.bulkTaskq cl n t
        | .error (.held k t) => (t.holdUnit (.task cl) 1 k, none)
        | .error (.walk t) => (t, none)
        | .error (.fault c v) => (s, some (c, v))

/-- Is a TASKQ of a cluster's TASK engine still under way? -/
def State.taskqUnderWay (s : State) (cl : Nat) : Bool :=
  s.flights.any fun f => f.who.core == unitKey cl 0 && (match f.act with | .taskq _ => true | _ => false)

/-- Runs the operation at the head of a cluster's TASK queue: it goes on, by one handle when the turn names a part; after its last TASKQ has been performed it
completes (R306). -/
def State.runTasks (s : State) (cluster : Nat) : State :=
  let q : EngQueue := .task cluster
  match (s.cluster cluster).tqueue with
  | [] => s
  | o :: _ =>
    let cell := wd (fld (o.cell 2) 56 4 * 16)
    let core := unitKey cluster 0
    if !o.started || o.held || s.engFrozen q then s
    else if o.abandoned then s.endOp core q o cell
    else
      let (s1, e) := State.bulkTaskq cluster (if s.part = 0 then 65536 else 1) s
      match e with
      | none =>
        (match (s1.cluster cluster).tqueue with
          | x :: _ => if x.done == fld (o.eps.get 0#64 1) 16 0 && !s1.taskqUnderWay cluster then s1.endOp core q x cell else s1
          | [] => s1)
      | some (c, v) =>
        let s2 : State := s1.forgetAnswer o.id
        if s2.holdsOp o c then (s2.mapQueue q fun l => l.map fun x => if x.id = o.id then { x with held := true } else x).opFault o c v true
        else (s2.opFault o c v).endOp core q o cell

/-- TASK_ENGINE_COMPLETE (R306). -/
def execTaskEngineComplete (cluster : Nat) (s : State) : Out1 := .next (s.runTasks cluster)

end Sys2Proof.Machine
end

