-- ==== Sys2Proof/Machine/Fold.lean ====
section
/-! DEFINITION. The fold store (R95 to R113, R298 to R300, R381 to R385): posts, offers, claims, the overflow log, commits, quiescence. -/

namespace Sys2Proof.Machine

open Host

/-! ## Values and weights (R100 to R102) -/

/-- FoldAddF (R101): the accumulator, NaN, and whether it has saturated now. -/
def foldAddF (acc : BitVec 128) (nan : Bool) (x : Nat) : BitVec 128 × Bool × Bool :=
  if nan then (acc, true, false)
  else
    let add (q : Int) : BitVec 128 × Bool × Bool :=
      let t := acc.toInt + q
      let lim : Int := (2 ^ 127 : Nat)
      if lim ≤ t then (BitVec.ofInt 128 (lim - 1), false, true)
      else if t ≤ -lim then (BitVec.ofInt 128 (-(lim - 1)), false, true)
      else (BitVec.ofInt 128 t, false, false)
    match fp32.val x with
    | .nan _ _ _ => (acc, true, false)
    | .inf s => add (if s then -(2 ^ 127 : Nat) else (2 ^ 127 : Nat))
    | .fin s m e =>
      let q : Nat := if 0 ≤ e + 96 then m * 2 ^ (e + 96).toNat else m / 2 ^ (-(e + 96)).toNat
      add (if s then -(q : Int) else q)

/-- Folds x into a value under an operator (R100); `fresh` marks the first post, whose entry takes x. -/
def foldVal (op : Nat) (fresh : Bool) (v : BitVec 128) (nan : Bool) (x : Word) : BitVec 128 × Bool × Bool :=
  let lo := v.toNat % 2 ^ 64
  let sv : Nat → Int := fun y => (IFmt.mk 64 true).val y
  match op with
  | 0 => foldAddF (if fresh then 0#128 else v) (!fresh && nan) (x.toNat % 2 ^ 32)
  | 1 => (BitVec.ofNat 128 (if fresh then x.toNat else (lo + x.toNat) % 2 ^ 64), false, false)
  | 2 => (BitVec.ofNat 128 (if fresh || sv x.toNat < sv lo then x.toNat else lo), false, false)
  | 3 => (BitVec.ofNat 128 (if fresh || sv lo < sv x.toNat then x.toNat else lo), false, false)
  | 6 => (BitVec.ofNat 128 (if fresh then x.toNat else lo ||| x.toNat), false, false)
  | _ =>
    let y := x.toNat % 2 ^ 32
    if fresh then (BitVec.ofNat 128 y, (fp32.val y).isNan, false)
    else if nan || (fp32.val y).isNan then (v, true, false)
    else (BitVec.ofNat 128 (fMinMax fp32 (op == 5) (lo % 2 ^ 32) y).1, false, false)

/-- The value that a handler receives (R100). -/
def delivered (op : Nat) (v : BitVec 128) (nan : Bool) : Word :=
  if nan then 0x7FC00000#64
  else match op with
    | 0 => wd (roundTo fp32 .rne false (decide (v.toInt < 0)) v.toInt.natAbs (-96)).1
    | 4 => wd (v.toNat % 2 ^ 32)
    | 5 => wd (v.toNat % 2 ^ 32)
    | _ => wd (v.toNat % 2 ^ 64)

/-- Is the operator one of floats? -/
def isFloatOp (op : Nat) : Bool := op == 0 || op == 4 || op == 5

/-- A weight above every finite one. -/
def weightInf : Nat := 2 ^ 600

/-- The weight of a signed magnitude under WFN (R102). -/
def signedWeight (wfn : Nat) (neg : Bool) (mag : Nat) : Nat :=
  match wfn with
  | 1 => if neg then mag else 0
  | 2 => if neg then 0 else mag
  | _ => mag

/-- The weight of an entry (R102), of float operators in units of 2^-149. -/
def FEntry.weight (e : FEntry) (op wfn : Nat) : Nat :=
  if e.nan then weightInf
  else
    let lo := e.val.toNat % 2 ^ 64
    match op with
    | 0 => signedWeight wfn (decide (e.val.toInt < 0)) (e.val.toInt.natAbs * 2 ^ 53)
    | 6 => (List.range 64).countP fun i => bitOf lo i
    | 4 => (match fp32.val (lo % 2 ^ 32) with
      | .fin s m x => signedWeight wfn s (m * 2 ^ (x + 149).toNat)
      | .inf s => signedWeight wfn s weightInf
      | _ => weightInf)
    | 5 => (match fp32.val (lo % 2 ^ 32) with
      | .fin s m x => signedWeight wfn s (m * 2 ^ (x + 149).toNat)
      | .inf s => signedWeight wfn s weightInf
      | _ => weightInf)
    | _ =>
      let v := (IFmt.mk 64 true).val lo
      signedWeight wfn (decide (v < 0)) v.natAbs

/-- OP, WFN and the other fields of DCTL (R97). -/
def FDomain.op (d : FDomain) : Nat := fld d.dctl 19 17
/-- WFN. -/
def FDomain.wfn (d : FDomain) : Nat := fld d.dctl 21 20
/-- BOUND. -/
def FDomain.bound (d : FDomain) : Bool := bit d.dctl 25
/-- EXCL. -/
def FDomain.excl (d : FDomain) : Bool := bit d.dctl 24
/-- QUEUE. -/
def FDomain.queue (d : FDomain) : Nat := fld d.dctl 10 1
/-- LOGSZ. -/
def FDomain.logsz (d : FDomain) : Nat := fld d.log 4 0
/-- Records that a log segment holds (R109). -/
def FDomain.logCap (d : FDomain) : Nat := 2 ^ d.logsz - 4

/-- Is an entry with a value eligible (R102)? Held or not, its weight says so. -/
def FDomain.eligible (d : FDomain) (e : FEntry) : Bool :=
  let t := fld d.dctl 63 32
  e.st != .claimed &&
    (if isFloatOp d.op then
      match fp32.val t with
      | .nan _ _ _ => false
      | .inf s => s || e.nan
      | .fin s m x => s || decide (m * 2 ^ (x + 149).toNat * 2 ^ d.shift ≤ e.weight d.op d.wfn)
    else decide (t * 2 ^ d.shift ≤ e.weight d.op d.wfn))

/-- May an entry be offered: it is eligible and not held (R103)? -/
def FDomain.offerable (d : FDomain) (e : FEntry) : Bool := e.st == .waiting && d.eligible e

/-! ## Placement (R95, R203) -/

/-- The clusters of a tenant's partition, in ascending order. -/
def State.partition (s : State) (ten : Nat) : List Nat := (List.range s.nclusters).filter fun c => s.inPartition ten c

/-- A domain as a cluster's fold store holds it. -/
def Cluster.dom (c : Cluster) (dk : Nat) : FDomain := c.doms.get {} dk
/-- Changes a domain. -/
def Cluster.modDom (c : Cluster) (dk : Nat) (f : FDomain → FDomain) : Cluster := { c with doms := c.doms.put dk (f (c.dom dk)) }

/-- The home cluster and the bank of a key (R95). -/
def State.foldHome (s : State) (ten dk : Nat) (key : Word) : Nat × Nat :=
  let ps := s.partition ten
  let p := Nat.max 1 ps.length
  if bit ((s.cluster (ps.getD 0 0)).dom dk).dctl 11 then (ps.getD 0 0, key.toNat % 16)
  else (ps.getD (key.toNat % p) 0, key.toNat / p % 16)

/-- The entry of a key in a fold store. -/
def Cluster.fentry (c : Cluster) (dk : Nat) (key : Word) : Option FEntry := c.folds.find? fun e => e.dom == dk && e.key == key

/-- A free place in a bank of 2,048 entries (R96), which names none: the model takes the lowest (DESIGN CHOICE, log 117). -/
def Cluster.freeIndex (c : Cluster) (bank : Nat) : Option Nat :=
  let used := (c.folds.filter fun e => e.bank == bank).map (·.index)
  (List.range (Nat.min 2048 (used.length + 1))).find? fun i => !used.contains i

/-- Replaces the entry of a key. -/
def Cluster.setEntry (c : Cluster) (dk : Nat) (key : Word) (f : FEntry → FEntry) : Cluster :=
  { c with folds := c.folds.map fun e => if e.dom = dk ∧ e.key = key then f e else e }

/-- Has a fold store a claim to make at the claim stage of this bank cycle (R103)? Its fold stage comes after (R89). -/
def State.claimDue (s : State) (cluster : Nat) : Bool :=
  (s.cluster cluster).doms.any fun d => d.2.taken.isSome && decide (d.2.takenAt < s.cycle)

/-- May a fold store perform posts now: the claims of this bank cycle are made (R89), what its logs gave back stands before them (R110), and the fold stage
is not over (R103)? -/
def State.foldOpen (s : State) (cluster : Nat) : Bool :=
  !s.claimDue cluster && (s.cluster cluster).refills.isEmpty && (s.cluster cluster).folded != some s.cycle

/-- A report that goes to the monitor alone (R382, R424) (DEDUCED, log 71). -/
def State.monitorReport (s : State) (r : Report) : State := { s with reports := s.reports ++ [{ r with cycle := wd s.cycle }] }

/-- Is the tenant out of its slice on a cluster (R154)? -/
def State.outOfSlice (s : State) (ten cluster : Nat) : Bool := !s.inSlice ten (16 * cluster)

/-- A poisoned entry (R384): it is lost, and the domain stops claiming in every fold store. -/
def State.poisonedEntry (s : State) (ten dk cluster : Nat) (e : FEntry) : State :=
  let q := ((s.cluster cluster).dom dk).queue
  let s1 : State := s.modCluster cluster fun c => { c with folds := c.folds.filter fun g => !(g.dom == dk && g.key == e.key) }
  let s2 : State := (s1.partition ten).foldl (fun t k => t.modCluster k fun c => c.modDom dk fun d =>
    { d with dctl := setFld d.dctl 25 25 0, failed := true }) s1
  s2.report { ten := ten, cause := reportCause 0x14, tval := e.key, queue := q, tpc := wd (chipAddr cluster 31 1 (e.bank * 0x10000 + e.index * 0x20)) }

/-- Segment address of a home cluster's log (R109) (DEDUCED, log 73). -/
def State.logSegment (s : State) (ten cluster : Nat) (d : FDomain) : Nat :=
  fld d.log 56 12 * 0x1000 + (s.partition ten).idxOf cluster * 2 ^ (d.logsz + 4)

/-- Notes sticky flags of a domain and of the digest report (R101, R111, R208). -/
def State.foldFlags (s : State) (ten cluster dk : Nat) (ovr nan : Bool) : State :=
  let s1 : State := s.modCluster cluster fun c => c.modDom dk fun d => { d with ovr := d.ovr || ovr, nane := d.nane || nan }
  let s2 : State := if ovr then s1.noteFlag ten 1 else s1
  if nan then s2.noteFlag ten 2 else s2

/-- Puts a post into the bank of its key (R100, R105), when it may enter. -/
def State.foldInto (s : State) (ten cluster dk bank : Nat) (key x : Word) (rel : List Nat) (logged : Bool) : Option State :=
  let c := s.cluster cluster
  let d := c.dom dk
  let since (e : FEntry) (was : Bool) : FEntry := if !was && d.eligible e then { e with since := s.cycle } else e
  match c.fentry dk key with
  | some e =>
    let fresh := e.st == .claimed
    let (v, nan, ovr) := foldVal d.op fresh e.val e.nan x
    let was := d.eligible e
    let e' : FEntry := { e with
      val := v, nan := nan
      ovr := (!fresh && e.ovr) || ovr
      logged := (!fresh && e.logged) || logged
      posts := if fresh then 1 else Nat.min (2 ^ 32 - 1) (e.posts + 1)
      st := if e.st = .waiting then .waiting else .heldWaiting
      rel := if fresh then rel else unionIds e.rel rel }
    some ((s.modCluster cluster fun c => c.setEntry dk key fun _ => since e' was).foldFlags ten cluster dk ovr nan)
  | none =>
    (c.freeIndex bank).map fun i =>
      let (v, nan, ovr) := foldVal d.op true 0#128 false x
      let e : FEntry := { bank := bank, index := i, key := key, dom := dk, val := v, nan := nan, ovr := ovr, logged := logged, posts := 1
                          rel := rel }
      (s.modCluster cluster fun c => { c with folds := c.folds ++ [since e false] }).foldFlags ten cluster dk ovr nan

/-- Appends a post to the overflow log of its home fold store (R108, R109, R382): the status. -/
def State.logAppend (s : State) (ten cluster dk : Nat) (key x : Word) (rel : List Nat) : Nat × State :=
  let d := (s.cluster cluster).dom dk
  if d.logsz = 0 || d.logCap ≤ d.tail - d.head then (2, s)
  else
    let va := wd (s.logSegment ten cluster d + 64 + 16 * (d.tail % d.logCap))
    match s.deviceWrite (engPartyId (.fold cluster)) cluster ten .s va (leBytes 8 key.toNat ++ leBytes 8 x.toNat) [] with
    | (some (c, _), _) => (2, s.monitorReport { ten := ten, cause := wd c, tval := va, queue := d.queue })
    | (none, s1) => (1, s1.modCluster cluster fun c => c.modDom dk fun d => { d with tail := d.tail + 1, logRel := d.logRel ++ [rel] })

/-- Performs a post (R89, R108): the status and the machine. -/
def State.foldPost (s : State) (ten dom : Nat) (key x : Word) (rel : List Nat) : Nat × State :=
  let dk := ten * 16 + dom
  let (cluster, bank) := s.foldHome ten dk key
  let mark (t : State) : State := t.modCluster cluster fun c => c.modDom dk fun d => { d with posted := true }
  if s.outOfSlice ten cluster then
    let (st, s1) := s.logAppend ten cluster dk key x rel
    (st, if st = 2 then s1 else mark s1)
  else match (s.cluster cluster).fentry dk key with
    | some e =>
      if e.poison then (2, s.poisonedEntry ten dk cluster e)
      else match s.foldInto ten cluster dk bank key x rel false with
        | some s1 => (0, mark s1)
        | none => (2, s)
    | none =>
      match s.foldInto ten cluster dk bank key x rel false with
      | some s1 => (0, mark s1)
      | none =>
        let (st, s1) := s.logAppend ten cluster dk key x rel
        (st, if st = 2 then s1 else mark s1)

/-! ## POST, FREL, FDSTAT -/

/-- The launch of the strand in a slot. -/
def Slot.launchId (x : Slot) : Option Nat :=
  match x.origin with
  | .launch id _ => some id
  | _ => none

/-- Notes that a strand of a launch has posted to a domain; while m > 1 the launch is approximate (R113). -/
def State.postedBy (s : State) (home dk id : Nat) : State :=
  let s1 : State := s.modCluster home fun c => c.modDom dk fun d => { d with launches := if d.launches.contains id then d.launches else d.launches ++ [id] }
  if 0 < ((s.cluster home).dom dk).shift then { s1 with launches := s1.launches.map fun l => if l.id = id then { l with approx := true } else l } else s1

/-- POST (R298). -/
def execPost (d a b : Reg) (wa wb : Bool) (m : BitVec 4) (s : State) : Out1 :=
  .next (s.needs true 0x1B fun s => s.issue [(a, wa), (b, wb)] [d] fun s =>
    let x : Slot := s.sl
    if (s.tenant x.ten).fold = 0#64 then s.trap 6 0#64
    else if !s.quietFor (.post .none m.toNat (x.rd a) (x.rd b) none 0) then s
    else
      let key := x.rd a
      let dk := x.ten * 16 + m.toNat
      let home := (s.foldHome x.ten dk key).1
      let s1 : State := match x.launchId with
        | some id => s.postedBy home dk id
        | none => s
      (s1.released x.party).produce d (.post (if d = 0#5 then .none else .reg d) m.toNat key (x.rd b) none home) (s.relSet x.party))

/-- FREL (R299): a release event, after every earlier entry of the strand (R82, R85). -/
def execFrel (s : State) : Out1 :=
  .next (s.needs true 0x1B fun s =>
    let x : Slot := s.sl
    match x.origin with
    | .fold cl dk key true =>
      if !s.quiet then s
      else ((s.released x.party).foldRetire cl dk key true (s.relSet x.party) false).done fun y => { y with origin := .fold cl dk key false }
    | _ => s.done id)

/-- Is a domain quiescent (R111)? -/
def State.quiescent (s : State) (ten dom : Nat) : Bool :=
  let dk := ten * 16 + dom
  ((s.partition ten).all fun k =>
    let c := s.cluster k
    let d := c.dom dk
    d.hrun == 0 && d.head == d.tail && !(c.refills.any fun r => r.dom == dk) &&
      (c.folds.all fun e => e.dom != dk || (e.st == .waiting && !d.eligible e)) &&
      (c.saved.all fun v => v.folds.all fun e => e.dom != dk || (e.st == .waiting && !d.eligible e))) &&
  s.flights.all fun f => !(f.ten == ten && (match f.act with
    | .post _ m _ _ _ _ => m == dom
    | .send ws => fld (wordAt ws 0) 56 0 == 0x30 && fld (wordAt ws 1) 63 52 == s.dev && fld (wordAt ws 2) 3 0 == dom
    | _ => false))

/-- The status of a domain for a fold store (R112): flags and multiplier are the domain's, the counts those of the store. -/
def State.fdstat (s : State) (ten dom cluster : Nat) : Word :=
  let dk := ten * 16 + dom
  let ds := (s.partition ten).map fun k => (s.cluster k).dom dk
  let d := (s.cluster cluster).dom dk
  let m := (s.cluster ((s.partition ten).getD 0 0)).dom dk
  let waitn := ((s.cluster cluster).folds.filter fun e => e.dom == dk).length
  wd (b01 (ds.any FDomain.bound) * 2 ^ 63 + b01 (ds.any (·.ovr)) * 2 ^ 62 + b01 (ds.any (·.approx)) * 2 ^ 61 + b01 (ds.any (·.nane)) * 2 ^ 60
    + b01 (s.quiescent ten dom) * 2 ^ 59 + m.shift % 8 * 2 ^ 56 + d.hrun % 256 * 2 ^ 48 + (d.tail - d.head) % 2 ^ 24 * 2 ^ 24 + waitn % 2 ^ 16)

/-- FDSTAT (R300, R363). -/
def execFdstat (d : Reg) (m : BitVec 4) (s : State) : Out1 :=
  .next (s.needs true 0x1B fun s => s.issue [] [d] fun s =>
    if (s.tenant s.sl.ten).fold = 0#64 then s.trap 6 0#64
    else s.produce d (landReg d (s.fdstat s.sl.ten m.toNat (s.clusterOf s.cur.core))))

/-- FOLD_POST (R105, R381): a post is performed at the fold stage of its bank. -/
def execFoldPost (id : Nat) (s : State) : Out1 :=
  .next (match s.flight? id with
    | some f =>
      match f.act with
      | .post d m key x _ _ =>
        if !s.performable f || !s.foldOpen (s.foldHome f.ten (f.ten * 16 + m) key).1 then s
        else
          let (st, s1) := s.foldPost f.ten m key x f.rel
          let s2 : State := s1.finish f (wd st)
          if st = 2 && d == .none then s2.flightFault f 0x0B key else s2
      | _ => s
    | none => s)

/-! ## Offers and claims (R103, R104) -/

/-- The better of two entries: the greater weight, then the lower key. -/
def FDomain.better (d : FDomain) (a b : FEntry) : FEntry :=
  let wa := a.weight d.op d.wfn
  let wb := b.weight d.op d.wfn
  if wa < wb || (wa = wb && b.key < a.key) then b else a

/-- The best of a list of entries. -/
def FDomain.best (d : FDomain) : List FEntry → Option FEntry
  | [] => none
  | e :: es =>
    match d.best es with
    | none => some e
    | some f => some (d.better e f)

/-- The entry that a domain offers, and its LFSR after the draws (R104). -/
def FDomain.pick (d : FDomain) (es : List FEntry) : Option FEntry × BitVec 32 :=
  if !bit d.dctl 22 then (d.best es, d.lfsr)
  else
    let b1 := d.lfsr.toNat % 16
    let l1 := lfsrStep d.lfsr
    let b2 := l1.toNat % 16
    let l2 := lfsrStep l1
    let b2 := if b2 = b1 then (b1 + 1) % 16 else b2
    let two := es.filter fun e => e.bank == b1 || e.bank == b2
    (d.best (if two.isEmpty then es else two), l2)

/-- May the domain claim at all: BOUND, and fewer handlers than HMAX (R103)? -/
def FDomain.mayClaim (d : FDomain) : Bool :=
  d.bound && (fld d.dctl 16 12 == 0 || decide (d.hrun < fld d.dctl 16 12))

/-- The offer of a domain in this bank cycle, with its draw (R103, R104), which it makes whenever it may claim and has an entry to offer. `dk` is 16 ×
tenant + domain. -/
def State.makeOffer (s : State) (cluster dk : Nat) : State :=
  let c := s.cluster cluster
  let d := c.dom dk
  let es := c.folds.filter fun e => e.dom == dk && d.offerable e
  if !d.mayClaim || es.isEmpty || s.clusterFrozen cluster || s.outOfSlice (dk / 16) cluster then s
  else match d.pick es with
    | (some e, l) => s.modCluster cluster fun c => c.modDom dk fun d => { d with lfsr := l, offer := some (e.key, e.since), offered := some s.cycle }
    | (none, _) => s

/-- The offers of a fold store in this bank cycle (R103), in ascending domain number. They come once, after the posts, and end the fold stage. -/
def State.makeOffers (s : State) (cluster : Nat) : State :=
  let c := s.cluster cluster
  if c.folded = some s.cycle || c.doms.isEmpty then s
  else (c.doms.map (·.1)).eraseDups.foldl (fun t dk => t.makeOffer cluster dk) (s.modCluster cluster fun c => { c with folded := some s.cycle })

/-- FOLD_OFFER (R103, R104): the offers of the bank cycle, that of the domain `dom` (16 × tenant + domain) among them. -/
def execFoldOffer (cluster dom : Nat) (s : State) : Out1 :=
  .next (if s.claimDue cluster || !((s.cluster cluster).doms.any fun d => d.1 == dom) then s else s.makeOffers cluster)

/-- RUN_LIST_POP (R158, R192): one pop in a cycle, by the lowest-numbered core of the cluster that can take something. It takes
among the offers of this bank cycle, which end its fold stage (R103). -/
def execRunListPop (cluster : Nat) (s : State) : Out1 :=
  let o : State := s.makeOffers cluster
  let cores := (List.range 16).map (16 * cluster + ·)
  let s0 : State := cores.foldl (fun t c => if (t.nextSpilled c).isSome then t.refill c 32 else t) (o.refreshTasks cluster)
  .next
    (if (s.cluster cluster).popped = some s.cycle then s
    else match cores.find? fun c => s0.coreOpen c && (s0.pickFor c).1.isSome with
      | none => s0
      | some core =>
        match (s0.pickFor core).1 with
        | none => s0
        | some q =>
          match s0.startWait q core with
          | some s' => s'
          | none =>
            let s1 : State := s0.modCluster cluster fun c =>
              { c with lfsr := (s0.pickFor core).2, seeded := true, popped := some s.cycle, steal := { c.steal with idleSince := none } }
            s1.takePick core q)

/-- The claim of a taken offer (R103, R105, R107), when it can still be made: the core is not stopped (R174), and the tenant is in its slice (R152) (DEDUCED,
log 91). The entry of an EXCL key that is CLAIMED reads 0 in FOLDS but for its key, domain and state (DESIGN CHOICE, log 117). -/
def State.makeClaim (s : State) (cluster dk : Nat) (d : FDomain) (key : Word) (core slot : Nat) : State :=
  let s1 : State := s.modCluster cluster fun c => c.modDom dk fun d => { d with taken := none }
  let ten := dk / 16
  match (s.cluster cluster).fentry dk key with
  | none => s1
  | some e =>
    if e.poison then s1.poisonedEntry ten dk cluster e
    else if !d.mayClaim || !d.offerable e || s.clusterFrozen cluster || !s.coreOpen core || !s.inSlice ten core ||
        ((s.core core).slot slot).occ != Occ.free then s1
    else
      let approx := decide (0 < d.shift)
      let s2 : State := s1.modCluster cluster fun c =>
        ({ c with folds := if d.excl then c.folds.map fun g => if g.dom = dk ∧ g.key = key then
                              { g with st := .claimed, val := 0#128, nan := false, ovr := false, logged := false, posts := 0, rel := [] } else g
                           else c.folds.filter fun g => !(g.dom == dk && g.key == key) } : Cluster).modDom dk fun d =>
          { d with seq := d.seq + 1, claims := d.claims + 1, hrun := d.hrun + 1, approx := d.approx || approx }
      let flags := wd (e.posts * 2 ^ 32 + b01 e.logged * 8 + b01 approx * 4 + b01 e.nan * 2 + b01 e.ovr)
      s2.startStrand ⟨core, slot⟩
        { pc := wd (fld d.hpc 56 2 * 4), ten := ten
          regs := [key, delivered d.op e.val e.nan, wd (dk % 16), wd (d.seq + 1), flags, 0#64]
          workid := key, st := wd (fld d.dctl 31 26 * 2 ^ 58 + d.queue * 2 ^ 48), origin := .fold cluster dk key d.excl
          rel := [(3, unionIds e.rel (if d.excl then d.keyRel.get [] key.toNat else []))] }

/-- The claim stage of a bank cycle (R103): an offer taken in an earlier one is claimed. -/
def State.claimStage (s : State) (cluster : Nat) : State :=
  match (s.cluster cluster).doms.find? fun x => x.2.taken.isSome && decide (x.2.takenAt < s.cycle) with
  | none => s
  | some (dk, d) =>
    match d.taken with
    | none => s
    | some (key, core, slot) => s.makeClaim cluster dk d key core slot

/-- FOLD_CLAIM (R103). -/
def execFoldClaim (cluster : Nat) (s : State) : Out1 := .next (s.claimStage cluster)

/-! ## The log, commits, completion -/

/-- Has a bank of a fold store room for a key, or an entry of it, counting what the logs have already given back in this cycle (R110)? -/
def Cluster.roomFor (c : Cluster) (dk bank : Nat) (key : Word) : Bool :=
  (c.fentry dk key).isSome ||
    decide ((c.folds.countP fun e => e.bank == bank) + (c.refills.countP fun r => r.bank == bank) < 2048)

/-- The end of a bank cycle for one domain (R110, R382): the head record leaves its log for the next fold stage, if its key has an entry or its bank
room. A record that cannot be read waits; a poisoned one is lost. -/
def State.endLog (s : State) (cluster dk : Nat) : State :=
  let ten := dk / 16
  let c := s.cluster cluster
  let d := c.dom dk
  if d.head = d.tail || s.outOfSlice ten cluster then s
  else
    let va := wd (s.logSegment ten cluster d + 64 + 16 * (d.head % d.logCap))
    match s.checkNow cluster ten .s .load false va 16 with
    | .ok k =>
      let pop (t : State) : State := t.modCluster cluster fun c => c.modDom dk fun d => { d with head := d.head + 1, logRel := d.logRel.tail }
      (match (s.installNow cluster ten .s va).readDev ten k 16 with
        | none => s
        | some (bs, _, s1) =>
          let key := wordAt (leWords bs 2) 0
          if (s.poisoned ten k 16).isSome then
            let s2 : State := pop s1
            let s3 : State := (s2.partition ten).foldl (fun t k => t.modCluster k fun c => c.modDom dk fun d =>
              { d with dctl := setFld d.dctl 25 25 0, failed := true }) s2
            s3.report { ten := ten, cause := reportCause 0x14, tval := key, queue := d.queue }
          else
            let p := Nat.max 1 (s.partition ten).length
            let bank := if bit d.dctl 11 then key.toNat % 16 else key.toNat / p % 16
            if (s1.cluster cluster).roomFor dk bank key then
              (pop s1).modCluster cluster fun c =>
                { c with refills := c.refills ++ [⟨dk, bank, key, wordAt (leWords bs 2) 1, d.logRel.headD []⟩] }
            else s)
    | _ => s

/-- The end of a bank cycle of a fold store: its domains in ascending number (R110). -/
def State.endLogs (s : State) (cluster : Nat) : State := (s.cluster cluster).doms.foldl (fun t d => t.endLog cluster d.1) s

/-- A record that a log gave back is posted into its bank with the LOGGED flag (R110). -/
def State.postRefill (s : State) (cluster : Nat) (r : Refill) : State :=
  let fold : State := (s.foldInto (r.dom / 16) cluster r.dom r.bank r.key r.val r.rel true).getD s
  match (s.cluster cluster).fentry r.dom r.key with
  | some e => if e.poison then s.poisonedEntry (r.dom / 16) r.dom cluster e else fold
  | none => fold

/-- LOG_REFILL (R110): the record that a domain's log gave back is posted at the fold stage that follows; lower domains come first.
`dk` is 16 × tenant + domain. -/
def execLogRefill (cluster dk : Nat) (s : State) : Out1 :=
  .next (match (s.cluster cluster).refills with
    | r :: rs =>
      if r.dom ≠ dk || s.claimDue cluster then s
      else (s.modCluster cluster fun c => { c with refills := rs }).postRefill cluster r
    | [] => s)

/-- The start of a bank cycle of a fold store: its claim, and what its logs gave back (R103, R110). -/
def State.bankStart (s : State) (cluster : Nat) : State :=
  let s1 : State := s.claimStage cluster
  (s1.cluster cluster).refills.foldl (fun t r => t.postRefill cluster r) (s1.modCluster cluster fun c => { c with refills := [] })

/-- The commit of a domain's registers in one fold store (R98, R385). -/
def State.commitDomain (s : State) (cluster dk : Nat) (g : Nat → Word) : State :=
  s.modCluster cluster fun c =>
    let old := c.dom dk
    let d : FDomain := { old with
      dctl := g 0, hpc := g 1, log := g 2, compl := g 3, ovr := false, approx := false, nane := false, claims := 0, seq := 0
      lfsr := 0x9E3779B9#32 ^^^ BitVec.ofNat 32 (cluster * 256) ^^^ BitVec.ofNat 32 (dk % 16)
      posted := false, fired := 0, offer := none, offered := old.offered, shift := if bit (g 0) 23 then old.shift else 0
      failed := old.failed && !bit (g 0) 25 }
    let change := old.op != d.op
    let d' : FDomain := if change then { d with head := 0, tail := 0, logRel := [] } else d
    let refills := if change then c.refills.filter fun r => r.dom != dk else c.refills
    let saved := if change then c.saved.map fun v => ({ v with folds := v.folds.filter fun e => e.dom != dk } : Slice) else c.saved
    let folds := if change then c.folds.filter fun e => e.dom != dk
      else c.folds.map fun e => if e.dom = dk ∧ d.eligible e ∧ !old.eligible e then { e with since := s.cycle } else e
    ({ c with folds := folds, saved := saved, refills := refills } : Cluster).modDom dk fun _ => d'

/-- Does a domain hold entries, logged records or running handlers anywhere (R98)? -/
def State.domainBusy (s : State) (ten dk : Nat) : Bool :=
  (s.partition ten).any fun k =>
    let c := s.cluster k
    let d := c.dom dk
    d.hrun != 0 || d.head != d.tail || (c.refills.any fun r => r.dom == dk) || (c.folds.any fun e => e.dom == dk) ||
      c.saved.any fun v => v.folds.any fun e => e.dom == dk

/-- The cluster whose started commit a fold store has still to take, and the operation (R98). -/
def State.commitDue (s : State) (cluster : Nat) : Option (Nat × EngOp) :=
  s.clusters.findSome? fun k => match k.2.fqueue with
    | o :: _ => if o.started && (s.partition o.ten).contains cluster && !bitOf o.done cluster then some (k.1, o) else none
    | [] => none

/-- FOLD_COMMIT_TAKE (R98, R385): the fold store of a cluster takes a committed domain; the EGO completes when the last has. -/
def execFoldCommitTake (cluster : Nat) (s : State) : Out1 :=
  .next (match s.commitDue cluster with
    | none => s
    | some (k, o) =>
      let g : Nat → Word := o.eps.get 0#64
      let dk := o.ten * 16 + o.arg
      let old := (s.cluster cluster).dom dk
      let changes := o.done == 0 && old.op != fld (g 0) 19 17 && s.domainBusy o.ten dk
      let s1 : State := s.commitDomain cluster dk g
      let done := o.done + 2 ^ cluster
      let s2 : State := s1.mapQueue (.fold k) fun l => l.map fun p => if p.id = o.id then { p with done := done } else p
      let s3 : State := if changes then s2.opFault o 0x0C (wd (0x200 + 4 * o.arg)) else s2
      if (s.partition o.ten).all fun c => bitOf done c then s3.completeOp (.fold k) o (s3.relSet (engPartyId (.fold k))) else s3)

/-- A quiescent instant of a domain that has had a post since its last firing, or its commit (R111): a completion action is owed from now on. -/
def State.latchQuiet (s : State) (ten dom : Nat) : State :=
  let dk := ten * 16 + dom
  let ps := s.partition ten
  let ds := ps.map fun k => (s.cluster k).dom dk
  if !(ds.any (·.posted)) || ds.any (·.failed) || !s.quiescent ten dom then s
  else
    let home := ps.getD 0 0
    let d := (s.cluster home).dom dk
    let qstat := wd (b01 (ds.any (·.ovr)) * 2 ^ 63 + b01 (ds.any (·.approx)) * 2 ^ 62 + b01 (ds.any (·.nane)) * 2 ^ 61
      + (ds.map (·.claims)).sum % 2 ^ 48)
    let s1 : State := ps.foldl (fun t k => t.modCluster k fun c => c.modDom dk fun d => { d with posted := false }) s
    s1.modCluster home fun c => c.modDom dk fun e =>
      { e with firings := e.firings ++ [⟨qstat, d.log, d.compl, d.queue, (ds.flatMap (·.rel)).eraseDups⟩] }

/-- The quiescent instants of a cycle. -/
def State.latchAll (s : State) : State :=
  s.clusters.foldl (fun t c => (c.2.doms.filter fun d => d.2.posted).foldl (fun u d => u.latchQuiet (d.1 / 16) (d.1 % 16)) t) s

/-- FOLD_COMPLETION_ACTION (R111, R424): the oldest firing that is owed is performed by the fold store of home index 0. -/
def execFoldCompletionAction (ten dom : Nat) (s : State) : Out1 :=
  let dk := ten * 16 + dom
  let home := (s.partition ten).getD 0 0
  let s0 : State := s.latchQuiet ten dom
  .next (match ((s0.cluster home).dom dk).firings with
    | [] => s0
    | f :: rest =>
      let d := (s0.cluster home).dom dk
      let p := engPartyId (.fold home)
      let rel := unionIds (s0.relSet p) f.rel
      let s1 : State := s0.modCluster home fun c => c.modDom dk fun d => { d with firings := rest, fired := d.fired + 1 }
      let va := wd (fld f.log 56 12 * 0x1000)
      let s2 : State := if fld f.log 4 0 = 0 then s1
        else match s1.deviceWrite p home ten .s va (leBytes 8 f.qstat.toNat ++ leBytes 8 (d.fired + 1)) [(p * 8 + 3, rel)] with
          | (some (c, _), _) => s1.report { ten := ten, cause := wd c, tval := va, queue := f.queue }
          | (none, t) => t
      s2.sendDecr (unitKey home 1) ten f.queue (wd (fld f.compl 56 4 * 16)) (unionIds rel (s2.relSet p)))

/-- ADAPT_CHANGE (R113): the multiplier becomes 2^shift in every fold store of the partition. While it is above 1, the launches whose strands have
posted to the domain are approximate. -/
def execAdaptChange (ten dom shift : Nat) (s : State) : Out1 :=
  let dk := ten * 16 + dom
  let adapts : Cluster → Bool := fun c => bit (c.dom dk).dctl 23 && decide (shift ≤ 4)
  let s1 : State := (s.partition ten).foldl (fun t k => t.modCluster k fun c =>
    if !adapts c then c
    else
      let old := c.dom dk
      let d : FDomain := { old with shift := shift }
      ({ c with folds := c.folds.map fun e => if e.dom = dk ∧ d.eligible e ∧ !old.eligible e then { e with since := s.cycle } else e } : Cluster).modDom
        dk fun _ => d) s
  let ids := ((s.partition ten).filter fun k => adapts (s.cluster k)).flatMap fun k => ((s.cluster k).dom dk).launches
  .next (if 0 < shift then { s1 with launches := s1.launches.map fun l => if ids.contains l.id then { l with approx := true } else l } else s1)

end Sys2Proof.Machine
end

