-- ==== Sys2Proof/Machine/Fabric.lean ====
section
/-! DEFINITION. Packets of the Delmel fabric (R184, R186, R395, R396), the routes on which they leave this device (R187, R188, R393), and
the drops. -/

namespace Sys2Proof.Machine

open Host

/-! ## Headers (R186) -/

/-- CRC-16 with polynomial 0x1021 over bytes, most significant bit first (R186). -/
def crc16 (c : BitVec 16) : List Byte → BitVec 16
  | [] => c
  | b :: bs =>
    let x := c ^^^ (b.setWidth 16 <<< 8)
    crc16 ((List.range 8).foldl (fun y _ => if y.getLsbD 15 then (y <<< 1) ^^^ 0x1021#16 else y <<< 1) x) bs

/-- The first header word (R186). -/
def packetWord0 (p : Packet) (hchk : Nat) : Nat :=
  p.ddev * 2 ^ 52 + p.dpos % 64 * 2 ^ 46 + p.dport % 8 * 2 ^ 43 + p.dunit % 32 * 2 ^ 38 + p.cls % 4 * 2 ^ 36 + p.ch % 2 * 2 ^ 35 + b01 p.ord * 2 ^ 34
    + p.nfl % 16 * 2 ^ 30 + p.ten % 128 * 2 ^ 23 + hchk % 2 ^ 16 * 2 ^ 7

/-- HCHK of a header (R186). -/
def packetCheck (p : Packet) : Nat :=
  (crc16 0xFFFF#16 (leBytes 8 (packetWord0 p 0) ++ leBytes 8 p.srcid.toNat ++ leBytes 8 p.opw.toNat ++ leBytes 8 p.tgt.toNat)).toNat

/-- A packet with its payload flits counted and its check closed. -/
def closePacket (p : Packet) : Packet :=
  let q : Packet := { p with nfl := (p.payload.length + 3) / 4 }
  { q with hchk := packetCheck q }

/-- What is wrong with a header (R395): KIND of the log record. -/
def packetBad (p : Packet) (vc : Nat) : Option Nat :=
  if p.hchk ≠ packetCheck p then some 2
  else if 5 ≤ p.dport || 65 ≤ p.ten || fld p.srcid 31 29 = 7 || 2 * p.cls + p.ch ≠ vc || 8 < p.nfl || p.nfl ≠ (p.payload.length + 3) / 4 then some 3
  else none

/-- Source identifier of this device's Delmel switch (R184). -/
def State.switchId (s : State) : Word := wd (s.dev * 2 ^ 32 + 6 * 2 ^ 29)

/-- DPOS, DPORT and DUNIT of the sender that an identifier names (R184, R186). A position follows from this device's own map (DESIGN CHOICE, log 14). -/
def State.addressOf (s : State) (src : Word) : Nat × Nat × Nat :=
  let u := fld src 15 4
  match fld src 31 29 with
  | 0 => (s.posOf (u / 16), 0, u % 16)
  | 1 => (s.posOf (u / 16), 0, u % 16)
  | 2 => (s.corePos (1024 + u), u % 2 + 1, 0)
  | 3 => (s.corePos (2048 + u), 3, 0)
  | 4 => (s.posOf u, 0, 31)
  | 5 => (1, 3, 0)
  | _ => (0, 4, 0)

/-- A response to a packet of another device (R181, R186): its payload begins with the sender's identifier (DESIGN CHOICE, log 14). -/
def State.responsePacket (s : State) (p : Packet) (src : Word) (payload : List Word) : Packet :=
  let (a, b, c) := s.addressOf p.srcid
  { ddev := fld p.srcid 43 32, dpos := a, dport := b, dunit := c, cls := 1, ten := p.ten, srcid := src, opw := p.opw, tgt := p.tgt
    payload := p.srcid :: payload }

/-! ## Ports and routes (R17, R187, R188, R393) -/

/-- State of a Delmel port: what it has become since boot (R393), or what CAPFAB says of it (R17). -/
def State.portState (s : State) (n : Nat) : PortState :=
  match s.ports.find? fun e => e.1 == n with
  | some e => e.2
  | none => if 16 ≤ n || !bit s.capfab (16 + n) then .down else if bit s.capfab (32 + n) then .wide else .narrow

/-- Does a port carry packets? -/
def State.portUp (s : State) (n : Nat) : Bool := s.portState n != .down

/-- Extent, own coordinate and target coordinate in x, y and z (R185). -/
def State.torusAxes (s : State) (x y z : Nat) : List (Nat × Nat × Nat) :=
  let w := s.devloc
  [(fld w 51 48 + 1, fld w 39 36, x), (fld w 47 44 + 1, fld w 35 32, y), (fld w 43 40 + 1, fld w 31 28, z)]

/-- The direction in which a packet that arrived at a port goes on in dimension `d`: the shorter way (R187), or the way on which it is already; the
other one when both ports of that direction are down (R393) (DEDUCED, log 96). -/
def State.torusWay (s : State) (d n c t : Nat) (arrived : Option Nat) : Option Bool :=
  let up (negative : Bool) : Bool := (torusPorts d negative).any s.portUp
  let way := match arrived with
    | some a => if a / 4 = d then a / 2 % 2 == 0 else torusNegative n c t
    | none => torusNegative n c t
  if up way then some way else if up (!way) then some (!way) else none

/-- The better of the two parallel ports of a direction (R187, R183). -/
def State.parallelPort (s : State) (ord : Bool) (vc : Nat) (ports : List Nat) : Option Nat :=
  match ports.filter s.portUp with
  | [] => none
  | [a] => some a
  | a :: b :: _ => if !ord && Config.portFree s.cycle a vc < Config.portFree s.cycle b vc then some b else some a

/-- The port and the channel by which a packet goes on to a member of this torus (R187). -/
def State.torusPort (s : State) (p : Packet) (x y z : Nat) (arrived : Option Nat) : Option (Nat × Nat) :=
  match torusDim (s.torusAxes x y z) 0 with
  | none => none
  | some (d, n, c, t) =>
    match s.torusWay d n c t arrived with
    | none => none
    | some way =>
      let ch := if crossesDateline n c way then 1 else match arrived with
        | some a => if a / 4 = d then p.ch else 0
        | none => 0
      (s.parallelPort p.ord (2 * p.cls + ch) (torusPorts d way)).map fun q => (q, ch)

/-- The torus member through which packets leave the torus: that with the lowest coordinates whose entry names an uplink (R188, DESIGN CHOICE, log
95). -/
def State.gateway (s : State) : Option (Nat × Nat × Nat) :=
  s.routes.foldl (fun (best : Option (Nat × Nat × Nat)) e => match e.2 with
    | .torus x y z ups =>
      if ups = 0 then best
      else (match best with
        | some (a, b, c) => if x * 256 + y * 16 + z < a * 256 + b * 16 + c then some (x, y, z) else best
        | none => some (x, y, z))
    | _ => best) none

/-- The port and the channel by which a packet leaves (R187, R188): over the torus, or by the lowest-numbered uplink of the mask at the gateway. -/
def State.delmelPort (s : State) (p : Packet) (arrived : Option Nat) : Option (Nat × Nat) :=
  match s.routes.get .invalid p.ddev with
  | .invalid => none
  | .torus x y z _ => s.torusPort p x y z arrived
  | .uplinks mask =>
    match s.gateway with
    | none => none
    | some (x, y, z) =>
      if (torusDim (s.torusAxes x y z) 0).isSome then s.torusPort p x y z arrived
      else match (List.range 4).find? fun i => bitOf mask i with
        | some i => if s.portUp (12 + i) then some (12 + i, 0) else none
        | none => none

/-- A dropped packet is counted by class (R396). -/
def State.dropPacket (s : State) (cls : Nat) : State := { s with dropped := s.dropped.put cls (s.dropped.get 0 cls + 1) }

/-- A packet leaves by its port; one for which no port is up is dropped, and reaches its sender's timeout (R393). The drop of one in transit is charged
to the port that received it (R396), as a port that is down, or as a header with a device that has no route (DESIGN CHOICE, log 119). -/
def State.sendOut (s : State) (p : Packet) (arrived : Option Nat) : State :=
  match s.delmelPort p arrived with
  | some (n, ch) => { s with out := s.out ++ [.packet n (closePacket { p with ch := ch })] }
  | none =>
    let s1 : State := s.dropPacket p.cls
    match arrived with
    | some a => s1.logMgmt { kind := if s.reaches p.ddev then 5 else 3, port := a, vc := 2 * p.cls + p.ch, src := p.srcid }
    | none => s1

/-- The four words of a management record (R396). -/
def MgmtRec.words (r : MgmtRec) : List Word :=
  [wd (r.kind % 2 ^ 8 * 2 ^ 56 + r.dev % 2 ^ 12 * 2 ^ 44 + r.pos % 64 * 2 ^ 38 + r.port % 16 * 2 ^ 34 + r.vc % 8 * 2 ^ 31), r.drops, r.cycle, r.src]

/-- What the monitor reads of the management log (R396), oldest record first; no rule gives its address. -/
def State.managementLog (s : State) : List Byte := s.mlog.flatMap fun r => r.words.flatMap fun w => leBytes 8 w.toNat

end Sys2Proof.Machine
end

