-- ==== Sys2Proof/Machine/Message.lean ====
section
/-! DEFINITION. Active messages (R190 to R193, R294, R295, R361), ordered multicast (R92, R93, R194 to R197, R296, R297, R362, R400 to
R403), packets at the Delmel ports (R186, R392 to R396), timeouts (R397, R398) and re-stitching (R189, R404). -/

namespace Sys2Proof.Machine

open Host

/-! ## Build registers and the fields of a message (R190) -/

/-- The build registers m0 to m5. -/
def Slot.mbs (x : Slot) : List Word := x.mb.toList
/-- The reply address of LOAD, ATOMIC or POST; none where no reply is asked for. -/
def msgReply (ws : List Word) : Option Word :=
  match msgHandler ws with
  | 0x10 => some (wordAt ws 2)
  | 0x20 => if wordAt ws 5 = 0#64 then none else some (wordAt ws 5)
  | 0x30 => if wordAt ws 5 = 0#64 then none else some (wordAt ws 5)
  | _ => none

/-- MBW (R294): a reserved field reads as zero (R4). -/
def execMbw (a : Reg) (k : BitVec 3) (wa : Bool) (s : State) : Out1 :=
  .next (s.issue [(a, wa)] [] fun s => s.done fun x => { x with mb := x.mb.setIfInBounds k.toNat (mbMask k.toNat (x.rd a)) })

/-- MBR (R294). -/
def execMbr (d : Reg) (k : BitVec 3) (s : State) : Out1 :=
  .next (s.issue [] [d] fun s => s.setD d (wordAt s.sl.mbs k.toNat))

/-! ## SEND -/

/-- The reply check of R361. -/
def State.replyFault (s : State) (ws : List Word) : Option (Nat × Word) :=
  match msgReply ws with
  | none => none
  | some r =>
    let n := if msgHandler ws = 0x10 then msgPrio ws + 1 else 8
    if r.toNat % 8 ≠ 0 || (msgHandler ws = 0x10 && decide (32 < r.toNat % 32 + n)) then some (5, r)
    else if !bit r 56 then some (6, r)
    else match s.addrCheck s.sl.ten s.sl.level r n .miss with
      | .bad c v => some (c, v)
      | _ => none

/-- The checks of SEND at issue, in the order of R361. -/
def State.sendFault (s : State) (ws : List Word) : Option (Nat × Word) :=
  let h := msgHandler ws
  let va := msgVa ws
  let sp := msgSpace ws
  let n := msgBytes ws
  if msgBuiltin ws && !([0x00, 0x10, 0x20, 0x30, 0x40].contains h) then some (1, 0#64)
  else if !msgBuiltin ws && h % 4 != 0 then some (5, wd h)
  else if sp = 3 || (!msgBuiltin ws && sp != 2) || ([0x00, 0x10, 0x20].contains h && sp == 2) || (h == 0x40 && sp != 1) ||
      (sp = 1 && decide (2 ^ 35 ≤ msgAddr ws)) then some (1, 0#64)
  else if h = 0x20 && (decide (11 ≤ fld (wordAt ws 2) 3 0) || (fld (wordAt ws 2) 3 0 == 10 && bit (wordAt ws 2) 4)) then some (1, 0#64)
  else if ((h = 0x00 || h = 0x10) && decide (32 < va.toNat % 32 + n)) || (h = 0x20 && va.toNat % n != 0) || (h = 0x40 && va.toNat % 16 != 0)
  then some (5, va)
  else s.replyFault ws

/-- The packet of a flight's message to another device. A message in a translated space or a POST goes to the I/O bridge there, which finds the place
(DESIGN CHOICE, log 14). -/
def State.msgPacket (s : State) (f : Flight) (ws : List Word) : Packet :=
  let chip := chipOf (msgVa ws).toNat
  let sp := if msgHandler ws = 0x30 then 0 else msgSpace ws
  { ddev := msgDev ws
    dpos := if sp = 2 then s.corePos (msgCore ws) else if sp = 1 then s.posOf chip.cluster else 1
    dport := if sp = 2 then (if 1024 ≤ msgCore ws then msgCore ws % 2 + 1 else 0) else if sp = 1 then 0 else 3
    dunit := if sp = 2 then (if 1024 ≤ msgCore ws then 0 else msgCore ws % 16) else if sp = 1 then chip.unit else 0
    cls := msgClass ws, ch := 1, ord := true, ten := f.ten, srcid := s.srcId f.who, opw := wordAt ws 0, tgt := wordAt ws 1
    payload := ws.drop 2 }

/-- A group as this device holds it. -/
def State.group (s : State) (g : Nat) : Group := s.groups.get {} g
/-- Changes a group. -/
def State.modGroup (s : State) (g : Nat) (f : Group → Group) : State := { s with groups := s.groups.put g (f (s.group g)) }

/-- The packet by which a flight leaves the device, if it is bound for another one (R186, R195). A Delmel switch has no router position: DPOS is 0 there
(DESIGN CHOICE, log 118). -/
def State.outPacket (s : State) (f : Flight) : Option Packet :=
  if f.pkt.isSome || !f.ready then none
  else match f.act with
    | .send ws => if msgDev ws = s.dev then none else some (s.msgPacket f ws)
    | .mcst _ g off len data =>
      let e := (s.group g).entry
      if e.seqdev = s.dev then none
      else some { ddev := e.seqdev, dport := 4, ch := 1, ord := true, ten := f.ten, srcid := s.srcId f.who, opw := 0x50#64
                  payload := [wd g, wd off, 0#64, wd (len - 1)] ++ leWords (data ++ List.replicate 32 0#8) 4 }
    | _ => none

/-- An operation whose packet finds no route (R398): a SEND's allowance comes back, and TVAL bit 49 says why; an MCST is refused (R362). -/
def State.noRoute (s : State) (f : Flight) : State :=
  match f.act with
  | .send ws =>
    let s1 : State := s.dropFlight f.id
    let s2 : State := if s.holds f.who f.party then s1.modSlot f.who fun x => { x with unacc := x.unacc - 1 } else s1
    s2.flightFault f 0x19 (wordAt ws 1 ||| 0x0002000000000000#64)
  | .mcst d g _ _ _ => (s.setAct f.id (.stampReturn d g 0)).flightFault f 0x18 (wd g)
  | _ => s.dropFlight f.id

/-- A flight whose packet has crossed the mesh: what is bound for another device leaves by the I/O bridge, and its flight waits for the response; an MCST
has reached the Sluice (R179, R196); one that has come from another device is checked once more (R395). -/
def State.depart (s : State) (id : Nat) : State :=
  match s.flight? id with
  | none => s
  | some f =>
    if f.hop.isSome then s
    else match f.pkt.bind fun p => (packetBad p (2 * p.cls + p.ch)).map fun k => (p, k) with
    | some (p, k) => ((s.dropFlight id).dropPacket p.cls).logMgmt { kind := k, pos := p.dpos, vc := 2 * p.cls + p.ch, src := p.srcid }
    | none =>
      (match s.outPacket f with
        | some p => if s.reaches p.ddev then (s.modFlight id fun g => { g with ready := false }).sendOut p none else s.noRoute f
        | none => (match f.act with
          | .mcst _ _ _ _ _ => s.noteReach f []
          | _ => s))

/-- SEND (R193, R295, R361, R398): a release at issue. -/
def execSend (d : Reg) (s : State) : Out1 :=
  .next (s.issue [] [d] fun s =>
    let ws := s.sl.mbs
    match s.sendFault ws with
    | some (c, v) => s.trap c v
    | none =>
      let x : Slot := s.sl
      if x.limit ≤ x.unacc then s.setD d 1#64
      else if !s.quietFor (.send ws) then s
      else if !s.reaches (msgDev ws) then
        ((s.released x.party).setD d 0#64).asyncFault s.cur x.party x.ten x.queue
          { code := 0x19, tval := wordAt ws 1 ||| 0x0002000000000000#64, handler := bit x.trap.tstat 4 }
      else
        let s1 : State := (s.released x.party).modSl fun x => { x with unacc := x.unacc + 1 }
        let dk := x.ten * 16 + fld (wordAt ws 2) 3 0
        let s2 : State := match x.launchId with
          | some id => if msgHandler ws = 0x30 && msgDev ws = s.dev then s1.postedBy (s.foldHome x.ten dk (wordAt ws 3)).1 dk id else s1
          | none => s1
        ((s2.launchFlight s.cur (.send ws) (s.relSet x.party)).depart s2.fresh).setD d 0#64)

/-! ## At the target (R191, R192) -/

/-- The unit that performs a message here, as the sender of its response (R184): an atomic engine, a fold store, the core, or the Delmel switch for
what no unit holds (DESIGN CHOICE, log 14). -/
def State.responder (s : State) (ten : Nat) (ws : List Word) : Word :=
  let shared (cl unit : Nat) : Word := wd (s.dev * 2 ^ 32 + 4 * 2 ^ 29 + cl * 16 + unit * 4)
  match msgHandler ws with
  | 0x30 => shared (s.foldHome ten (ten * 16 + fld (wordAt ws 2) 3 0) (wordAt ws 3)).1 1
  | 0x20 => if msgSpace ws = 1 then shared (chipOf (msgVa ws).toNat).cluster 3 else s.switchId
  | 0x40 => shared (chipOf (msgVa ws).toNat).cluster 3
  | _ => match msgPeer ws with
    | some t => s.srcId ⟨t, 0⟩
    | none => s.switchId

/-- The fault that the answer of a target brings its sender: 1 not the sender's (R361), 2 no room (R398), 3 the host failed (R371); 0 is none (DESIGN CHOICE, log
14). -/
def State.answered (s : State) (f : Flight) (ws : List Word) (code : Nat) : State :=
  match code with
  | 1 => s.flightFault f 6 (wordAt ws 1)
  | 2 => s.flightFault f 0x19 (wordAt ws 1 ||| 0x0001000000000000#64)
  | 3 => s.flightFault f 0x17 (msgVa ws)
  | _ => s

/-- The answer of the target. The packets that its core takes and gives are counted (R175). -/
def State.answer (s : State) (f : Flight) (ws : List Word) (code : Nat) (data : List Word) : State :=
  let s0 : State := s.deliver (msgPeer ws) (msgClass ws)
  let s0 : State := match msgPeer ws with
    | some t => s0.countPkt t 1 true
    | none => s0
  match f.pkt with
  | none => (s0.answered f ws code).setAct f.id .ack
  | some p => (s0.dropFlight f.id).sendOut (s.responsePacket p (s.responder f.ten ws) (wd code :: data)) none

/-- The message of a flight that has reached this device and may be performed. -/
def State.message? (s : State) (id : Nat) : Option (Flight × List Word) :=
  match s.flight? id with
  | some f =>
    match f.act with
    | .send ws => if s.performable f && msgDev ws == s.dev then some (f, ws) else none
    | _ => none
  | none => none

/-- Source identifier of a message's sender. -/
def State.msgSrc (s : State) (f : Flight) : Word :=
  match f.pkt with
  | some p => p.srcid
  | none => s.srcId f.who

/-- Puts a message in a tenant's spill ring of a core (R192, R398); none when the ring is absent, full, or cannot be written. -/
def State.spill (s : State) (m : HMsg) (core : Nat) : Option State :=
  let t : Tenant := s.tenant m.ten
  let lg := fld t.mspill 3 0
  let cap := 2 ^ (lg + 4)
  let ring := t.spill.get [] core
  if lg = 0 || cap ≤ ring.length then none
  else
    let i := (t.spillHead.get 0 core + ring.length) % cap
    let va := wd (fld t.mspill 55 12 * 0x1000 + coreNum core * 2 ^ (lg + 10) + 64 * i)
    match s.deviceWrite 0 (s.clusterOf core) m.ten .s va ((List.range 64).map (Config.spillByte s.fresh)) [] with
    | (some _, _) => none
    | (none, s1) => some (s1.modTenant m.ten fun t => { t with spill := t.spill.put core (ring ++ [m]) })

/-- A message that follows a strand to another device (R173): it goes on with a new target word, as its sender's; without a route it ends (R398). -/
def State.sendOn (s : State) (f : Flight) (ws : List Word) (m1 : Word) : State :=
  let new := ws.set 1 m1
  let p := s.msgPacket f new
  match f.pkt with
  | none => if !s.reaches p.ddev then s.noRoute f else (s.modFlight f.id fun g => { g with act := .send new, ready := false, reached := none }).sendOut p none
  | some q => (s.dropFlight f.id).sendOut { p with srcid := q.srcid, ten := q.ten } none

/-- The target word of a message whose address is now one of another device. -/
def farTarget (ws : List Word) (k : Nat) : Word := setFld (setFld (wordAt ws 1) 63 52 (bits k 46 35)) 47 0 (k % 2 ^ 35)

/-- The core to which a user-handler message for a core goes (R173): that of the newest live forwarding entry there of the message's tenant, with the
device when it is another one, or the core itself (DEDUCED, log 25). -/
def State.messageCore (s : State) (ten core : Nat) : Option Nat × Nat :=
  match (s.core core).forwards.reverse.find? fun f => !f.retired && f.ten == ten with
  | some f => (f.dev, f.newCore)
  | none => (none, core)

/-- Notes that a message has used the forwarding entry of a core (R173). -/
def State.usedBy (s : State) (ten core : Nat) (dst : Option Nat × Nat) : State :=
  s.modCore core fun c =>
    { c with forwards := c.forwards.map fun g => if !g.retired && g.ten == ten && g.dev == dst.1 && g.newCore == dst.2 then { g with used := s.cycle } else g }

/-- HANDLER_MESSAGE_ARRIVAL (R173, R192, R361, R391, R398): the queue is refilled first, so that messages of one source keep their order. -/
def execHandlerMessageArrival (id : Nat) (s : State) : Out1 :=
  .next (match s.message? id with
    | none => s
    | some (f, ws) =>
      if msgBuiltin ws then s
      else
        let dst := s.messageCore f.ten (msgCore ws)
        let core := dst.2
        if dst.1.isSome then (s.usedBy f.ten (msgCore ws) dst).sendOn f ws (setFld (setFld (wordAt ws 1) 63 52 (dst.1.getD 0)) 10 0 core)
        else if !s.coreOf f.ten core then s.answer f ws 1 []
        else
          let m : HMsg := { ten := f.ten, prio := msgPrio ws, stamp := s.cycle, pc := wd (msgHandler ws), src := s.msgSrc f, args := ws.drop 2
                            queue := f.queue, rel := [(4, f.rel)] }
          let s1 : State := s.refill core 32
          let s1 : State := if core = msgCore ws then s1 else s1.usedBy f.ten (msgCore ws) dst
          let co : Core := s1.core core
          if !co.fenced && co.inbound.length < 32 && ((s1.tenant f.ten).spill.get [] core).isEmpty then
            (s1.modCore core fun c => { c with inbound := c.inbound ++ [m] }).answer f ws 0 []
          else match s1.spill m core with
            | some s2 => s2.answer f ws 0 []
            | none => s1.answer f ws 2 [])

/-- The pieces of a built-in's bytes (R78, R191): one, 16 B each over Delmel, and in host space those of each aligned 8 B. -/
def msgPieces (remote host : Bool) (k : Nat) (bs : List Byte) : List (Nat × List Byte) :=
  let size := if host then 8 else if remote then 16 else 32
  let a := size - k % size
  ((k, bs.take a) :: (List.range 4).map fun i => (k + a + size * i, (bs.drop (a + size * i)).take size)).filter fun e => !e.2.isEmpty

/-- Deposits of a reply (R62, R191): writes that release everything that party `p` performed, one, or one for each piece over Delmel. Their wait is
that of the SEND (R397). -/
def State.reply (s : State) (f : Flight) (p src : Nat) (remote : Bool) (va : Word) (bs : List Byte) : State :=
  (msgPieces remote false va.toNat bs).foldl (fun t e =>
    let act : Act := .store (wd e.1) e.1 e.2 .rel .none
    { t with
      fresh := t.fresh + 1
      flights := t.flights ++ [{ id := t.fresh, who := f.who, party := p, ten := f.ten, level := .m, queue := f.queue, born := f.born
                                 act := act, reply := true, owed := s.timed? f
                                 hop := (s.keyPos 4096 e.1).bind fun d => hopFrom src d 1 false 1 }] }) s

/-- Ends a built-in: the acknowledgement, and the reply where one is asked for, here or in the response packet. -/
def State.served (s : State) (f : Flight) (ws : List Word) (p : Nat) (bs : List Byte) (code : Nat := 0) : State :=
  let s1 : State := s.answer f ws code (if (msgReply ws).isSome then leWords (bs ++ List.replicate 32 0#8) 4 else [])
  match f.pkt, msgReply ws with
  | none, some va =>
    let s2 : State := match msgPeer ws with
      | some t => s1.countPkt t 1 true
      | none => s1
    s2.reply f p ((s.goal f.who.core f.act).getD (s.seatPos f.who.core)) false va bs
  | _, _ => s1

/-- One piece of a built-in has been performed; the last one ends it. -/
def State.pieceDone (s : State) (f : Flight) (i n : Nat) (last : State → State) : State :=
  if f.parts.length + 1 < n then s.modFlight f.id fun g => { g with parts := g.parts ++ [i] } else last s

/-- A built-in handler acquires its SEND (R83); it performs as a party of its own, which has the number of its flight. -/
def State.builtin (s : State) (f : Flight) : State := s.acquireIds f.id f.rel

/-- A built-in's write of a piece: into registers it is a deposit, which lands at the end of the cycle (R62, R63); none, with the machine, when a bank
holds it. -/
def State.msgWrite (s : State) (f : Flight) (k : Nat) (bs : List Byte) : Option State × State :=
  if isDeposit k then
    let go (t : State) : State := t.queueLanding { op := 0, party := f.id, ten := f.ten, rank := s.reqRank f k, key := k, data := bs }
    match (chipOf k).bank? with
    | some b => (match s.bankWrite (chipOf k).core b with
      | (.wait, s') => (none, s')
      | _ => (some (go s), s))
    | none => (some (go s), s)
  else s.writeAt f.id f.ten k bs []

/-- Reaches the target of a built-in STORE, LOAD or ATOMIC and performs `k` there: once the walk that it needs is over (R58), and at the place to which
the target has moved (R173). -/
def State.onMsg (s : State) (f : Flight) (ws : List Word) (acc : Acc) (k : Nat → State → State) : State :=
  let va := msgVa ws
  match s.msgCheck f acc ws with
  | .miss => s.wantUnit f.id (msgCluster va) f.ten (s.devLevel f.ten) va acc
  | .bad _ _ => (s.forgetAnswer f.id).answer f ws 1 []
  | .ok k0 =>
    if s.barredAt f.from? k0 && !s.cutOff f.from? k0 then s.answer f ws 1 []
    else
      let (k1, s1) := s.redirect f.from? k0
      if farBit ≤ k1 then s1.sendOn f ws (farTarget ws k1) else k k1 s1

/-- Performs a built-in STORE at a key, by the piece that the turn names (R78, R191). -/
def State.storeMsg (s : State) (f : Flight) (ws : List Word) (k : Nat) : State :=
  let bs := ((ws.drop 2).flatMap fun w => leBytes 8 w.toNat).take (msgBytes ws)
  let ps := msgPieces f.pkt.isSome (s.place k == .host) k bs
  let i := s.partOf f ps.length
  let e := ps.getD i (k, bs)
  match (s.builtin f).msgWrite f e.1 e.2 with
  | (none, s') => s'.noteReach f []
  | (some t, _) => t.pieceDone f i ps.length fun t => t.served f ws f.id []

/-- BUILTIN_STORE (R191). -/
def execBuiltinStore (id : Nat) (s : State) : Out1 :=
  .next (match s.message? id with
    | none => s
    | some (f, ws) => if msgHandler ws ≠ 0x00 then s else s.onMsg f ws .store fun k s => s.storeMsg f ws k)

/-- Performs a built-in LOAD at a key, by the piece that the turn names (R78, R191, R372, R379). -/
def State.loadMsg (s : State) (f : Flight) (ws : List Word) (k : Nat) : State :=
  let n := msgBytes ws
  let ps := msgPieces f.pkt.isSome (s.place k == .host) k (List.replicate n 0#8)
  let i := s.partOf f ps.length
  let e := ps.getD i (k, List.replicate n 0#8)
  let s0 : State := s.builtin f
  match s0.readAt f.id f.ten e.1 e.2.length (s0.turnView e.1 e.2.length) with
  | .held s' => s'.noteReach f []
  | .dead g => (s0.answer f ws 0 []).flightFault f 9 (wd g)
  | .val bs po rels s1 =>
    let got : Row := f.gather ||| (BitVec.ofNat 256 (leNat bs) <<< (8 * (e.1 - k)))
    let s2 : State := (s1.pending f.id rels).modFlight f.id fun g => { g with gather := got }
    let s3 : State := s2.pieceDone f i ps.length fun t => t.served f ws f.id ((rowBytes got).take n)
    match po with
    | some g => s3.flightFault f 0x14 (wd g)
    | none => s3

/-- BUILTIN_LOAD (R191). -/
def execBuiltinLoad (id : Nat) (s : State) : Out1 :=
  .next (match s.message? id with
    | none => s
    | some (f, ws) => if msgHandler ws ≠ 0x10 then s else s.onMsg f ws .load fun k s => s.loadMsg f ws k)

/-- Performs a built-in ATOMIC at a key whose turn has come (R191, R286). -/
def State.atomicMsg (s : State) (f : Flight) (ws : List Word) (k : Nat) : State :=
  let n := msgBytes ws
  let s0 : State := s.builtin f
  match s0.readAt f.id f.ten k n (s0.homeView k n) with
  | .held s' => s'.noteReach f []
  | .dead g => (s0.answer f ws 0 []).flightFault f 9 (wd g)
  | .val _ (some g) _ s1 => (s1.served f ws f.id (leBytes 8 0)).flightFault f 0x14 (wd g)
  | .val _ none rels s1 =>
    let old := leNat (s1.rdBytes f.ten k n)
    let op := fld (wordAt ws 2) 3 0
    let new := atomicNew op (8 * n) old ((wordAt ws 3).toNat % 2 ^ (8 * n)) ((wordAt ws 4).toNat % 2 ^ (8 * n))
    let s2 : State := (s1.pending f.id rels).write f.id f.ten k (leBytes n new) rels
    let s3 : State := if op = 10 then s2.noteFlag f.ten 3 else s2
    s3.served f ws f.id (leBytes 8 old)

/-- BUILTIN_ATOMIC (R60, R191, R286). -/
def execBuiltinAtomic (id : Nat) (s : State) : Out1 :=
  .next (match s.message? id with
    | none => s
    | some (f, ws) =>
      if msgHandler ws ≠ 0x20 then s
      else s.onMsg f ws .atomic fun k t =>
        let able := inScr k || (match t.place k with | .stack => true | .lpddr _ => true | _ => false)
        if !able then t.answer f ws 1 [] else t.onTurn f fun u => u.atomicMsg f ws k)

/-- BUILTIN_POST (R95, R108, R191): performed at the fold stage of its bank (R89). -/
def execBuiltinPost (id : Nat) (s : State) : Out1 :=
  .next (match s.message? id with
    | none => s
    | some (f, ws) =>
      let dom := fld (wordAt ws 2) 3 0
      if msgHandler ws ≠ 0x30 then s
      else if (s.tenant f.ten).fold = 0#64 then s.answer f ws 1 []
      else if !s.foldOpen (s.foldHome f.ten (f.ten * 16 + dom) (wordAt ws 3)).1 then s
      else
        let (st, s1) := (s.builtin f).foldPost f.ten dom (wordAt ws 3) (wordAt ws 4) f.rel
        let s2 : State := s1.served f ws f.id (leBytes 8 st)
        if st = 2 && (msgReply ws).isNone then s2.flightFault f 0x0B (wordAt ws 3) else s2)

/-- Performs a built-in DECR at a cell whose turn has come (R29, R191). -/
def State.decrMsg (s : State) (f : Flight) (ws : List Word) (k : Nat) : State :=
  let s0 : State := s.builtin f
  match s0.cellAt f.id f.ten k with
  | .held s' => s'.noteReach f []
  | .dead => (s0.answer f ws 0 []).flightFault f 9 (wd (granule k))
  | .poisoned => (s0.poisonedCell f (msgVa ws)).answer f ws 0 []
  | .words count waiter rels s1 => (s1.decrCell f.id f.ten k count waiter (wordAt ws 2) (rels ++ s1.relOf f.id 4)).served f ws f.id []

/-- BUILTIN_DECR (R29, R60, R191). -/
def execBuiltinDecr (id : Nat) (s : State) : Out1 :=
  .next (match s.message? id with
    | none => s
    | some (f, ws) =>
      if msgHandler ws ≠ 0x40 then s
      else
        let k0 := (msgVa ws).toNat
        if (s.cellFault f.ten (msgVa ws)).isSome || (s.barredAt f.from? k0 && !s.cutOff f.from? k0) then s.answer f ws 1 []
        else s.onTurn f fun s =>
          let (k, s1) := s.redirect f.from? k0
          if farBit ≤ k then s1.sendOn f ws (farTarget ws k) else s1.decrMsg f ws k)

/-- SEND_ACK (R193): LEFT grows; a late one is discarded (R397), and so is one for a slot that has stopped for a save (R168). -/
def execSendAck (id : Nat) (s : State) : Out1 :=
  .next (match s.flight? id with
    | some f =>
      match f.act with
      | .ack =>
        if f.hop.isSome then s
        else
          let s1 : State := s.countPkt f.who.core 1 false
          if f.late then s1.discardLate f
          else
            let s2 : State := s1.dropFlight id
            if s.holds f.who f.party && !f.outlived && !(s.slot f.who).halted then s2.modSlot f.who fun x => { x with unacc := x.unacc - 1 } else s2
      | _ => s
    | none => s)

/-! ## Ordered multicast -/

/-- A sequence number as 48 bits show it: 1 to 2^48 − 1, then from 1 again (R197; DESIGN CHOICE, log 98); 0 where nothing is numbered. -/
def seq48 (n : Nat) : Nat := if n = 0 then 0 else (n - 1) % (2 ^ 48 - 1) + 1

/-- The count near `near` whose sequence number is `v`. -/
def seqNear (near v : Nat) : Nat := v + (2 ^ 48 - 1) * ((near + (2 ^ 47 - 1) - v) / (2 ^ 48 - 1))

/-- The 16-bit numbers of a member list in stack memory (R194). -/
def State.memberList (s : State) (mlist : Nat) : Nat → List Nat
  | 0 => []
  | n + 1 => leNat (s.rdBytes 0 mlist 2) :: s.memberList (mlist + 2) n

/-- The entry that four words describe (R194). The sequencer's device reads the member list; a member knows of itself. -/
def State.groupEntry (s : State) (ws : List Word) : GroupEntry :=
  let w := wordAt ws 0
  let n := fld w 43 32
  { valid := bit w 63, ten := fld w 62 56, seqdev := fld w 55 44, nmem := n, mlist := wordAt ws 3
    members := if fld w 55 44 = s.dev then s.memberList (wordAt ws 3).toNat n else [s.dev]
    wbase := wordAt ws 1, wsize := fld (wordAt ws 2) 29 0 }

/-- Do the numbers rise strictly? -/
def rising : List Nat → Bool
  | [] => true
  | [_] => true
  | a :: b :: l => decide (a < b) && rising (b :: l)

/-- Does a valid entry keep the limits of R194: members, a window of whole 32 bytes, a list in stack memory in ascending order? -/
def groupLawful (e : GroupEntry) : Bool :=
  !e.valid || (decide (1 ≤ e.nmem) && e.wsize % 32 == 0 && decide (e.ten ≤ 64) && decide (e.mlist.toNat + 2 * e.nmem ≤ stackEnd) && rising e.members)

/-- Writes a group's entry (R92, R194): numbering starts anew. None when the entry breaks R194. -/
def State.putGroup (s : State) (g : Nat) (ws : List Word) : Option State :=
  let e := s.groupEntry ws
  if 256 ≤ g || !groupLawful e then none
  else some { s with groups := s.groups.put g { entry := e, reported := s.cycle, told := s.cycle, heardG := s.cycle
                                                heard := e.members.map fun m => (m, s.cycle) } }

/-- Is the group valid and the tenant's, as its Sluice asks (R362)? -/
def State.groupHas (s : State) (g ten : Nat) : Bool := (s.group g).entry.valid && (s.group g).entry.ten == ten
/-- Is the group valid and the tenant's, and this device not a lost member (R362, R401)? -/
def State.groupOf (s : State) (g ten : Nat) : Bool := s.groupHas g ten && !(s.group g).lost
/-- Is this device a member? -/
def State.memberOf (s : State) (g : Nat) : Bool := (s.group g).entry.members.contains s.dev

/-- MCSTs of the issuing slot whose number has not returned (R195). -/
def State.unstamped (s : State) : Nat :=
  ((s.flightsOf s.cur).filter fun f => match f.act with
    | .mcst _ _ _ _ _ => true
    | .stampReturn _ _ _ => true
    | _ => false).length

/-- MCST (R92, R195, R296, R362): its packet leaves once every earlier entry that it may not pass is performed, as R82
has its release event do, and carries the strand's release; MCSTs to other groups are not waited for (DEDUCED, log 81). -/
def execMcst (d : Reg) (s : State) : Out1 :=
  .next (s.issue [] [d] fun s =>
    let x : Slot := s.sl
    let ws := x.mbs
    let len := fld (wordAt ws 0) 13 8 + 1
    let g := fld (wordAt ws 0) 7 0
    let off := fld (wordAt ws 1) 29 0
    if 32 < len then s.trap 1 0#64
    else if 32 < off % 32 + len then s.trap 5 (wd off)
    else if 8 ≤ s.unstamped then s
    else
      let e := (s.group g).entry
      if !s.groupOf g x.ten || e.wsize < off + len || !s.reaches e.seqdev then
        (s.setD d 0#64).asyncFault s.cur x.party x.ten x.queue { code := 0x18, tval := wd g, handler := bit x.trap.tstat 4 }
      else
        let data := ((ws.drop 2).flatMap fun w => leBytes 8 w.toNat).take len
        if !s.quietFor (.mcst .none g off len data) then s
        else ((s.released x.party).produce d (.mcst (.reg d) g off len data) (s.relSet x.party)).depart s.fresh)

/-- MSEQ (R93, R297, R362): an acquire, after every earlier entry (R85). -/
def execMseq (d a : Reg) (wa : Bool) (s : State) : Out1 :=
  .next (s.issue [(a, wa)] [d] fun s =>
    let g := fld (s.sl.rd a) 7 0
    if !s.groupOf g s.sl.ten || !s.memberOf g then s.trap 0x18 (wd g)
    else if !s.quiet then s
    else (s.acquireIds s.sl.party (s.relSet (applierParty g))).produce d (landReg d (wd (seq48 (s.group g).gapply))))

/-- The packet of a stamped store to a member (R196): its sender's, with the number written into it; DPOS is 0 for a switch (DESIGN CHOICE, log 118). -/
def stampedPacket (dev ten g : Nat) (st : Stamped) : Packet :=
  { ddev := dev, dport := 4, ten := ten, srcid := st.src, opw := 0x50#64
    payload := [wd g, wd st.off, wd (seq48 st.n), wd (st.len - 1)] ++ leWords (st.data ++ List.replicate 32 0#8) 4 }

/-- Sends a stamped store to one member: on this device it is under way to the reorder window. -/
def State.toMember (s : State) (g : Nat) (st : Stamped) (dev : Nat) : State :=
  let ten := (s.group g).entry.ten
  if dev = s.dev then
    { s with
      fresh := s.fresh + 1
      flights := s.flights ++ [{ id := s.fresh, who := ⟨2048, 0⟩, party := 0, ten := ten, level := .m, queue := 0, born := s.cycle
                                 act := .stamped g st, rel := st.rel }] }
  else s.sendOut (stampedPacket dev ten g st) none

/-- What the Sluice returns to a sender: the number, or 0 for a refusal (R196, R362). -/
def State.stampBack (s : State) (f : Flight) (g n : Nat) : State :=
  match f.pkt with
  | none =>
    let s1 : State := s.setAct f.id (.stampReturn f.act.dest g (seq48 n))
    if n = 0 then s1.flightFault f 0x18 (wd g) else s1
  | some p => (s.dropFlight f.id).sendOut { s.responsePacket p s.switchId [wd (seq48 n)] with tgt := wd g } none

/-- Has an MCST reached the Sluice of this device? -/
def State.atSluice (s : State) (f : Flight) : Bool :=
  match f.act with
  | .mcst _ g _ _ _ => f.ready && f.hop.isNone && f.reached.isSome && (s.group g).entry.seqdev == s.dev
  | _ => false

/-- Did flight `a` reach the Sluice before `b`? -/
def Flight.reachedBefore (a b : Flight) : Bool :=
  match a.reached, b.reached with
  | some x, some y => decide (x.2 < y.2)
  | _, _ => false

/-- The place by which `servedAt` knows the Sluice: it lies in no storage. -/
def sluicePlace : Nat × Nat := (2 ^ 80, 1)

/-- MCST_STAMP (R92, R196, R197, R362): packets are stamped in the order of arrival, one in a mesh cycle; one that cannot be stamped yet waits, and those
behind it with it. -/
def execMcstStamp (id : Nat) (s : State) : Out1 :=
  .next (match s.flight? id with
    | some f =>
      match f.act with
      | .mcst _ g off len data =>
        let gr := s.group g
        if !s.atSluice f || (s.flights.any fun x => s.atSluice x && x.reachedBefore f) then s
        else if !s.groupHas g f.ten || gr.entry.wsize < off + len then s.stampBack f g 0
        else if gr.cutting || gr.g + 256 < gr.stamp + 1 || s.servedAt.contains sluicePlace then s
        else
          let st : Stamped := { n := gr.stamp + 1, src := s.msgSrc f, off := off, len := len, data := data, rel := f.rel }
          let s1 : State := ({ s with servedAt := sluicePlace :: s.servedAt } : State).modGroup g fun x => { x with stamp := st.n, kept := x.kept ++ [st] }
          gr.entry.members.foldl (fun t m => t.toMember g st m) (s1.stampBack f g st.n)
      | _ => s
    | none => s)

/-- MCST_STAMP_RETURN (R196): the number fills the sender's destination; a late one is discarded (R397). -/
def execMcstStampReturn (id : Nat) (s : State) : Out1 :=
  .next (match s.flight? id with
    | some f =>
      match f.act with
      | .stampReturn d _ n =>
        if f.hop.isSome then s
        else
          let s0 : State := s.countPkt f.who.core 1 false
          if f.late then s0.discardLate f
          else
            let s1 : State := s0.dropFlight id
            if f.seep.isSome then s0.setAct id (.result d (BitVec.ofNat 256 n) none [])
            else (match d with
              | .reg r => if s.holds f.who f.party then s1.modSlot f.who fun x => x.land r (wd n) [] else s1
              | _ => s1)
      | _ => s
    | none => s)

/-- What a stored number's sender released, when that sender is of this device and another device's Sluice stamped it: it is known with the number, or
from the sender's oldest MCST to the group that still waits for its own (R92, R93). With it the group after that has been used. -/
def State.mineRel (s : State) (g : Nat) (st : Stamped) : List Nat × Group :=
  let gr := s.group g
  match gr.mine.find? fun e => e.1 == st.n with
  | some e => (e.2, { gr with mine := gr.mine.filter fun y => y.1 != st.n })
  | none =>
    match s.flights.find? fun f => f.pkt.isNone && !f.ready && !gr.matched.contains f.id && s.srcId f.who == st.src && f.act.group? == some g with
    | some f => (f.rel, { gr with matched := gr.matched ++ [f.id] })
    | none => ([], gr)

/-- A management packet of ordered multicast: kind 1 a GAPPLY report, 2 a report of G, 3 a resend request, 4 a part of the new member list, 5 a report of h,
6 the cut (DESIGN CHOICE, log 14); DPOS is 0 for a switch (DESIGN CHOICE, log 118). -/
def State.tellGroup (s : State) (g kind : Nat) (values : List Nat) (dev : Nat) : State :=
  if dev = s.dev then s
  else s.sendOut { ddev := dev, dport := 4, cls := 3, ch := 1, ord := true, ten := (s.group g).entry.ten, srcid := s.switchId, opw := wd kind, tgt := wd g
                   payload := values.map wd } none

/-- A member learns G and frees its window entries up to it (R400). -/
def State.learnG (s : State) (g n : Nat) : State :=
  s.modGroup g fun x => { x with g := Nat.max x.g n, heardG := s.cycle, window := x.window.filter fun st => decide (Nat.min n x.gapply < st.n) }

/-- The Sluice reports G to every member (R400). -/
def State.tellG (s : State) (g : Nat) : State :=
  let n := (s.group g).g
  let s1 : State := if s.memberOf g then s.learnG g n else s
  let s2 : State := s1.modGroup g fun x => { x with told := s.cycle }
  (s2.group g).entry.members.foldl (fun t m => t.tellGroup g 2 [seq48 n] m) s2

/-- The lowest GAPPLY that the members of the view have reported (R197). -/
def Group.lowest (x : Group) : Nat :=
  match x.entry.members.map fun m => x.reports.get 0 m with
  | [] => x.g
  | r :: rs => Nat.max x.g (rs.foldl Nat.min r)

/-- The Sluice takes G over the members, and forgets the stores it need no longer keep; a change is reported at once (R400). -/
def State.takeG (s : State) (g : Nat) : State :=
  let old := (s.group g).g
  let s1 : State := s.modGroup g fun y => { y with g := y.lowest, kept := y.kept.filter fun st => decide (y.lowest < st.n) }
  if (s1.group g).g = old then s1 else s1.tellG g

/-- The Sluice takes a member's report (R197, R400, R401). -/
def State.takeReport (s : State) (g member n : Nat) : State :=
  (s.modGroup g fun x => { x with reports := x.reports.put member (Nat.max n (x.reports.get 0 member)), heard := x.heard.put member s.cycle }).takeG g

/-- This member reports its GAPPLY to the sequencer's device (R197). -/
def State.reportApplied (s : State) (g : Nat) : State :=
  let gr := s.group g
  let s1 : State := s.modGroup g fun x => { x with applied := 0, reported := s.cycle }
  if gr.entry.seqdev = s.dev then s1.takeReport g s.dev gr.gapply else s1.tellGroup g 1 [seq48 gr.gapply] gr.entry.seqdev

/-- A store of the window that a Waking bank holds: it is performed when the wake ends, in the order of arrival (R68). -/
def State.holdStore (s : State) (g : Nat) (st : Stamped) : State :=
  if s.flights.any fun f => f.act == .stamped g st && f.reached.isSome then s
  else { s with
    fresh := s.fresh + 1
    flights := s.flights ++ [{ id := s.fresh, who := ⟨2048, 0⟩, party := applierParty g, ten := (s.group g).entry.ten, level := .m, queue := 0
                               born := s.cycle, act := .stamped g st, reached := some (s.cycle, s.fresh) }] }

/-- Applies the stores of the window that are next in number (R93), with a report after every 64 (R197); `n` bounds how many. A store whose bank has to
wake waits with those behind it, and has acquired nothing (R67). -/
def State.applyStores (g : Nat) : Nat → State → State
  | 0, s => s
  | n + 1, s =>
    let gr := s.group g
    let p := applierParty g
    match gr.window.find? fun st => st.n == gr.gapply + 1 with
    | none => s
    | some st =>
      if gr.lost then s
      else
        let (mine, gr') := s.mineRel g st
        let s1 : State := ((s.modGroup g fun _ => { gr' with gapply := st.n, applied := gr.applied + 1 }).acquireIds p (unionIds st.rel mine))
        let on (t : State) : State := State.applyStores g n (if (t.group g).applied = 64 then t.reportApplied g else t)
        match s.checkNow (msgCluster (gr.entry.wbase + wd st.off)) gr.entry.ten (s.devLevel gr.entry.ten) .store false (gr.entry.wbase + wd st.off) st.len with
        | .ok k =>
          if s.place k = .host then on s1
          else (match s.wakeFirst k st.len with
            | some t => t.holdStore g st
            | none => (match s1.writeAt p gr.entry.ten k st.data [] with
              | (some t, _) => on t
              | (none, t) => t))
        | _ => on s1

/-- Every group goes on where a store has waited for a bank. -/
def State.applyAll (s : State) : State := s.groups.foldl (fun t e => State.applyStores e.1 257 t) s

/-- Does the window hold a later store while the next one is lacking (R400)? -/
def Group.lacks (x : Group) : Bool :=
  (x.window.any fun st => decide (x.gapply + 1 < st.n)) && !(x.window.any fun st => st.n == x.gapply + 1)

/-- MULTICAST_STORE_ARRIVAL (R93, R197). -/
def execMulticastStoreArrival (id : Nat) (s : State) : Out1 :=
  .next (match s.flight? id with
    | some f =>
      match f.act with
      | .stamped g st =>
        let gr := s.group g
        let s1 : State := s.dropFlight id
        if f.reached.isSome then s
        else if gr.lost || !gr.entry.valid || st.n ≤ gr.gapply || (gr.window.any fun w => w.n == st.n) then s1
        else
          let s2 : State := State.applyStores g 257 (s1.modGroup g fun x =>
            { x with window := x.window ++ [st], kept := if x.entry.seqdev = s.dev && !x.kept.any (·.n == st.n) && decide (x.g < st.n) then x.kept ++ [st] else x.kept, requests := if st.n = gr.gapply + 1 then 0 else x.requests })
          s2.modGroup g fun x => if gr.lacks && x.gapply = gr.gapply then x else { x with lackSince := s.cycle }
      | _ => s
    | none => s)

/-- GAPPLY_REPORT (R197): this member reports after 1 µs without a report; the report of another member, which comes in a packet, is taken when the
event names it. -/
def execGapplyReport (group member gapply : Nat) (s : State) : Out1 :=
  let gr := s.group group
  .next
    (if !gr.entry.valid || !gr.entry.members.contains member then s
    else if member = s.dev then (if gr.lost || s.cycle < gr.reported + 700 then s else s.reportApplied group)
    else if gr.entry.seqdev = s.dev then s.takeReport group member gapply
    else s)

/-- SLUICE_G_REPORT (R400): the Sluice reports G to every member. -/
def execSluiceGReport (group : Nat) (s : State) : Out1 :=
  .next (if !(s.group group).entry.valid || (s.group group).entry.seqdev ≠ s.dev then s else s.tellG group)

/-- Sends a kept store again (R400). -/
def State.sendAgain (s : State) (g n dev : Nat) : State :=
  match (s.group g).kept.find? fun st => st.n == n with
  | some st => s.toMember g st dev
  | none => s

/-- RESEND_REQUEST (R400): a member that has held a later store for 100 µs asks for the next; after three requests it is lost. -/
def execResendRequest (group : Nat) (s : State) : Out1 :=
  let gr := s.group group
  .next
    (if !gr.lacks || gr.lost || s.cycle < gr.lackSince + 70000 then s
    else if 3 ≤ gr.requests then s.modGroup group fun x => { x with lost := true }
    else
      let s1 : State := s.modGroup group fun x => { x with requests := x.requests + 1, lackSince := s.cycle }
      if gr.entry.seqdev = s.dev then s1.sendAgain group (gr.gapply + 1) s.dev else s1.tellGroup group 3 [seq48 (gr.gapply + 1)] gr.entry.seqdev)

/-- The report and the log record of a view change (R403), on each device of the new view and of its Sluice. -/
def State.viewChanged (s : State) (g last : Nat) : State :=
  (s.report { ten := (s.group g).entry.ten, cause := 0x18#64, tval := wd (seq48 last * 2 ^ 8 + g % 256) }).logMgmt { kind := 9 }

/-- A member list as management packets carry it (DESIGN CHOICE, log 14): each part names a range of device numbers and the members within it, four to
a word. -/
def memberParts : Nat → Nat → List Nat → List (List Nat)
  | 0, _, _ => []
  | n + 1, lo, ms =>
    let part := ms.take 112
    let rest := ms.drop 112
    let hi := if rest.isEmpty then 4095 else part.getLastD 0
    let words := (List.range 28).map fun i => (List.range 4).foldl (fun w j => w + part.getD (4 * i + j) 0 * 2 ^ (16 * j)) 0
    ([lo + hi * 2 ^ 16 + part.length * 2 ^ 32] ++ words.take ((part.length + 3) / 4)) :: (if rest.isEmpty then [] else memberParts n (hi + 1) rest)

/-- The members that a part of the list names, with its range. -/
def memberPart (ws : List Word) : Nat × Nat × List Nat :=
  let w := (wordAt ws 0).toNat
  (w % 2 ^ 16, w / 2 ^ 16 % 2 ^ 16,
    ((List.range (w / 2 ^ 32)).map fun i => (wordAt ws (1 + i / 4)).toNat / 2 ^ (16 * (i % 4)) % 2 ^ 16))

/-- The Sluice sends the member list, with the last number stamped, to a device (R401 step 3). -/
def State.tellMembers (s : State) (g last dev : Nat) : State :=
  (memberParts 40 0 (s.group g).entry.members).foldl (fun t ws => t.tellGroup g 4 (seq48 last :: ws) dev) s

/-- A member takes a part of the new list (R401, R403): its own number missing there, it is lost; the first part makes the report. -/
def State.learnMembers (s : State) (g last : Nat) (ws : List Word) : State :=
  let (lo, hi, ms) := memberPart ws
  let inside (d : Nat) : Bool := decide (lo ≤ d) && decide (d ≤ hi)
  let s1 : State := s.modGroup g fun x => { x with
    entry := { x.entry with members := (x.entry.members.filter fun d => decide (d < lo)) ++ ms ++ x.entry.members.filter fun d => decide (hi < d) }
    lost := x.lost || (inside s.dev && !ms.contains s.dev) }
  if lo = 0 && !(s1.group g).lost then s1.viewChanged g last else s1

/-- A member leaves the view (R401, R403): the Sluice removes it, sends the new list to the others and to the lost one, and goes on with G taken over those
that remain. -/
def State.removeMember (s : State) (g member : Nat) : State :=
  let last := (s.group g).stamp
  let s1 : State := s.modGroup g fun x => { x with
    entry := { x.entry with members := x.entry.members.filter fun m => m != member }, lost := x.lost || member == s.dev }
  let s2 : State := ((s1.group g).entry.members ++ [member]).foldl (fun t m => t.tellMembers g last m) s1
  (s2.takeG g).viewChanged g last

/-- MEMBER_LOSS (R401, R403): the Sluice has had no report of a member for 1 ms. -/
def execMemberLoss (group member : Nat) (s : State) : Out1 :=
  let gr := s.group group
  .next
    (if !gr.entry.valid || !gr.entry.members.contains member || gr.entry.seqdev ≠ s.dev || s.cycle < gr.heard.get 0 member + 700000 then s
    else s.removeMember group member)

/-- h (R402): the highest number up to which a member holds or has applied every store. -/
def Group.held (x : Group) : Nat :=
  (List.range x.window.length).foldl (fun h _ => if x.window.any fun st => st.n == h + 1 then h + 1 else h) x.gapply

/-- The cut (R402): every store above it is discarded, numbering goes on from it, and the member that reported it relays what others may lack; the view
change is reported (R403). -/
def State.cut (s : State) (g ncut relay : Nat) : State :=
  let s1 : State := s.modGroup g fun x => { x with
    window := x.window.filter fun st => decide (st.n ≤ ncut), stamp := ncut, requests := 0, heardG := s.cycle, cutting := false, hs := []
    kept := x.kept.filter fun st => decide (st.n ≤ ncut) }
  let s2 : State := { s1 with flights := s1.flights.filter fun f => match f.act with
    | .stamped h st => h != g || decide (st.n ≤ ncut)
    | _ => true }
  let gr := s2.group g
  let own := (gr.window.filter fun st => decide (gr.g < st.n))
  let s3 : State := if relay = s.dev then own.foldl (fun t st =>
      (gr.entry.members.filter fun d => d != s.dev).foldl (fun u d => u.toMember g st d) t) s2 else s2
  (if gr.entry.seqdev = s.dev then s3.modGroup g fun x => { x with kept := own } else s3).viewChanged g ncut

/-- The new Sluice has the h of a survivor; with the last of them it makes the cut at the largest, which the lowest-numbered of those that reported it
relays (R402; DEDUCED, log 52). -/
def State.takeH (s : State) (g member h : Nat) : State :=
  let s1 : State := s.modGroup g fun x => { x with hs := x.hs.put member h, heard := x.heard.put member s.cycle }
  let gr := s1.group g
  if !gr.cutting || gr.entry.members.any fun m => (gr.hs.find? fun e => e.1 == m).isNone then s1
  else
    let ncut := gr.entry.members.foldl (fun a m => Nat.max a (gr.hs.get 0 m)) 0
    let relay := (gr.entry.members.find? fun m => gr.hs.get 0 m == ncut).getD s.dev
    (gr.entry.members.foldl (fun t m => t.tellGroup g 6 [seq48 ncut, relay] m) s1).cut g ncut relay

/-- SEQUENCER_FAILOVER (R402): no report of G for 1 ms; of the surviving members, whom the switches know, the lowest becomes SEQDEV, and each reports its h
to it (DEDUCED, log 52). -/
def execSequencerFailover (group first : Nat) (others : List Nat) (s : State) : Out1 :=
  let gr := s.group group
  let members := first :: others
  .next
    (if !gr.entry.valid || gr.lost || !members.contains s.dev || members.contains gr.entry.seqdev || s.cycle < gr.heardG + 700000 then s
    else
      let seq := others.foldl Nat.min first
      let s1 : State := s.modGroup group fun x => { x with
        entry := { x.entry with seqdev := seq, members := members }, heardG := s.cycle, cutting := decide (seq = s.dev), hs := if seq = s.dev then x.hs else []
        heard := members.map fun m => (m, s.cycle) }
      if seq = s.dev then s1.takeH group s.dev gr.held else s1.tellGroup group 5 [seq48 gr.held] seq)

/-! ## Timeouts (R397) -/

/-- An act without its destination. -/
def Act.orphan : Act → Act
  | .load _ va k n sg a h => .load .none va k n sg a h
  | .atomic _ op dbl va k x c o => .atomic .none op dbl va k x c o
  | .decr _ c n => .decr .none c n
  | .cbar _ c n => .cbar .none c n
  | .post _ m k v r c => .post .none m k v r c
  | .mcst _ g o l d => .mcst .none g o l d
  | .result _ v p o => .result .none v p o
  | .cbarWait _ c g a => .cbarWait .none c g a
  | .stampReturn _ g n => .stampReturn .none g n
  | a => a

/-- What a timed-out operation leaves behind: when the turn names a part, it may still be performed, as a party of its own, and its response is late;
else it never is (R397, DESIGN CHOICE, log 41). The deposit of a reply that has not landed is discarded. -/
def State.abandonFlight (s : State) (f : Flight) : State :=
  if s.part = 0 || f.reply then s.dropFlight f.id
  else s.modFlight f.id fun g => { g with act := g.act.orphan, party := g.id, late := true, seep := none, owed := none }

/-- A flight that has ended with a result that lands next. -/
def State.timedResult (s : State) (f : Flight) (v : Row) : State :=
  s.modFlight f.id fun g => { g with act := .result f.act.dest v none [], hop := none, owed := none }

/-- What a timeout leaves for an operation (R397): 0 for an MCST, else all ones. -/
def Act.timeoutRow : Act → Row
  | .mcst _ _ _ _ _ => 0#256
  | .stampReturn _ _ _ => 0#256
  | _ => BitVec.allOnes 256

/-- OPERATION_TIMEOUT (R397): the destination is set, and the slot takes 0x19. -/
def execOperationTimeout (id : Nat) (s : State) : Out1 :=
  .next (match s.flight? id with
    | some f =>
      match s.timed? f with
      | none => s
      | some (v, limit) =>
        if f.pkt.isSome || f.late || s.cycle < f.born + limit then s
        else
          let s1 : State := s.abandonFlight f
          let row := f.act.timeoutRow
          let s2 : State :=
            if f.seep.isSome then s.timedResult f row
            else if !s.holds f.who f.party then s1
            else match f.act.dest with
              | .reg r => s1.modSlot f.who fun x => x.land r (row.setWidth 64) []
              | .lq => s1.modSlot f.who fun x => { x with lq := x.lq.map fun p => if p.flight = id then { p with row := some ⟨row, none⟩ } else p }
              | .row _ => s.timedResult f row
              | .none => (match f.act with
                | .send _ => s1.modSlot f.who fun x => { x with unacc := x.unacc - 1 }
                | .ack => s1.modSlot f.who fun x => { x with unacc := x.unacc - 1 }
                | _ => s1)
          s2.flightFault f 0x19 v
    | none => s)

/-! ## Links (R392 to R396) -/

/-- Enters recovery (R206): the part stops. -/
def State.enterRecovery (s : State) : State := { s with recovery := true }

/-- MESH_FLIT_RESEND (R392, R394): a flit that fails after 4 resends is fatal. -/
def execMeshFlitResend (position port resends : Nat) (s : State) : Out1 :=
  .next
    (if resends ≤ 4 then s
    else ({ s with life := { s.life with retired := s.life.retired ++ [(1, position * 4 + port)] } } : State).enterRecovery)

/-- A flight for a packet that has come from another device: it enters the mesh at the I/O bridge of its target's die, as of the party of its sender
(R179, R183) (DEDUCED, log 44). -/
def State.fromPacket (s : State) (p : Packet) (act : Act) : State :=
  let hop := if p.dport = 4 then none else hopFrom (bridgeOf p.dpos) p.dpos p.cls p.ord p.nfl
  (({ s with
      fresh := s.fresh + 1
      flights := s.flights ++ [{ id := s.fresh, who := ⟨2048, 0⟩, party := farParty p.srcid, ten := p.ten, level := s.devLevel p.ten, queue := 0
                                 born := s.cycle, act := act, pkt := some p, hop := hop }] } : State)).depart s.fresh

/-- A response from another device finds the oldest operation that waits for it (DESIGN CHOICE, log 14); a late one is only logged (R397). It goes on
from the I/O bridge to the core. -/
def State.takeResponse (s : State) (p : Packet) (port vc : Nat) : State :=
  let src := wordAt p.payload 0
  let hit := s.flights.find? fun f => f.pkt.isNone && !f.ready && s.srcId f.who == src &&
    (match f.act with
      | .send ws => wordAt ws 0 == p.opw && wordAt ws 1 == p.tgt
      | .mcst _ g _ _ _ => p.opw == 0x50#64 && p.tgt == wd g
      | _ => false)
  match hit with
  | none => s.logMgmt { kind := 7, port := port, vc := vc, src := p.srcid }
  | some f =>
    if f.late then (s.dropFlight f.id).logMgmt { kind := 7, port := port, vc := vc, src := p.srcid }
    else match f.act with
    | .mcst d g _ _ _ =>
      let n := (wordAt p.payload 1).toNat
      let s1 : State := s.setAct f.id (.stampReturn d g n)
      if n = 0 then s1.flightFault f 0x18 (wd g)
      else s1.modGroup g fun x =>
        if x.matched.contains f.id then { x with matched := x.matched.erase f.id }
        else { x with mine := x.mine.put (seqNear x.gapply n) f.rel }
    | .send ws =>
      let code := (wordAt p.payload 1).toNat
      let s2 : State := (s.answered f ws code).setAct f.id .ack
      (match msgReply ws with
        | some va =>
          if p.payload.length ≤ 2 then s2
          else s2.reply f (farParty p.srcid) (bridgeOf (s.seatPos f.who.core)) true va
            (((p.payload.drop 2).flatMap fun w => leBytes 8 w.toNat).take (if msgHandler ws = 0x10 then msgBytes ws else 8))
        | none => s2)
    | _ => s

/-- A management packet of ordered multicast. -/
def State.takeGroup (s : State) (p : Packet) : State :=
  let g := p.tgt.toNat % 256
  let gr := s.group g
  let v := (wordAt p.payload 0).toNat
  let from_ := fld p.srcid 43 32
  if !gr.entry.valid then s
  else match p.opw.toNat with
  | 1 => if gr.entry.seqdev = s.dev && gr.entry.members.contains from_ then s.takeReport g from_ (seqNear gr.stamp v) else s
  | 2 => if gr.entry.seqdev = from_ then s.learnG g (seqNear gr.gapply v) else s
  | 3 => if gr.entry.seqdev = s.dev then s.sendAgain g (seqNear gr.stamp v) from_ else s
  | 4 => if gr.entry.seqdev = from_ then s.learnMembers g (seqNear gr.gapply v) p.payload.tail else s
  | 5 => s.takeH g from_ (seqNear gr.gapply v)
  | 6 => if gr.entry.seqdev = from_ then s.cut g (seqNear gr.gapply v) (wordAt p.payload 1).toNat else s
  | _ => s

/-- A packet that is for this device. -/
def State.takePacket (s : State) (p : Packet) (port vc : Nat) : State :=
  let w := p.payload
  if p.cls = 1 then s.takeResponse p port vc
  else if p.cls = 3 then s.takeGroup p
  else if p.opw = 0x50#64 then
    let g := (wordAt w 0).toNat % 256
    let off := (wordAt w 1).toNat % 2 ^ 30
    let len := (wordAt w 3).toNat % 32 + 1
    let data := ((w.drop 4).flatMap fun x => leBytes 8 x.toNat).take len
    let n := (wordAt w 2).toNat % 2 ^ 48
    if n = 0 then s.fromPacket p (.mcst .none g off len data)
    else s.fromPacket p (.stamped g { n := seqNear (s.group g).gapply n, src := p.srcid, off := off, len := len, data := data })
  else s.fromPacket p (.send (p.opw :: p.tgt :: w.take 4))

/-- A packet at a Delmel port: dropped and logged, sent on, or taken in (R188, R395, R396). -/
def State.ingress (s : State) (port vc : Nat) (p : Packet) : State :=
  match packetBad p vc with
  | some kind => (s.dropPacket p.cls).logMgmt { kind := kind, port := port, vc := vc, src := p.srcid }
  | none => if p.ddev = s.dev then s.takePacket p port vc else s.sendOut p (some port)

/-- The lifetime counter of a port (R416): retrains, runs at 4 lanes and port-down events. -/
def State.bumpPort (s : State) (port : Nat) (st : PortState) : State :=
  let i := 0xC0 + port
  let w := wd (s.lifeCount i)
  let up (h l : Nat) (w : Word) : Word := setFld w h l (Nat.min (2 ^ (h + 1 - l) - 1) (fld w h l + 1))
  let w1 : Word := up 31 0 w
  let w2 : Word := if st = .narrow && s.portState port ≠ .narrow then up 47 32 w1 else if st = .down then up 63 48 w1 else w1
  { s with life := { s.life with counters := s.life.counters.put i w2.toNat } }

/-- DELMEL_FRAME_RECEIVE (R392, R395): a frame that fails its check is not acknowledged, and nothing of it is taken; it comes again in order, and what
the port sends behind it comes after it (DESIGN CHOICE, log 120). After 8 failed replays the port takes nothing more until it has retrained. -/
def execDelmelFrameReceive (port vc : Nat) (crcOk : Bool) (packets : List Packet) (s : State) : Out1 :=
  let n := s.badFrames.get 0 port
  let s1 : State := { s with out := s.out ++ [.frame port crcOk], badFrames := s.badFrames.put port (if crcOk then 0 else n + 1) }
  .next (if !s.portUp port || 9 ≤ n then s else if crcOk then packets.foldl (fun t p => t.ingress port vc p) s1 else s1)

/-- The packets of the last `n` that a port has sent. -/
def State.sentBy (s : State) (port n : Nat) : List Packet :=
  let ps := s.out.filterMap fun o => match o with
    | .packet q p => if q = port then some p else none
    | _ => none
  ps.drop (ps.length - n)

/-- A port goes down (R393): the packets of its unacknowledged frames, whose number the turn names, leave again by the parallel port before anything
else, or are lost with it (DESIGN CHOICE, log 120). -/
def State.replayOn (s : State) (port : Nat) : State :=
  let ps := s.sentBy port s.part
  let other := if port % 2 = 0 then port + 1 else port - 1
  if port < 12 && s.portUp other then { s with out := s.out ++ ps.map fun p => .packet other p }
  else ps.foldl (fun t p => t.dropPacket p.cls) s

/-- PORT_RETRAIN (R392 to R394): 8 lanes, 4 lanes, or down; `reserve`: its buffers give every VC its reserve. A port that was not brought up stays
down, and one with four retired lanes has no more than 4 (R417). -/
def execPortRetrain (port healthyLanes : Nat) (reserve : Bool) (s : State) : Out1 :=
  let st : PortState := if !reserve || decide (healthyLanes < 4) then .down
    else if healthyLanes < 8 || s.life.retired.contains (3, port) then .narrow else .wide
  let s1 : State := ({ s.bumpPort port st with ports := s.ports.put port st, badFrames := s.badFrames.put port 0 } : State).logMgmt { kind := 1, port := port }
  .next
    (if !s.portUp port then s
    else match st with
      | .wide => s1
      | .narrow => if s.portState port = .narrow then s1 else s1.logMgmt { kind := 4, port := port }
      | .down => (s1.replayOn port).logMgmt { kind := 5, port := port })

/-- REGION_RESTITCH (R189, R404): between launches, a region's links are set anew. One whose links cannot come up stays as it was, that is logged, and
the region goes back to plain mesh links before the next launch is accepted. -/
def execRegionRestitch (region : Region) (linksUp : Bool) (s : State) : Out1 :=
  .next
    (if !s.launches.isEmpty then s
    else if linksUp then
      { s with stitched := (s.stitched.filter fun r => !r.meets region) ++ [region], unstitch := s.unstitch.filter fun r => !r.meets region }
    else ({ s with unstitch := s.unstitch ++ [region] } : State).logMgmt { kind := 8, pos := region.row * 8 + region.col })

/-! ## The host fails (R371) -/

/-- A built-in STORE or LOAD whose request to host space failed: a LOAD deposits all ones, and the fault goes to the slot that sent it. -/
def State.hostMessage (s : State) (id : Nat) : State :=
  match s.message? id with
  | none => s
  | some (f, ws) =>
    match s.msgCheck f (if msgHandler ws = 0x10 then .load else .store) ws with
    | .ok k =>
      if s.place k = .host && (msgHandler ws = 0x00 || msgHandler ws = 0x10) then s.served f ws f.id (List.replicate (msgBytes ws) 0xFF#8) 3 else s
    | _ => s

/-- HOST_REQUEST_FAIL (R371): the request of a flight, or of the group that a copy operation moves next. -/
def execHostRequestFail (id : Nat) (s : State) : Out1 :=
  .next (match s.flight? id with
    | some f =>
      match f.act with
      | .load d va k _ _ _ _ =>
        if s.place k = .host then (s.setAct id (.result d (BitVec.allOnes 256) none [])).flightFault f 0x17 va else s
      | .store va k _ _ _ => if s.place k = .host then (s.dropFlight id).flightFault f 0x17 va else s
      | .copyRead core op _ dst k _ _ =>
        if s.place k = .host then
          match (s.core core).queue.find? fun o => o.id == op with
          | some o => (s.dropFlight id).hostFailed core o dst
          | none => s.dropFlight id
        else s
      | .send _ => s.hostMessage id
      | _ => s
    | none => match s.hostPiece id with
      | some p => (s.hostOnes p).hostFailed p.core p.op p.va
      | none => s)

end Sys2Proof.Machine
end

