-- ==== Sys2Proof/Machine/Rows.lean ====
section
/-! DEFINITION. Row instructions (R258 to R281): what a row word computes, its checks and its way into the sequencer, VREP, and the
event that performs the sequencer's head. -/

namespace Sys2Proof.Machine

open Host

/-! ## What a row word computes -/

/-- What a row word produces: rows of d, the row of the second destination, a scalar, flags and AMAX. -/
structure RowOut where
  d : List Row := []
  e : Option Row := none
  s : Option Word := none
  fl : FFlags := 0#7
  amax : Nat := 0
  deriving DecidableEq, Repr

/-- What a row word reads: rows of a, of b and of d, captured scalars, FRM and AMAX. -/
structure RowIn where
  a : List Row := []
  b : Row := 0#256
  d : Row := 0#256
  sc : List Word := []
  rm : RMode := .rne
  amax : Nat := 0
  deriving DecidableEq, Repr

/-- First row of a. -/
def RowIn.a0 (x : RowIn) : Row := x.a.headD 0#256

/-- A row of lanes with flags, its flags the OR over the lanes (R127). -/
def packFl (w : Nat) (l : List (Nat × FFlags)) : Row × FFlags := (ofLanes w (l.map (·.1)), l.foldl (fun f x => f ||| x.2) 0#7)

/-- Lane by lane over a and b (R262). -/
def fl2 (t : FTy) (x : RowIn) (f : Fmt → Nat → Nat → Nat × FFlags) : RowOut :=
  let p := packFl (fmtOf t).width ((List.zip (lanes x.a0 (fmtOf t).width) (lanes x.b (fmtOf t).width)).map fun q => f (fmtOf t) q.1 q.2)
  { d := [p.1], fl := p.2, amax := x.amax }
/-- Lane by lane over a, b and d (R262). -/
def fl3 (t : FTy) (x : RowIn) (f : Fmt → Nat → Nat → Nat → Nat × FFlags) : RowOut :=
  let w := (fmtOf t).width
  let p := packFl w ((List.zip (lanes x.a0 w) (List.zip (lanes x.b w) (lanes x.d w))).map fun q => f (fmtOf t) q.1 q.2.1 q.2.2)
  { d := [p.1], fl := p.2, amax := x.amax }
/-- Lane by lane over a (R262). -/
def fl1 (t : FTy) (x : RowIn) (f : Fmt → Nat → Nat × FFlags) : RowOut :=
  let p := packFl (fmtOf t).width ((lanes x.a0 (fmtOf t).width).map (f (fmtOf t)))
  { d := [p.1], fl := p.2, amax := x.amax }
/-- Integer lanes over a and b (R264): no flag. -/
def il2 (t : ITy) (x : RowIn) (f : Nat → Nat → Nat → Nat) : RowOut :=
  { d := [ofLanes t.width ((List.zip (lanes x.a0 t.width) (lanes x.b t.width)).map fun q => f t.width q.1 q.2)], amax := x.amax }
/-- Integer lanes over a (R264). -/
def il1 (t : ITy) (x : RowIn) (f : Nat → Nat → Nat) : RowOut :=
  { d := [ofLanes t.width ((lanes x.a0 t.width).map (f t.width))], amax := x.amax }
/-- One whole row. -/
def one (x : RowIn) (r : Row) : RowOut := { d := [r], amax := x.amax }

/-- A signed integer as a lane. -/
def laneOf (w : Nat) (v : Int) : Nat := (IFmt.mk w true).wrap v
/-- A signed integer clamped to the lane (R264). -/
def clampLane (w : Nat) (v : Int) : Nat :=
  let f : IFmt := ⟨w, true⟩
  laneOf w (if v < f.lo then f.lo else if f.hi < v then f.hi else v)
/-- All ones or zero (R264). -/
def maskLane (w : Nat) (c : Bool) : Nat := if c then 2 ^ w - 1 else 0

/-- The sign bit of a lane replaced (R263). -/
def withSign (f : Fmt) (x : Nat) (s : Bool) : Nat := x % f.signBit + (if s then f.signBit else 0)
/-- The sign bit of a lane. -/
def signOf (f : Fmt) (x : Nat) : Bool := bitOf x (f.ew + f.fw)

/-- Two rows from 2N lanes. -/
def twoRows (w : Nat) (z : List Nat) : List Row := [ofLanes w (z.take (256 / w)), ofLanes w (z.drop (256 / w))]
/-- VZIP (R268). -/
def zipRows (w : Nat) (a b : Row) : List Row :=
  twoRows w ((List.zip (lanes a w) (lanes b w)).flatMap fun q => [q.1, q.2])
/-- Every second lane, from `n`. -/
def everyOther (z : List Nat) (n : Nat) : List Nat := (List.range (z.length / 2)).map fun i => z.getD (2 * i + n) 0
/-- VUZP (R268). -/
def unzipRows (w : Nat) (a b : Row) : List Row :=
  let z := lanes a w ++ lanes b w
  [ofLanes w (everyOther z 0), ofLanes w (everyOther z 1)]

/-- VPERM (R266). -/
def permRow (a b : Row) : Row :=
  ofLanes 8 ((lanes b 8).map fun i => if bitOf i 7 then 0 else lane a 8 (i % 32))

/-- Lane width of a move (R265). -/
def laneWidth (w : LaneW) : Nat :=
  match w with
  | .b => 8
  | .h => 16
  | .w => 32
  | .d => 64

/-- The AMAX update over source lanes, and its flag (R128). -/
def amaxAll (e : Elem) (on : Bool) (amax : Nat) (l : List Nat) : Nat × FFlags :=
  if on then l.foldl (fun m x => let r := amaxLane e m.1 x; (r.1, m.2 ||| r.2)) (amax, 0#7) else (amax, 0#7)

/-- VCVT (R273). -/
def cvtRow (x : RowIn) (p : Elem × Elem) (rm : RMode) (sat amx : Bool) : RowOut :=
  let n := 256 / Nat.max p.1.width p.2.width
  let src := (List.range n).map (lane x.a0 p.1.width)
  let q := packFl p.2.width (src.map (cvt p.1 p.2 rm sat))
  let m := amaxAll p.1 amx x.amax src
  { d := [q.1], fl := q.2 ||| m.2, amax := m.1 }
/-- VPACK (R273). -/
def packRow (x : RowIn) (p : Elem × Elem) (rm : RMode) (sat amx : Bool) : RowOut :=
  let src := x.a.flatMap fun r => lanes r p.1.width
  let q := packFl p.2.width (src.map (cvt p.1 p.2 rm sat))
  let m := amaxAll p.1 amx x.amax src
  { d := [q.1], fl := q.2 ||| m.2, amax := m.1 }
/-- Rows of `m` lanes each from a list of lanes. -/
def splitRows (w : Nat) : Nat → List Nat → List Row
  | 0, _ => []
  | n + 1, l => ofLanes w (l.take (256 / w)) :: splitRows w n (l.drop (256 / w))
/-- VWIDEN (R273). -/
def widenRow (x : RowIn) (p : Elem × Elem) (rm : RMode) (sat amx : Bool) : RowOut :=
  let src := lanes x.a0 p.1.width
  let y := src.map (cvt p.1 p.2 rm sat)
  let m := amaxAll p.1 amx x.amax src
  { d := splitRows p.2.width (p.2.width / p.1.width) (y.map (·.1)), fl := y.foldl (fun f z => f ||| z.2) m.2, amax := m.1 }
/-- VCVTEF (R274). -/
def efRow (x : RowIn) (dst : Fmt) : RowOut :=
  let y := (lanes x.a0 32).map (errorFree dst .rne false)
  { d := [ofLanes 16 (y.map (·.1))], e := some (ofLanes 32 (y.map (·.2.1))), fl := y.foldl (fun f z => f ||| z.2.2) 0#7, amax := x.amax }

/-- A lane widened for accumulation (R275): float types to FP32, integer types to their value modulo 2^32. -/
def widenLane (t : RedTy) (x : Nat) : Nat × FFlags :=
  match t with
  | .f32 => (x, 0#7)
  | .bf16 => fConvert bf16 fp32 .rne false x
  | .f16 => fConvert fp16 fp32 .rne false x
  | .i32 => (x, 0#7)
  | .i16 => (laneOf 32 (sLane 16 x), 0#7)
  | .i8 => (laneOf 32 (sLane 8 x), 0#7)
/-- Lane width of a reduction type. -/
def redWidth (t : RedTy) : Nat :=
  match t with
  | .f32 => 32
  | .bf16 => 16
  | .f16 => 16
  | .i32 => 32
  | .i16 => 16
  | .i8 => 8
/-- Is the type a float type? -/
def redFloat (t : RedTy) : Bool :=
  match t with
  | .f32 => true
  | .bf16 => true
  | .f16 => true
  | _ => false

/-- A fold of lanes into an accumulator, flags gathered. -/
def foldLanes (step : Nat → Nat → Nat × FFlags) (s : Nat) (l : List (Nat × FFlags)) : Nat × FFlags :=
  l.foldl (fun acc x => let r := step acc.1 x.1; (r.1, acc.2 ||| x.2 ||| r.2)) (s, 0#7)

/-- Lane 0 of d replaced (R276). -/
def lane0 (d : Row) (v : Nat) : Row := ofLanes 32 (v :: (lanes d 32).tail)

/-- VRSUM, VRMAX and VRMIN (R276): 0 sum, 1 maximum, 2 minimum. -/
def reduceRow (x : RowIn) (t : RedTy) (k : Nat) : RowOut :=
  let src := (lanes x.a0 (redWidth t)).map (widenLane t)
  let step (s v : Nat) : Nat × FFlags :=
    if redFloat t then (if k = 0 then fAdd fp32 x.rm v s false else fMinMax fp32 (k = 1) v s)
    else if k = 0 then ((s + v) % 2 ^ 32, 0#7)
    else
      let lt := decide (sLane 32 s < sLane 32 v)
      (if lt = decide (k = 1) then v else s, 0#7)
  let r := foldLanes step (lane x.d 32 0) src
  { d := [lane0 x.d r.1], fl := r.2, amax := x.amax }

/-- One exact product accumulated (R276, R277): one rounding to FP32, or the low 32 bits. -/
def dotStep (rm : RMode) (t : RedTy) (s : Nat × FFlags) (a b : Nat) : Nat × FFlags :=
  let x := widenLane t a
  let y := widenLane t b
  let r := if redFloat t then fFma fp32 rm x.1 y.1 s.1 false else ((s.1 + x.1 * y.1) % 2 ^ 32, 0#7)
  (r.1, s.2 ||| x.2 ||| y.2 ||| r.2)

/-- VDOT (R276). -/
def dotRow (x : RowIn) (t : RedTy) : RowOut :=
  let w := redWidth t
  let r := (List.zip (lanes x.a0 w) (lanes x.b w)).foldl (fun s q => dotStep x.rm t s q.1 q.2) (lane x.d 32 0, 0#7)
  { d := [lane0 x.d r.1], fl := r.2, amax := x.amax }
/-- VDOTW (R277). -/
def dotwRow (x : RowIn) (t : RedTy) : RowOut :=
  let w := redWidth t
  let p := 32 / w
  let q := packFl 32 ((List.range 8).map fun j =>
    (List.range p).foldl (fun s i => dotStep x.rm t s (lane x.a0 w (p * j + i)) (lane x.b w (p * j + i))) (lane x.d 32 j, 0#7))
  { d := [q.1], fl := q.2, amax := x.amax }

/-- Index j of group g of a metadata word (R278). -/
def metaIx (m : Word) (g j : Nat) : Nat := fld m (12 * g + 3 * j + 2) (12 * g + 3 * j)
/-- Is a metadata word well formed (R278, R357)? -/
def metaOk (m : Word) : Bool :=
  decide (fld m 63 48 = 0) && (List.range 4).all fun g => (List.range 3).all fun j => decide (metaIx m g j < metaIx m g (j + 1))

/-- Magnitude of an INT8 lane (R279). -/
def mag8 (x : Nat) : Nat := (sLane 8 x).natAbs
/-- The kept indices of a group of eight lanes (R279). -/
def kept (l : List Nat) : List Nat :=
  (List.range 8).filter fun t =>
    ((List.range 8).countP fun u => mag8 (l.getD t 0) < mag8 (l.getD u 0) || (mag8 (l.getD u 0) == mag8 (l.getD t 0) && u < t)) < 4
/-- VSPRS (R279): the compressed row and the metadata word. -/
def sprsRow (a : Row) : Row × Word :=
  let groups := (List.range 4).map fun g => (List.range 8).map fun t => lane a 8 (8 * g + t)
  (ofLanes 8 (groups.flatMap fun l => (kept l).map fun t => l.getD t 0),
    wd (((List.range 4).flatMap fun g => (kept (groups.getD g [])).mapIdx fun j t => t * 2 ^ (12 * g + 3 * j)).sum))
/-- VSEXP (R280). -/
def sexpRow (a : Row) (m : Word) : Row :=
  ofLanes 8 ((List.range 32).map fun p =>
    match (List.range 4).find? fun j => metaIx m (p / 8) j == p % 8 with
    | some j => lane a 8 (4 * (p / 8) + j)
    | none => 0)
/-- VSDOT (R281). -/
def sdotRow (acc m : Word) (a b : Row) : Word :=
  (List.range 16).foldl (fun s i =>
    s + BitVec.ofInt 64 (sLane 8 (lane a 8 i) * sLane 8 (lane b 8 (8 * (i / 4) + metaIx m (i / 4) (i % 4))))) acc

/-- The effect of a row word on what it reads (R262 to R281). VPARK, VUNPK and VREP move rows only. -/
def rowCompute (i : Instr) (x : RowIn) : RowOut :=
  match i with
  | .vaddF t _ _ _ _ => fl2 t x fun f u v => fAdd f x.rm u v false
  | .vsubF t _ _ _ _ => fl2 t x fun f u v => fAdd f x.rm u v true
  | .vmulF t _ _ _ _ => fl2 t x fun f u v => fMul f x.rm u v
  | .vdiv t _ _ _ _ => fl2 t x fun f u v => fDiv f x.rm u v
  | .vfma t _ _ _ _ => fl3 t x fun f u v z => fFma f x.rm u v z false
  | .vfms t _ _ _ _ => fl3 t x fun f u v z => fFma f x.rm u v z true
  | .vminF t _ _ _ _ => fl2 t x fun f u v => fMinMax f false u v
  | .vmaxF t _ _ _ _ => fl2 t x fun f u v => fMinMax f true u v
  | .vabsF t _ _ _ => fl1 t x fun f u => (withSign f u false, 0#7)
  | .vnegF t _ _ _ => fl1 t x fun f u => (withSign f u !signOf f u, 0#7)
  | .vsqrt t _ _ _ => fl1 t x fun f u => fSqrt f x.rm u
  | .vscl t _ _ _ _ => fl2 t x fun f u v => fScale f x.rm u (sLane f.width v)
  | .vcpys t _ _ _ _ => fl2 t x fun f u v => (withSign f u (signOf f v), 0#7)
  | .vceqF t _ _ _ _ => fl2 t x fun f u v => fCompare f .eq u v
  | .vcltF t _ _ _ _ => fl2 t x fun f u v => fCompare f .lt u v
  | .vcle t _ _ _ _ => fl2 t x fun f u v => fCompare f .le u v
  | .vaddI t _ _ _ _ => il2 t x fun w u v => (u + v) % 2 ^ w
  | .vsubI t _ _ _ _ => il2 t x fun w u v => (u + 2 ^ w - v) % 2 ^ w
  | .vmulI t _ _ _ _ => il2 t x fun w u v => u * v % 2 ^ w
  | .vmulh t _ _ _ _ => il2 t x fun w u v => laneOf w (sLane w u * sLane w v / 2 ^ w)
  | .vadds t _ _ _ _ => il2 t x fun w u v => clampLane w (sLane w u + sLane w v)
  | .vsubs t _ _ _ _ => il2 t x fun w u v => clampLane w (sLane w u - sLane w v)
  | .vminI t _ _ _ _ => il2 t x fun w u v => if sLane w v < sLane w u then v else u
  | .vmaxI t _ _ _ _ => il2 t x fun w u v => if sLane w u < sLane w v then v else u
  | .vminu t _ _ _ _ => il2 t x fun _ u v => Nat.min u v
  | .vmaxu t _ _ _ _ => il2 t x fun _ u v => Nat.max u v
  | .vceqI t _ _ _ _ => il2 t x fun w u v => maskLane w (u == v)
  | .vcltI t _ _ _ _ => il2 t x fun w u v => maskLane w (decide (sLane w u < sLane w v))
  | .vcltu t _ _ _ _ => il2 t x fun w u v => maskLane w (decide (u < v))
  | .vshl t _ _ n _ => il1 t x fun w u => u * 2 ^ n.toNat % 2 ^ w
  | .vshr t _ _ n _ => il1 t x fun _ u => u / 2 ^ n.toNat
  | .vsra t _ _ n _ => il1 t x fun w u => laneOf w (sLane w u / 2 ^ n.toNat)
  | .vabsI t _ _ _ => il1 t x fun w u => laneOf w (sLane w u).natAbs
  | .vnegI t _ _ _ => il1 t x fun w u => laneOf w (-sLane w u)
  | .vand _ _ _ _ => one x (x.a0 &&& x.b)
  | .vor _ _ _ _ => one x (x.a0 ||| x.b)
  | .vxor _ _ _ _ => one x (x.a0 ^^^ x.b)
  | .vsel _ _ _ _ => one x ((x.d &&& x.a0) ||| (~~~x.d &&& x.b))
  | .vperm _ _ _ _ => one x (permRow x.a0 x.b)
  | .vbcst _ _ w => one x (ofLanes (laneWidth w) (List.replicate w.lanes (wordAt x.sc 0).toNat))
  | .vins _ _ w n => one x (ofLanes (laneWidth w) ((lanes x.d (laneWidth w)).set n.toNat (wordAt x.sc 0).toNat))
  | .vext _ _ w n _ => { s := some (wd (lane x.a0 (laneWidth w) n.toNat)), amax := x.amax }
  | .vrev _ _ w _ => one x (ofLanes (laneWidth w) (lanes x.a0 (laneWidth w)).reverse)
  | .vzipH _ _ _ _ => { d := zipRows 16 x.a0 x.b, amax := x.amax }
  | .vzipW _ _ _ _ => { d := zipRows 32 x.a0 x.b, amax := x.amax }
  | .vuzpH _ _ _ _ => { d := unzipRows 16 x.a0 x.b, amax := x.amax }
  | .vuzpW _ _ _ _ => { d := unzipRows 32 x.a0 x.b, amax := x.amax }
  | .vcvt _ _ rm sat amx tp _ => cvtRow x (tpPair tp) rm sat amx
  | .vpack _ _ rm sat amx tp _ => packRow x (tpPair tp) rm sat amx
  | .vwiden _ _ rm sat amx tp _ => widenRow x (tpPair tp) rm sat amx
  | .vcvtB _ _ rm sat amx tb _ => cvtRow x (tbPair tb) rm sat amx
  | .vcvtef _ _ _ _ f16 => efRow x (if f16 then fp16 else bf16)
  | .vrsum _ _ t _ => reduceRow x t 0
  | .vrmax _ _ t _ => reduceRow x t 1
  | .vrmin _ _ t _ => reduceRow x t 2
  | .vdotF32 _ _ _ _ => dotRow x .f32
  | .vdotBf16 _ _ _ _ => dotRow x .bf16
  | .vdotF16 _ _ _ _ => dotRow x .f16
  | .vdotI16 _ _ _ _ => dotRow x .i16
  | .vdotI8 _ _ _ _ => dotRow x .i8
  | .vdotwBf16 _ _ _ _ => dotwRow x .bf16
  | .vdotwF16 _ _ _ _ => dotwRow x .f16
  | .vdotwI16 _ _ _ _ => dotwRow x .i16
  | .vdotwI8 _ _ _ _ => dotwRow x .i8
  | .vsprs _ _ _ _ => { d := [(sprsRow x.a0).1], s := some (sprsRow x.a0).2, amax := x.amax }
  | .vsexp _ _ _ _ => one x (sexpRow x.a0 (wordAt x.sc 0))
  | .vsdot _ _ _ _ => { s := some (sdotRow (wordAt x.sc 0) (wordAt x.sc 1) x.a0 x.b), amax := x.amax }
  | _ => { amax := x.amax }

/-! ## Checks and the way into the sequencer -/

/-- Scalar sources of a row word in the order of the checks (R260, R281). -/
def rowSources : Instr → List Reg
  | .vbcst _ a _ => [a]
  | .vins _ a _ _ => [a]
  | .vsexp _ _ m _ => [m]
  | .vsdot d _ _ _ => [d, d ||| 1#5]
  | _ => []

/-- Which captured scalar is a metadata word (R357). -/
def rowMeta : Instr → Option Nat
  | .vsexp _ _ _ _ => some 0
  | .vsdot _ _ _ _ => some 1
  | _ => none

/-- Is the word one of majors 0x20 to 0x29 other than VREP? -/
def isBodyWord (w : BitVec 32) (i : Instr) : Bool :=
  let op := bits w.toNat 31 26
  decide (0x20 ≤ op) && decide (op ≤ 0x29) && (match i with | .vrep _ _ _ => false | _ => true)

/-- The tile bank of a park row in a tile bank (R269). -/
def parkBank (p : BitVec 7) : Option Nat := if 64 ≤ p.toNat then some (12 + (p.toNat - 64) / 16) else none

/-- Storage key of a park row (R269). -/
def parkKey (core : Nat) (p : BitVec 7) : Nat :=
  if 64 ≤ p.toNat then bankAddr core (12 + (p.toNat - 64) / 16) + p.toNat % 16 * 0x20
  else chipAddr (core / 16) 31 0 (0xB8000 + core % 16 * 0x800 + p.toNat * 0x20)

/-- Is a tile bank held by a slot or retained by a strand (R357)? -/
def Core.tileHeld (c : Core) (b : Nat) : Bool :=
  (c.slots.toList.any fun x => x.occ != .free && x.tiles.contains b) || c.retained.any fun e => e.tiles.contains b

/-- The park row of a word. -/
def parkOf : Instr → Option (BitVec 7 × Bool)
  | .vpark _ p _ => some (p, false)
  | .vunpk _ p => some (p, true)
  | _ => none

/-- The park checks of R357: a trap code with its value. -/
def State.parkFault (s : State) (r : SlotRef) (effs : List (Nat × Nat)) (i : Instr) : Option (Nat × Word) :=
  match parkOf i with
  | none => none
  | some (p, reads) =>
    match parkBank p with
    | none => none
    | some b =>
      if (s.core r.core).tileHeld b then some (6, wd (parkKey r.core p))
      else if reads && bankAfterAll b ((s.core r.core).bank b) effs = 0 then some (9, wd b)
      else none

/-- The first fault of a row word in its rows, metadata and banks, given the effects still owed (R344 steps 8, 9 and 11, R356, R357). -/
def State.rowFault (s : State) (r : SlotRef) (effs : List (Nat × Nat)) (i : Instr) (sc : List Word) : Option (Nat × Word) :=
  let x : Slot := s.slot r
  let fs := (rowShape i).fields
  if fs.any fun f => !f.lawful then some (1, 0#64)
  else match fs.findSome? fun f => f.unmapped x.tiles.length with
    | some n => some (9, wd (2 ^ 63 + n))
    | none =>
      let badMeta : Option Word := match rowMeta i with
        | some n => if metaOk (wordAt sc n) then none else some (wordAt sc n)
        | none => none
      match badMeta with
      | some m => some (0x0A, m)
      | none =>
        match s.parkFault r effs i with
        | some f => some f
        | none =>
          let reads := (fs.filter fun f => f.use != .dst).flatMap x.fieldBanks
          (reads.find? fun b => bankAfterAll b ((s.core r.core).bank b) effs = 0).map fun b => (9, wd b)

/-- A row word at issue (R162, R260, R344): checked, then entered in the sequencer with its scalars. -/
def rowIssue (major : Nat) (i : Instr) (src dst : List Reg) (_metadata : Option Nat) (s : State) : State :=
  s.needs false major fun s =>
    s.issue (src.map fun a => (a, s.wmode)) dst fun s =>
      let sc := src.map s.sl.rd
      match s.rowFault s.cur (s.owedEffects s.cur) i sc with
      | some (c, v) => s.trap c v
      | none => s.pushSeq i sc none dst

/-! ## VREP (R271, R358) -/

/-- The body words that follow a VREP, fetched one after another, or what stops the fetch: a trap, or a state in which the VREP waits. -/
def State.fetchBody (s : State) (pc : Word) : Nat → Except State (List (BitVec 32) × State)
  | 0 => .ok ([], s)
  | n + 1 =>
    match s.fetchWord s.cur pc with
    | .word w s1 =>
      match s1.fetchBody (pc + 4#64) n with
      | .ok (ws, t) => .ok (w :: ws, t)
      | .error t => .error t
    | .bad c _ => .error (s.trap c pc)
    | .miss => .error (s.wantWalk s.cur pc .fetch)
    | .own => .error s
    | .wake core b k => .error ((s.wake core b).holdFetch s.cur pc k)

/-- Every body word under R348, R356 and R357 for the replays listed, in replay order (DEDUCED, log 75). A scalar source that is empty here is one in trap
mode: in block mode the VREP has waited for it. -/
def State.bodyFault (s : State) (ws : List (Instr × List Word)) (sd sa sb : Nat) : List Nat → List (Nat × Nat) → Option (Nat × Word)
  | [], _ => none
  | k :: ks, effs =>
    let step (acc : Option (Nat × Word) × List (Nat × Nat)) (w : Instr × List Word) : Option (Nat × Word) × List (Nat × Nat) :=
      match acc.1 with
      | some f => (some f, acc.2)
      | none =>
        match (rowSources w.1).find? fun a => !s.sl.isFull a with
        | some a => (some (4, wd a.toNat), acc.2)
        | none =>
          let i := strideInstr k sd sa sb w.1
          (s.rowFault s.cur acc.2 i w.2, acc.2 ++ s.sl.rowEffects i false)
    match ws.foldl step (none, effs) with
    | (some f, _) => some f
    | (none, e) => s.bodyFault ws sd sa sb ks e

/-- Captures a VREP whose body words and sources are at hand (R271, R358). -/
def State.capture (s : State) (c : Nat) (st : Word) (ws : List (BitVec 32)) (is : List Instr) : State :=
  let len := ws.length
  let body := is.map fun i => (i, (rowSources i).map s.sl.rd)
  match s.bodyFault body (fld st 6 0) (fld st 14 8) (fld st 22 16) (List.range (Nat.max 1 (Nat.min c 112))) (s.owedEffects s.cur) with
  | some (code, v) => s.trap code v
  | none =>
    let adv : State → State := fun s => s.modSl fun x => { x.retire with pc := x.pc + BitVec.ofNat 64 (4 * (len + 1)) }
    if c = 0 then adv s
    else if 16 < (s.core s.cur.core).seqLen + len then s
    else
      let rm : RMode := [RMode.rne, RMode.rtz, RMode.rdn, RMode.rup].getD s.sl.frm.toNat .rne
      let words : List SeqEntry := (List.zip ws body).map fun p =>
        { slot := s.cur.slot, party := s.sl.party, instr := p.2.1, word := p.1, scal := p.2.2, frm := rm, id := s.fresh, inh := bit s.sl.trap.tstat 4 }
      let v : VBody := { slot := s.cur.slot, words := words, count := c, k := 0, e := 0, sd := fld st 6 0, sa := fld st 14 8, sb := fld st 22 16 }
      let s1 : State := { s with fresh := s.fresh + 1 }
      adv ((s1.modCore s1.cur.core fun k => { k with seq := k.seq ++ [.rep v] }).modSl fun x =>
        (is.filterMap seqDest).foldl (fun y d => y.setFull d false) x)

/-- VREP (R271, R358): the whole body is checked and captured as one instruction (DEDUCED, log 29). In block mode it waits for its own scalar sources and
then for those of its body, before any check that reads them. -/
def execVrep (a : Reg) (n : BitVec 4) (b : Reg) (s : State) : Out1 :=
  let own : List (Reg × Bool) := [(a, s.wmode), (b, s.wmode)]
  .next (s.needs false 0x26 fun s =>
    match s.sl.sources own with
    | .empty r => s.trap 4 (wd r.toNat)
    | .wait => s.modSl fun x => { x with waits := x.waits ||| x.emptyMask own }
    | .go =>
      match s.fetchBody (s.sl.pc + 4#64) (n.toNat + 1) with
      | .error t => t
      | .ok (ws, s) =>
        let is := ws.map decode
        if (List.zip ws is).any fun p => match p.2 with | some i => !isBodyWord p.1 i | none => true then s.trap 1 0#64
        else
          let is := is.filterMap fun i => i
          let src : List (Reg × Bool) := if s.wmode then [] else is.flatMap fun i => (rowSources i).map fun q => (q, false)
          s.issue (own ++ src) (is.filterMap seqDest) fun s => s.capture (fld (s.sl.rd a) 15 0) (s.sl.rd b) ws is)

/-! ## Performing a sequencer entry (R162, R163, R261) -/

/-- A row read by a slot's entry: a poisoned granule's bytes are zeros and the slot takes 0x14 (R379), as an access of what issued the entry (R341); from a bank that has gone Off since the issue, as
under a VUNPK when the bank has been granted, it reads zeros and the slot takes 0x09 (R67). -/
def State.readKeyRow (s : State) (r : SlotRef) (e : SeqEntry) (key : Nat) (view : List Nat) (body : Option (Nat × Nat)) : Row × State :=
  let x : Slot := s.slot r
  let fault (s : State) (c g : Nat) : State :=
    s.asyncFault r e.party x.ten x.queue { code := c, tval := wd g, handler := e.inh, body := body }
  match s.readAt e.party x.ten key 32 view with
  | .val bs po _ s1 => (rowOf bs, match po with | some g => fault s1 0x14 g | none => s1)
  | .dead g => (0#256, fault s 9 g)
  | .held s1 => (0#256, s1)

/-- Reads one row by name: a tile row, the oldest LQ entry, which it pops, or zero (R221). -/
def State.readRow (s : State) (r : SlotRef) (e : SeqEntry) (n : Nat) (view : List Nat) (body : Option (Nat × Nat)) : Row × State :=
  let x : Slot := s.slot r
  if n < 112 then s.readKeyRow r e (tileKey r.core (x.tileBank n) (n % 16)) view body
  else if n = 112 then
    (match x.lq with
      | p :: _ => ((p.row.getD {}).bits, s.modSlot r fun x => { x with lq := x.lq.tail })
      | [] => (0#256, s))
  else (0#256, s)

/-- Reads `cnt` rows from name `n` on. -/
def State.readRows (s : State) (r : SlotRef) (e : SeqEntry) (n : Nat) (view : List Nat) (body : Option (Nat × Nat)) : Nat → List Row × State
  | 0 => ([], s)
  | c + 1 =>
    let (v, s1) := s.readRow r e n view body
    let (vs, s2) := s1.readRows r e (if n < 112 then n + 1 else n) view body c
    (v :: vs, s2)

/-- The rows that a source field reads. -/
def State.readField (s : State) (r : SlotRef) (e : SeqEntry) (view : List Nat) (body : Option (Nat × Nat)) :
    Option RowField → List Row × State
  | some f => if f.use == .dst then ([], s) else s.readRows r e f.name.toNat view body f.cnt
  | none => ([], s)

/-- What a destination field writes, in order: rows by storage key, and rows pushed on SQ (R221). -/
def Slot.fieldWrites (x : Slot) (core : Nat) (f : Option RowField) (vs : List Row) : List (Nat × Row) × List Row :=
  match f with
  | some f =>
    let n := f.name.toNat
    if f.use == .src then ([], [])
    else if n < 112 then (vs.mapIdx fun j v => (tileKey core (x.tileBank (n + j)) ((n + j) % 16), v), [])
    else if n = 113 then ([], vs)
    else ([], [])
  | none => ([], [])

/-- Core banks that an entry reads, a park row's among them. -/
def State.entryReads (s : State) (r : SlotRef) (i : Instr) : List Nat :=
  let x : Slot := s.slot r
  let park : List Nat := match parkOf i with
    | some (p, true) => (parkBank p).toList
    | _ => []
  let rst : List Nat := match i with
    | .rst n _ _ _ => if n.toNat < 112 then [x.tileBank n.toNat] else []
    | _ => []
  ((rowShape i).fields.filter fun f => f.use != .dst).flatMap x.fieldBanks ++ park ++ rst

/-- The row names of an entry, RLD and RST among them. -/
def entryNames (i : Instr) : List Nat :=
  ((rowShape i).fields.flatMap fun f => (List.range f.cnt).map (f.name.toNat + ·)) ++
    (match i with | .rld n _ _ _ => [n.toNat] | .rst n _ _ _ => [n.toNat] | _ => [])

/-- The storage keys of the rows that an entry reads or writes. -/
def State.entryKeys (s : State) (r : SlotRef) (i : Instr) : List Nat :=
  let x : Slot := s.slot r
  ((entryNames i).filter fun n => decide (n < 112)).map (fun n => tileKey r.core (x.tileBank n) (n % 16)) ++
    (parkOf i).toList.map fun p => parkKey r.core p.1

/-- Is the word a CSR instruction, which is performed behind all row instructions (R129, R270)? -/
def isCsr : Instr → Bool
  | .csrr _ _ => true
  | .csrw _ _ _ => true
  | .csrs _ _ _ => true
  | .csrc _ _ _ => true
  | _ => false

/-- Does an entry wait for an earlier one that has started: for a row, the scalar or the SQ order that it shares with it, a CSR for every one? -/
def State.entryBehind (s : State) (r : SlotRef) (i : Instr) : Bool :=
  (s.flightsOf r).any fun f => match f.act with
    | .rows o => isCsr i || o.rows.any (fun e => (s.entryKeys r i).contains e.1) || (o.pk.isSome && (parkOf i).isSome) ||
        (!o.sq.isEmpty && (entryNames i).contains 113) || (match o.reg, seqDest i with | some (d, _), some e => d == e | _, _ => false)
    | _ => false

/-- Does an entry's row wait for an RLD of an earlier number to land? -/
def State.rowsOwed (s : State) (r : SlotRef) (id : Nat) (i : Instr) : Bool :=
  (s.flightsOf r).any fun f => decide (f.id < id) && (match f.act.dest with | .row n => (entryNames i).contains n.toNat | _ => false)

/-- May the entry start (R69, R163)? Banks that it reads Full, its LQ entries landed, room in SQ, and what it shares with earlier entries written. A bank
that is Off does not hold it. -/
def State.entryReady (s : State) (r : SlotRef) (id : Nat) (i : Instr) : Bool :=
  let x : Slot := s.slot r
  let h := rowShape i
  let pops := ((h.fields.filter fun f => f.name = 112#7 && f.use != .dst).map (·.cnt)).sum
  let pushes := ((h.fields.filter fun f => f.name = 113#7 && f.use == .dst).map (·.cnt)).sum
  (s.entryReads r i).all (fun b => (s.core r.core).bank b = 2 || (s.core r.core).bank b = 0) &&
  decide (pops ≤ x.lq.length) && ((x.lq.take pops).all fun p => p.row.isSome) &&
  decide (x.sq.length + pushes ≤ 16 + x.sa.length) && !s.rowsOwed r id i && !s.entryBehind r i

/-- Starts the wakes of the banks that an entry reads (R67). -/
def State.startWakes (s : State) (core : Nat) (bs : List Nat) : State :=
  bs.foldl (fun t b => if (t.core core).bank b = 1 then t.wake core b else t) s

/-- A CSR instruction performed behind the slot's row instructions (R129, R270). -/
def State.csrEntry (s : State) (r : SlotRef) (i : Instr) (v : Word) : State :=
  let s0 : State := { s with cur := r }
  let go (d : Reg) (c : BitVec 12) (new : Option (Word → Word)) : State :=
    let old := s0.csr c.toNat
    let s1 : State := match new with
      | some f => s0.writeCsr c.toNat (f old)
      | none => s0
    { (s1.modSlot r fun x => x.land d old []) with cur := s.cur }
  match i with
  | .csrr d c => go d c none
  | .csrw d _ c => go d c (some fun _ => v)
  | .csrs d a c => go d c (if a = 0#5 then none else some fun o => o ||| v)
  | .csrc d a c => go d c (if a = 0#5 then none else some fun o => o &&& ~~~v)
  | _ => s

/-- The tile bank that the L bit of a word turns Off (R71). A VPACK reads several rows from its field a, which may lie in two banks: "the tile bank of source
a" is taken as the bank of the first (DESIGN CHOICE, log 100). -/
def Slot.lBank (x : Slot) (i : Instr) : List Nat :=
  let h := rowShape i
  if h.l then (match h.a with | some f => (x.fieldBanks f).take 1 | none => []) else []

/-- What a row word that reads `vd`, `va`, `vb` will write (R259, R262 to R281). -/
def Slot.entryWrites (x : Slot) (core : Nat) (e : SeqEntry) (i : Instr) (final : Bool) (vd va vb : List Row) (unpk : Row) (offs : List Nat) :
    RowWrites :=
  let h := rowShape i
  match i with
  | .vpark _ p _ => { rows := [(parkKey core p, va.headD 0#256)], pk := if p.toNat < 64 then some (p.toNat, true) else none, offs := offs }
  | .vunpk _ p =>
    let w := x.fieldWrites core h.d [unpk]
    { rows := w.1, sq := w.2, pk := if p.toNat < 64 then some (p.toNat, false) else none, offs := offs }
  | _ =>
    let o := rowCompute i { a := va, b := vb.headD 0#256, d := vd.headD 0#256, sc := e.scal, rm := e.frm, amax := 0 }
    let w := x.fieldWrites core h.d o.d
    let w2 := x.fieldWrites core h.b o.e.toList
    { rows := w.1 ++ w2.1, sq := w.2 ++ w2.2, fl := o.fl, amax := o.amax, full := final, offs := offs
      reg := match seqDest i, o.s with
        | some d, some v => some (d, v)
        | _, _ => none }

/-- Starts a row word that is ready: its source rows d, a and b are read now, what it writes is on its way (R259, R261). An L bit acts at the end of this
cycle, or where the entry writes to that bank, or the word belongs to a VREP body (`body` then collects it), after that (R71, R72, R358). -/
def State.startRow (s : State) (r : SlotRef) (e : SeqEntry) (i : Instr) (final : Bool) (body : Option (Nat × Nat)) (offs : List Nat)
    (view : List Nat) : State :=
  let h := rowShape i
  let x : Slot := s.slot r
  let (vd, s1) := s.readField r e view body h.d
  let (va, s2) := s1.readField r e view body h.a
  let (vb, s3) := s2.readField r e view body h.b
  let (vp, s4) := match parkOf i with
    | some (p, true) => s3.readKeyRow r e (parkKey r.core p) view body
    | _ => (0#256, s3)
  let w := x.entryWrites r.core e i final vd va vb vp []
  let mine := if body.isSome || !final then [] else x.lBank i
  let wr := w.rows.filterMap fun q => ownBank r.core q.1
  let now := mine.filter fun b => !wr.contains b
  let act : Act := .rows { w with offs := offs ++ mine.filter fun b => wr.contains b }
  (now.foldl (fun t b => t.hintDue r.core b 0) s4).launchFlight r act

/-- Tries to start one word of the sequencer: done or held, with the machine after it. -/
def State.runEntry (s : State) (core : Nat) (e : SeqEntry) (i : Instr) (final : Bool) (body : Option (Nat × Nat)) (offs : List Nat)
    (view : List Nat) : Bool × State :=
  let r : SlotRef := ⟨core, e.slot⟩
  if !s.entryReady r (e.ea.elim e.id fun p => p.2) i then (false, s.startWakes core (s.entryReads r i))
  else match i with
    | .rld _ _ _ _ => (true, match e.ea with
      | some (_, id) => s.modFlight id fun f => { f with ready := true, born := s.cycle }
      | none => s)
    | .rst n _ h _ =>
      let (v, s1) := s.readRow r e n.toNat view body
      let bank := (s.slot r).tileBank n.toNat
      let same : Bool := match e.ea with
        | some (_, id) => (match s1.flight? id with
          | some f => (match f.act with | .store _ key _ _ _ => ownBank core key == some bank | _ => false)
          | none => false)
        | none => false
      let s2 : State := match e.ea with
        | some (_, id) => s1.modFlight id fun f =>
            match f.act with
            | .store va key _ o g => { f with act := .store va key (rowBytes v) o (if same then h else g), ready := true, born := s.cycle }
            | _ => f
        | none => s1
      (true, if same then s2 else (hintEffect bank h).foldl (fun t b => t.hintDue core b.1 b.2) s2)
    | _ => if isCsr i then (true, s.csrEntry r i (wordAt e.scal 0)) else (true, s.startRow r e i final body offs view)

/-- Replaces the head of the sequencer. -/
def State.setSeqHead (s : State) (core : Nat) (h : Option SeqItem) : State :=
  s.modCore core fun c => { c with seq := h.toList ++ c.seq.tail }

/-- Is a replay of the item under way (R164)? -/
def SeqItem.midway : SeqItem → Bool
  | .one _ => false
  | .rep b => b.e != 0

/-- May the sequencer start its head in this cycle: one entry a cycle (R261), and on a core that is stopped none that has not started (R166, R174)? -/
def Core.mayStart (c : Core) (cycle : Nat) (h : SeqItem) : Bool := c.ran != some cycle && ((!c.stopped && !c.fenced) || h.midway)

/-- The sequencer has started the head: its next state, with the cycle noted. -/
def State.started (s : State) (core : Nat) (h : Option SeqItem) : State :=
  (s.setSeqHead core h).modCore core fun c => { c with ran := some s.cycle }

/-- SEQUENCER_EXECUTE (R162, R164, R261): the head entry starts once it is ready; what it writes lands by RESULT_LANDS. A CSR instruction is performed in one
step (DESIGN CHOICE, log 18). -/
def execSequencerExecute (core : Nat) (view : List Nat) (s : State) : Out1 :=
  .next (match (s.core core).seq with
    | [] => s
    | h :: _ =>
      if !(s.core core).mayStart s.cycle h then s
      else match h with
      | .one e =>
        let offs := if e.body.isSome && e.last then ((s.core core).slot e.slot).lBank e.instr else []
        let (ok, s1) := s.runEntry core e e.instr e.last e.body offs view
        if ok then s1.started core none else s1
      | .rep b =>
        match b.words[b.e]? with
        | none => s.setSeqHead core none
        | some e =>
          let final := decide (b.k + 1 = b.count)
          let i := strideInstr b.k b.sd b.sa b.sb e.instr
          let offs := if final then unionIds b.offs (((s.core core).slot b.slot).lBank i) else []
          let last := decide (b.words.length ≤ b.e + 1)
          let (ok, s1) := s.runEntry core e i final (some (b.k, b.e)) (if final && last then offs else []) view
          if !ok then s1
          else if !last then s1.started core (some (.rep { b with e := b.e + 1, offs := offs }))
          else if final then s1.started core none
          else
            let b1 : VBody := { b with e := 0, k := b.k + 1 }
            if ((s1.core core).slot b.slot).halted then
              (s1.started core none).modSlot ⟨core, b.slot⟩ fun x => { x with withdrawn := .rep b1 :: x.withdrawn }
            else s1.started core (some (.rep b1)))

/-! ## The row instructions -/

/-- VADD_F (R262). -/
def execVaddF (t : FTy) (d a b : RowName) (l : Bool) (s : State) : Out1 :=
  .next (rowIssue t.major.toNat (.vaddF t d a b l) [] [] none s)
/-- VSUB_F (R262). -/
def execVsubF (t : FTy) (d a b : RowName) (l : Bool) (s : State) : Out1 :=
  .next (rowIssue t.major.toNat (.vsubF t d a b l) [] [] none s)
/-- VMUL_F (R262). -/
def execVmulF (t : FTy) (d a b : RowName) (l : Bool) (s : State) : Out1 :=
  .next (rowIssue t.major.toNat (.vmulF t d a b l) [] [] none s)
/-- VDIV (R262). -/
def execVdiv (t : FTy) (d a b : RowName) (l : Bool) (s : State) : Out1 :=
  .next (rowIssue t.major.toNat (.vdiv t d a b l) [] [] none s)
/-- VFMA (R262). -/
def execVfma (t : FTy) (d a b : RowName) (l : Bool) (s : State) : Out1 :=
  .next (rowIssue t.major.toNat (.vfma t d a b l) [] [] none s)
/-- VFMS (R262). -/
def execVfms (t : FTy) (d a b : RowName) (l : Bool) (s : State) : Out1 :=
  .next (rowIssue t.major.toNat (.vfms t d a b l) [] [] none s)
/-- VMIN_F (R262). -/
def execVminF (t : FTy) (d a b : RowName) (l : Bool) (s : State) : Out1 :=
  .next (rowIssue t.major.toNat (.vminF t d a b l) [] [] none s)
/-- VMAX_F (R262). -/
def execVmaxF (t : FTy) (d a b : RowName) (l : Bool) (s : State) : Out1 :=
  .next (rowIssue t.major.toNat (.vmaxF t d a b l) [] [] none s)
/-- VABS_F (R263). -/
def execVabsF (t : FTy) (d a : RowName) (l : Bool) (s : State) : Out1 :=
  .next (rowIssue t.major.toNat (.vabsF t d a l) [] [] none s)
/-- VNEG_F (R263). -/
def execVnegF (t : FTy) (d a : RowName) (l : Bool) (s : State) : Out1 :=
  .next (rowIssue t.major.toNat (.vnegF t d a l) [] [] none s)
/-- VSQRT (R262). -/
def execVsqrt (t : FTy) (d a : RowName) (l : Bool) (s : State) : Out1 :=
  .next (rowIssue t.major.toNat (.vsqrt t d a l) [] [] none s)
/-- VSCL (R262). -/
def execVscl (t : FTy) (d a b : RowName) (l : Bool) (s : State) : Out1 :=
  .next (rowIssue t.major.toNat (.vscl t d a b l) [] [] none s)
/-- VCPYS (R262). -/
def execVcpys (t : FTy) (d a b : RowName) (l : Bool) (s : State) : Out1 :=
  .next (rowIssue t.major.toNat (.vcpys t d a b l) [] [] none s)
/-- VCEQ_F (R262). -/
def execVceqF (t : FTy) (d a b : RowName) (l : Bool) (s : State) : Out1 :=
  .next (rowIssue t.major.toNat (.vceqF t d a b l) [] [] none s)
/-- VCLT_F (R262). -/
def execVcltF (t : FTy) (d a b : RowName) (l : Bool) (s : State) : Out1 :=
  .next (rowIssue t.major.toNat (.vcltF t d a b l) [] [] none s)
/-- VCLE (R262). -/
def execVcle (t : FTy) (d a b : RowName) (l : Bool) (s : State) : Out1 :=
  .next (rowIssue t.major.toNat (.vcle t d a b l) [] [] none s)
/-- VADD_I (R264). -/
def execVaddI (t : ITy) (d a b : RowName) (l : Bool) (s : State) : Out1 :=
  .next (rowIssue t.major.toNat (.vaddI t d a b l) [] [] none s)
/-- VSUB_I (R264). -/
def execVsubI (t : ITy) (d a b : RowName) (l : Bool) (s : State) : Out1 :=
  .next (rowIssue t.major.toNat (.vsubI t d a b l) [] [] none s)
/-- VMUL_I (R264). -/
def execVmulI (t : ITy) (d a b : RowName) (l : Bool) (s : State) : Out1 :=
  .next (rowIssue t.major.toNat (.vmulI t d a b l) [] [] none s)
/-- VMULH (R264). -/
def execVmulh (t : ITy) (d a b : RowName) (l : Bool) (s : State) : Out1 :=
  .next (rowIssue t.major.toNat (.vmulh t d a b l) [] [] none s)
/-- VADDS (R264). -/
def execVadds (t : ITy) (d a b : RowName) (l : Bool) (s : State) : Out1 :=
  .next (rowIssue t.major.toNat (.vadds t d a b l) [] [] none s)
/-- VSUBS (R264). -/
def execVsubs (t : ITy) (d a b : RowName) (l : Bool) (s : State) : Out1 :=
  .next (rowIssue t.major.toNat (.vsubs t d a b l) [] [] none s)
/-- VMIN_I (R264). -/
def execVminI (t : ITy) (d a b : RowName) (l : Bool) (s : State) : Out1 :=
  .next (rowIssue t.major.toNat (.vminI t d a b l) [] [] none s)
/-- VMAX_I (R264). -/
def execVmaxI (t : ITy) (d a b : RowName) (l : Bool) (s : State) : Out1 :=
  .next (rowIssue t.major.toNat (.vmaxI t d a b l) [] [] none s)
/-- VMINU (R264). -/
def execVminu (t : ITy) (d a b : RowName) (l : Bool) (s : State) : Out1 :=
  .next (rowIssue t.major.toNat (.vminu t d a b l) [] [] none s)
/-- VMAXU (R264). -/
def execVmaxu (t : ITy) (d a b : RowName) (l : Bool) (s : State) : Out1 :=
  .next (rowIssue t.major.toNat (.vmaxu t d a b l) [] [] none s)
/-- VCEQ_I (R264). -/
def execVceqI (t : ITy) (d a b : RowName) (l : Bool) (s : State) : Out1 :=
  .next (rowIssue t.major.toNat (.vceqI t d a b l) [] [] none s)
/-- VCLT_I (R264). -/
def execVcltI (t : ITy) (d a b : RowName) (l : Bool) (s : State) : Out1 :=
  .next (rowIssue t.major.toNat (.vcltI t d a b l) [] [] none s)
/-- VCLTU (R264). -/
def execVcltu (t : ITy) (d a b : RowName) (l : Bool) (s : State) : Out1 :=
  .next (rowIssue t.major.toNat (.vcltu t d a b l) [] [] none s)
/-- VSHL (R264). -/
def execVshl (t : ITy) (d a : RowName) (n : BitVec 5) (l : Bool) (s : State) : Out1 :=
  .next (rowIssue t.major.toNat (.vshl t d a n l) [] [] none s)
/-- VSHR (R264). -/
def execVshr (t : ITy) (d a : RowName) (n : BitVec 5) (l : Bool) (s : State) : Out1 :=
  .next (rowIssue t.major.toNat (.vshr t d a n l) [] [] none s)
/-- VSRA (R264). -/
def execVsra (t : ITy) (d a : RowName) (n : BitVec 5) (l : Bool) (s : State) : Out1 :=
  .next (rowIssue t.major.toNat (.vsra t d a n l) [] [] none s)
/-- VABS_I (R264). -/
def execVabsI (t : ITy) (d a : RowName) (l : Bool) (s : State) : Out1 :=
  .next (rowIssue t.major.toNat (.vabsI t d a l) [] [] none s)
/-- VNEG_I (R264). -/
def execVnegI (t : ITy) (d a : RowName) (l : Bool) (s : State) : Out1 :=
  .next (rowIssue t.major.toNat (.vnegI t d a l) [] [] none s)
/-- VAND (R266). -/
def execVand (d a b : RowName) (l : Bool) (s : State) : Out1 :=
  .next (rowIssue 0x26 (.vand d a b l) [] [] none s)
/-- VOR (R266). -/
def execVor (d a b : RowName) (l : Bool) (s : State) : Out1 :=
  .next (rowIssue 0x26 (.vor d a b l) [] [] none s)
/-- VXOR (R266). -/
def execVxor (d a b : RowName) (l : Bool) (s : State) : Out1 :=
  .next (rowIssue 0x26 (.vxor d a b l) [] [] none s)
/-- VSEL (R266). -/
def execVsel (d a b : RowName) (l : Bool) (s : State) : Out1 :=
  .next (rowIssue 0x26 (.vsel d a b l) [] [] none s)
/-- VPERM (R266). -/
def execVperm (d a b : RowName) (l : Bool) (s : State) : Out1 :=
  .next (rowIssue 0x26 (.vperm d a b l) [] [] none s)
/-- VBCST (R267). -/
def execVbcst (d : RowName) (a : Reg) (w : LaneW) (s : State) : Out1 :=
  .next (rowIssue 0x26 (.vbcst d a w) [a] [] none s)
/-- VINS (R267). -/
def execVins (d : RowName) (a : Reg) (w : LaneW) (n : BitVec 5) (s : State) : Out1 :=
  .next (rowIssue 0x26 (.vins d a w n) [a] [] none s)
/-- VEXT (R267). -/
def execVext (d : Reg) (a : RowName) (w : LaneW) (n : BitVec 5) (l : Bool) (s : State) : Out1 :=
  .next (rowIssue 0x26 (.vext d a w n l) [] [d] none s)
/-- VREV (R267). -/
def execVrev (d a : RowName) (w : LaneW) (l : Bool) (s : State) : Out1 :=
  .next (rowIssue 0x26 (.vrev d a w l) [] [] none s)
/-- VZIP_H (R268). -/
def execVzipH (d a b : RowName) (l : Bool) (s : State) : Out1 :=
  .next (rowIssue 0x26 (.vzipH d a b l) [] [] none s)
/-- VZIP_W (R268). -/
def execVzipW (d a b : RowName) (l : Bool) (s : State) : Out1 :=
  .next (rowIssue 0x26 (.vzipW d a b l) [] [] none s)
/-- VUZP_H (R268). -/
def execVuzpH (d a b : RowName) (l : Bool) (s : State) : Out1 :=
  .next (rowIssue 0x26 (.vuzpH d a b l) [] [] none s)
/-- VUZP_W (R268). -/
def execVuzpW (d a b : RowName) (l : Bool) (s : State) : Out1 :=
  .next (rowIssue 0x26 (.vuzpW d a b l) [] [] none s)
/-- VPARK (R269). -/
def execVpark (a : RowName) (p : BitVec 7) (l : Bool) (s : State) : Out1 :=
  .next (rowIssue 0x26 (.vpark a p l) [] [] none s)
/-- VUNPK (R269). -/
def execVunpk (d : RowName) (p : BitVec 7) (s : State) : Out1 :=
  .next (rowIssue 0x26 (.vunpk d p) [] [] none s)
/-- VCVT (R273). -/
def execVcvt (d a : RowName) (rm : RMode) (sat amx : Bool) (tp : BitVec 4) (l : Bool) (s : State) : Out1 :=
  .next (rowIssue 0x27 (.vcvt d a rm sat amx tp l) [] [] none s)
/-- VPACK (R273). -/
def execVpack (d a : RowName) (rm : RMode) (sat amx : Bool) (tp : BitVec 4) (l : Bool) (s : State) : Out1 :=
  .next (rowIssue 0x27 (.vpack d a rm sat amx tp l) [] [] none s)
/-- VWIDEN (R273). -/
def execVwiden (d a : RowName) (rm : RMode) (sat amx : Bool) (tp : BitVec 4) (l : Bool) (s : State) : Out1 :=
  .next (rowIssue 0x27 (.vwiden d a rm sat amx tp l) [] [] none s)
/-- VCVT_B (R273). -/
def execVcvtB (d a : RowName) (rm : RMode) (sat amx : Bool) (tb : BitVec 3) (l : Bool) (s : State) : Out1 :=
  .next (rowIssue 0x27 (.vcvtB d a rm sat amx tb l) [] [] none s)
/-- VCVTEF (R274). -/
def execVcvtef (d a e : RowName) (l f16 : Bool) (s : State) : Out1 :=
  .next (rowIssue 0x27 (.vcvtef d a e l f16) [] [] none s)
/-- VRSUM (R276). -/
def execVrsum (d a : RowName) (t : RedTy) (l : Bool) (s : State) : Out1 :=
  .next (rowIssue 0x28 (.vrsum d a t l) [] [] none s)
/-- VRMAX (R276). -/
def execVrmax (d a : RowName) (t : RedTy) (l : Bool) (s : State) : Out1 :=
  .next (rowIssue 0x28 (.vrmax d a t l) [] [] none s)
/-- VRMIN (R276). -/
def execVrmin (d a : RowName) (t : RedTy) (l : Bool) (s : State) : Out1 :=
  .next (rowIssue 0x28 (.vrmin d a t l) [] [] none s)
/-- VDOT_F32 (R276). -/
def execVdotF32 (d a b : RowName) (l : Bool) (s : State) : Out1 :=
  .next (rowIssue 0x28 (.vdotF32 d a b l) [] [] none s)
/-- VDOT_BF16 (R276). -/
def execVdotBf16 (d a b : RowName) (l : Bool) (s : State) : Out1 :=
  .next (rowIssue 0x28 (.vdotBf16 d a b l) [] [] none s)
/-- VDOT_F16 (R276). -/
def execVdotF16 (d a b : RowName) (l : Bool) (s : State) : Out1 :=
  .next (rowIssue 0x28 (.vdotF16 d a b l) [] [] none s)
/-- VDOT_I16 (R276). -/
def execVdotI16 (d a b : RowName) (l : Bool) (s : State) : Out1 :=
  .next (rowIssue 0x28 (.vdotI16 d a b l) [] [] none s)
/-- VDOT_I8 (R276). -/
def execVdotI8 (d a b : RowName) (l : Bool) (s : State) : Out1 :=
  .next (rowIssue 0x28 (.vdotI8 d a b l) [] [] none s)
/-- VDOTW_BF16 (R277). -/
def execVdotwBf16 (d a b : RowName) (l : Bool) (s : State) : Out1 :=
  .next (rowIssue 0x28 (.vdotwBf16 d a b l) [] [] none s)
/-- VDOTW_F16 (R277). -/
def execVdotwF16 (d a b : RowName) (l : Bool) (s : State) : Out1 :=
  .next (rowIssue 0x28 (.vdotwF16 d a b l) [] [] none s)
/-- VDOTW_I16 (R277). -/
def execVdotwI16 (d a b : RowName) (l : Bool) (s : State) : Out1 :=
  .next (rowIssue 0x28 (.vdotwI16 d a b l) [] [] none s)
/-- VDOTW_I8 (R277). -/
def execVdotwI8 (d a b : RowName) (l : Bool) (s : State) : Out1 :=
  .next (rowIssue 0x28 (.vdotwI8 d a b l) [] [] none s)
/-- VSPRS (R279). -/
def execVsprs (d a : RowName) (m : Reg) (l : Bool) (s : State) : Out1 :=
  .next (rowIssue 0x29 (.vsprs d a m l) [] [m] none s)
/-- VSEXP (R280). -/
def execVsexp (d a : RowName) (m : Reg) (l : Bool) (s : State) : Out1 :=
  .next (rowIssue 0x29 (.vsexp d a m l) [m] [] (some 0) s)
/-- VSDOT (R281). -/
def execVsdot (d : Reg) (a b : RowName) (l : Bool) (s : State) : Out1 :=
  .next (rowIssue 0x29 (.vsdot d a b l) [d, d ||| 1#5] [d] (some 1) s)

end Sys2Proof.Machine
end

