-- ==== Sys2Proof/Machine/Switch.lean ====
section
/-! DEFINITION. Pre-emption and save images (R166 to R171, R310, R311), migration and forwarding (R172, R173, R312, R399), the gang stop
(R174 to R177, R313), slices (R152, R154), and the faults of these forms (R367, R380). -/

namespace Sys2Proof.Machine

open Host

/-! ## Stopping a slot for a save (R166, R170) -/

/-- The slot that a scalar names (R310). -/
def slotSpec (v : Word) : SlotRef := ⟨fld v 11 2, fld v 1 0⟩

/-- The slot that a CTXSAVE or a MIGR has to save. -/
def Act.saveOf : Act → Option SlotRef
  | .ctxsave _ t _ => some t
  | .migr _ t _ _ => some t
  | _ => none

/-- Is the flight a CTXSAVE or MIGR of a slot of this core? -/
def Flight.savesOn (f : Flight) (core : Nat) : Bool := f.act.saveOf.any fun t => t.core == core

/-- A pre-emption request stops a slot (R166): it issues no more, its sequencer entries that have not started are withdrawn in order. -/
def State.haltSlot (s : State) (r : SlotRef) : State :=
  if (s.slot r).halted then s
  else
    let mine := (s.seqOf r).filter fun i => !i.midway
    (s.modCore r.core fun c => { c with seq := c.seq.filter fun i => i.slot != r.slot || i.midway }).modSlot r fun x =>
      { x with halted := true, drain := none, walk := none, waits := 0#32, withdrawn := x.withdrawn ++ mine }

/-- Is the flight a read that the core's copy engine makes for the strand of a slot, or any other entry that the sequencer or the engine has started
for it and that is not a read to redirect? -/
def State.startedFor (s : State) (r : SlotRef) (f : Flight) : Bool :=
  match f.act with
  | .rows _ => f.who == r && f.party == (s.slot r).party
  | .copyRead core op _ _ _ _ _ => core == r.core && (s.core core).queue.any fun o => o.id == op && o.who == r && o.party == (s.slot r).party
  | _ => false

/-- The reads of a slot that are redirected (R166, R170): those with a destination, and the 32-byte pieces of its copies. A load that a withdrawn entry
has still to start is not among them. -/
def State.readsOf (s : State) (r : SlotRef) : List Flight :=
  s.flights.filter fun f => f.seep.isNone && (match f.act with
    | .copyRead _ _ _ _ _ _ _ => f.parts.isEmpty && s.startedFor r f
    | .rows _ => false
    | .load _ _ _ _ _ _ _ => (s.flightsOf r).contains f && f.act.dest != .none && f.ready
    | _ => (s.flightsOf r).contains f && f.act.dest != .none)

/-- Kind and destination of a read's line (R170). -/
def seepDest (x : Slot) (f : Flight) : Nat × Word :=
  match f.act with
  | .copyRead _ _ _ _ k _ _ => (3, wd k)
  | a => (match a.dest with
    | .lq => (1, wd ((x.lq.findIdx? fun p => p.flight == f.id).getD 0))
    | .row n => (2, n.setWidth 64)
    | .reg r => (0, r.setWidth 64)
    | .none => (0, 0#64))

/-- Gives each read of the slot in flight the next free line of the core's quarantine buffer. -/
def State.redirectReads (s : State) (r : SlotRef) : State :=
  (s.readsOf r).foldl (fun t f =>
    match (List.range 64).find? fun n => !((t.core r.core).seep.get {} n).v with
      | none => t
      | some n =>
        let (k, d) := seepDest (t.slot r) f
        (t.modFlight f.id fun g => { g with seep := some n }).modCore r.core fun c =>
          { c with seep := c.seep.put n { v := true, kind := k, slot := r.slot, dest := d, flight := f.id } }) s

/-- May the save of a stopped slot begin: what the sequencer has started for it has run to completion (R166), and no other save runs on its core
(R170)? -/
def State.mayBegin (s : State) (r : SlotRef) : Bool :=
  let c : Core := s.core r.core
  (s.slot r).halted && !(c.slots.toList.any fun x => x.saving) && (s.seqOf r).isEmpty &&
    !(s.flights.any fun f => s.startedFor r f && (match f.act with | .rows _ => true | _ => f.parts.length == 1))

/-- The save of a stopped slot begins, if it may: its reads in flight are redirected (R166, R170). -/
def State.beginSave (s : State) (r : SlotRef) : State :=
  if s.mayBegin r then (s.modSlot r fun x => { x with saving := true }).redirectReads r else s

/-- Is it the turn of this CTXSAVE or MIGR on its core (R170)? -/
def State.saveTurn (s : State) (id : Nat) (r : SlotRef) : Bool := !s.flights.any fun f => decide (f.id < id) && f.savesOn r.core

/-- SEEP_LINE_LAND (R170): the data of a redirected read arrives. -/
def execSeepLineLand (core line : Nat) (s : State) : Out1 :=
  let l := (s.core core).seep.get {} line
  let put (t : State) (v : Row) (po : Bool) : State :=
    (t.dropFlight l.flight).modCore core fun c => { c with seep := c.seep.put line { l with landed := true, data := v, poison := po } }
  .next
    (if !l.v || l.landed then s
    else match s.flight? l.flight with
      | none => s
      | some f =>
        if f.hop.isSome then s
        else match f.act with
        | .result _ v po _ => put s v po.isSome
        | .copyRead _ _ _ _ _ bad _ => put s f.gather (!bad.isEmpty)
        | .cbarWait _ cell gen _ =>
          let now := wd (leNat (s.rdBytes f.ten (cell.toNat + 8) 8))
          if now = gen then s
          else
            let (_, rels, s1) := s.read f.party f.ten cell.toNat 16 (s.homeView cell.toNat 16)
            put (s1.acquire f.party 2 rels) ((gen + 1#64).setWidth 256) false
        | _ => s)

/-- Does the act wait in a queue of its slot, or at its target, while a save goes on? -/
def Act.waitsIn (ready : Bool) : Act → Bool
  | .send _ => true
  | .store _ _ _ _ _ => !ready
  | .load _ _ _ _ _ _ _ => !ready
  | _ => false

/-- The core banks that a slot holds. -/
def Slot.banks (x : Slot) : List Nat := x.tiles ++ ((List.range 48).filter fun b => x.sb.getLsbD b).map (· + 16)

/-- May the save of a slot complete: it has begun, its lines have landed, what it has issued is performed, and no bank of it wakes or has a hint to
come? (DEDUCED, log 47). -/
def State.savable (s : State) (r : SlotRef) : Bool :=
  let x : Slot := s.slot r
  let c : Core := s.core r.core
  x.saving && (c.seep.all fun l => !(l.2.v && l.2.slot == r.slot) || l.2.landed) &&
  !(s.flights.any (s.startedFor r)) &&
  ((s.flightsOf r).all fun f => !f.act.pending || f.act.waitsIn f.ready) &&
  x.banks.all fun n => c.bank n != 3 && !(c.due.any fun h => h.1 == n)

/-! ## The image (R168) -/

/-- Number of a rounding mode. -/
def RMode.code : RMode → Nat
  | .rne => 0
  | .rtz => 1
  | .rdn => 2
  | .rup => 3

/-- The replay state of a withdrawn entry (PRESUMED, log 15): mode, captured body, last-use, position, and the body's strides. -/
def replayWord (e : SeqEntry) (b : Option VBody) : Word :=
  let body := match b with
    | some v => 4 + v.k % 2 ^ 16 * 2 ^ 9 + v.sd % 256 * 2 ^ 25 + v.sa % 256 * 2 ^ 33 + v.sb % 256 * 2 ^ 41
    | none => (match e.body with
      | some (k, i) => 16 + i % 16 * 32 + k % 2 ^ 16 * 2 ^ 9
      | none => 0)
  wd (RMode.code e.frm + b01 e.last * 8 + body)

/-- The four words of a withdrawn entry. -/
def entryWords (e : SeqEntry) (b : Option VBody) : List Word :=
  let sc := match e.ea with
    | some (va, _) => [va]
    | none => e.scal
  [e.word.setWidth 64, wordAt sc 0, wordAt sc 1, replayWord e b]

/-- Withdrawn items as entries of four words. -/
def itemsWords (is : List SeqItem) : List (List Word) :=
  is.flatMap fun i => match i with
    | .one e => [entryWords e none]
    | .rep b => b.words.map fun e => entryWords e (some b)

/-- Replays still to run of the withdrawn body. -/
def replaysLeft (is : List SeqItem) : Nat :=
  (is.findSome? fun i => match i with | .rep b => some (b.count - b.k) | .one _ => none).getD 0

/-- The four words of a row. -/
def rowWords (r : Row) : List Word := (List.range 4).map fun i => (r >>> (64 * i)).setWidth 64

/-- Puts words one after another into a table. -/
def putWords (m : AMap Word) (at_ : Nat) : List Word → AMap Word
  | [] => m
  | w :: ws => putWords (m.put at_ w) (at_ + 1) ws

/-- The banks of a slot with their codes: tiles in ascending number, then scratch (R75). -/
def State.slotBanks (s : State) (r : SlotRef) : List (Nat × Nat) :=
  let x : Slot := s.slot r
  (ascending x.tiles ++ ((List.range 48).filter fun b => x.sb.getLsbD b).map (· + 16)).map fun n => (n, (s.core r.core).bank n)

/-- The banks whose contents a save takes: Retain and Full. -/
def keptBanks (bs : List (Nat × Nat)) : List Nat := (bs.filter fun b => b.2 = 1 || b.2 = 2).map (·.1)

/-- The bank map of an image: the codes in the layout of BSTATE0 and BSTATE1. -/
def bankMap (bs : List (Nat × Nat)) : Word × Word :=
  let c : Core := bs.foldl (fun c b => c.setBank b.1 b.2) {}
  (c.b0, c.b1)

/-- The COPY operations of a slot, in order. -/
def State.copiesOf (s : State) (r : SlotRef) : List EngOp :=
  (s.core r.core).queue.filter fun o => o.who == r && o.party == (s.slot r).party && !o.isMarker

/-- The first 8 KiB of a slot's image as words by index. -/
def State.imageHead (s : State) (r : SlotRef) (tag : Nat) : AMap Word :=
  let x : Slot := s.slot r
  let bs := s.slotBanks r
  let kept := keptBanks bs
  let ntb := (kept.filter fun n => decide (n < 16)).length
  let nsb := kept.length - ntb
  let (m0, m1) := bankMap bs
  let seqs := itemsWords x.withdrawn
  let copies := s.copiesOf r
  let qctl := replaysLeft x.withdrawn % 2 ^ 16 * 2 ^ 32 + copies.length % 16 * 2 ^ 28 + seqs.length % 32 * 2 ^ 16 + x.sa.length % 32 * 2 ^ 10
    + x.sq.length % 32 * 2 ^ 5 + x.lq.length % 32
  let lines := ((List.range 64).map fun n => (s.core r.core).seep.get {} n).filter fun l => l.v && l.slot == r.slot
  let m : AMap Word := []
  let m := putWords m 0 [wd (2 ^ 56 + nsb * 2 ^ 40 + ntb * 2 ^ 37 + (8192 + 512 * ntb + 8192 * nsb)), x.pc, x.st, x.workid, x.succ,
    x.frm.setWidth 64, x.fflags.setWidth 64, x.amax.setWidth 64, boolW x.wdef, x.tilemap, x.sb.setWidth 64, x.fullWord, m0, m1, wd qctl,
    wd lines.length]
  let m := putWords m 16 (x.mb.toList ++ [x.trap.tpc, x.trap.tcause, x.trap.tval, x.trap.tinst, x.trap.tstat, x.trap.tsave, x.sallow])
  let m := putWords m 32 ((List.range 32).map fun n => x.rd (BitVec.ofNat 5 n))
  let m := putWords m 64 (x.lq.flatMap fun p => rowWords ((p.row.map (·.bits)).getD 0#256))
  let m := putWords m 128 (x.sq.flatMap fun v => rowWords v.bits)
  let m := putWords m 192 (x.sa.map (·.va))
  let m := putWords m 208 seqs.flatten
  let m := putWords m 272 (copies.flatMap fun o => (List.range 8).map fun i => if i = 7 then (if o.started then wd o.done else 0#64) else o.eps.get 0#64 i)
  let m := putWords m 336 [wd tag]
  putWords m 512 (lines.flatMap fun l => l.head :: (rowWords l.data ++ [0#64, 0#64, 0#64]))

/-- The bytes of a slot's image. -/
def State.imageBytes (s : State) (r : SlotRef) (tag : Nat) : List Byte :=
  let m := s.imageHead r tag
  ((List.range 1024).flatMap fun i => leBytes 8 (m.get 0#64 i).toNat) ++
    (keptBanks (s.slotBanks r)).flatMap fun n => (List.range (bankSize n)).map fun i => Memory.get s.mem (bankAddr r.core n + i)

/-- The 16-byte offsets of an image that carry poison: queue rows, quarantine lines and bank granules (R379). -/
def State.imagePoison (s : State) (r : SlotRef) : List Nat :=
  let x : Slot := s.slot r
  let lines := ((List.range 64).map fun n => (s.core r.core).seep.get {} n).filter fun l => l.v && l.slot == r.slot
  let lq := (x.lq.zipIdx).flatMap fun p => if ((p.1.row.bind (·.poison))).isSome then [0x200 + 32 * p.2, 0x210 + 32 * p.2] else []
  let sq := (x.sq.zipIdx).flatMap fun v => if v.1.poison.isSome then [0x400 + 32 * v.2, 0x410 + 32 * v.2] else []
  let ls := (lines.zipIdx).flatMap fun l => if l.1.poison then [0x1010 + 64 * l.2] else []
  let bank (o n : Nat) : List Nat := (s.poison.filter fun g => decide (bankAddr r.core n ≤ g) && decide (g < bankAddr r.core n + bankSize n)).map
    fun g => o + (g - bankAddr r.core n)
  let bks := (keptBanks (s.slotBanks r)).foldl (fun (a : Nat × List Nat) n => (a.1 + bankSize n, a.2 ++ bank a.1 n)) (0x2000, [])
  lq ++ sq ++ ls ++ bks.2

/-- The tag of a slot's image. -/
def State.imageTag (s : State) (r : SlotRef) : ImageTag :=
  let x : Slot := s.slot r
  { ten := x.ten, level := x.level, origin := x.origin, gbars := x.gbars, succs := x.succs, pinned := x.occ == Occ.pinned, parked := x.parked
    recAddr := x.recAddr, pend := x.pend, armed := x.armed, stepDue := x.stepDue, pre := x.pre, party := x.party
    took := x.took, tookOp := x.tookOp, held := (s.copiesOf r).map (·.held), copyIds := (s.copiesOf r).map (·.id), frozen := x.frozen }

/-- Takes the strand out of a saved slot: banks Off, lines cleared, COPY operations out of the queue, the slot free (R169). The acknowledgements of its
messages are discarded when they arrive (R168). -/
def State.vacate (s : State) (r : SlotRef) : State :=
  let x : Slot := s.slot r
  let mine := s.copiesOf r
  let s1 : State := s.banksOff r.core x.tiles x.sb
  let s2 : State := s1.modCore r.core fun c => { c with
    seep := c.seep.filter fun l => l.2.slot != r.slot
    queue := c.queue.filter fun o => !mine.contains o }
  let own (f : Flight) : Bool := f.who == r && f.party == x.party
  let s3 : State := { s2 with
    flights := (s2.flights.filter fun f => !(own f && (match f.act with | .store _ _ _ _ _ => true | .load _ _ _ _ _ _ _ => true | _ => false))).map
      fun f => if own f then { f with outlived := true } else f }
  s3.setSlot r { retired := x.retired }

/-! ## Restoring (R171) -/

/-- An image as it is restored: its bytes, which 16-byte offsets are poisoned, and its tag. -/
structure Image where
  bytes : List Byte
  poison : List Nat := []
  tag : ImageTag

/-- Word `i` of an image. -/
def Image.word (m : Image) (i : Nat) : Word := wd (leNat ((m.bytes.drop (8 * i)).take 8))
/-- Row `i` of an image. -/
def Image.row (m : Image) (i : Nat) : RowVal :=
  { bits := rowOf ((m.bytes.drop (32 * i)).take 32), poison := if m.poison.contains (32 * i) || m.poison.contains (32 * i + 16) then some (32 * i) else none }

/-- Are VERSION and LEN those of R168? -/
def imgOk (w : Word) : Bool :=
  fld w 63 56 == 1 && fld w 31 0 == 8192 + 512 * fld w 39 37 + 8192 * fld w 45 40

/-- The tile banks that the image maps, in T order. -/
def Image.tiles (m : Image) : List Nat := (List.range (fld (m.word 9) 30 28)).map fun i => fld (m.word 9) (4 * i + 3) (4 * i)
/-- The scratch banks of the image. -/
def Image.sb (m : Image) : BitVec 48 := (m.word 10).setWidth 48

/-- Code of bank `n` in the image's bank map. -/
def Image.code (m : Image) (n : Nat) : Nat := ({ b0 := m.word 12, b1 := m.word 13 } : Core).bank n

/-- The tile banks that a core can give an image, or the status of R311 that says why it has none: its scratch banks keep their numbers, tile banks are
granted under R20. Too few free tile banks answer as a lack of a free slot does (DESIGN CHOICE, log 122). -/
def State.banksFor (s : State) (m : Image) (core : Nat) : Except Nat (List Nat) :=
  let c : Core := s.core core
  let sb := m.sb
  let owned := m.tag.ten == 0 || (List.range 48).all fun b => !sb.getLsbD b || (s.tenant m.tag.ten).ownsBank core b
  let free := (List.range 16).filter fun b => !c.heldTiles.contains b
  if c.heldSb &&& sb ≠ 0#48 || !owned then .error 5
  else if free.length < m.tiles.length || (coreKind core ≠ .compute && (sb ≠ 0#48 || !m.tiles.isEmpty)) then .error 4
  else .ok (free.take m.tiles.length)

/-- The slot that a core can give a strand which is restored there: none while an aged entry is to be the next to start (R34), or out of its tenant's slice
(R152). -/
def State.slotFor (s : State) (ten core : Nat) : Option Nat :=
  if (s.core core).aged.isSome || !s.inSlice ten core then none
  else (s.freeSlotOf core).filter fun n => coreKind core ≠ .monitor || n = 0

/-- Where a core can take an image: the slot and the tile banks in T order, or the status of R311 that says why not. -/
def State.placeImage (s : State) (m : Image) (core : Nat) : Except Nat (Nat × List Nat) :=
  match s.slotFor m.tag.ten core with
  | none => .error 4
  | some n => (s.banksFor m core).map fun ts => (n, ts)

/-- The scalars that an entry has captured at issue: those of a row word, or the source of a CSR write. -/
def capturedScalars : Instr → Nat
  | .csrw _ _ _ => 1
  | .csrs _ _ _ => 1
  | .csrc _ _ _ => 1
  | i => (rowSources i).length

/-- A withdrawn entry read back. -/
def restoreEntry (slot party id : Nat) (inh : Bool) (ws : List Word) : Option SeqEntry :=
  let word := (wordAt ws 0).setWidth 32
  let st := wordAt ws 3
  (decode word).map fun i =>
    { slot := slot, party := party, instr := i, word := word, scal := (ws.drop 1).take (capturedScalars i)
      frm := [RMode.rne, RMode.rtz, RMode.rdn, RMode.rup].getD (fld st 1 0) .rne
      body := if bit st 4 then some (fld st 24 9, fld st 8 5) else none, last := bit st 3, id := id, inh := inh }

/-- An access of a restored strand that waits in its slot's queues becomes a flight again, at the key that its address has now; one whose check fails
is taken as an asynchronous fault and is not performed (DEDUCED, log 49). The flight's number is the old `fresh`. -/
def State.requeue (s : State) (r : SlotRef) (m : Image) (party : Nat) (acc : Acc) (va : Word) (act : Nat → Act) : State :=
  let cl := s.clusterOf r.core
  let s1 : State := { s with fresh := s.fresh + 1 }
  match s.checkNow cl m.tag.ten m.tag.level acc (coreKind r.core = .compute) va 32 with
  | .ok k =>
    let s2 : State := s1.installNow cl m.tag.ten m.tag.level va
    { s2 with flights := s2.flights ++ [{ id := s.fresh, who := r, party := party, ten := m.tag.ten, level := m.tag.level
                                          queue := stQueue (m.word 2), born := s.cycle, act := act k, ready := false }] }
  | .bad c v => s1.asyncFault r party m.tag.ten (stQueue (m.word 2)) { code := c, tval := v, handler := bit (m.word 26) 4 }
  | .miss => s1

/-- Enters the withdrawn entries of an image at the head of the sequencer, with the accesses that its tile loads and stores have still to
make. -/
def State.restoreSeq (s : State) (r : SlotRef) (m : Image) (party : Nat) : State :=
  let n := Nat.min 16 (fld (m.word 14) 20 16)
  let left := fld (m.word 14) 47 32
  let raw := (List.range n).map fun i => (List.range 4).map fun j => m.word (208 + 4 * i + j)
  let step (a : State × List SeqItem) (ws : List Word) : State × List SeqItem :=
    let (t, items) := a
    match restoreEntry r.slot party t.fresh (bit (m.word 26) 4) ws with
    | none => (t, items)
    | some e =>
      let t : State := { t with fresh := t.fresh + 1 }
      let st := wordAt ws 3
      if bit st 2 then
        (match items.getLast? with
          | some (.rep b) => (t, items.dropLast ++ [.rep { b with words := b.words ++ [e] }])
          | _ => (t, items ++ [.rep { slot := r.slot, words := [e], count := fld st 24 9 + left, k := fld st 24 9, e := 0
                                      sd := fld st 31 25, sa := fld st 39 33, sb := fld st 47 41 }]))
      else
        let va := wordAt ws 1
        let one : List SeqItem := items ++ [.one { e with scal := [], ea := some (va, t.fresh) }]
        match e.instr with
        | .rld n _ h _ => (t.requeue r m party .load va fun k => .load (.row n) va k 32 false false h, one)
        | .rst _ _ _ _ => (t.requeue r m party .store va fun k => .store va k (rowBytes 0#256) .plain .none, one)
        | _ => (t, items ++ [.one e])
  let (s1, items) := raw.foldl step (s, [])
  s1.modCore r.core fun c => { c with seq := items ++ c.seq }

/-- Queued store addresses become flights again. -/
def State.restoreSa (s : State) (r : SlotRef) (m : Image) (party : Nat) : State :=
  (List.range (Nat.min 16 (fld (m.word 14) 14 10))).foldl (fun t i =>
    let va := m.word (192 + i)
    let t1 : State := t.requeue r m party .store va fun k => .store va k (rowBytes 0#256) .plain .none
    let key : Nat := match t1.flight? t.fresh with
      | some f => (match f.act with | .store _ k _ _ _ => k | _ => 0)
      | none => 0
    t1.modSlot r fun x => { x with sa := x.sa ++ [⟨va, key, t.fresh⟩] }) s

/-- The COPY operations of an image join the tail of the queue, in saved order, also beyond its depth (DESIGN CHOICE, log 123). They keep the numbers by
which faults know them (R374), but for an image that is restored again. -/
def State.restoreCopies (s : State) (r : SlotRef) (m : Image) (party : Nat) : State :=
  (List.range (Nat.min 8 (fld (m.word 14) 31 28))).foldl (fun t i =>
    let o : EngOp := { id := if m.tag.party = 0 then t.fresh else m.tag.copyIds.getD i t.fresh, who := r, party := party, ten := m.tag.ten, level := m.tag.level, queue := stQueue (m.word 2)
                       core := r.core
                       eps := (List.range 7).map fun j => (j, epMask 0 j (m.word (272 + 8 * i + j))), done := if i = 0 then (m.word 279).toNat % 2 ^ 32 else 0
                       held := m.tag.held.getD i false, started := m.tag.held.getD i false }
    ({ t with fresh := t.fresh + 1 } : State).modCore r.core fun c => { c with queue := c.queue ++ [o] }) s

/-- Writes one quarantine line to its destination (R171 step 3). -/
def State.seepInto (s : State) (r : SlotRef) (kind : Nat) (dest : Word) (v : Row) (po : Bool) : State :=
  match kind with
  | 0 => s.modSlot r fun x => x.land (dest.setWidth 5) (v.setWidth 64) []
  | 1 => s.modSlot r fun x => { x with lq := x.lq.mapIdx fun i p => if i = fld dest 3 0 then { p with row := some ⟨v, if po then some 0 else none⟩ } else p }
  | _ =>
    let x : Slot := s.slot r
    let (key, s0) := if kind = 2 then (tileKey r.core (x.tileBank (fld dest 6 0)) (fld dest 6 0 % 16), s) else s.redirect r.core (fld dest 56 0)
    let s1 : State := s0.writeNow x.party x.ten key (rowBytes v) []
    if po && !isWindow key then { s1 with poison := unionIds s1.poison [key, key + 16] } else s1

/-- Inserts a pair in ascending order of its first part. -/
def insertPair (p : Nat × Nat) : List (Nat × Nat) → List (Nat × Nat)
  | [] => [p]
  | q :: l => if p.1 ≤ q.1 then p :: q :: l else q :: insertPair p l

/-- The saved contents go back, in ascending order of their old banks, and the banks take their recorded codes (R75, R171 step 1). -/
def State.restoreBanks (s : State) (core : Nat) (m : Image) (tiles : List Nat) : State :=
  let pairs : List (Nat × Nat) := ((m.tiles.zip tiles).foldr insertPair []) ++ ((List.range 48).filter fun b => m.sb.getLsbD b).map fun b => (b + 16, b + 16)
  (pairs.foldl (fun (a : Nat × State) p =>
    let (o, t) := a
    let c := m.code p.1
    if c = 1 || c = 2 then
      let lo := bankAddr core p.2
      let n := bankSize p.2
      let t1 : State := t.wipe lo (lo + n)
      let bad := (m.poison.filter fun q => decide (o ≤ q) && decide (q < o + n)).map fun q => lo + (q - o)
      (o + n, ({ t1 with mem := Memory.setBytes t1.mem lo ((m.bytes.drop o).take n), poison := unionIds t1.poison bad } : State).modCore core fun k =>
        k.setBank p.2 c)
    else (o, t.modCore core fun k => k.setBank p.2 0)) (0x2000, s)).2

/-- The slot of an image, before its quarantine lines are written; a reserved field reads as zero (R4). -/
def Image.slot (m : Image) (tiles : List Nat) (party fresh : Nat) (old : Slot) : Slot :=
  { occ := if m.tag.pinned then .pinned else .running
    pc := wd (fld (m.word 1) 56 2 * 4)
    level := m.tag.level
    ten := m.tag.ten
    s := Vector.ofFn fun i => if i.val = 0 then 0#64 else m.word (32 + i.val)
    full := (m.word 11).setWidth 32 ||| 1#32
    wdef := bit (m.word 8) 0
    frm := (m.word 5).setWidth 2
    fflags := (m.word 6).setWidth 7
    amax := (m.word 7).setWidth 31
    succ := m.word 4 &&& 0x01FFFFFFFFFFFFF0#64
    workid := m.word 3
    st := stateWord (m.word 2)
    recAddr := m.tag.recAddr
    tiles := tiles
    sb := m.sb
    retired := old.retired
    limit := let l := fld (m.word 28) 15 8; if l = 0 || 64 < l then 16 else l
    trap := { tpc := m.word 22, tcause := m.word 23 &&& 0x8000_0000_0000_00FF#64, tval := m.word 24, tinst := m.word 25 &&& 0xFFFF_FFFF#64
              tstat := m.word 26 &&& 0xFFFF_F800_0000_0073#64, tsave := m.word 27 }
    mb := Vector.ofFn fun i => mbMask i.val (m.word (16 + i.val))
    lq := (List.range (Nat.min 16 (fld (m.word 14) 4 0))).map fun i => { flight := 0, row := some (m.row (16 + i)) }
    sq := (List.range (Nat.min 16 (fld (m.word 14) 9 5))).map fun i => m.row (32 + i)
    origin := m.tag.origin
    succs := m.tag.succs
    armed := m.tag.armed
    stepDue := m.tag.stepDue
    frozen := m.tag.frozen
    halted := m.tag.halted
    pend := m.tag.pend
    pre := m.tag.pre
    took := m.tag.took
    tookOp := m.tag.tookOp
    parked := m.tag.parked
    stepFrom := fresh
    party := party
    gbars := m.tag.gbars }

/-- Changes every engine operation and tile task of the device. -/
def State.mapOps (s : State) (f : EngOp → EngOp) (g : TileTask → TileTask) : State :=
  { s with
    cores := s.cores.map fun c => (c.1, { c.2 with queue := c.2.queue.map f })
    clusters := s.clusters.map fun c => (c.1, { c.2 with
      fqueue := c.2.fqueue.map f
      tqueue := c.2.tqueue.map f
      arrays := c.2.arrays.map fun a => { a with queue := a.queue.map f, loaded := a.loaded.map f, run := a.run.map fun o => { o with op := f o.op } }
      tileTasks := c.2.tileTasks.map g }) }

/-- Restores an image into a slot with the tile banks it gets (R171). The strand goes on as the party it was, and engine operations that it
has entered stay its own (R374). -/
def State.restore (s : State) (m : Image) (r : SlotRef) (tiles : List Nat) (acq : Rels) : State :=
  let old := m.tag.party
  let (party, s0) := if old = 0 then (s.regrant r m.sb).newParty r.core r.slot acq
    else (old, ((s.regrant r m.sb).modParty old fun p => { p with home := some r.core, slot := r.slot }).acquire old 3 acq)
  let s1 : State := if old = 0 then s0 else
    s0.mapOps (fun o => if o.party = old then { o with who := r } else o) (fun t => if t.party = old then { t with who := r } else t)
  let s2 : State := (s1.restoreBanks r.core m tiles).setSlot r (m.slot tiles party s1.fresh (s.slot r))
  let s3 : State := ((s2.restoreSa r m party).restoreCopies r m party)
  let s4 : State := (List.range (Nat.min 64 (m.word 15).toNat)).foldl (fun t i =>
    let h := m.word (512 + 8 * i)
    let v := rowOf ((m.bytes.drop (0x1000 + 64 * i + 8)).take 32)
    if bit h 63 && bit h 62 then t.seepInto r (fld h 61 60) (wd (fld h 56 0)) v (m.poison.contains (0x1010 + 64 * i)) else t) s3
  s4.restoreSeq r m party

/-! ## CTXSAVE and CTXLOAD -/

/-- Continues after the checks of a whole area, page by page and on the chip bank by bank (R58, R350, R367): each page is walked for, and every byte lies in
stack memory or cluster scratch. -/
def State.onArea (acc : Acc) (k : State → State) : Nat → Word → Nat → State → State
  | 0, _, _, s => k s
  | f + 1, va, n, s =>
    let m := if bit va 56 then Nat.min n (8192 - va.toNat % 8192) else Nat.min n (4096 - va.toNat % 4096)
    if n = 0 then k s
    else s.onAddr acc va (s.check s.cur acc va m 1) fun key s =>
      if inScr key || s.place key = .stack then State.onArea acc k f (va + wd m) (n - m) s else s.trap 6 va

/-- Length of the image of a slot as it stands. -/
def State.imageLen (s : State) (r : SlotRef) : Nat :=
  (keptBanks (s.slotBanks r)).foldl (fun n b => n + bankSize b) 8192

/-- The first bank of an on-chip area that has to wake before the area is reached: the machine with its wake begun (R67). -/
def State.areaWakes (s : State) (va : Word) (n : Nat) : Option State :=
  if bit va 56 then (List.range (n / 64)).findSome? fun i => s.wakeFirst (va.toNat + 64 * i) 64 else none

/-- CTXSAVE (R310, R367): the named slot stops (R166). -/
def execCtxsave (d a b : Reg) (wa wb : Bool) (s : State) : Out1 :=
  .next (s.priv .s fun s => s.issue [(a, wa), (b, wb)] [d] fun s =>
    let x : Slot := s.sl
    let r := slotSpec (s.sl.rd b)
    let y : Slot := s.slot r
    let va := s.sl.rd a
    if r = s.cur then s.trap 1 0#64
    else if x.level != .m && (!s.coreOf x.ten r.core || (y.occ != .free && y.ten != x.ten)) then
      s.trap 6 (wd (chipAddr (r.core / 16) (r.core % 16) 2 (r.slot * 0x100)))
    else if va.toNat % 64 ≠ 0 then s.trap 5 va
    else State.onArea .store (fun s =>
      if y.occ = .free || 16 * s.nclusters ≤ r.core then s.produce d (landReg d 0#64)
      else (s.produce d (.ctxsave (.reg d) r va)).haltSlot r) 128 va (s.imageLen r) s)

/-- Writes an area in pieces of 64 B for a tenant, each with the poison of its bytes; none when a piece fails (R380). -/
def State.writeArea (p ten : Nat) (lv : Level) (poison : List Nat) (rels : List (Nat × List Nat)) : Nat → Nat → Word → List Byte → State → Option State
  | 0, _, _, _, s => some s
  | n + 1, o, va, bs, s =>
    match s.checkNow (if bit va 56 then (chipOf va.toNat).cluster else 0) ten lv .store false va 64 with
    | .ok k =>
      if !(inScr k || s.place k = .stack) then none
      else
        let s1 : State := s.writeNow p ten k (bs.take 64) rels
        let bad := ((List.range 4).filter fun i => poison.contains (o + 16 * i)).map fun i => granule (k + 16 * i)
        State.writeArea p ten lv poison rels n (o + 64) (va + 64#64) (bs.drop 64) { s1 with poison := unionIds s1.poison bad }
    | _ => none

/-- A slot that was stopped and not saved goes on in place (R312): its quarantine lines are written, its withdrawn entries re-entered, and what of its
messages is still to be acknowledged is counted again. -/
def State.resumeInPlace (s : State) (r : SlotRef) : State :=
  let lines := ((List.range 64).map fun n => (s.core r.core).seep.get {} n).filter fun l => l.v && l.slot == r.slot
  let s1 : State := lines.foldl (fun t l => t.seepInto r l.kind l.dest l.data l.poison) s
  let items := (s1.slot r).withdrawn
  let open_ := ((s1.flightsOf r).filter fun f => !f.late && !f.outlived && (match f.act with | .send _ => true | .ack => true | _ => false)).length
  (s1.modCore r.core fun c => { c with seep := c.seep.filter (fun l => l.2.slot != r.slot), seq := items ++ c.seq }).modSlot r fun x =>
    { x with halted := false, saving := false, withdrawn := [], unacc := open_ }

/-- Does a slice save hold the strand of a slot? -/
def State.sliced (s : State) (r : SlotRef) : Bool := s.clusters.any fun c => c.2.saved.any fun v => v.slots.any fun e => e.at_ == r

/-- A CTXSAVE or MIGR at its event: its turn comes, its slot's save begins, and once it can be completed `k` completes it; where the strand that it
named is gone (R310, R312, R317), `gone` ends it (DEDUCED, log 59). -/
def State.onSave (s : State) (id : Nat) (r : SlotRef) (gone : State → State) (k : State → State) : State :=
  if !s.saveTurn id r then s
  else if (s.slot r).occ = .free || !(s.slot r).halted then (if s.sliced r then s else gone s)
  else
    let s1 : State := s.beginSave r
    if s1.savable r then k s1 else s1

/-- CTXSAVE_COMPLETE (R169, R170, R310, R380). A save whose image meets an uncorrectable error in a write fails (R378, R380). -/
def execCtxsaveComplete (save : SaveEnd) (s : State) : Out1 :=
  let id := save.id
  .next (match s.flight? id with
    | some f =>
      match f.act with
      | .ctxsave d r va =>
        let ends (t : State) (n : Nat) : State := t.setAct id (.result d (BitVec.ofNat 256 n) none [])
        s.onSave id r (fun s => ends s 0) fun s =>
          let x : Slot := s.slot r
          let tag := s.fresh
          let s0 : State := { s with fresh := s.fresh + 1 }
          let bs := s0.imageBytes r tag
          (match s.areaWakes va bs.length with
          | some s' => s'
          | none =>
          match if !save.sound then none else State.writeArea x.party f.ten f.level (s0.imagePoison r) [(x.party * 8 + 3, (s0.party x.party).floor)] (bs.length / 64) 0 va bs s0 with
            | none =>
              let lines := (s.core r.core).seep.any fun l => l.2.v && l.2.slot == r.slot
              ends (s.modSlot r fun x => { x with saving := lines }) (2 ^ 64 - 1)
            | some s1 => ends (({ s1 with images := s1.images.put tag (s.imageTag r) } : State).vacate r) bs.length)
      | _ => s
    | none => s)

/-- Reads an area in pieces of 64 B: bytes, poisoned offsets and what its writes released; or the code and TVAL of a piece that fails (R350), 9 with the
bank of the core's own, or with the granule in another core's (R346, R372). -/
def State.readArea (core p ten : Nat) (lv : Level) :
    Nat → Nat → Word → State → Except (Nat × Word) (List Byte × List Nat × List (Nat × List Nat) × State)
  | 0, _, _, s => .ok ([], [], [], s)
  | n + 1, o, va, s =>
    match s.checkNow (if bit va 56 then (chipOf va.toNat).cluster else s.clusterOf core) ten lv .load false va 64 with
    | .ok k =>
      (match s.readNow p ten k 64 with
        | none => .error (9, match ownBank core k with
          | some b => wd b
          | none => wd (granule k))
        | some (bs, rels, s1) =>
          let bad := ((List.range 4).filter fun i => (s.poisoned ten (k + 16 * i) 16).isSome).map fun i => o + 16 * i
          (State.readArea core p ten lv n (o + 64) (va + 64#64) s1).map fun t => (bs ++ t.1, bad ++ t.2.1, rels ++ t.2.2.1, t.2.2.2))
    | .bad c v => .error (c, v)
    | .miss => .error (7, va)

/-- The tag that an image names, as far as the issuer may restore it (R311); else that of a plain strand of the issuer. -/
def State.tagOf (s : State) (n : Nat) : ImageTag :=
  let x : Slot := s.sl
  let plain : ImageTag := { ten := x.ten, level := startLevel s.cur.core x.ten, origin := .record }
  match s.images.find? fun e => e.1 == n with
  | some (_, t) => if x.level = .m || t.ten = x.ten then t else plain
  | none => plain

/-- An image that has been restored: its strand is that party now, and what is restored from it again is another (DESIGN CHOICE, log 26). -/
def State.usedTag (s : State) (n : Nat) : State :=
  { s with images := s.images.map fun e => if e.1 = n then (e.1, { e.2 with party := 0, origin := .record }) else e }

/-- What a failed read of an image does: a trap, or, where another core's bank is Off, zeros in the destination and an asynchronous fault (R372). -/
def State.areaFault (s : State) (d : Reg) (c : Nat) (v : Word) : State :=
  if c = 9 && bit v 56 then (s.faultHere 9 v).produce d (landReg d 0#64) else s.trap c v

/-- CTXLOAD (R171, R311, R367) (DEDUCED, log 49). -/
def execCtxload (d a : Reg) (wa : Bool) (s : State) : Out1 :=
  .next (s.priv .s fun s => s.issue [(a, wa)] [d] fun s =>
    let x : Slot := s.sl
    let va := x.rd a
    if va.toNat % 64 ≠ 0 then s.trap 5 va
    else State.onArea .load (fun s =>
      match s.areaWakes va 8192 with
      | some s' => s'
      | none =>
      match State.readArea s.cur.core x.party x.ten x.level 128 0 va s with
      | .error (c, v) => s.areaFault d c v
      | .ok (bs, _, _, _) =>
        let w := wd (leNat (bs.take 8))
        if !imgOk w then s.produce d (landReg d 6#64)
        else State.onArea .load (fun s =>
          match s.areaWakes va (fld w 31 0) with
          | some s' => s'
          | none =>
          match State.readArea s.cur.core x.party x.ten x.level (fld w 31 0 / 64) 0 va s with
          | .error (c, v) => s.areaFault d c v
          | .ok (bs, po, rels, s1) =>
            let n := leNat ((bs.drop 2688).take 8)
            let m : Image := { bytes := bs, poison := po, tag := s.tagOf n }
            match s.placeImage m s.cur.core with
            | .error e => s.produce d (landReg d (wd e))
            | .ok (slot, tiles) => ((s1.restore m ⟨s.cur.core, slot⟩ tiles rels).usedTag n).produce d (landReg d (wd slot))) 128 va (fld w 31 0) s)
      128 va 8192 s)

/-! ## Migration -/

/-- Packets that are under way to a core. -/
def State.underWay (s : State) (core : Nat) : Nat :=
  (s.flights.filter fun f => f.act.pending && (match f.act.pkt f.who.core with | some (_, t) => t == core | none => false)).length

/-- Packets that a core has received (DEDUCED, log 42). -/
def Core.received (c : Core) : Nat := (c.recv.map (·.2)).sum

/-- Live forwarding entries of a core (R173). -/
def Core.liveForwards (c : Core) : Nat := (c.forwards.filter fun f => !f.retired).length

/-- MIGR (R312, R367): the named slot stops (R166). -/
def execMigr (d a b : Reg) (wa wb : Bool) (s : State) : Out1 :=
  .next (s.priv .m fun s => s.issue [(a, wa), (b, wb)] [d] fun s =>
    let r := slotSpec (s.sl.rd a)
    let t := s.sl.rd b
    if (s.slot r).occ = .free || 16 * s.nclusters ≤ r.core then s.produce d (landReg d 3#64)
    else if 8 ≤ (s.core r.core).liveForwards then s.produce d (landReg d 1#64)
    else (s.produce d (.migr (.reg d) r (fld t 9 0) (fld t 27 16))).haltSlot r)

/-- The forwarding entry that a move leaves behind (R173, R399); a move within a core leaves its scratch banks where they are. -/
def State.forwardFor (s : State) (m : Image) (r : SlotRef) (dev : Option Nat) (core slot : Nat) : Forward :=
  { ten := m.tag.ten, dev := dev, oldSlot := r.slot, newCore := core, newSlot := slot, sb := if dev.isNone && core == r.core then 0#48 else m.sb
    moved := s.cycle, used := s.cycle, sent := (s.core r.core).received + s.underWay r.core }

/-- Where a strand can move on this device (R172, R312): a free slot of a compute core of its tenant, with the tile banks it gets there; what it holds itself
is no hindrance. -/
def State.moveTo (s : State) (m : Image) (r : SlotRef) (core : Nat) : Option (Nat × List Nat) :=
  if !s.coreOf m.tag.ten core || 16 * s.nclusters ≤ core then none
  else match s.slotFor m.tag.ten core, (s.modSlot r fun x => { x with tiles := [], sb := 0#48 }).banksFor m core with
    | some n, .ok ts => some (n, ts)
    | _, _ => none

/-- Carries out a move whose slot has been saved (R172, R173, R312), and gives its status. Another device takes the strand or does not (DESIGN CHOICE,
log 48). -/
def State.move (s : State) (r : SlotRef) (core dev : Nat) : Nat × State :=
  let m : Image := { bytes := s.imageBytes r 0, poison := s.imagePoison r, tag := s.imageTag r }
  let leave (t : State) (f : Forward) : State := t.modCore r.core fun c => { c with forwards := c.forwards ++ [f] }
  if 8 ≤ (s.core r.core).liveForwards then (1, s.resumeInPlace r)
  else if dev ≠ s.dev then
    if !s.reaches dev || !Config.farTakes s.fresh then (2, s.resumeInPlace r)
    else
      let s1 : State := s.vacate r
      (0, leave { s1 with fresh := s1.fresh + 1, out := s1.out ++ [.image dev core m.bytes] }
        (s.forwardFor m r (some dev) core (Config.farSlot s.fresh % 4)))
  else match s.moveTo m r core with
    | none => (2, s.resumeInPlace r)
    | some (slot, tiles) => (0, (leave (s.vacate r) (s.forwardFor m r none core slot)).restore m ⟨core, slot⟩ tiles [])

/-- MIGRATION_RESTORE (R170, R172, R173, R312). -/
def execMigrationRestore (id : Nat) (s : State) : Out1 :=
  .next (match s.flight? id with
    | some f =>
      match f.act with
      | .migr d r core dev =>
        let ends (t : State) (n : Nat) : State := t.setAct id (.result d (BitVec.ofNat 256 n) none [])
        s.onSave id r (fun s => ends s 3) fun s => let (n, t) := s.move r core dev; ends t n
      | _ => s
    | none => s)

/-- FORWARD_RETIRE (R173, R399). -/
def execForwardRetire (core entry : Nat) (s : State) : Out1 :=
  let c : Core := s.core core
  .next (match c.forwards[entry]? with
    | none => s
    | some f =>
      let idle := decide (f.used + 65536 ≤ s.cycle)
      if f.retired || !idle || !(decide (f.sent ≤ c.received) || decide (f.moved + 1400000 ≤ s.cycle)) then s
      else s.modCore core fun c =>
        { c with forwards := c.forwards.take entry ++ ({ f with retired := true } : Forward).left.toList ++ c.forwards.drop (entry + 1) })

/-! ## The gang stop -/

/-- The cores of a tenant's partition on this device (R313). -/
def State.gangCores (s : State) (vf : Nat) : List Nat :=
  ((List.range (16 * s.nclusters)).filter fun c => (s.tenant vf).ownsCore c) ++
    ((List.range s.channels).map (· + 1024)).filter fun c => (s.core c).slots.toList.any fun x => x.occ != .free && x.ten == vf

/-- GSTOP (R313, R367). -/
def execGstop (d a b : Reg) (wa wb : Bool) (s : State) : Out1 :=
  .next (s.priv .m fun s => s.issue [(a, wa), (b, wb)] [d] fun s =>
    let ctl := s.sl.rd a
    let vf := fld ctl 14 8
    let va := s.sl.rd b
    if vf = 0 || 65 ≤ vf then s.trap 1 0#64
    else if !bit ctl 0 && va.toNat % 64 ≠ 0 then s.trap 5 va
    else
      let go (s : State) : State :=
        let cores := if bit ctl 0 then (s.tenant vf).stoppedCores else s.gangCores vf
        let id := s.fresh
        if cores.isEmpty then s.produce d (.gstop (.reg d) 0 [])
        else (s.launchFlight s.cur (.coreStop vf (bit ctl 0) (bit ctl 1) va cores)).produce d (.gstop (.reg d) cores.length [id])
      if bit ctl 0 then go s
      else s.onAddr .store va (s.check s.cur .store va 64 64) fun k s =>
        if inScr k || s.place k = .stack then go s else s.trap 6 va)

/-- CORE_STOP (R174, R175): a core of the gang stops and writes its record, or resumes; a resume clears a fence and finds every slot of the core free
(R391). -/
def execCoreStop (id core : Nat) (s : State) : Out1 :=
  .next (match s.flight? id with
    | some f =>
      match f.act with
      | .coreStop vf resume freeze recd cores =>
        if !cores.contains core then s
        else
          let rest := cores.erase core
          let s1 : State := if rest.isEmpty then s.dropFlight id else s.setAct id (.coreStop vf resume freeze recd rest)
          let s2 : State := s1.modTenant vf fun t => { t with
            stoppedCores := if resume then t.stoppedCores.erase core else if t.stoppedCores.contains core then t.stoppedCores else t.stoppedCores ++ [core] }
          if resume then
            let s3 : State := if (s2.core core).fenced then (List.range 4).foldl (fun t n => t.freeSlot ⟨core, n⟩) s2 else s2
            s3.modCore core fun c => { c with stopped := false, freeze := false, fenced := false }
          else
            let s3 : State := s2.stopCore core freeze
            let va := recd + wd (64 * s3.recordIndex core)
            match s3.deviceWrite 0 (s3.clusterOf f.who.core) f.ten f.level va (s3.stopRecord core) [] with
            | (none, s4) => s4
            | (some (c, _), _) => s3.monitorReport { ten := vf, cause := wd c, tval := va }
      | _ => s
    | none => s)

/-- GSTOP_COMPLETE (R313). -/
def execGstopComplete (id : Nat) (s : State) : Out1 :=
  .next (match s.flight? id with
    | some f =>
      match f.act with
      | .gstop d n ids => if ids.any fun i => (s.flight? i).isSome then s else s.setAct id (.result d (BitVec.ofNat 256 n) none [])
      | _ => s
    | none => s)

/-! ## Slices (R152, R154) -/

/-- The slots of a tenant on a cluster. -/
def State.slotsOn (s : State) (cl ten : Nat) : List SlotRef :=
  (List.range 64).filterMap fun i =>
    let r : SlotRef := ⟨16 * cl + i / 4, i % 4⟩
    if (s.slot r).occ != .free && (s.slot r).ten == ten then some r else none

/-- Changes the slice save of a tenant on a cluster. -/
def State.modSlice (s : State) (cl ten : Nat) (f : Slice → Slice) : State :=
  s.modCluster cl fun k =>
    if k.saved.any fun v => v.ten == ten then { k with saved := k.saved.map fun v => if v.ten = ten then f v else v }
    else { k with saved := k.saved ++ [f { ten := ten }] }

/-- Saves one slot of the outgoing tenant, as CTXSAVE does (R154, R166 to R169), as far as it can be done now. A CTXSAVE or MIGR that waits for the slot finds it
stopped again when it is back. -/
def State.sliceSave (s : State) (cl ten : Nat) (r : SlotRef) : State :=
  let s1 : State := s.beginSave r
  if !s1.savable r then s1
  else
    let asked := s1.flights.any fun f => f.act.saveOf == some r
    let v : SavedSlot := { at_ := r, bytes := s1.imageBytes r 0, poison := s1.imagePoison r, tag := { s1.imageTag r with halted := asked } }
    (s1.modSlice cl ten fun w => { w with slots := w.slots ++ [v] }).vacate r

/-- Gives the tenant whose turn it is what its last slice left (R154): its fold entries and engine state, and each slot, in its old place, as soon as that and
its banks are free (DEDUCED, log 50). -/
def State.sliceRestore (s : State) (cl ten : Nat) : State :=
  match (s.cluster cl).saved.find? fun v => v.ten == ten with
  | none => s
  | some v =>
    v.slots.foldl (fun t e =>
      let m : Image := { bytes := e.bytes, poison := e.poison, tag := e.tag }
      if (t.slot e.at_).occ ≠ .free || t.promised e.at_.core e.at_.slot then t
      else match t.banksFor m e.at_.core with
        | .error _ => t
        | .ok ts =>
          (t.restore m e.at_ ts []).modSlice cl ten fun w => { w with slots := w.slots.filter fun y => y.at_ != e.at_ }) s

/-- The slices of a cluster change: what is left of the outgoing tenant is saved, its fold entries and the engine state of the arrays, and the incoming one's slice
begins (R154). -/
def State.sliceOver (s : State) (cl ten : Nat) : State :=
  let c := s.cluster cl
  let next := c.share.getD c.turn 0
  let s1 : State := s.modSlice cl ten fun w => { w with folds := w.folds ++ c.folds.filter (fun e => e.dom / 16 == ten), arrays := c.arrays }
  let back : Slice := ((s1.cluster cl).saved.find? fun v => v.ten == next).getD { ten := next }
  ((s1.modCluster cl fun k =>
    { k with folds := k.folds.filter (fun e => e.dom / 16 != ten) ++ back.folds, arrays := back.arrays, leaving := none, sliceStart := s.cycle
             steal := { k.steal with idleSince := none } }).modSlice
      cl next fun w => { w with folds := [], arrays := Vector.replicate 2 {} }).sliceRestore cl next

/-- A slice boundary goes on (R154): the outgoing tenant's slots are saved, those of one core one after another, in ascending order (R166); after the last one the incoming tenant's slice
begins. -/
def State.sliceLeave (s : State) (cl ten : Nat) : State :=
  let s1 : State := (s.slotsOn cl ten).foldl (fun t r =>
    if (t.slotsOn cl ten).any fun q => q.core == r.core && decide (q.slot < r.slot) then t else t.sliceSave cl ten r) s
  if (s1.slotsOn cl ten).isEmpty then s1.sliceOver cl ten else s1

/-- A slice boundary begins (R154, R166): the slots of the outgoing tenant stop. A poisoned fold entry goes the way of R384. -/
def State.sliceEnd (s : State) (cl ten : Nat) : State :=
  let bad := (s.cluster cl).folds.filter fun e => e.dom / 16 == ten && e.poison
  let s1 : State := bad.foldl (fun t e => t.poisonedEntry ten e.dom cl e) s
  ((s1.slotsOn cl ten).foldl (fun t r => t.haltSlot r) s1).modCluster cl fun k => { k with leaving := some ten }

/-- Is a slice of a cluster over: the cluster is shared, its cores run, and the slice has lasted its length (R152)? -/
def State.sliceDue (s : State) (cl : Nat) : Bool :=
  let c := s.cluster cl
  decide (2 ≤ c.share.length) && !s.clusterFrozen cl && !((List.range 16).any fun i => (s.core (16 * cl + i)).stopped) &&
    decide (c.sliceStart + (s.tenant (c.share.getD c.turn 0)).slice * 700 ≤ s.cycle)

/-- SLICE_SWITCH (R152, R154, R166): one step of a slice boundary, or of the return of what waits for a free place. -/
def execSliceSwitch (cluster : Nat) (s : State) : Out1 :=
  let c := s.cluster cluster
  let ten := c.share.getD c.turn 0
  .next (match c.leaving with
    | some out => if s.clusterFrozen cluster then s else s.sliceLeave cluster out
    | none =>
      if s.sliceDue cluster then
        ((s.sliceEnd cluster ten).modCluster cluster fun k => { k with turn := (c.turn + 1) % c.share.length }).sliceLeave cluster ten
      else s.sliceRestore cluster ten)

end Sys2Proof.Machine
end

