-- ==== Sys2Proof/Machine/Scrub.lean ====
section
/-! DEFINITION. Key slots, the scrub engine and its journal, and the assignment and teardown of tenants: the SEC instructions (R307,
R315 to R319, R368), the chunk of a scrub pass (R411 to R414) and what teardown adds (R418 to R421). -/

namespace Sys2Proof.Machine

open Host

/-! ## Chunks (R307, R414) -/

/-- What one chunk of a scrub pass zeroes. -/
inductive Chunk
  | banks (core : Nat) (mask : BitVec 48)
  | priv (core : Nat)
  | fold (cluster i : Nat)
  | matrix (cluster i : Nat)
  | pa (base : Nat)
  deriving DecidableEq, Repr

/-- Eight banks of a mask, from the n-th on, in ascending order. -/
def eightBanks (m : BitVec 48) (n : Nat) : BitVec 48 :=
  (((List.range 48).filter fun b => m.getLsbD b).drop (8 * n) |>.take 8).foldl (fun a b => a ||| BitVec.twoPow 48 b) 0#48

/-- Chunk `i` of a job. -/
def ScrubJob.chunk (j : ScrubJob) (i : Nat) : Option Chunk :=
  let c := chipOf j.base.toNat
  match fld j.desc 63 60 with
  | 1 => some (.pa (j.base.toNat + i * 0x10000))
  | 2 => some (.banks c.core (eightBanks (j.desc.setWidth 48) i))
  | 3 => some (.priv c.core)
  | 4 => some (.fold c.cluster i)
  | 5 => some (.matrix c.cluster i)
  | _ => none

/-- Chunk `n` of the pass of a cold reset (R414). -/
def State.coldChunk (s : State) (n : Nat) : Chunk :=
  let k := n / 140
  let r := n % 140
  if s.nclusters * 140 ≤ n then .pa ((n - s.nclusters * 140) * 0x10000)
  else if r < 96 then .banks (16 * k + r / 6) (BitVec.ofNat 48 (0xFF * 2 ^ (8 * (r % 6))))
  else if r < 112 then .priv (16 * k + (r - 96))
  else if r < 128 then .fold k (r - 112)
  else .matrix k (r - 128)

/-- Chunks of the pass of a cold reset. -/
def State.coldChunks (s : State) : Nat := s.nclusters * 140 + stackEnd / 0x10000

/-- The cluster of a chunk. -/
def Chunk.cluster? : Chunk → Option Nat
  | .banks c _ => some (c / 16)
  | .priv c => some (c / 16)
  | .fold c _ => some c
  | .matrix c _ => some c
  | .pa _ => none

/-- The channel of a chunk of LPDDR-6. -/
def Chunk.channel? (s : State) : Chunk → Option Nat
  | .pa b => (match s.place b with
    | .lpddr m => some m
    | _ => none)
  | _ => none

/-- Sets every key from `lo` on, `n` of them, to one value. -/
def AMap.fill {α : Type} (m : AMap α) (lo n : Nat) (v : α) : AMap α :=
  m.filter (fun e => decide (e.1 < lo)) ++ (List.range n).map (fun i => (lo + i, v)) ++ m.filter fun e => decide (lo + n ≤ e.1)

/-- A slot as a scrub leaves it: its registers and build registers zero. -/
def Slot.scrubbed (x : Slot) : Slot := { retired := x.retired, limit := x.limit, full := 1#32 }

/-- A chunk is written with zeros (R307). -/
def State.zeroChunk (s : State) (c : Chunk) : State :=
  match c with
  | .banks core m => ((List.range 48).filter fun b => m.getLsbD b).foldl (fun t b => t.bankOff core (16 + b)) s
  | .priv core =>
    let s1 : State := (List.range 16).foldl (fun t b => t.bankOff core b) s
    let s2 : State := s1.wipe (chipAddr (core / 16) 31 0 (0xB8000 + core % 16 * 0x800)) (chipAddr (core / 16) 31 0 (0xB8800 + core % 16 * 0x800))
    s2.modCore core fun k => { k with
      slots := k.slots.map fun x => if x.occ = .free then x.scrubbed else x
      shadow := []
      active := []
      seep := []
      pk := 0#64 }
  | .fold cl i => s.modCluster cl fun k =>
      let k1 : Cluster := { k with folds := k.folds.filter fun e => e.bank != i }
      if i = 15 then { k1 with doms := [], fstage := [], fqueue := [] } else k1
  | .matrix cl i =>
    let s1 : State := s.wipe (chipAddr cl 31 0 (i * 0x10000)) (chipAddr cl 31 0 (i * 0x10000) + 0x10000)
    if i = 11 then s1.modCluster cl fun k => { k with arrays := Vector.replicate 2 {} } else s1
  | .pa base =>
    let s1 : State := s.wipe base (base + 0x10000)
    match s.place base with
    | .lpddr _ => { s1 with keyTags := AMap.fill s1.keyTags (base / 32) 2048 (s.keyGen 0) }
    | _ => s1

/-- A quarantined unit after a chunk has left quarantine. -/
def Quar.release (c : Chunk) (q : Quar) : List Quar :=
  match c, q with
  | .banks core m, .scratch k n =>
    if core = k then (if n &&& ~~~m = 0#48 then [] else [.scratch k (n &&& ~~~m)]) else [q]
  | .priv core, .priv k => if core = k then [] else [q]
  | .fold cl i, .fold k _ => if cl = k then (if i = 15 then [] else [.fold k (i + 1)]) else [q]
  | .matrix cl i, .matrix k _ => if cl = k then (if i = 11 then [] else [.matrix k (i + 1)]) else [q]
  | .pa base, .pa b l =>
    if b ≤ base ∧ base + 0x10000 ≤ b + l then
      (if b < base then [.pa b (base - b)] else []) ++ (if base + 0x10000 < b + l then [.pa (base + 0x10000) (b + l - (base + 0x10000))] else [])
    else [q]
  | _, _ => [q]

/-- A chunk leaves quarantine (R318, R411). -/
def State.releaseChunk (s : State) (c : Chunk) : State :=
  { s with tenants := s.tenants.map fun t => (t.1, { t.2 with quar := t.2.quar.flatMap (Quar.release c) }) }

/-- Chunks of a quarantined unit (R319). -/
def Quar.chunks : Quar → Nat
  | .scratch _ m => (((List.range 48).filter fun b => m.getLsbD b).length + 7) / 8
  | .priv _ => 1
  | .fold _ d => 16 - d
  | .matrix _ d => 12 - d
  | .pa _ l => l / 0x10000
  | .key _ => 0

/-! ## Tenants -/

/-- State of a tenant's key slot, or zero when none is bound. -/
def State.keyZero (s : State) (v : Nat) : Bool :=
  let k := (s.tenant v).kslot
  k == 0 || (s.keys.get {} k).st == .zero

/-- A tenant that was taken apart, holds nothing in quarantine and whose key slot is zero becomes FREE (R318, R421). -/
def State.settle (s : State) (v : Nat) : State :=
  let t := s.tenant v
  if t.st = .scrub ∧ t.nq = 0 ∧ t.quar = [] ∧ s.keyZero v then s.modTenant v fun t => { t with st := .free, tdi := .unlocked, kslot := 0 } else s

/-- Every tenant settles. -/
def State.settleAll (s : State) : State := (s.tenants.map (·.1)).foldl (fun t v => t.settle v) s

/-- A TDI goes to ERROR and ST to SCRUB (R204). -/
def State.tdiError (s : State) (v : Nat) : State := s.modTenant v fun t => { t with tdi := .error, st := .scrub }

/-- A memory window as base and size in bytes. -/
def windowOf (w : Word) : Nat × Nat := (fld w 47 21 * 0x20_0000, fld w 20 2 * 0x20_0000)

/-- What a tenant owns, as units to be scrubbed (R317); host space holds nothing of the device. -/
def Tenant.owned (t : Tenant) : List Quar :=
  (t.scr.filter fun e => e.2 != 0#48).map (fun e => Quar.scratch e.1 e.2) ++
  ((List.range 1024).filter fun c => t.ownsCore c).map Quar.priv ++
  ((List.range 64).filter fun k => t.fold.getLsbD k).map (fun k => Quar.fold k 0) ++
  ((List.range 64).filter fun k => t.matrix.getLsbD k).map (fun k => Quar.matrix k 0) ++
  ((t.mwin.map windowOf).filter fun w => w.2 != 0 && decide (w.1 < hostBase)).map fun w => Quar.pa w.1 w.2

/-- Everything of a tenant that is still queued or under way on the device goes (R419). -/
def State.dropTenant (s : State) (v : Nat) : State :=
  let keep (o : EngOp) : Bool := o.ten != v
  let s1 : State := s.dropWork fun e => e.ten == v
  { s1 with
    launches := s1.launches.filter fun l => l.ten != v
    flights := s1.flights.filter fun f => f.ten != v || f.pkt.isSome
    walks := s1.walks.filter fun w => w.ten != v
    images := s1.images.filter fun e => e.2.ten != v
    deposits := s1.deposits.filter fun d => d.ten != v
    cores := s1.cores.map fun c => (c.1, { c.2 with
      inbound := c.2.inbound.filter fun m => m.ten != v
      queue := c.2.queue.filter keep
      tasks := if (s.tenant v).ownsCore c.1 then [] else c.2.tasks
      falls := c.2.falls.filter fun e => e.2 != v })
    clusters := s1.clusters.map fun c => (c.1, { c.2 with
      tileTasks := c.2.tileTasks.filter fun t => t.ten != v
      fqueue := c.2.fqueue.filter keep
      tqueue := c.2.tqueue.filter keep
      doms := c.2.doms.map fun d => if d.1 / 16 = v then (d.1, { d.2 with firings := [], posted := false }) else d
      saved := c.2.saved.filter fun w => w.ten != v
      steal := { c.2.steal with shipped := c.2.steal.shipped.filter fun e => e.ten != v }
      arrays := c.2.arrays.map fun a => { a with
        queue := a.queue.filter keep
        loaded := a.loaded.filter keep
        run := a.run.filter fun m => keep m.op } }) }

/-- TNFREE takes a tenant apart (R317, R419), but for the status that it answers. -/
def State.takeApart (s : State) (v : Nat) : State :=
  let s1 : State := s.allSlots.foldl (fun t r => if (t.slot r).occ != Occ.free && (t.slot r).ten == v then t.freeSlot r else t) s
  let s2 : State := s1.cores.foldl (fun t c =>
    let go := c.2.retained.filter fun e => e.ten == v
    (go.foldl (fun u e => u.banksOff c.1 e.tiles e.sb) t).modCore c.1 fun k => { k with retained := k.retained.filter fun e => e.ten != v }) s1
  let s3 : State := s2.dropTenant v
  s3.modTenant v fun t => { t with
    st := .scrub
    tdi := .error
    quar := t.quar ++ t.owned ++ (if t.kslot ≠ 0 ∧ s.keyZero v = false ∧ !t.quar.contains (.key t.kslot) then [Quar.key t.kslot] else [])
    pairs := 0#512
    scr := []
    matrix := 0#64
    fold := 0#64
    mwin := List.replicate 8 0#64
    queues := t.queues.map fun e => (e.1, { e.2 with cfg := setFld e.2.cfg 63 63 0 })
    nq := 0
    hbuf := []
    spill := []
    spillHead := []
    served := false }

/-! ## Passes (R411 to R414) -/

/-- The first job from `n` on that has chunks. -/
def nextJob (jobs : List ScrubJob) (n : Nat) : Option Nat :=
  ((List.range jobs.length).drop n).find? fun i => (jobs.getD i ⟨0#64, 0#64⟩).chunks != 0

/-- The quarantined units that a BOOT pass after a warm reset scrubs, as jobs in the order of R414. -/
def bootJobs (nclusters : Nat) (qs : List Quar) : List ScrubJob :=
  let job (kind base len : Nat) : ScrubJob := ⟨wd base, wd (kind * 2 ^ 60 + len)⟩
  let per (cl : Nat) : List ScrubJob :=
    ((List.range 16).flatMap fun u => qs.filterMap fun q => match q with
      | .scratch c m => if c = 16 * cl + u then some (job 2 (chipAddr cl u 0 0) m.toNat) else none
      | _ => none) ++
    ((List.range 16).filter fun u => qs.contains (.priv (16 * cl + u))).map (fun u => job 3 (chipAddr cl u 0 0) 0) ++
    (qs.filterMap fun q => match q with | .fold c _ => if c = cl then some (job 4 (chipAddr cl 31 1 0) 0) else none | _ => none) ++
    (qs.filterMap fun q => match q with | .matrix c _ => if c = cl then some (job 5 (chipAddr cl 31 0 0) 0) else none | _ => none)
  let stack := (qs.filterMap fun q => match q with | .pa b l => if b < stackEnd then some (b, l) else none | _ => none).mergeSort fun a b => decide (a.1 ≤ b.1)
  (List.range nclusters).flatMap per ++ stack.map fun e => job 1 e.1 e.2

/-- What the end of a BOOT pass after a warm reset does (R413 step 4). -/
def State.bootEnd (s : State) : State :=
  let ts := s.journal.bootTens
  let s1 : State := { s with
    tenants := s.tenants.map fun t => if ts.contains t.1 then (t.1, { t.2 with quar := [] }) else t
    journal := { s.journal with bootTens := [] } }
  s1.settleAll

/-- Starts the BOOT pass of the tenants that wait for one. -/
def State.bootStart (s : State) : State :=
  let ts := s.journal.bootNext
  if ts.isEmpty then s
  else
    let jobs := bootJobs s.nclusters (ts.flatMap fun v => (s.tenant v).quar)
    let j : Journal := { s.journal with run := true, rsm := false, boot := true, cold := false, vf := 0, jobs := jobs, chunk := 0, bootTens := ts, bootNext := [] }
    match nextJob jobs 0 with
    | some n => { s with journal := { j with job := n } }
    | none => ({ s with journal := { j with run := false, job := 0 } } : State).bootEnd

/-- A pass completes: RUN is cleared, the other fields keep their values (R412, R421). -/
def State.passEnd (s : State) : State :=
  let s1 : State := { s with journal := { s.journal with run := false } }
  let s2 : State := if s.journal.boot && !s.journal.cold then s1.bootEnd else s1.settleAll
  s2.bootStart

/-- The chunk that the pass writes next. -/
def State.chunkNow (s : State) : Option Chunk :=
  let j := s.journal
  if j.cold then some (s.coldChunk j.chunk) else (j.jobs.getD j.job ⟨0#64, 0#64⟩).chunk j.chunk

/-- The journal after it has recorded a chunk, and whether the pass is complete. -/
def State.recorded (s : State) : Journal × Bool :=
  let j := s.journal
  if j.cold then ({ j with chunk := j.chunk + 1 }, decide (s.coldChunks ≤ j.chunk + 1))
  else if j.chunk + 1 < (j.jobs.getD j.job ⟨0#64, 0#64⟩).chunks then ({ j with chunk := j.chunk + 1 }, false)
  else match nextJob j.jobs (j.job + 1) with
    | some n => ({ j with job := n, chunk := 0 }, false)
    | none => ({ j with chunk := j.chunk + 1 }, true)

/-- SCRUB_CHUNK_COMPLETE (R307, R411, R413): the chunk is zero, recorded and out of quarantine in one step; a unit that is out of service is
counted only. -/
def execScrubChunkComplete (s : State) : Out1 :=
  .next
    (if !s.journal.run then s
    else match s.chunkNow with
      | none => s.passEnd
      | some c =>
        let lost := match c.cluster? with
          | some k => s.journal.failed.contains k
          | none => (match Chunk.channel? s c with | some m => s.journal.failedCh.contains m | none => false)
        let s1 : State := if lost then s else s.zeroChunk c
        let s2 : State := s1.releaseChunk c
        let (j, last) := s.recorded
        let s3 : State := { s2 with journal := j }
        if last then s3.passEnd else s3)

/-! ## The SEC instructions -/

/-- Guards SEC: monitor cores at M (R368), with S(a)<6:0> in a range. -/
def State.sec (s : State) (d a : Reg) (wa : Bool) (lo hi : Nat) (k : Nat → State → State) : State :=
  if coreKind s.cur.core ≠ .monitor then s.trap 2 0#64
  else s.priv .m fun s => s.issue [(a, wa)] [d] fun s =>
    let n := fld (s.sl.rd a) 6 0
    if n < lo || hi < n then s.trap 1 0#64 else k n s

/-- The answer of Platriuz (R315 to R319). -/
def State.secAnswer (s : State) (d : Reg) (status : Nat) : State := s.produce d (landReg d (wd status))

/-- The tenants that are bound to a key slot. -/
def State.boundTo (s : State) (k : Nat) : List Nat := (s.tenants.filter fun t => t.2.st != .free && t.2.kslot == k).map (·.1)

/-- Does a flight still have to access LPDDR-6: by its own range, as the write of a copy, as a built-in or as a stamped store (R315)? One whose translation is
not known yet may. -/
def State.toLpddr (s : State) (f : Flight) : Bool :=
  let lp (k : Nat) : Bool := match s.place k with | .lpddr _ => true | _ => false
  match f.act with
  | .copyRead _ _ _ _ k _ _ => lp k
  | .send ws => msgDev ws == s.dev && [0x00, 0x10, 0x20].contains (msgHandler ws) &&
      (match s.msgCheck f (if msgHandler ws = 0x10 then .load else if msgHandler ws = 0x00 then .store else .atomic) ws with
        | .ok k => lp k
        | .miss => true
        | .bad _ _ => false)
  | .stamped g st =>
    let va := (s.group g).entry.wbase + wd st.off
    (match s.checkNow (msgCluster va) f.ten (s.devLevel f.ten) .store false va st.len with
      | .ok k => lp k
      | _ => false)
  | a => a.pending && (match a.range with
      | some (k, _) => lp k
      | none => false)

/-- Is an LPDDR-6 access under a key slot in flight? -/
def State.underKey (s : State) (k : Nat) : Bool := s.flights.any fun f => (s.boundTo k).contains f.ten && s.toLpddr f

/-- Zeroes a key slot; its tenants' quarantine loses it (R315, R317). -/
def State.zeroKey (s : State) (k : Nat) : State :=
  let s1 : State := { s with
    keys := s.keys.put k {}
    tenants := s.tenants.map fun t => (t.1, { t.2 with quar := t.2.quar.filter fun q => q != .key k }) }
  s1.settleAll

/-- KZERO (R315). -/
def execKzero (a : Reg) (wa : Bool) (s : State) : Out1 :=
  .next (s.sec 0#5 a wa 1 79 fun k s => if s.underKey k then s else (s.zeroKey k).done id)

/-- KLOAD (R315). -/
def execKload (d a : Reg) (wa : Bool) (s : State) : Out1 :=
  .next (s.sec d a wa 16 79 fun k s =>
    if (s.keys.get {} k).st = .zero then
      ({ s with keys := s.keys.put k { st := .loaded, gen := s.fresh }, fresh := s.fresh + 1 } : State).secAnswer d 0
    else s.secAnswer d 1)

/-- TNSTAT (R319). -/
def State.tnstat (s : State) (v : Nat) : Word :=
  let t := s.tenant v
  let st := match t.st with | .free => 0 | .assigned => 1 | .locked => 2 | .run => 3 | .scrub => 4
  wd ((t.quar.map Quar.chunks).sum % 2 ^ 32 * 2 ^ 32 + t.kslot % 128 * 256 + b01 (s.journal.run && !s.journal.boot && s.journal.vf == v) * 16
    + b01 (s.keyZero v) * 8 + st)

/-- TNSTAT (R319). -/
def execTnstat (d a : Reg) (wa : Bool) (s : State) : Out1 :=
  .next (s.sec d a wa 1 64 fun v s => s.produce d (landReg d (s.tnstat v)))

/-- May TNFREE take the tenant apart: 0, or the status that says why not (R317). -/
def State.freeStatus (s : State) (v : Nat) : Nat :=
  if (s.tenant v).st = .free then 2 else if (s.gangCores v).all fun c => (s.core c).stopped then 0 else 1

/-- The MBOX response area (R200, R201), words 32 to 63 of MBOX: the status at +0, and words from +8 on. -/
def State.mboxAnswer (s : State) (status : Nat) (ws : List Nat) : State :=
  let m := s.mbox.put 32 (wd status)
  { s with mbox := (ws.zipIdx).foldl (fun m e => m.put (33 + e.2) (wd e.1)) m, out := s.out ++ [.mbox status ws] }

/-- Is a stop or a resumption that the issuing strand has begun still under way? A later TNFREE of the strand sees it done (R317, DEDUCED, log 55). -/
def State.stopping (s : State) : Bool := (s.flightsOf s.cur).any fun f => match f.act with | .coreStop _ _ _ _ _ => true | _ => false

/-- TNFREE (R317, R418, R419): it waits for an earlier GSTOP of the strand; the MBOX response of a FREE request is written with the answer 0. -/
def execTnfree (d a : Reg) (wa : Bool) (s : State) : Out1 :=
  .next (s.sec d a wa 1 64 fun v s =>
    let n := s.freeStatus v
    if s.stopping then s
    else if n ≠ 0 then s.secAnswer d n
    else
      let s1 : State := (s.takeApart v).settle v
      let s2 : State := if s.mboxFree = some v then ({ s1 with mboxFree := none } : State).mboxAnswer 0 [] else s1
      s2.secAnswer d 0)

/-! ## TNASSIGN -/

/-- A descriptor (R316): its bytes with reserved fields zero, followed by the scratch-bank list. -/
structure Descr where
  words : List Word
  list : List Word
  deriving DecidableEq, Repr

/-- The virtual function of a descriptor. -/
def Descr.vf (d : Descr) : Nat := fld (wordAt d.words 0) 6 0
/-- Its key slot. -/
def Descr.kslot (d : Descr) : Nat := fld (wordAt d.words 0) 14 8
/-- Queues that it gives. -/
def Descr.nq (d : Descr) : Nat := fld (wordAt d.words 0) 25 16 + 1
/-- Its windows. -/
def Descr.mwin (d : Descr) : List Word := (List.range 8).map fun i => wordAt d.words (1 + i) &&& 0x0000_FFFF_FFFF_FFFF#64
/-- Its matrix engines. -/
def Descr.matrix (d : Descr) : Word := wordAt d.words 9
/-- Its fold stores. -/
def Descr.fold (d : Descr) : Word := wordAt d.words 10
/-- Its core pairs. -/
def Descr.pairs (d : Descr) : BitVec 512 :=
  (List.range 8).foldl (fun p i => p ||| ((wordAt d.words (12 + i)).setWidth 512 <<< (64 * i))) 0#512
/-- Its scratch banks, by core. -/
def Descr.scr (d : Descr) : AMap (BitVec 48) :=
  d.list.foldl (fun m w => m.put (fld w 57 48) (m.get 0#48 (fld w 57 48) ||| w.setWidth 48)) []
/-- The bytes that measurement 5 covers (R207). -/
def Descr.bytes (d : Descr) : List Byte := (d.words ++ d.list).flatMap fun w => leBytes 8 w.toNat

/-- A descriptor's words with the reserved fields as zero (R4, R207). -/
def maskDescr (ws : List Word) : List Word :=
  ws.mapIdx fun i w =>
    if i = 0 then w &&& 0x03FF_7F7F#64
    else if i ≤ 8 then w &&& 0x0000_FFFF_FFFF_FFFF#64
    else if i = 11 || 22 ≤ i then 0#64
    else if i = 20 then w &&& 0x01FF_FFFF_FFFF_FFF8#64
    else if i = 21 then w &&& 0xFFFF#64
    else w

/-- Logical clusters in which a pair mask has a core (R203). -/
def pairClusters (p : BitVec 512) (n : Nat) : List Nat := (List.range n).filter fun k => (List.range 8).any fun i => p.getLsbD (8 * k + i)

/-- Is a resource that the descriptor names quarantined? -/
def State.namedQuar (s : State) (d : Descr) : Bool :=
  (d.scr.any fun e => (List.range 48).any fun b => e.2.getLsbD b && s.quarBank e.1 b) ||
  ((List.range 1024).any fun c => d.pairs.getLsbD (c / 2) && s.quarPriv c) ||
  ((List.range 64).any fun k => (d.fold.getLsbD k && s.quarFold k) || (d.matrix.getLsbD k && s.quarMatrix k)) ||
  (d.mwin.any fun w => (windowOf w).2 != 0 && s.quarPa (windowOf w).1 (windowOf w).2)

/-- Does the memory of a window exist (R50)? -/
def State.windowThere (s : State) (w : Word) : Bool :=
  let (b, n) := windowOf w
  decide (b + n ≤ stackEnd) || (decide (lpBase ≤ b) && decide (b + n ≤ lpBase + s.channels * 0x4_0000_0000)) ||
    (decide (hostBase ≤ b) && decide (b + n ≤ 2 ^ 48))

/-- Is some resource of the descriptor owned by a tenant? -/
def State.namedOwned (s : State) (d : Descr) : Bool :=
  s.tenants.any fun t =>
    (d.scr.any fun e => e.2 &&& t.2.scr.get 0#48 e.1 != 0#48) || t.2.pairs &&& d.pairs != 0#512 || t.2.fold &&& d.fold != 0#64 ||
    t.2.matrix &&& d.matrix != 0#64 || (t.2.st != .free && t.2.kslot == d.kslot) ||
    (d.mwin.any fun w => t.2.mwin.any fun u =>
      let (a, m) := windowOf w
      let (b, n) := windowOf u
      decide (a < hostBase) && decide (0 < m) && decide (0 < n) && decide (a < b + n) && decide (b < a + m))

/-- Does a field of the descriptor break its range, or name what the part does not have (R316)? (DEDUCED, log 61). -/
def State.descrBad (s : State) (d : Descr) : Bool :=
  let part := pairClusters d.pairs 64
  d.vf == 0 || decide (64 < d.vf) || decide (d.kslot < 16) || decide (79 < d.kslot) || decide (1024 < (wordAt d.words 21).toNat) ||
  (part.any fun k => decide (s.nclusters ≤ k)) ||
  (d.scr.any fun e => decide (16 * s.nclusters ≤ e.1)) ||
  (d.mwin.any fun w => (windowOf w).2 != 0 && (decide (2 ^ 18 * 0x20_0000 < (windowOf w).2) || !s.windowThere w)) ||
  ((List.range 64).any fun k => d.matrix.getLsbD k && !part.contains k) ||
  (d.fold != 0#64 && (List.range 64).any fun k => d.fold.getLsbD k != part.contains k)

/-- The status of TNASSIGN (R316). `whole`: the scratch-bank list could be read. -/
def State.assignStatus (s : State) (d : Descr) (whole : Bool) : Nat :=
  if (decide (1 ≤ d.vf) && decide (d.vf ≤ 64) && (s.tenant d.vf).st != .free) || s.namedQuar d ||
     (decide (16 ≤ d.kslot) && decide (d.kslot ≤ 79) && (s.keys.get {} d.kslot).st != .zero) then 1
  else if !whole || s.namedOwned d || s.descrBad d then 2
  else 0

/-- Gives the resources of a descriptor to its VF (R153, R316); its fault reports count anew (R339). -/
def State.assign (s : State) (d : Descr) : State :=
  s.modTenant d.vf fun t => { t with
    st := .assigned
    tdi := .unlocked
    pairs := d.pairs
    scr := d.scr
    matrix := d.matrix
    fold := d.fold
    mwin := d.mwin
    kslot := d.kslot
    queues := (List.range d.nq).map fun q => (q, {})
    nq := d.nq
    pwgt0 := 0x0101_0101_0101_0101#64
    pwgt1 := 0x0101_0101_0101_0101#64
    credit := (List.range 16).map fun p => (p, 1)
    hbuf := []
    served := true
    flags := 0#4
    seq := 0
    quar := []
    descr := d.bytes }

/-- The words of stack memory from an address on, by a check of each: or the check that fails, with its address; `miss` when a walk is needed. -/
def State.stackWords (s : State) (chk : Word → Chk) (va : Word) : Nat → Except (Word × Chk) (List (Word × Nat))
  | 0 => .ok []
  | n + 1 =>
    match chk va with
    | .ok k =>
      if s.place k ≠ .stack then .error (va, .bad 6 va)
      else match s.stackWords chk (va + 8#64) n with
        | .ok ws => .ok ((wd (leNat (s.rdBytes 0 k 8)), k) :: ws)
        | .error e => .error e
    | c => .error (va, c)

/-- TNASSIGN (R316, R368) (DEDUCED, log 60). -/
def execTnassign (d a : Reg) (wa : Bool) (s : State) : Out1 :=
  .next
    (if coreKind s.cur.core ≠ .monitor then s.trap 2 0#64
    else s.priv .m fun s => s.issue [(a, wa)] [d] fun s =>
      let va := s.sl.rd a
      let chk (v : Word) : Chk := s.check s.cur .load v 8 8
      if va.toNat % 64 ≠ 0 then s.trap 5 va
      else match s.stackWords chk va 32 with
        | .error (v, c) => s.onAddr .load v c fun _ s => s
        | .ok ws =>
          let words := maskDescr (ws.map (·.1))
          let lva := wd (fld (wordAt words 20) 56 3 * 8)
          let read (d0 : Descr) (whole : Bool) : State :=
            let n := s.assignStatus d0 whole
            let s1 : State := if n = 0 then s.assign d0 else s
            let s2 : State := (ws.find? fun e => (s.poisoned 0 e.2 8).isSome).elim s1 fun e =>
              s1.asyncFault s.cur s.sl.party 0 s.sl.queue { code := 0x14, tval := wd (granule e.2), handler := bit s.sl.trap.tstat 4 }
            s2.secAnswer d n
          match s.stackWords chk lva (Nat.min 1024 (wordAt words 21).toNat) with
          | .ok l => read ⟨words, l.map (·.1)⟩ true
          | .error (v, .miss) => s.onAddr .load v .miss fun _ s => s
          | .error _ => read ⟨words, []⟩ false)

/-! ## SCRUB -/

/-- Does a job break R307? -/
def State.jobBad (s : State) (j : ScrubJob) : Bool :=
  let b := j.base.toNat
  let n := fld j.desc 47 0
  let c := chipOf b
  let chip (unit region : Bool) : Bool := decide (chipBit ≤ b) && decide (b < 2 ^ 57) && s.inMap b && unit && region && c.off == 0
  match fld j.desc 63 60 with
  | 1 => b % 0x10000 != 0 || n % 0x10000 != 0 ||
      !((decide (b < stackEnd) && decide (b + n ≤ stackEnd)) ||
        (match s.place b with | .lpddr ch => decide (b + n ≤ lpBase + (ch + 1) * 0x4_0000_0000) | _ => false))
  | 2 => !chip (decide (c.unit < 16)) (c.region == 0)
  | 3 => !chip (decide (c.unit < 16)) (c.region == 0)
  | 4 => !chip (c.unit == 31) (c.region == 1)
  | 5 => !chip (c.unit == 31) (c.region == 0)
  | _ => true

/-- Is everything that a job names quarantined for the tenant (R318)? -/
def Tenant.holdsJob (t : Tenant) (j : ScrubJob) : Bool :=
  let c := chipOf j.base.toNat
  match fld j.desc 63 60 with
  | 1 => (List.range (fld j.desc 47 0 / 0x10000)).all fun i => t.quar.any fun q => match q with
      | .pa b l => decide (b ≤ j.base.toNat + i * 0x10000) && decide (j.base.toNat + (i + 1) * 0x10000 ≤ b + l)
      | _ => false
  | 2 => (List.range 48).all fun b => !bit j.desc b || t.quar.any fun q => match q with | .scratch k m => k == c.core && m.getLsbD b | _ => false
  | 3 => t.quar.contains (.priv c.core)
  | 4 => t.quar.contains (.fold c.cluster 0)
  | 5 => t.quar.contains (.matrix c.cluster 0)
  | _ => false

/-- The job list of a monitor core's SCRUB engine: the jobs before the first of KIND 0 (R307). -/
def scrubList (m : EpSet) : List ScrubJob :=
  ((List.range 32).map fun i => (⟨m.get 0#64 (2 * i), m.get 0#64 (2 * i + 1)⟩ : ScrubJob)).takeWhile fun j => fld j.desc 63 60 != 0

/-- Starts the pass of a tenant's job list. -/
def State.startPass (s : State) (v : Nat) (jobs : List ScrubJob) : State :=
  let j : Journal := { s.journal with run := true, rsm := false, boot := false, cold := false, vf := v, jobs := jobs, job := 0, chunk := 0 }
  match nextJob jobs 0 with
  | some n => { s with journal := { j with job := n } }
  | none => ({ s with journal := j } : State).passEnd

/-- SCRUB (R318). -/
def execScrub (d a : Reg) (wa : Bool) (s : State) : Out1 :=
  .next (s.sec d a wa 1 64 fun v s =>
    let jobs := scrubList (s.core s.cur.core).shadow
    if s.journal.run then s.secAnswer d 1
    else if jobs.any fun j => s.jobBad j || !(s.tenant v).holdsJob j then s.secAnswer d 2
    else (s.startPass v jobs).secAnswer d 0)

end Sys2Proof.Machine
end

