-- ==== Sys2Proof/Machine/HostPort.lean ====
section
/-! DEFINITION. The host port and its registers (R149, R153, R198 to R204, R209, R410), MBOX (R201, R416, R418), SPDM, measurements and
result-digest reports (R207, R208, R408, R409), resets (R206, R413, R414, R417) and what Platriuz does on its own (R378, R415, R416). -/

namespace Sys2Proof.Machine

open Host

/-! ## Registers that the host writes (R149, R200, R209) -/

/-- Is the interface of a VF sealed: LOCK_INTERFACE has taken effect and the tenant is not FREE again (R204)? -/
def State.sealed (s : State) (v : Nat) : Bool := (s.tenant v).tdi != .unlocked

/-- A host request is refused and counted (R410). -/
def State.refuseHost (s : State) (v : Nat) : State := s.bumpLife (0xD0 + v)

/-- Is it the number of a virtual function? -/
def isVf (v : Nat) : Bool := decide (1 ≤ v) && decide (v ≤ 64)

/-- QSTATUS_WRITE (R149): a 1 in bit 63 clears APPROX. -/
def execQstatusWrite (vf q : Nat) (v : Word) (s : State) : Out1 :=
  .next (if q < (s.tenant vf).nq && bit v 63 then s.modQueue vf q fun h => { h with approx := false } else s)

/-- TSLICE_WRITE (R200, R204, R410). -/
def execTsliceWrite (vf : Nat) (v : Word) (s : State) : Out1 :=
  let n := fld v 13 0
  .next
    (if !isVf vf then s
    else if s.sealed vf then s.refuseHost vf
    else if n < 10 || 10000 < n then s
    else s.modTenant vf fun t => { t with slice := n })

/-- PWRCAP_WRITE (R209). -/
def execPwrcapWrite (v : Word) (s : State) : Out1 :=
  let n := fld v 10 0
  .next (if n < 600 || 1250 < n then s else { s with pwrcap := n })

/-- PWGT_WRITE (R153): the credits stay. -/
def execPwgtWrite (vf hi : Nat) (v : Word) (s : State) : Out1 :=
  .next
    (if !isVf vf then s
    else if hi = 0 then s.modTenant vf fun t => { t with pwgt0 := v }
    else if hi = 1 then s.modTenant vf fun t => { t with pwgt1 := v }
    else s)

/-- QCFG after a write (R149, R390): reserved values of PRIO and LOGN leave their fields. -/
def qcfgWrite (old v : Word) : Word :=
  let p := if fld v 47 42 < 48 then fld v 47 42 else fld old 47 42
  let n := if 1 ≤ fld v 4 0 ∧ fld v 4 0 ≤ 16 then fld v 4 0 else fld old 4 0
  setFld (setFld (v &&& 0xC0FF_FFC0_0000_001F#64) 47 42 p) 4 0 n

/-- REGISTER_WRITE (R149, R199, R200, R390): the MBOX request area on the PF, and QBASE, QCFG and QWDOG on a VF. Every other write is ignored,
or has a row of its own. -/
def execRegisterWrite (fn off : Nat) (v : Word) (s : State) : Out1 :=
  .next
    (if fn = 0 then
      if 0x100 ≤ off ∧ off < 0x200 ∧ off % 8 = 0 then { s with mbox := s.mbox.put ((off - 0x100) / 8) v } else s
    else
      let q := off / 64
      if (s.tenant fn).nq ≤ q then s
      else match off % 64 with
        | 0 => s.modQueue fn q fun h => { h with base := v &&& 0x01FF_FFFF_FFFF_F000#64 }
        | 8 => s.modQueue fn q fun h => { h with cfg := qcfgWrite h.cfg v }
        | 32 => s.modQueue fn q fun h => { h with wdog := v &&& 0x0FFF_FFFF_FFFF_FFFF#64 }
        | _ => s)

/-- TNSTATE of a VF (R200). -/
def TenState.code : TenState → Nat
  | .free => 0
  | .assigned => 1
  | .locked => 2
  | .run => 3
  | .scrub => 4

/-- The ADAPT shift in force: the largest of any domain (R113, R209) (DESIGN CHOICE, log 92). -/
def State.adaptShift (s : State) : Nat := s.clusters.foldl (fun a c => c.2.doms.foldl (fun b d => Nat.max b d.2.shift) a) 0

/-- TELEM (R209): the power and the temperature are free values, the ADAPT shift is the machine's. -/
def State.telem (s : State) : Word := (Config.telemetry s.cycle &&& 0x007F_F7FF#64) ||| wd (s.adaptShift % 16 * 2 ^ 24)

/-- What a host read of PF BAR 0 returns (R200). -/
def State.pfRead (s : State) (off : Nat) : Word :=
  if off = 0 then s.capunits
  else if off = 8 then s.capmesh
  else if off = 16 then s.capfab
  else if off = 24 then s.capmap
  else if 0x100 ≤ off ∧ off < 0x300 ∧ off % 8 = 0 then s.mbox.get 0#64 ((off - 0x100) / 8)
  else if 0x1008 ≤ off ∧ off ≤ 0x1200 ∧ off % 8 = 0 then wd (s.tenant ((off - 0x1000) / 8)).slice
  else if 0x2008 ≤ off ∧ off ≤ 0x2200 ∧ off % 8 = 0 then wd (s.tenant ((off - 0x2000) / 8)).st.code
  else if off = 0x3000 then wd s.pwrcap
  else if off = 0x3008 then s.telem
  else 0#64

/-- What a host read of BAR 2 of a VF returns (R149, R153). -/
def State.vfRead (s : State) (v off : Nat) : Word :=
  let t := s.tenant v
  let h := t.queues.get {} (off / 64)
  if off = 0x10000 then t.pwgt0
  else if off = 0x10008 then t.pwgt1
  else if t.nq ≤ off / 64 then 0#64
  else match off % 64 with
    | 0 => h.base
    | 8 => h.cfg
    | 16 => wd h.wp
    | 24 => wd h.rp
    | 32 => h.wdog
    | 40 => wd (b01 h.approx * 2 ^ 63 + h.done)
    | _ => 0#64

/-- CONFIG_WRITE (R410): performed; when it changes a sealed VF its TDI goes to ERROR. -/
def execConfigWrite (vf : Nat) (changesVf : Bool) (s : State) : Out1 :=
  .next (if changesVf && ((s.tenant vf).tdi == .locked || (s.tenant vf).tdi == .run) then s.tdiError vf else s)

/-- BAR2_UNPROTECTED_REQUEST (R410): a read ends as an unsupported request, a write is discarded; both are counted. -/
def execBar2UnprotectedRequest (vf : Nat) (isWrite : Bool) (s : State) : Out1 :=
  .next
    (if !isVf vf || !s.sealed vf then s
    else
      let s1 : State := s.refuseHost vf
      if isWrite then s1 else { s1 with out := s1.out ++ [.completion vf true] })

/-! ## MBOX (R201) -/

/-- Word `n` of the MBOX request area: the command is word 0, its operands follow, one in each word (DESIGN CHOICE, log 101). -/
def State.mboxWord (s : State) (n : Nat) : Nat := (s.mbox.get 0#64 n).toNat

/-- The monitor accepts the request of the area when it is this command with these operands: the host has written 1 to +0xF8, and no earlier request is being
performed. The device clears +0xF8, and `k` performs the request (R201). -/
def State.mboxAccept (s : State) (cmd : Nat) (operands : List (Nat × Nat)) (k : State → State) : State :=
  if s.mboxWord 31 ≠ 1 || s.mboxFree.isSome || s.mboxWord 0 ≠ cmd || operands.any (fun e => s.mboxWord e.1 ≠ e.2) then s
  else k { s with mbox := s.mbox.put 31 0#64 }

/-- MBOX_ASSIGN (R201, R316): the monitor gives the resources of a descriptor in its memory to the VF of the request. -/
def execMboxAssign (desc : Word) (s : State) : Out1 :=
  let chk (v : Word) : Chk := s.checkNow (s.clusterOf 2048) 0 .m .load false v 8
  .next (match s.stackWords chk desc 32 with
    | .error _ => s.mboxAccept 1 [] fun s => s.mboxAnswer 2 []
    | .ok ws =>
      let words := maskDescr (ws.map (·.1))
      let go (d : Descr) (whole : Bool) : State := s.mboxAccept 1 [(1, d.vf)] fun s =>
        let n := s.assignStatus d whole
        (if n = 0 then s.assign d else s).mboxAnswer n []
      match s.stackWords chk (wd (fld (wordAt words 20) 56 3 * 8)) (Nat.min 1024 (wordAt words 21).toNat) with
      | .ok l => go ⟨words, l.map (·.1)⟩ (decide (desc.toNat % 64 = 0))
      | .error _ => go ⟨words, []⟩ false)

/-- MBOX_FREE (R201, R418): the launch arbiter stops serving the VF; the response comes when TNFREE answers 0, and until then no other request is
accepted. -/
def execMboxFree (vf : Nat) (s : State) : Out1 :=
  .next (s.mboxAccept 2 [(1, vf)] fun s =>
    if !isVf vf || (s.tenant vf).st = .free then s.mboxAnswer 2 []
    else if (s.tenant vf).nq = 0 then s.mboxAnswer 1 []
    else ({ s with mboxFree := some vf } : State).modTenant vf fun t => { t with hbuf := [], served := false })

/-- Has a tenant a launch that is accepted and not complete? (DEDUCED, log 62). -/
def State.launching (s : State) (v : Nat) : Bool := s.launches.any fun l => l.ten == v

/-- MBOX_SHARE (R152, R201, R204, R410): the tenants that share a cluster, or the one that has it alone. The tenant that is there and does not come first
leaves it as at a slice boundary (R154). -/
def execMboxShare (cluster : Nat) (vfs : List Nat) (s : State) : Out1 :=
  let c := s.cluster cluster
  .next (s.mboxAccept 3 ((1, cluster) :: (2 + vfs.length, 0) :: (vfs.zipIdx).map fun e => (2 + e.2, e.1)) fun s =>
    match vfs.find? fun v => s.sealed v with
    | some v => (s.refuseHost v).mboxAnswer 2 []
    | none =>
      if s.nclusters ≤ cluster || vfs.isEmpty || 8 < vfs.length || !(vfs.all isVf) || !decide vfs.Nodup then s.mboxAnswer 2 []
      else if (c.share ++ vfs).any s.launching || c.leaving.isSome then s.mboxAnswer 1 []
      else
        let s1 : State := match s.tenantOn cluster with
          | some t => if t = vfs.headD 0 then s else s.sliceEnd cluster t
          | none => s
        (s1.modCluster cluster fun k => { k with share := vfs, turn := 0, sliceStart := s.cycle }).mboxAnswer 0 [])

/-- MBOX_PART (R185, R188, R194, R201): what the partition manager writes; a group that breaks R194 is refused. -/
def execMboxPart (p : PartWrite) (s : State) : Out1 :=
  .next (s.mboxAccept 4 [] fun s => match p with
    | .devloc v => ({ s with devloc := v &&& 0x000F_FFFF_FFF0_0FFF#64 } : State).mboxAnswer 0 []
    | .route dev r => if dev < 4096 then ({ s with routes := s.routes.put dev r } : State).mboxAnswer 0 [] else s.mboxAnswer 2 []
    | .group g ws => (match s.putGroup g ws with
      | some t => t.mboxAnswer 0 []
      | none => s.mboxAnswer 2 []))

/-- MBOX_LIFE (R416): 31 counters from an index that is a multiple of 31. -/
def execMboxLife (first : Nat) (s : State) : Out1 :=
  .next (s.mboxAccept 5 [(1, first)] fun s =>
    if first % 31 = 0 then s.mboxAnswer 0 ((List.range 31).map fun i => if first + i ≤ 0x13F then s.lifeCount (first + i) else 0)
    else s.mboxAnswer 2 [])

/-! ## SPDM (R207, R408) -/

/-- SPDM of a function. -/
def State.spdmOf (s : State) (fn : Nat) : Spdm := s.spdm.get {} fn
/-- Changes SPDM of a function. -/
def State.modSpdm (s : State) (fn : Nat) (f : Spdm → Spdm) : State := { s with spdm := s.spdm.put fn (f (s.spdmOf fn)) }
/-- An answer, or an ERROR with its code (R408). -/
def State.spdmAnswer (s : State) (fn : Nat) (e : Option Nat) : State := { s with out := s.out ++ [.spdm fn e] }

/-- Does a function serve requests: the PF, or a VF that is not FREE (R408)? (PRESUMED, log 46). -/
def State.serves (s : State) (fn : Nat) : Bool := fn == 0 || (isVf fn && (s.tenant fn).st != .free)

/-- A request that is in order when `ok` says so, and answers with `k` (R408). -/
def State.spdmReq (s : State) (fn : Nat) (ok : Spdm → Bool) (k : State → State) : State :=
  if !s.serves fn || !ok (s.spdmOf fn) then s.spdmAnswer fn (some 4) else k s

/-- GET_VERSION (R207): the exchange begins anew, and a session of before is over. -/
def execGetVersion (fn : Nat) (s : State) : Out1 :=
  .next (s.spdmReq fn (fun _ => true) fun s => (s.modSpdm fn fun x => { x with stage := 1, session := false, established := false }).spdmAnswer fn none)
/-- GET_CAPABILITIES (R207). -/
def execGetCapabilities (fn : Nat) (s : State) : Out1 :=
  .next (s.spdmReq fn (fun x => x.stage == 1) fun s => (s.modSpdm fn fun x => { x with stage := 2 }).spdmAnswer fn none)
/-- NEGOTIATE_ALGORITHMS (R207, R408). -/
def execNegotiateAlgorithms (fn : Nat) (supported : Bool) (s : State) : Out1 :=
  .next (s.spdmReq fn (fun x => x.stage == 2) fun s =>
    if supported then (s.modSpdm fn fun x => { x with stage := 3 }).spdmAnswer fn none else s.spdmAnswer fn (some 7))
/-- GET_DIGESTS (R207). -/
def execGetDigests (fn : Nat) (s : State) : Out1 := .next (s.spdmReq fn (fun x => decide (3 ≤ x.stage)) fun s => s.spdmAnswer fn none)
/-- GET_CERTIFICATE (R207). -/
def execGetCertificate (fn : Nat) (s : State) : Out1 := .next (s.spdmReq fn (fun x => decide (3 ≤ x.stage)) fun s => s.spdmAnswer fn none)
/-- CHALLENGE (R207). -/
def execChallenge (fn : Nat) (s : State) : Out1 := .next (s.spdmReq fn (fun x => decide (3 ≤ x.stage)) fun s => s.spdmAnswer fn none)

/-- The retirement record as bytes: kind and unit, a word each (DESIGN CHOICE, log 65). -/
def Life.record (l : Life) : List Byte := l.retired.flatMap fun e => leBytes 4 e.1 ++ leBytes 4 e.2

/-- A measurement (R207). -/
def State.measure (s : State) (fn index : Nat) : BitVec 384 :=
  if index = 4 then Config.sha384 (leBytes 8 s.capunits.toNat ++ leBytes 8 s.capmap.toNat ++ leBytes 8 s.capfab.toNat ++ s.life.record)
  else if index = 5 then Config.sha384 (s.tenant fn).descr
  else if index = 2 then Config.sha384 s.firmware.content
  else if index = 3 then Config.sha384 (leBytes 8 s.life.secver ++ Config.fuseBytes)
  else Config.romMeasurement

/-- GET_MEASUREMENTS (R207, R408). -/
def execGetMeasurements (fn index : Nat) (s : State) : Out1 :=
  .next (s.spdmReq fn (fun x => decide (3 ≤ x.stage)) fun s =>
    if index = 0 || 5 < index || (index = 5 && fn = 0) then s.spdmAnswer fn (some 1)
    else { s with out := s.out ++ [.measurement fn index (s.measure fn index)] })

/-- KEY_EXCHANGE (R207, R408): a session with a number of its own is asked for; mutual authentication and PSK_EXCHANGE are not supported. -/
def execKeyExchange (fn : Nat) (unsupported : Bool) (s : State) : Out1 :=
  .next (s.spdmReq fn (fun x => decide (3 ≤ x.stage)) fun s =>
    if unsupported then s.spdmAnswer fn (some 7)
    else (s.modSpdm fn fun x => { x with session := true, established := false, ide := false, id := x.id + 1 }).spdmAnswer fn none)
/-- FINISH (R207). -/
def execFinish (fn : Nat) (s : State) : Out1 :=
  .next (s.spdmReq fn (fun x => x.session && !x.established) fun s => (s.modSpdm fn fun x => { x with established := true }).spdmAnswer fn none)
/-- KEY_UPDATE (R207). -/
def execKeyUpdate (fn : Nat) (s : State) : Out1 := .next (s.spdmReq fn (fun x => x.session && x.established) fun s => s.spdmAnswer fn none)
/-- END_SESSION (R207). -/
def execEndSession (fn : Nat) (s : State) : Out1 :=
  .next (s.spdmReq fn (fun x => x.session && x.established) fun s =>
    (s.modSpdm fn fun x => { x with session := false, established := false }).spdmAnswer fn none)

/-- SECURED_MESSAGE (R409): one that fails is discarded and ends its session, with the IDE keys that were set in it. -/
def execSecuredMessage (fn : Nat) (authentic : Bool) (s : State) : Out1 :=
  let x := s.spdmOf fn
  .next
    (if authentic || !x.session then s
    else
      let s1 : State := s.modSpdm fn fun x => { x with session := false, established := false, ide := false }
      if x.ide && ((s.tenant fn).tdi == .locked || (s.tenant fn).tdi == .run) then s1.tdiError fn else s1)

/-- LOCK_INTERFACE (R204). -/
def execLockInterface (vf : Nat) (s : State) : Out1 :=
  .next
    (if isVf vf && (s.tenant vf).st == .assigned && (s.tenant vf).tdi == .unlocked then
      (s.modTenant vf fun t => { t with st := .locked, tdi := .locked }).spdmAnswer vf none
    else s.spdmAnswer vf (some 4))

/-- TDISP_START_INTERFACE (R204). -/
def execTdispStartInterface (vf : Nat) (s : State) : Out1 :=
  .next
    (if isVf vf && (s.tenant vf).tdi == .locked then (s.modTenant vf fun t => { t with st := .run, tdi := .run }).spdmAnswer vf none
    else s.spdmAnswer vf (some 4))

/-- IDE_KM (R204): the keys of the VF's stream are set inside an SPDM session. -/
def execIdeKm (vf : Nat) (session : Nat) (s : State) : Out1 :=
  .next (s.spdmReq vf (fun x => x.session && x.established && x.id == session) fun s => (s.modSpdm vf fun x => { x with ide := true }).spdmAnswer vf none)

/-! ## Result-digest reports (R208) -/

/-- Pages of a region by number of the first, each mapped to stack memory or LPDDR-6 within the tenant's windows: their keys, or none. -/
def State.digestPages (s : State) (v : Nat) (va : Word) : Nat → Option (List Nat)
  | 0 => some []
  | n + 1 =>
    match s.checkNow ((s.partition v).headD 0) v .s .load false va 4096 with
    | .ok k =>
      if s.place k = .host || s.place k = .chip then none
      else (s.digestPages v (va + 4096#64) n).map fun l => k :: l
    | _ => none

/-- The bytes of a region. -/
def State.digestBytes (s : State) (v : Nat) : List Nat → Nat → List Byte
  | [], _ => []
  | k :: ks, n => s.rdBytes v k (Nat.min 4096 n) ++ s.digestBytes v ks (n - 4096)

/-- The report (R208). -/
def State.digestReport (s : State) (v : Nat) (nonce : BitVec 256) (base len : Word) (region : List Byte) : List Byte :=
  let head := leBytes 8 (1 + v % 256 * 256) ++ leBytes 32 nonce.toNat ++ leBytes 8 base.toNat ++ leBytes 8 len.toNat ++
    leBytes 8 (s.tenant v).flags.toNat ++ leBytes 48 (Config.sha384 region).toNat ++
    leBytes 48 (Config.sha384 ([1, 2, 3, 4].flatMap fun i => leBytes 48 (s.measure v i).toNat)).toNat
  head ++ leBytes 96 (Config.signature (Config.sha384 head)).toNat

/-- VENDOR_DEFINED_REQUEST (R208, R408). -/
def execVendorDefinedRequest (asked : Asked) (nonce : BitVec 256) (base len : Word) (s : State) : Out1 :=
  let fn := asked.fn
  .next (s.spdmReq fn (fun x => fn != 0 && x.session && x.established) fun s =>
    if 2 ^ 56 ≤ base.toNat || base.toNat % 4096 ≠ 0 || len.toNat % 32 ≠ 0 || 2 ^ 40 < len.toNat then s.spdmAnswer fn (some 1)
    else match s.digestPages fn base ((len.toNat + 4095) / 4096) with
      | none => s.spdmAnswer fn (some 1)
      | some ks =>
        if asked.busy || s.launching fn then s.spdmAnswer fn (some 3)
        else
          let r := s.digestReport fn nonce base len (s.digestBytes fn ks len.toNat)
          ({ s with out := s.out ++ [.report fn r] } : State).modTenant fn fun t => { t with flags := 0#4 })

/-! ## Resets (R206, R413, R414) -/

/-- May Platriuz start this image (R206 step 1)? -/
def State.imageGood (s : State) (i : FirmwareImage) : Bool := i.signed && decide (s.life.secver ≤ i.version)

/-- The healthy rows of a physical cluster's worse array. -/
def healthyRows (b : BootReport) (c : Nat) : Nat := AMap.get 132 b.rows c
/-- The healthy lanes of a Delmel port. -/
def healthyLanes (b : BootReport) (p : Nat) : Nat := AMap.get 8 b.lanes p
/-- Does a physical cluster fail the test of a boot (R417)? -/
def failsTest (b : BootReport) (c : Nat) : Bool := b.failed.contains c || decide (healthyRows b c < 120)

/-- The lifetime record after the retirements of a cold boot (R417), in which a failing mesh link is written too (R394). -/
def State.retire (s : State) (b : BootReport) : Life :=
  let l := s.life
  let weak := (List.range 16).filter fun p => decide (healthyLanes b p < 8)
  let add (r : List (Nat × Nat)) (e : Nat × Nat) : List (Nat × Nat) := if r.contains e then r else r ++ [e]
  let cl := ((List.range 66).filter fun c => decide (3 ≤ l.counters.get 0 (0x1100 + c)) || failsTest b c).map fun c => (0, c)
  let ch := ((List.range 32).filter fun c => decide (3 ≤ l.counters.get 0 (0x2100 + c)) || (l.untrained.contains c && b.untrained.contains c)).map
    fun c => (2, c)
  let po := (weak.filter fun p => l.weakPorts.contains p).map fun p => (if healthyLanes b p ≤ 3 then 4 else 3, p)
  { l with retired := (cl ++ ch ++ po ++ b.badLinks.map fun n => (1, n)).foldl add l.retired, weakPorts := weak, untrained := b.untrained }

/-- The physical clusters that a boot puts at router positions (R7, R11): each position takes at most one, of its own die, that is at no other position and
not retired (R14). -/
def Life.seated (l : Life) : List (Nat × Nat) → AMap Nat → AMap Nat
  | [], m => m
  | (p, c) :: es, m =>
    if p < 64 && c < 66 && p / 32 == c / 33 && !(m.any fun e => e.1 == p || e.2 == c) && !l.retired.contains (0, c) then l.seated es (m.put p c)
    else l.seated es m

/-- The physical channels behind the logical ones (R12, R14, R417): those that are not retired and have trained. -/
def Life.trained (l : Life) (b : BootReport) : List Nat := (List.range 32).filter fun c => !l.retired.contains (2, c) && !b.untrained.contains c

/-- The state in which a port comes up (R17, R393, R417): with 8 lanes, with 4, or not. -/
def Life.portUp (l : Life) (b : BootReport) (p : Nat) : PortState :=
  if l.retired.contains (4, p) || healthyLanes b p < 4 then .down
  else if l.retired.contains (3, p) || healthyLanes b p < 8 then .narrow
  else .wide

/-- CAPFAB of a boot (R17). -/
def Life.capfab (l : Life) (b : BootReport) : Word :=
  let on (f : PortState → Bool) : List Nat := (List.range 16).filter fun p => f (l.portUp b p)
  let mask (ps : List Nat) : Nat := (ps.map fun p => 2 ^ p).sum
  let up := on fun x => x != .down
  wd (mask (on fun x => x == .wide) * 2 ^ 32 + mask up * 2 ^ 16 + up.length * 2 ^ 8 + 16)

/-- CAPUNITS of a boot (R13, R15): every enabled cluster is whole, and every array runs with the smallest count of rows. -/
def bootUnits (b : BootReport) (seats : AMap Nat) (channels : Nat) : Word :=
  let rows := seats.foldl (fun n e => Nat.min n (healthyRows b e.2)) 128
  wd (16 * channels * 2 ^ 40 + 4 * 2 ^ 37 + 16 * 2 ^ 32 + 4 * 2 ^ 24 + rows * 2 ^ 16 + channels * 2 ^ 8 + seats.length)

/-- The records of the links that a boot has not brought up (R394, R396): Delmel ports and mesh links. -/
def State.logLinks (s : State) (l : Life) (b : BootReport) : State :=
  let ports := ((List.range 16).filter fun p => l.portUp b p == .down).map fun p => (⟨6, 0, 0#64, 0, p, 0, 0#64, 0#64⟩ : MgmtRec)
  let links := b.badLinks.map fun n => (⟨6, 0, 0#64, n / 4, n % 4, 0, 0#64, 0#64⟩ : MgmtRec)
  (ports ++ links).foldl (fun t r => t.logMgmt r) s

/-- The machine that comes up with a lifetime record on what a boot has found (R206, R414): what it keeps is memory whose contents are dirty, the image in
module flash, and what it had sent (DEDUCED, log 57). A part left without a cluster or a channel stays in recovery (DEDUCED, log 103). -/
def State.bootWith (s : State) (l : Life) (b : BootReport) : State :=
  let seats := l.seated b.seats []
  let chans := l.trained b
  let dirty (k : Nat) : Bool := !(decide (chipBit ≤ k) && decide ((chipOf k).unit < 16) && decide ((chipOf k).region < 2))
  let s1 : State := { State.reset with
    mem := s.mem.filter fun e => dirty e.1
    poison := s.poison.filter dirty
    keyTags := s.keyTags
    keys := (List.range 16).map fun k => (k, { st := .loaded, gen := s.fresh + k })
    fresh := s.fresh + 16
    life := l
    firmware := s.firmware
    boot := b
    seats := seats
    chans := chans
    capunits := bootUnits b seats chans.length
    capmap := wd (seats.map fun e => 2 ^ e.1).sum
    capfab := l.capfab b
    reports := s.reports
    out := s.out
    agenda := s.agenda }
  let s2 : State := s1.logLinks l b
  if s.imageGood s.firmware && b.badLinks.isEmpty && !seats.isEmpty && !chans.isEmpty then s2 else s2.enterRecovery

/-- The machine after a cold reset (R206, R414, R417). -/
def State.coldBoot (s : State) (b : BootReport) : State := s.bootWith (s.retire b) b

/-- COLD_RESET (R206, R414, R417). -/
def execColdReset (b : BootReport) (s : State) : Out1 := .next (s.coldBoot b)

/-- Step 1 of R413: every tenant that is not FREE is taken apart and its key slot zeroed; those that owned anything wait for a BOOT pass.
A tenant that was taken apart before waits for one too, unless the pass that goes on is its own (DEDUCED, log 58). -/
def State.warmTeardown (s : State) : State :=
  (s.tenants.map (·.1)).foldl (fun t v =>
    let x := t.tenant v
    if x.st = .free then t
    else
      let t1 : State := if x.nq = 0 then t else t.takeApart v
      let j := t1.journal
      let own := (j.run && !j.boot && j.vf == v) || j.bootTens.contains v || j.bootNext.contains v
      let t2 : State := if own || (t1.tenant v).quar.isEmpty then t1 else { t1 with journal := { j with bootNext := j.bootNext ++ [v] } }
      if x.kslot = 0 then t2
      else
        ({ t2 with keys := t2.keys.put x.kslot {} } : State).modTenant v fun y => { y with quar := y.quar.filter fun q => q != .key x.kslot }) s

/-- A core after a warm reset: only its quarantine buffer keeps its contents (DEDUCED, log 54). -/
def Core.warm (c : Core) : Core := { seep := c.seep }

/-- A cluster after a warm reset: its fold store and the counts of its atomic engine keep their contents. -/
def Cluster.warm (c : Cluster) : Cluster := { folds := c.folds, doms := c.doms, under := c.under }

/-- A tenant after a warm reset. -/
def Tenant.warm (t : Tenant) : Tenant :=
  if t.st = .free then {} else { st := t.st, tdi := .error, kslot := t.kslot, quar := t.quar, served := false, descr := t.descr }

/-- WARM_RESET (R413): numbering, capability registers and the image stay; a unit that fails its re-test is out of service; scratch and tile banks are
Off, other memory keeps its contents; the journalled pass goes on, or the BOOT pass of the
tenants taken apart begins. -/
def execWarmReset (b : BootReport) (s : State) : Out1 :=
  let s1 : State := s.warmTeardown
  let kept (k : Nat) : Bool := !(decide (chipBit ≤ k) && decide ((chipOf k).unit < 16) && decide ((chipOf k).region < 2))
  let j := s1.journal
  let out := s1.seats.filter fun e => failsTest b e.2
  let lost := ((s1.chans.zipIdx).filter fun e => b.untrained.contains e.1).map (·.2)
  let up := (List.range 16).filter fun p => bit s1.capfab (16 + p)
  let slow := up.filter fun p => decide (healthyLanes b p < 8)
  let warmPort (p : Nat) : PortState := if healthyLanes b p < 4 then .down else if healthyLanes b p < 8 then .narrow else .wide
  let s2 : State := { State.reset with
    mem := s1.mem.filter fun e => kept e.1
    poison := s1.poison.filter kept
    keyTags := s1.keyTags
    keys := s1.keys
    cores := monitorCores.foldl (fun m c => AMap.put m c.1 c.2) (s1.cores.map fun c => (c.1, c.2.warm))
    clusters := s1.clusters.map fun c => (c.1, c.2.warm)
    tenants := s1.tenants.map fun t => (t.1, t.2.warm)
    capunits := s1.capunits
    capmesh := s1.capmesh
    capfab := s1.capfab
    capmap := s1.capmap
    mlog := s1.mlog
    life := { (up.foldl (fun t p => t.bumpPort p (warmPort p)) s1).life with retired := s1.life.retired ++ (b.badLinks.map fun n => (1, n)).filter fun e => !s1.life.retired.contains e }
    firmware := s1.firmware
    boot := s1.boot
    seats := s1.seats
    chans := s1.chans
    ports := slow.map fun p => (p, warmPort p)
    journal := { j with rsm := j.run || j.rsm, failed := unionIds j.failed (out.map fun e => s1.clusterAt e.1), failedCh := unionIds j.failedCh lost }
    reports := s1.reports
    out := s1.out
    agenda := s1.agenda
    fresh := s1.fresh }
  let s3 : State := s2.settleAll
  let s4 : State := if j.run then s3 else s3.bootStart
  .next (if s.imageGood s.firmware && b.badLinks.isEmpty && !s.seats.isEmpty && !s.chans.isEmpty then s4 else s4.enterRecovery)

/-- RECOVERY_IMAGE_PUSH (R206, R394): in recovery, the image goes into module flash when Platriuz accepts it, and is started on what the last boot has
found, unless a mesh link is in the record; no unit is tested again (DEDUCED, log 68). -/
def execRecoveryImagePush (img : FirmwareImage) (s : State) : Out1 :=
  .next
    (if s.recovery && s.imageGood img then
      ({ s with recovery := false, firmware := img } : State).bootWith s.life
        { s.boot with badLinks := (s.life.retired.filter fun e => e.1 == 1).map (·.2) }
    else s)

/-! ## What Platriuz does on its own -/

/-- An uncorrectable error in SRAM of a core or of a cluster's shared units (R378, R379): the granule, the quarantine line, the fold entry or an accumulator
is poisoned. -/
def State.spoilChip (s : State) (addr : Nat) : State :=
  let c := chipOf addr
  if c.unit < 16 then
    match c.region with
    | 0 => { s with poison := unionIds s.poison [granule addr] }
    | 1 => { s with poison := unionIds s.poison [granule addr] }
    | 5 => s.modCore c.core fun k => { k with seep := k.seep.map fun l => if l.1 = c.off / 0x40 then (l.1, { l.2 with poison := true }) else l }
    | _ => s
  else match c.region with
    | 0 =>
      if isMacc addr then
        let (a, i, j) := Config.accPlace addr
        s.modCluster c.cluster fun k => k.modArray (a % 2) fun x => { x with run := x.run.map fun m => { m with bad := m.bad ++ [(i, j)] } }
      else { s with poison := unionIds s.poison [granule addr] }
    | 1 => s.modCluster c.cluster fun k => { k with folds := k.folds.map fun e =>
        if e.bank = c.off / 0x10000 ∧ e.index = c.off % 0x10000 / 0x20 then { e with poison := true } else e }
    | _ => s

/-- PATROL_READ (R378, R416): a corrected error is counted; what cannot be corrected is poisoned and, in stack memory and LPDDR-6, reported to the monitor, and no
tenant is trapped. The row stands for the errors of SRAM too, which are found as it is read (DEDUCED, log 66). -/
def execPatrolRead (addr : Nat) (found : Ecc) (s : State) : Out1 :=
  .next (match found with
    | .clean => s
    | .corrected => (match s.place addr with
      | .lpddr ch => s.bumpLife (0x80 + ch)
      | .chip => s.bumpLife ((chipOf addr).cluster)
      | _ => s)
    | .uncorrectable =>
      let s1 : State := { s with poison := unionIds s.poison [granule addr] }
      let r : Report := { ten := 0, cause := reportCause 0x14, tval := wd (granule addr) }
      match s.place addr with
      | .stack => s1.monitorReport r
      | .lpddr ch => (s1.bumpLife (0xA0 + ch)).monitorReport r
      | .chip => (s.spoilChip addr).bumpLife (0x40 + (chipOf addr).cluster)
      | _ => s)

/-- KEY_INTEGRITY_CHECK (R415) (DEDUCED, log 67). -/
def execKeyIntegrityCheck (slot : Nat) (fails : Bool) (s : State) : Out1 :=
  .next
    (if !fails || 80 ≤ slot || (s.keys.get {} slot).st = .lost then s
    else if slot < 16 then s.enterRecovery
    else match s.boundTo slot with
      | [] => { s with keys := s.keys.put slot {} }
      | v :: _ =>
        (({ s with keys := s.keys.put slot { st := .lost, gen := (s.keys.get {} slot).gen } } : State).report
          { ten := v, cause := reportCause 0x14, tval := wd slot }).tdiError v)

/-- LIFETIME_HOUR_TICK (R416): the bins of temperature and power; an hour below the first bin is in none (DEDUCED, log 64). -/
def execLifetimeHourTick (celsius watts : Nat) (s : State) : Out1 :=
  let s1 : State := if celsius < 40 then s else s.bumpLife (0x120 + Nat.min 15 ((celsius - 40) / 8))
  .next (if watts < 500 then s1 else s1.bumpLife (0x130 + Nat.min 15 ((watts - 500) / 50)))

end Sys2Proof.Machine
end

