-- ==== Sys2Proof/Machine/Matrix.lean ====
section
/-! DEFINITION. The matrix engine: operand rows (R139, R141), weights and activations (R118 to R120, R131, R133), the order of summation
(R132, R137, R138, R146), block skip (R148), the walk of units (R143, R144), the task scheduler (R145, R425) and faults (R373 to R376). -/

namespace Sys2Proof.Machine

open Host

/-! ## An operation's shape -/

/-- A word of the record. -/
def EngOp.word (o : EngOp) (n : Nat) : Word := o.eps.get 0#64 n
/-- M. -/
def EngOp.mRows (o : EngOp) : Nat := fld (o.word 6) 15 0
/-- N. -/
def EngOp.nCols (o : EngOp) : Nat := fld (o.word 6) 31 16
/-- K. -/
def EngOp.kLen (o : EngOp) : Nat := fld (o.word 6) 55 32
/-- WFMT. -/
def EngOp.wfmt (o : EngOp) : Nat := fld (o.word 7) 3 0
/-- AFMT. -/
def EngOp.afmt (o : EngOp) : Nat := fld (o.word 7) 7 4
/-- COMB. -/
def EngOp.comb (o : EngOp) : Bool := bit (o.word 7) 11
/-- Does the operation accumulate in INT32 (R136, R146)? -/
def EngOp.integer (o : EngOp) : Bool := o.wfmt == 4 || o.wfmt == 5 || (!o.comb && o.wfmt == 10)

/-- k per logical row per k-step (R135). -/
def kPerRow (w a : Nat) : Nat :=
  let two := a == 2 || a == 3
  if w = 9 ∨ w = 11 then (if two then 4 else 2)
  else if isSparse w then 2
  else if (w = 2 ∨ w = 3 ∨ w = 6 ∨ w = 7) ∧ two then 2
  else 1

/-- The passes of a split (R138) as (weight term, activation term); one pass otherwise. -/
def passesOf (w : Nat) : List (Nat × Nat) :=
  if w = 12 then [(1, 3), (2, 2), (3, 1), (1, 2), (2, 1), (1, 1)]
  else if w = 13 then [(1, 2), (2, 1), (1, 1)]
  else [(1, 1)]

/-- A quotient rounded up. -/
def ceilDiv (a b : Nat) : Nat := (a + b - 1) / b

/-- Passes of an operation. -/
def EngOp.passes (o : EngOp) : List (Nat × Nat) := if o.comb then [(1, 1)] else passesOf o.wfmt
/-- Values of k in a k-step. -/
def EngOp.kStep (o : EngOp) (arows : Nat) : Nat := Nat.max 1 (arows * kPerRow o.wfmt o.afmt)
/-- k-steps of an operation; a combining record has none, and its one unit stands for them (R143). -/
def EngOp.kSteps (o : EngOp) (arows : Nat) : Nat := if o.comb then 1 else ceilDiv o.kLen (o.kStep arows)

/-- Units of an operation (R143). -/
def EngOp.units (o : EngOp) (arows : Nat) : Nat :=
  ceilDiv o.nCols 128 * ceilDiv o.mRows 576 * o.passes.length * o.kSteps arows

/-- A unit of the walk: block, chunk, pass, k-step. -/
structure Unit1 where
  nb : Nat
  mc : Nat
  ps : Nat
  ks : Nat
  deriving DecidableEq, Repr

/-- Unit `u` of the walk (R143). -/
def EngOp.unitAt (o : EngOp) (arows u : Nat) : Unit1 :=
  let k := o.kSteps arows
  let p := o.passes.length
  let c := ceilDiv o.mRows 576
  ⟨u / k / p / c, u / k / p % c, u / k % p, u % k⟩

/-! ## Operand rows -/

/-- May an operand of a cluster's operation lie there (R141)? In stack memory, in the SCR or TILE region of a core of the cluster, or in the scratch of
another. -/
def State.operandAt (s : State) (cl k : Nat) : Bool :=
  match s.place k with
  | .stack => true
  | .chip => inScr k || (decide ((chipOf k).unit < 16) && decide ((chipOf k).region = 1) && decide ((chipOf k).cluster = cl))
  | _ => false

/-- The key of the 32-byte piece of an address, checked (R373), with its forwarding entry used (R58, R173). -/
def State.operandKey (s : State) (cl : Nat) (o : EngOp) (acc : Acc) (va : Word) : Except Stop (Nat × State) :=
  match s.checked o.id cl o.ten o.level acc va (s.checkUnit o.id cl o.ten o.level acc true va 32) with
  | .error e => .error e
  | .ok k => if s.operandAt cl k && !s.goneAt 4096 k then .ok (s.redirect 4096 k) else .error (.fault 6 va)

/-- The pieces that cover `n` bytes from an unrotated address: the aligned piece, the first byte in it and the bytes taken. -/
def pieces (va : Word) : Nat → Nat → List (Word × Nat × Nat)
  | 0, _ => []
  | _ + 1, 0 => []
  | f + 1, n =>
    let o := va.toNat % 32
    let t := Nat.min n (32 - o)
    (va - wd o, o, t) :: pieces (va + wd t) f (n - t)

/-- The start of row `i` of an operand from its BASE, before rotation (R141). An address beyond bit 56 belongs to no storage (R42). -/
def rowStart (base d1 : Word) (i : Nat) : Word := base + wd (i / 16 * fld d1 47 16) + wd (i % 16 * fld d1 15 0)

/-- BASE of a descriptor's first word. -/
def descBase (d0 : Word) : Word := wd (fld d0 56 0)

/-- Reads bytes of row `i` of an operand for party `p`, as the turn sees them (R80): only the granules that hold them are looked at. -/
def State.readPieces (p cl : Nat) (o : EngOp) (rot i : Nat) : List (Word × Nat × Nat) → State → Except Stop (List Byte × State)
  | [], s => .ok ([], s)
  | (a, off, n) :: l, s =>
    match s.operandKey cl o .load (rotated a rot (i % 16)) with
    | .error e => .error e
    | .ok (k, s0) =>
      match s0.readAt p o.ten (k + off) n (s0.turnView (k + off) n) with
      | .held s1 => .error (.held (k + off) s1)
      | .dead g => .error (.fault 9 (wd g))
      | .val _ (some g) _ _ => .error (.fault 0x14 (wd g))
      | .val bs none rels s1 =>
        match State.readPieces p cl o rot i l (s1.pending p rels) with
        | .error e => .error e
        | .ok (r, s2) => .ok (bs ++ r, s2)

/-- Bytes `off` to `off + n - 1` of row `i` of the operand with a BASE, a rotation code and a second descriptor word. -/
def State.operand (p cl : Nat) (o : EngOp) (base : Word) (rot : Nat) (d1 : Word) (i off n : Nat) (s : State) : Except Stop (List Byte × State) :=
  State.readPieces p cl o rot i (pieces (rowStart base d1 i + wd off) (n / 32 + 2) n) s

/-! ## Elements -/

/-- Element `i` of `n` bytes in a byte string. -/
def elemAt (bs : List Byte) (n i : Nat) : Nat := leNat ((bs.drop (i * n)).take n)

/-- Bytes of an element of a code that stores one element per lane; 4 for a split (R133). -/
def elemSize (code : Nat) : Nat :=
  match code with
  | 0 => 2
  | 1 => 2
  | 8 => 2
  | 12 => 4
  | 13 => 4
  | _ => 1

/-- The value of an element (R133); an integer is a significand with exponent 0. -/
def elemVal (code x : Nat) : FVal :=
  match code with
  | 0 => bf16.val x
  | 8 => bf16.val x
  | 1 => fp16.val x
  | 2 => fp8e4.val x
  | 9 => fp8e4.val x
  | 3 => fp8e5.val x
  | 5 => .fin false x 0
  | 4 => let v := (IFmt.mk 8 true).val x; .fin (decide (v < 0)) v.natAbs 0
  | 10 => let v := (IFmt.mk 8 true).val x; .fin (decide (v < 0)) v.natAbs 0
  | _ => fp32.val x

/-- The term of an element that a pass uses (R131, R138). -/
def termVal (code term x : Nat) : FVal :=
  if code = 12 ∨ code = 13 then bf16.val ((split3 x).getD (term - 1) 0) else elemVal code x

/-- The expansion of a grouped weight (R120). -/
def grouped (q : Int) (scale : Nat) : FVal :=
  match bf16.val scale with
  | .nan a b c => .nan a b c
  | .inf s => if q = 0 then .nan false true 0 else .inf (s ^^ decide (q < 0))
  | .fin s m e => .fin (s ^^ decide (q < 0)) (m * q.natAbs) e

/-- A two's-complement field. -/
def twos (w x : Nat) : Int := (IFmt.mk w true).val x

/-- The bytes of row `j` of B that hold weights `lo` to `hi - 1` of the packed stream: first byte and length (R118, R119, R139). -/
def weightBytes (w lo hi : Nat) : Nat × Nat :=
  if w = 6 ∨ w = 11 then (lo / 2, (hi - 1) / 2 + 1 - lo / 2)
  else if w = 7 then (lo / 10 * 4, ((hi - 1) / 10 + 1 - lo / 10) * 4)
  else (lo * elemSize w, (hi - lo) * elemSize w)

/-- Packed weight `n` of row `j` from those bytes, with its group's scale (R118, R119). -/
def weightVal (w term : Nat) (bs : List Byte) (lo n scale : Nat) : FVal :=
  if w = 6 ∨ w = 11 then
    let b := (bs.getD (n / 2 - lo / 2) 0#8).toNat
    grouped (twos 4 (b / (if n % 2 = 0 then 1 else 16) % 16)) scale
  else if w = 7 then
    let x := elemAt bs 4 (n / 10 - lo / 10)
    grouped (twos 3 (x / 2 ^ (3 * (n % 10)) % 8)) scale
  else termVal w term (elemAt bs (elemSize w) (n - lo))

/-- The kept indices of a group of eight (R139). -/
def keptIdx (m : Word) (g : Nat) : List Nat := (List.range 4).map fun t => fld m (12 * g + 3 * t + 2) (12 * g + 3 * t)

/-- Is a metadata word malformed (R139)? -/
def metaBad (m : Word) : Bool :=
  fld m 63 48 != 0 || (List.range 4).any fun g =>
    match keptIdx m g with
    | [a, b, c, d] => !(decide (a < b) && decide (b < c) && decide (c < d))
    | _ => true

/-- The weights of column `j` for k from `k0` to `k1 - 1`: none at a pruned position. -/
def State.weightRow (p cl : Nat) (o : EngOp) (term j k0 k1 : Nat) (s : State) : Except Stop (List (Option FVal) × State) :=
  let w := o.wfmt
  let base := descBase (o.word 2)
  let rot := fld (o.word 2) 63 61
  let d1 := o.word 3
  let soff := fld (o.word 13) 15 0
  let moff := fld (o.word 13) 31 16
  let scales (s : State) : Except Stop (List Byte × State) :=
    if isGrouped w then s.operand p cl o base rot d1 j (soff + 2 * (k0 / 32)) (2 * ((k1 - 1) / 32 - k0 / 32 + 1)) else .ok ([], s)
  let body (s : State) (lo hi : Nat) : Except Stop (List Byte × List Byte × State) :=
    match scales s with
    | .error e => .error e
    | .ok (sc, s1) =>
      let (b, n) := weightBytes w lo hi
      match s1.operand p cl o base rot d1 j b n with
      | .error e => .error e
      | .ok (bs, s2) => .ok (sc, bs, s2)
  if isSparse w then
    match s.operand p cl o base rot d1 j (moff + 8 * (k0 / 32)) (8 * ((k1 - 1) / 32 - k0 / 32 + 1)) with
    | .error e => .error e
    | .ok (mb, s1) =>
      let words := leWords mb (mb.length / 8)
      match words.find? metaBad with
      | some m => .error (.fault 0x0A m)
      | none =>
        let lo := 4 * (k0 / 8)
        let hi := 4 * ((k1 - 1) / 8) + 4
        match body s1 lo hi with
        | .error e => .error e
        | .ok (sc, bs, s2) =>
          .ok ((List.range (k1 - k0)).map fun x =>
            let k := k0 + x
            let m := wordAt words (k / 32 - k0 / 32)
            ((keptIdx m (k / 8 % 4)).findIdx? fun i => i == k % 8).map fun t =>
              weightVal w term bs lo (4 * (k / 8) + t) (elemAt sc 2 (k / 32 - k0 / 32)), s2)
  else
    match body s k0 k1 with
    | .error e => .error e
    | .ok (sc, bs, s1) =>
      .ok ((List.range (k1 - k0)).map fun x => some (weightVal w term bs k0 (k0 + x) (elemAt sc 2 ((k0 + x) / 32 - k0 / 32))), s1)

/-! ## Partial sums -/

/-- The stamp of the NaN that the engine creates (R132). -/
def nanStamp (core k : Nat) : BitVec 32 := BitVec.ofNat 32 (0x7FC0_0000 + core % 1024 * 2 ^ 12 + k % 4096)

/-- Is an FP32 pattern a NaN? -/
def isNan32 (x : BitVec 32) : Bool := (fp32.val x.toNat).isNan

/-- An FP32 pattern with its quiet bit set. -/
def quiet32 (x : BitVec 32) : BitVec 32 := x ||| 0x0040_0000#32

/-- s + w × a in FP32 (R132, R137). -/
def macFloat (stamp : BitVec 32) (s : BitVec 32) (w a : FVal) : BitVec 32 :=
  if isNan32 s then s
  else
    match w, a, fp32.val s.toNat with
    | .fin s1 m1 e1, .fin s2 m2 e2, .fin s3 m3 e3 =>
      let (sg, m, e) := addExact .rne s3 m3 e3 (s1 ^^ s2) (m1 * m2) (e1 + e2)
      BitVec.ofNat 32 (roundTo fp32 .rne false sg m e).1
    | .fin _ _ _, .fin _ _ _, _ => s
    | .inf x, .inf y, .inf z => if (x ^^ y) = z then s else stamp
    | .inf x, .inf y, _ => BitVec.ofNat 32 (fp32.infCode + (if x ^^ y then fp32.signBit else 0))
    | .inf x, .fin y m _, t =>
      if m = 0 then stamp
      else (match t with
        | .inf z => if (x ^^ y) = z then s else stamp
        | _ => BitVec.ofNat 32 (fp32.infCode + (if x ^^ y then fp32.signBit else 0)))
    | .fin x m _, .inf y, t =>
      if m = 0 then stamp
      else (match t with
        | .inf z => if (x ^^ y) = z then s else stamp
        | _ => BitVec.ofNat 32 (fp32.infCode + (if x ^^ y then fp32.signBit else 0)))
    | _, _, _ => stamp

/-- The integer that a value of an integer format stands for. -/
def intVal : FVal → Int
  | .fin sg m _ => if sg then -(m : Int) else m
  | _ => 0

/-- An INT32 sum with wrap, and whether it wrapped (R137). -/
def sumInt (s : BitVec 32) (x : Int) : BitVec 32 × Bool :=
  let t := s.toInt + x
  let r := BitVec.ofInt 32 t
  (r, decide (r.toInt ≠ t))

/-- The products of one output over a range of k, in ascending k (R137, R140): the sum and whether an integer sum wrapped. -/
def sumRow (integer : Bool) (core : Nat) : Nat → List (Option FVal) → List FVal → BitVec 32 → Bool → BitVec 32 × Bool
  | _, [], _, s, v => (s, v)
  | _, _, [], s, v => (s, v)
  | k, none :: ws, a :: as, s, v =>
    sumRow integer core (k + 1) ws as (if integer || a.isFin || isNan32 s then s else nanStamp core k) v
  | k, some w :: ws, a :: as, s, v =>
    if integer then
      let (r, x) := sumInt s (intVal w * intVal a)
      sumRow integer core (k + 1) ws as r (v || x)
    else sumRow integer core (k + 1) ws as (macFloat (nanStamp core k) s w a) v

/-- One partial met by the running sum of a combine (R132, R146). -/
def combine1 (integer : Bool) (core j : Nat) (s x : BitVec 32) : BitVec 32 × Bool :=
  if integer then sumInt s x.toInt
  else
    let r : BitVec 32 :=
      if isNan32 s && isNan32 x then quiet32 (if (x.setWidth 22).toNat < (s.setWidth 22).toNat then x else s)
      else if isNan32 s then quiet32 s
      else if isNan32 x then quiet32 x
      else
        let y := BitVec.ofNat 32 (fAdd fp32 .rne s.toNat x.toNat false).1
        if isNan32 y then nanStamp core j else y
    (r, false)

/-! ## Block skip (R148) -/

/-- The magnitude of a value; a NaN counts as +∞. -/
def magnitude : FVal → FVal
  | .nan _ _ _ => .inf false
  | .inf _ => .inf false
  | .fin _ m e => .fin false m e

/-- Is every magnitude of a block below the threshold? -/
def blockBelow (skipt : Nat) (vals : List FVal) : Bool :=
  let t := fp32.val (skipt % 2 ^ 31)
  !t.isNan && vals.all fun v => fvLt (magnitude v) t

/-! ## One unit -/

/-- Applies a reader to each number of a list, in order. -/
def forRows {α : Type} (f : Nat → State → Except Stop (α × State)) : List Nat → State → Except Stop (List α × State)
  | [], s => .ok ([], s)
  | i :: l, s =>
    match f i s with
    | .error e => .error e
    | .ok (a, s1) =>
      match forRows f l s1 with
      | .error e => .error e
      | .ok (r, s2) => .ok (a :: r, s2)

/-- Rows of a chunk. -/
def EngOp.rowsOf (o : EngOp) (u : Unit1) : List Nat := (List.range (Nat.min 576 (o.mRows - u.mc * 576))).map (u.mc * 576 + ·)
/-- Valid columns of a block. -/
def EngOp.colsOf (o : EngOp) (u : Unit1) : List Nat := (List.range (Nat.min 128 (o.nCols - u.nb * 128))).map (u.nb * 128 + ·)

/-- The 4-byte elements of a block's columns in row `i` of an operand. -/
def State.words32 (p cl : Nat) (o : EngOp) (base : Word) (rot : Nat) (d1 : Word) (u : Unit1) (i : Nat) (s : State) : Except Stop (List (BitVec 32) × State) :=
  let n := (o.colsOf u).length
  match s.operand p cl o base rot d1 i (512 * u.nb) (4 * n) with
  | .error e => .error e
  | .ok (bs, s1) => .ok ((List.range n).map fun c => BitVec.ofNat 32 (elemAt bs 4 c), s1)

/-- The accumulators of a chunk before its first unit (R137): zero, or C as stored with a NaN quieted (R132). -/
def State.startAcc (p cl : Nat) (o : EngOp) (u : Unit1) (s : State) : Except Stop (List (List (BitVec 32)) × State) :=
  if bit (o.word 7) 8 then
    match forRows (fun i s => s.words32 p cl o (descBase (o.word 4)) (fld (o.word 4) 63 61) (o.word 5) u i) (o.rowsOf u) s with
    | .error e => .error e
    | .ok (r, s1) => .ok (r.map fun l => l.map fun x => if !o.integer && isNan32 x then quiet32 x else x, s1)
  else .ok ((o.rowsOf u).map fun _ => (o.colsOf u).map fun _ => 0#32, s)

/-- What a unit leaves: accumulators, whether a sum wrapped, whether a block was skipped. -/
structure UnitRes where
  acc : List (List (BitVec 32))
  iovf : Bool := false
  skipped : Bool := false

/-- The combine of one unit (R146). A partial's BASE + j × PSTRIDE, to which the rule gives no width, is taken modulo 2^64 (DESIGN CHOICE, log 115). -/
def State.combUnit (p cl : Nat) (o : EngOp) (u : Unit1) (acc : List (List (BitVec 32))) (s : State) : Except Stop (UnitRes × State) :=
  let parts := List.range (fld (o.word 7) 17 12 + 1)
  let base (j : Nat) : Word := descBase (o.word 0) + wd j * o.word 14
  let row (i : Nat) (s : State) : Except Stop (List (List (BitVec 32)) × State) :=
    forRows (fun j s => s.words32 p cl o (base j) (fld (o.word 0) 63 61) (o.word 1) u i) parts s
  match forRows row (o.rowsOf u) s with
  | .error e => .error e
  | .ok (data, s1) =>
    let one (a : List (BitVec 32)) (ps : List (List (BitVec 32))) : List (BitVec 32 × Bool) :=
      a.mapIdx fun c x => (ps.zipIdx).foldl (fun (t : BitVec 32 × Bool) q =>
        let r := combine1 o.integer o.core q.2 t.1 (q.1.getD c 0#32)
        (r.1, t.2 || r.2)) (x, false)
    let res := List.zipWith one acc data
    .ok ({ acc := res.map fun l => l.map (·.1), iovf := res.any fun l => l.any (·.2) }, s1)

/-- The products of one unit (R137, R143). -/
def State.macUnit (p cl arows : Nat) (o : EngOp) (u : Unit1) (acc : List (List (BitVec 32))) (s : State) : Except Stop (UnitRes × State) :=
  let k0 := u.ks * o.kStep arows
  let k1 := Nat.min o.kLen (k0 + o.kStep arows)
  let (wt, at_) := o.passes.getD u.ps (1, 1)
  let z := elemSize o.afmt
  match forRows (fun j s => s.weightRow p cl o wt j k0 k1) (o.colsOf u) s with
  | .error e => .error e
  | .ok (ws, s1) =>
    match forRows (fun i s => s.operand p cl o (descBase (o.word 0)) (fld (o.word 0) 63 61) (o.word 1) i (k0 * z) ((k1 - k0) * z)) (o.rowsOf u) s1 with
    | .error e => .error e
    | .ok (as, s2) =>
      let raw : List (List Nat) := as.map fun bs => (List.range (k1 - k0)).map fun x => elemAt bs z x
      let skip : Nat → Bool := fun b =>
        bit (o.word 7) 10 && blockBelow (fld (o.word 12) 31 0) (((raw.drop (16 * b)).take 16).flatMap fun l => l.map (elemVal o.afmt))
      let skips := (List.range (ceilDiv raw.length 16)).map skip
      let res : List (List (BitVec 32 × Bool)) := List.zipWith (fun (a : List (BitVec 32)) (r : Nat × List Nat) =>
          if skips.getD (r.1 / 16) false then a.map fun x => (x, false)
          else
            let vals := r.2.map (termVal o.afmt at_)
            List.zipWith (fun x w => sumRow o.integer o.core k0 w vals x false) a ws)
        acc (raw.mapIdx fun i l => (i, l))
      .ok ({ acc := res.map fun l => l.map (·.1), iovf := res.any fun l => l.any (·.2), skipped := skips.any id }, s2)

/-- The keys of the C pieces of a chunk's row, checked and their banks awake before any is written. -/
def State.cKeys (cl : Nat) (o : EngOp) (rot i : Nat) : List (Word × Nat × Nat) → State → Except Stop (List (Nat × Nat) × State)
  | [], s => .ok ([], s)
  | (a, off, n) :: l, s =>
    match s.operandKey cl o .store (rotated a rot (i % 16)) with
    | .error e => .error e
    | .ok (k, s1) =>
      match s1.wakeFirst k 32 with
      | some s2 => .error (.held k s2)
      | none =>
        match State.cKeys cl o rot i l s1 with
        | .error e => .error e
        | .ok (r, s2) => .ok ((k + off, n) :: r, s2)

/-- Writes the bytes of a row over its pieces. -/
def State.writePieces (p ten : Nat) : List (Nat × Nat) → List Byte → State → State
  | [], _, s => s
  | (k, n) :: l, bs, s => State.writePieces p ten l (bs.drop n) (s.writeNow p ten k (bs.take n) [])

/-- The granules of C that the poisoned accumulators of a chunk lie in (R379), each of its rows given by its keys. -/
def badGranules (keys : List (List (Nat × Nat))) (bad : List (Nat × Nat)) : List Nat :=
  bad.filterMap fun e =>
    let bytes := (keys.getD e.1 []).flatMap fun p => (List.range p.2).map (p.1 + ·)
    (bytes[4 * e.2]?).map granule

/-- Writes the C rows of a chunk after its last unit (R143), poisoned where an accumulator is (R379). -/
def State.writeC (p cl : Nat) (o : EngOp) (u : Unit1) (acc : List (List (BitVec 32))) (bad : List (Nat × Nat)) (s : State) : Except Stop State :=
  let row (i : Nat) : List (Word × Nat × Nat) :=
    let n := 4 * (o.colsOf u).length
    pieces (rowStart (descBase (o.word 4)) (o.word 5) i + wd (512 * u.nb)) (n / 32 + 2) n
  match forRows (fun i s => s.cKeys cl o (fld (o.word 4) 63 61) i (row i)) (o.rowsOf u) s with
  | .error e => .error e
  | .ok (keys, s1) =>
    let s2 : State := (keys.zip acc).foldl (fun t r => State.writePieces p o.ten r.1 (r.2.flatMap fun x => leBytes 4 x.toNat) t) s1
    .ok { s2 with poison := unionIds s2.poison (badGranules keys bad) }

/-- Performs one unit: what it leaves and the machine, or the fault that stops it (R143, R375). -/
def State.runUnit (p cl : Nat) (m : MatOp) (s : State) : Except Stop (UnitRes × State) :=
  let o := m.op
  let ar := s.arows
  let u := o.unitAt ar m.kprog
  let first := u.ps == 0 && u.ks == 0
  let last := u.ps + 1 == o.passes.length && u.ks + 1 == o.kSteps ar
  match (if first then s.startAcc p cl o u else .ok (m.acc, s)) with
  | .error e => .error e
  | .ok (acc, s1) =>
    match (if o.comb then s1.combUnit p cl o u acc else s1.macUnit p cl ar o u acc) with
    | .error e => .error e
    | .ok (r, s2) =>
      if last then
        match s2.writeC p cl o u r.acc m.bad with
        | .error e => .error e
        | .ok s3 => .ok ({ r with acc := [] }, s3)
      else .ok (r, s2)

/-! ## STATUS and the arrays -/

/-- The STATUS word of an operation (R142); `st` is STATE. -/
def MatOp.status (m : MatOp) (st : Nat) : Word :=
  wd (st * 2 ^ 62 + b01 m.iovf * 2 ^ 61 + b01 m.skipped * 2 ^ 60 + m.kprog % 2 ^ 48)

/-- The key of a record's STATUS word, checked (R425), with its translation in the TLB and its forwarding entry used. -/
def State.statusKey (s : State) (cl : Nat) (o : EngOp) (recd : Word) : Except (Nat × Word) (Nat × State) :=
  let a := recd + 120#64
  match s.checkNow cl o.ten o.level .store true a 8 with
  | .bad c t => .error (c, t)
  | .miss => .error (7, a)
  | .ok k =>
    if !(inScr k || s.place k = .stack) || s.goneAt 4096 k then .error (6, a)
    else .ok ((s.installNow cl o.ten o.level a).redirect 4096 k)

/-- A STATUS word that has to wait for its bank to wake: the machine in which it wakes (R67). -/
def State.statusWaits (s : State) (cl : Nat) (o : EngOp) (recd : Word) : Option State :=
  match s.statusKey cl o recd with
  | .ok (k, _) => s.wakeFirst k 8
  | .error _ => none

/-- Writes a record's STATUS in memory for party `p`, with what it releases: the failed check, or none (R425). -/
def State.putStatus (s : State) (p cl : Nat) (o : EngOp) (recd v : Word) (rels : Rels) : Option (Nat × Word) × State :=
  match s.statusKey cl o recd with
  | .error e => (some e, s)
  | .ok (k, s1) => (none, s1.writeNow p o.ten k (leBytes 8 v.toNat) rels)

/-- The same with the trap or report of R425 when the write is skipped. -/
def State.putStatusSay (s : State) (p cl : Nat) (o : EngOp) (recd v : Word) (rels : Rels) : State :=
  match s.putStatus p cl o recd v rels with
  | (some (c, t), s') => s'.opFault o c t
  | (none, s') => s'

/-- The trap or the end that a fault in operand fetch brings (R374, R375): a held operation waits, another is abandoned. -/
def MatOp.stopped (m : MatOp) (hold : Bool) : MatOp := if hold then { m with op := { m.op with held := true } } else { m with failed := true }

/-- Changes the running operation of an array. -/
def State.modRun (s : State) (cl a : Nat) (m : MatOp) : State :=
  s.modCluster cl fun c => c.modArray a fun x => { x with run := some m, active := x.active.put 15 (m.status (if m.failed then 3 else 1)) }

/-- The party for which a running operation performs its accesses: of the MATRIX queue, the array's (R87); a tile task is a party of its own, which
holds what its start acquired and what it has done since. -/
def State.matParty (s : State) (cl a : Nat) (m : MatOp) : Nat × State :=
  match m.recd with
  | none => (engPartyId (.matrix cl a), s)
  | some _ => (s.fresh, { s with fresh := s.fresh + 1, parties := s.parties.put s.fresh { floor := m.op.rel } })

/-- Ends what `matParty` began: the operation keeps the party's floor. -/
def State.matDone (s : State) (p : Nat) (m : MatOp) : List Nat × State :=
  match m.recd with
  | none => (m.op.rel, s)
  | some _ => (s.relSet p, { s with parties := s.parties.filter fun x => x.1 != p })

/-- Is the next unit of a running operation the last of its chunk (R143)? -/
def MatOp.chunkEnds (m : MatOp) (arows : Nat) : Bool :=
  let u := m.op.unitAt arows m.kprog
  u.ps + 1 == m.op.passes.length && u.ks + 1 == m.op.kSteps arows

/-- Performs the next unit of an array's operation (R143, R375). A unit whose operands or STATUS lie in a bank that has to wake is performed once it is awake
(R68). -/
def State.runMatrix (s : State) (cluster array : Nat) : State :=
  match ((s.cluster cluster).array array).run with
  | none => s
  | some m =>
    if s.clusterFrozen cluster || m.failed || m.op.held || m.op.units s.arows ≤ m.kprog then s
    else match m.recd.bind fun a => s.statusWaits cluster m.op a with
      | some s' => s'
      | none =>
        let (p, s0) := s.matParty cluster array m
        match s0.runUnit p cluster m with
        | .error (.held k s') => ((s'.matDone p m).2).holdUnit (.matrix cluster array) 1 k
        | .error (.walk s') => (s'.matDone p m).2
        | .error (.fault c v) =>
          let hold := s.holdsOp m.op c
          ((s.forgetAnswer m.op.id).modRun cluster array (m.stopped hold)).opFault m.op c v hold
        | .ok (r, s1) =>
          let (rel, s2) := s1.matDone p m
          let m1 : MatOp := { m with op := { m.op with rel := rel }, kprog := m.kprog + 1, acc := r.acc
                                     bad := if m.chunkEnds s.arows then [] else m.bad
                                     iovf := m.iovf || r.iovf, skipped := m.skipped || r.skipped }
          let s3 : State := s2.modRun cluster array m1
          let s4 : State := if m.op.comb && r.iovf then s3.noteFlag m.op.ten 3 else s3
          match m.recd with
          | some a => s4.putStatusSay (engPartyId (.matrix cluster array)) cluster m.op a (m1.status 1) []
          | none => s4

/-- MATRIX_UNIT_COMPLETE (R143, R375). -/
def execMatrixUnitComplete (cluster array : Nat) (s : State) : Out1 := .next (s.runMatrix cluster array)

/-- Swaps an array's shadow set in, when a record is loaded there, nothing runs, and nothing of its MATRIX queue can start first (R145, R147). -/
def State.swapIn (s : State) (cl a : Nat) : State :=
  let s0 : State := s.passMarkers (.matrix cl a) 16
  let x := (s0.cluster cl).array a
  let blocked := match x.queue with
    | [] => true
    | o :: _ => o.isMarker
  match x.run, x.loaded with
  | none, some o =>
    if s.clusterFrozen cl || !blocked then s
    else
      let m : MatOp := { op := { o with started := true, eps := x.shadow }, recd := x.loadedRec }
      s0.modCluster cl fun c => c.modArray a fun x =>
        { x with run := some m, loaded := none, loadedRec := none, active := x.shadow.put 15 (m.status 1) }
  | _, _ => s

/-- MATRIX_OP_COMPLETE (R145, R376): C is written, STATUS says done or failed, COMPL is decremented once, which releases that STATUS too, and the array
goes on. -/
def execMatrixOpComplete (cluster array : Nat) (s : State) : Out1 :=
  .next (match ((s.cluster cluster).array array).run with
    | none => s
    | some m =>
      if s.clusterFrozen cluster || m.op.held || (!m.failed && decide (m.kprog < m.op.units s.arows)) then s
      else match m.recd.bind fun a => s.statusWaits cluster m.op a with
        | some s' => s'
        | none =>
          let o := m.op
          let v := m.status (if m.failed then 3 else 2)
          let q : EngQueue := .matrix cluster array
          let s1 : State := s.modCluster cluster fun c => c.modArray array fun x => { x with run := none, active := x.active.put 15 v }
          let rel := match m.recd with
            | some _ => o.rel
            | none => s.relSet (engPartyId q)
          let s2 : State := match m.recd with
            | some a => s1.putStatusSay (engPartyId q) cluster o a v [(engPartyId q * 8 + 3, rel)]
            | none => s1.completeOp q o rel
          (s2.sendDecr (unitKey cluster 2) o.ten o.queue (wd (fld (o.word 11) 56 4 * 16)) (unionIds rel (s2.relSet (engPartyId q)))).swapIn cluster array)

/-! ## The task scheduler (R145, R425) -/

/-- The parts of a range of a record in its 64-byte halves, each of which lies in one page and one bank. -/
def halves (va : Word) (n : Nat) : List (Word × Nat) :=
  let m := Nat.min n (64 - va.toNat % 64)
  (va, m) :: if n = m then [] else [(va + wd m, n - m)]

/-- The number by which the walks are known that a cluster's task scheduler waits for on a tenant's behalf. -/
def schUnit (cl ten : Nat) : Nat := 7 * 2 ^ 40 + cl * 2 ^ 7 + ten

/-- A read of parts of a record by the scheduler, each checked by itself (R58, R425). What fails is a fault, a poisoned granule among them. -/
def State.schRead (cl : Nat) (t : TileTask) : List (Word × Nat) → State → Except Stop (List Byte × Rels × State)
  | [], s => .ok ([], [], s)
  | (va, m) :: l, s =>
    let p := engPartyId (.task cl)
    let u := schUnit cl t.ten
    match s.checked u cl t.ten t.level .load va (s.checkUnit u cl t.ten t.level .load true va m) with
    | .error e => .error e
    | .ok k0 =>
      if !(inScr k0 || s.place k0 = .stack) || s.goneAt 4096 k0 then .error (.fault 6 va)
      else
        let (k, s0) := s.redirect 4096 k0
        match State.readParts p t.ten (groups32 3 k m) s0 with
        | .held s1 => .error (.held k s1)
        | .dead g => .error (.fault 9 (wd g))
        | .val _ (some g) _ _ => .error (.fault 0x14 (wd g))
        | .val bs none rels s1 =>
          match State.schRead cl t l s1 with
          | .error e => .error e
          | .ok (r, rels2, s2) => .ok (bs ++ r, rels ++ rels2, s2)

/-- What the DEP records say: all done with what they released, one failed, one unreadable, or not yet done; the machine has read them. -/
inductive Deps
  | wait (s : State)
  | held (key : Nat) (s : State)
  | bad (code : Nat) (tval : Word)
  | failed
  | done (rels : Rels) (s : State)

/-- Reads the STATUS of each DEP record (R145, R376, R425) (DEDUCED, log 51). A record with a failed DEP fails once each of its others is done or has
failed too: no rule says whether it waits for them (DESIGN CHOICE, log 116). -/
def State.depState (cl : Nat) (t : TileTask) : List Word → State → Deps
  | [], s => .done [] s
  | d :: ds, s =>
    if d = 0#64 then State.depState cl t ds s
    else match State.schRead cl t [(d + 120#64, 8)] s with
      | .error (.fault c v) => .bad c v
      | .error (.held k s1) => .held k s1
      | .error (.walk s1) => .wait s1
      | .ok (bs, rels, s1) =>
        let st := leNat bs / 2 ^ 62
        match State.depState cl t ds s1 with
        | .bad c v => .bad c v
        | .held k s2 => .held k s2
        | .failed => if st < 2 then .wait s1 else .failed
        | .wait s2 => .wait s2
        | .done r s2 => if st = 2 then .done (rels ++ r) s2 else if st = 3 then .failed else .wait s2

/-- What the scheduler finds at a listed record: it is not ripe, a bank has to wake first, it fails, or it is taken with its words and what its start
acquires. -/
inductive Ripe
  | wait (s : State)
  | held (key : Nat) (s : State)
  | fail (cause : Option (Nat × Word)) (compl : Word)
  | go (ws : List Word) (rels : Rels) (s : State)

/-- COMPL of a record whose words could not all be read: 0 where that word cannot be read either. -/
def State.complOf (s : State) (cl : Nat) (t : TileTask) : Word :=
  match s.checkNow cl t.ten t.level .load true (t.addr + 88#64) 8 with
  | .ok k => (match s.readDev t.ten (s.redirect 4096 k).1 8 with
    | some (bs, _, _) => wd (fld (wd (leNat bs)) 56 4 * 16)
    | none => 0#64)
  | _ => 0#64

/-- Judges a listed record, whose TTQ the scheduler has acquired. -/
def State.judge (cl : Nat) (t : TileTask) (s : State) : Ripe :=
  match State.schRead cl t (halves t.addr 120) s with
  | .error (.held k s1) => .held k s1
  | .error (.walk s1) => .wait s1
  | .error (.fault c v) =>
    .fail (some (c, v)) (s.complOf cl t)
  | .ok (bs, rels, s1) =>
    let ws := leWords bs 15
    let compl := wd (fld (wordAt ws 11) 56 4 * 16)
    match State.depState cl t [wordAt ws 8, wordAt ws 9, wordAt ws 10] s1 with
    | .wait s2 => .wait s2
    | .held k s2 => .held k s2
    | .bad c v => .fail (some (c, v)) compl
    | .failed => .fail none compl
    | .done r s2 =>
      match matrixFault (wordAt ws) with
      | some n => .fail (some (0x0C, wd (2 ^ 8 + n))) compl
      | none => .go ws (rels ++ r) s2

/-- The scheduler acquires what a record's TTQ released (R83), and then judges the record. -/
def State.ripe (cl : Nat) (t : TileTask) (s : State) : Ripe := State.judge cl t (s.acquireIds (engPartyId (.task cl)) t.rel)

/-- The array whose shadow set takes a record: 0, else 1; a held array takes none (R145, R375). -/
def Cluster.takes (c : Cluster) : Option Nat :=
  (List.range 2).find? fun a =>
    let x := c.array a
    x.loaded.isNone && !(match x.run with | some m => m.op.held | none => false)

/-- The operation of a record. -/
def TileTask.op (t : TileTask) (id : Nat) (rel : List Nat) : EngOp :=
  { id := id, who := t.who, core := t.core, party := t.party, ten := t.ten, level := t.level, queue := t.queue, eps := [], rel := rel }

/-- The oldest listed record that is ripe, or that a waking bank holds; else the machine in which all have been looked at. -/
def State.oldestRipe (cl : Nat) : List TileTask → State → Except State (TileTask × Ripe)
  | [], s => .error s
  | t :: ts, s =>
    if !s.inSlice t.ten (16 * cl) then State.oldestRipe cl ts s
    else match State.ripe cl t s with
      | .wait s1 => State.oldestRipe cl ts s1
      | r => .ok (t, r)

/-- What a record's start acquires (R145): what its TTQ released, and what the STATUS words of its DEP records released, in so far as their scopes hold
the matrix engine of the array. -/
def State.startRel (s : State) (cl a : Nat) (t : TileTask) (rels : Rels) : List Nat :=
  let p := engPartyId (.matrix cl a)
  unionIds t.rel ((rels.filter fun x => s.scopeHas (x.1 % 8) (x.1 / 8) p).flatMap (·.2))

/-- The task scheduler takes a record for an array's shadow set (R145, R425), or holds its read at a bank that has to wake (R68). -/
def State.takeRecord (s0 : State) (cluster a : Nat) (t : TileTask) (r : Ripe) : State :=
  let p := engPartyId (.task cluster)
  let o := t.op s0.fresh t.rel
  let left (u : State) : State :=
    ({ u with fresh := u.fresh + 1 } : State).modCluster cluster fun c => { c with tileTasks := c.tileTasks.erase t }
  match r with
  | .wait s1 => s1
  | .held k s1 => s1.holdUnit (.task cluster) 2 k
  | .fail cause compl =>
    (match s0.statusWaits cluster o t.addr with
      | some s1 => s1
      | none =>
        let s3 : State := ((left s0).forgetAnswer (schUnit cluster t.ten)).putStatus p cluster o t.addr 0xC000000000000000#64 [(p * 8 + 3, t.rel)] |>.2
        let s4 : State := match cause with
          | some (c, v) => s3.opFault o c v
          | none => s3
        s4.sendDecr (unitKey cluster 0) t.ten t.queue compl (unionIds t.rel (s4.relSet p)))
  | .go ws rels s1 =>
    match s0.statusWaits cluster o t.addr with
    | some s2 => s2
    | none =>
      let s3 : State := (left s1).putStatusSay p cluster o t.addr 0x4000000000000000#64 []
      let o1 : EngOp := { o with id := s1.fresh, rel := s3.startRel cluster a t rels }
      (s3.modCluster cluster fun c => c.modArray a fun x =>
        { x with shadow := ws.mapIdx fun i w => (i, epMask 1 i w), loaded := some o1, loadedRec := some t.addr }).swapIn cluster a

/-- The task scheduler goes on (R145, R425). -/
def State.dispatchTask (s : State) (cluster : Nat) : State :=
  let s0 : State := (s.swapIn cluster 0).swapIn cluster 1
  if s0.clusterFrozen cluster then s0
  else match (s0.cluster cluster).takes with
    | none => s0
    | some a => match State.oldestRipe cluster (s0.cluster cluster).tileTasks s0 with
      | .ok (t, r) => s0.takeRecord cluster a t r
      | .error s1 => s1

/-- TILE_TASK_DISPATCH (R145, R425). -/
def execTileTaskDispatch (cluster : Nat) (s : State) : Out1 := .next (s.dispatchTask cluster)

end Sys2Proof.Machine
end

