-- ==== Sys2Proof/Machine/Links.lean ====
section
/-! DEFINITION. Packets on the mesh (R179 to R183, R189): the buffers of a router's input ports, the router that a packet goes to next, and one hop of
every packet. -/

namespace Sys2Proof.Machine

open Host

/-- The VC of a packet (R181). -/
def Hop.vc (h : Hop) : Nat := 2 * h.cls + h.ch

/-- Flits in the buffers of a VC at the input of router `q` from router `p`. -/
def State.flitsIn (s : State) (q p vc : Nat) : Nat :=
  (s.flights.map fun f => match f.hop with
    | some h => if h.at_ = q ∧ h.from_ = p ∧ h.vc = vc then h.flits else 0
    | none => 0).sum

/-- The flit buffers that are free for a VC at the input of router `q` from router `p` (R180): of its own two, and of the pool of 32, on which a VC
draws while its own are in use. -/
def State.freeBuffers (s : State) (q p vc : Nat) : Nat :=
  (2 - s.flitsIn q p vc) + (32 - ((List.range 8).map fun v => s.flitsIn q p v - 2).sum)

/-- The stitched region in which a router lies. -/
def State.regionAt (s : State) (p : Nat) : Option Region := s.stitched.find? fun r => r.holds p

/-- The router to which a packet goes next, and its channel there: within a stitched region by the region's links (R189), in dimension order with ORD
= 1 (R183) or on the way through a region, else by the odd-even turn model (R182). -/
def State.nextHop (s : State) (h : Hop) : Nat × Nat :=
  let dim : Nat := (xyPort (meshX h.at_) (meshY h.at_) (meshX h.dst) (meshY h.dst)).next h.at_
  let plain : Nat :=
    if h.ord then dim
    else
      let free (m : MeshPort) : Nat := s.freeBuffers (m.next h.at_) h.at_ (2 * h.cls)
      (adaptivePort free (oddEven h.sx (meshX h.at_) (meshY h.at_) (meshX h.dst) (meshY h.dst))).next h.at_
  match s.regionAt h.at_ with
  | some r => if r.holds h.dst then r.next h.at_ h.from_ h.dst (if r.holds h.from_ then h.ch else 0) else (dim, b01 h.ord)
  | none => (plain, b01 h.ord)

/-- Does an earlier packet stand before this one in its buffer? -/
def State.queuedBehind (s : State) (f : Flight) (h : Hop) : Bool :=
  s.flights.any fun g => decide (g.id < f.id) && (match g.hop with
    | some k => k.at_ == h.at_ && k.from_ == h.from_ && k.vc == h.vc
    | none => false)

/-- One cycle of a packet (R180): it leaves the mesh where it is bound, or goes one hop when all its flits find free buffers there. -/
def State.moveHop (s : State) (id : Nat) : State :=
  match s.flight? id with
  | none => s
  | some f =>
    match f.hop with
    | none => s
    | some h =>
      if s.queuedBehind f h then s
      else if h.at_ = h.dst then (s.modFlight id fun g => { g with hop := none }).depart id
      else
        let (q, ch) := s.nextHop h
        if h.flits ≤ s.freeBuffers q h.at_ (2 * h.cls + ch) then
          s.modFlight id fun g => { g with hop := some { h with at_ := q, from_ := h.at_, ch := ch } }
        else s

/-- One cycle of the mesh (DESIGN CHOICE, log 99). -/
def State.moveMesh (s : State) : State := (s.flights.filter fun f => f.hop.isSome).foldl (fun t f => t.moveHop f.id) s

end Sys2Proof.Machine
end

