-- ==== Sys2Proof/Machine/Wake.lean ====
section
/-! DEFINITION. The end of a bank's wake (R67, R68): what it held is performed, and then the hints that waited take effect. -/

namespace Sys2Proof.Machine

open Host

/-- The storage key at which a flight that has reached a bank waits there. -/
def State.waitKey (s : State) (f : Flight) : Option Nat :=
  match f.act with
  | .result (.row n) _ _ _ =>
    let x : Slot := s.slot f.who
    some (tileKey f.who.core (x.tileBank n.toNat) (n.toNat % 16))
  | .copyRead _ _ _ _ k _ _ => some k
  | .rows o => (o.rows.head?).map (·.1)
  | .unit _ _ k => some k
  | .fetch _ k => some k
  | .stamped g st =>
    let va := (s.group g).entry.wbase + wd st.off
    if chipBit ≤ va.toNat then some va.toNat else none
  | .send ws => if msgSpace ws = 1 then some (s.redirect f.from? (msgVa ws).toNat).1 else none
  | a => a.range.map fun r => (s.redirect f.who.core r.1).1

/-- Does a flight wait at a bank of a core? -/
def State.heldAt (s : State) (core bank : Nat) (f : Flight) : Bool :=
  f.reached.isSome && f.hop.isNone && !f.landing && (match s.waitKey f with
    | some k => decide (chipBit ≤ k) && (chipOf k).bank? == some bank && (chipOf k).core == core
    | none => false)

/-- Inserts a flight in the order of arrival, atomics of one cycle in that of R60. -/
def State.insertHeld (s : State) (f : Flight) : List Flight → List Flight
  | [] => [f]
  | g :: l => if s.heldBefore f g then f :: g :: l else g :: s.insertHeld f l

/-- A request is performed by the atomic unit of its location, which performs nothing more there in this cycle (R60). -/
def State.serving (s : State) (f : Flight) : State :=
  match s.locationOf f with
  | some at_ => { s with servedAt := at_ :: s.servedAt }
  | none => s

/-- An engine goes on with the access that a bank held for it, with the view of the turn in which it reached the bank (R80). -/
def State.resumeUnit (s : State) (f : Flight) (q : EngQueue) (part : Nat) : State :=
  let s1 : State := { s.dropFlight f.id with view := f.view, part := part }
  let s2 : State := match q with
    | .copy core => s1.runCopy core none q (fun o => wd (fld (o.cell 6) 56 4 * 16))
    | .stream core => s1.runCopy core (some (coreNum core)) q (fun o => o.cell 6)
    | .task cl => if part = 1 then s1.runTasks cl else s1.dispatchTask cl
    | .matrix cl a => s1.runMatrix cl a
    | _ => s1
  { s2 with view := s.view, part := s.part }

/-- The key that a built-in reaches, and the machine with the use of a forwarding entry noted. -/
def State.msgRedirect (s : State) (f : Flight) (ws : List Word) : Nat × State := s.redirect f.from? (msgVa ws).toNat

/-- Performs what a bank held, now that it is Full. -/
def State.performHeld (s : State) (f : Flight) : State :=
  match f.act with
  | .load _ _ _ _ _ _ _ => s.performLoad f f.view
  | .store _ _ _ _ _ => s.performStore f
  | .atomic _ _ _ _ _ _ _ _ => (s.serving f).performAtomic f
  | .cbar _ _ _ => (s.serving f).performCbar f
  | .decr _ c _ => (s.serving f).performCell f c (cellOp f)
  | .taskq h => (s.serving f).performCell f h (cellOp f)
  | .await c _ _ => (s.serving f).performCell f c (cellOp f)
  | .bind h held => ((s.serving f).performCell f h (bindOp f h held)).bindOver f held
  | .result (.row _) _ _ _ => s.landResult f
  | .copyRead _ _ _ _ _ _ _ => s.landCopy f
  | .rows _ => s.landEntry f
  | .unit q part _ => s.resumeUnit f q part
  | .fetch pc _ => s.landFetch f pc
  | .stamped g _ => State.applyStores g 257 (s.dropFlight f.id)
  | .send ws =>
    let (k, s1) := (s.serving f).msgRedirect f ws
    (match msgHandler ws with
      | 0x00 => s1.storeMsg f ws k
      | 0x10 => s1.loadMsg f ws k
      | 0x20 => s1.atomicMsg f ws k
      | 0x40 => s1.decrMsg f ws k
      | _ => s)
  | _ => s

/-- A bank whose wake from Retain has failed its retention check (R372): every granule of it is poisoned (R378). -/
def State.spoilBank (s : State) (core bank : Nat) : State :=
  { s with poison := unionIds s.poison ((List.range (bankSize bank / 16)).map fun i => bankAddr core bank + 16 * i) }

/-- BANK_WAKE_COMPLETE (R68): the bank is Full; what it held is performed in the order of arrival, and after that, in this same event, the hints that
reached it while it woke take effect (DESIGN CHOICE, log 121). A wake from Retain that fails its retention check poisons it (R372). -/
def execBankWakeComplete (core : Nat) (wake : WakeEnd) (s : State) : Out1 :=
  let bank := wake.bank
  .next
    (if (s.core core).bank bank ≠ 3 then s
    else
      let s0 : State := s.modCore core fun c => c.setBank bank 2
      let s1 : State := if !wake.sound && (s.core core).kept.getLsbD bank then s0.spoilBank core bank else s0
      let held := ((s1.flights.filter (s1.heldAt core bank)).foldl (fun l f => s1.insertHeld f l) [])
      let s2 : State := held.foldl (fun t f => match t.flight? f.id with
        | some g => t.performHeld g
        | none => t) s1
      let due := (s2.core core).hints.filter fun h => h.1 == bank
      let s3 : State := s2.modCore core fun c => { c with hints := c.hints.filter fun h => h.1 != bank }
      (due.foldl (fun t h => t.bankEvent core h.1 h.2) s3).applyAll)

end Sys2Proof.Machine
end

