-- ==== Sys2Proof/Machine/Turn.lean ====
section
/-! DEFINITION. Whose turn it is (R22, R86, R162, R341, DESIGN CHOICE, log 2): the agenda, the fetch and decode of the word at a slot's PC, the passing of
time (R176), and the turns that the machine takes when no agenda says otherwise. -/

namespace Sys2Proof.Machine

open Host

/-! ## Issue -/

/-- The machine in which a slot issues a word (R22, R162): the core's pipeline has issued in this cycle, and the slot is the one of its priority that
issued last. A single step begins with the number that is next (R178). -/
def State.issuing (s : State) (r : SlotRef) (w : BitVec 32) : State :=
  let p := stPrio (s.slot r).st
  let s1 : State := s.modCore r.core fun c => { c with last := c.last.put p r.slot, issuedAt := c.issuedAt.put r.slot s.cycle, issued := some s.cycle }
  let s2 : State := if (s.slot r).armed then s1.modSlot r fun x => { x with stepFrom := s.fresh } else s1
  { s2 with cur := r, ir := w }

/-- What a turn does: a word is executed, an event takes place, or the turn is over. -/
inductive Todo
  | word (i : Instr)
  | event (f : State → Out1)
  | over

/-- May the slot take a turn: it may run, or the trap of its single step is due (R178), and its tenant is in its slice (R152)? -/
def State.mayTurn (s : State) (r : SlotRef) : Bool :=
  (s.mayRun r || (s.mayAct r && s.stepTrap r)) && s.inSlice (s.slot r).ten r.core

/-- The turn of a slot: what it executes and on which machine, or the next machine. A boundary event comes first (R341); a slot that drains
waits (R248), and so does one whose core has issued in this cycle (R162); else the word at the PC is fetched (R86, R347) and decoded. -/
def State.planSlot (s : State) (r : SlotRef) : Todo × State :=
  let x : Slot := s.slot r
  if !s.mayTurn r then (.over, s)
  else if s.boundaryDue r then (.event (execAsyncTrap r.core r.slot), { s with cur := r })
  else if x.drain.isSome || (s.core r.core).issued == some s.cycle then (.over, s)
  else match s.fetchWord r x.pc with
    | .word w t =>
      (match decode w with
        | some i => (.word i, t.issuing r w)
        | none => (.event (execIllegalInstruction w), t.issuing r w))
    | .bad c t => (.event (execFetchFault c t), s.issuing r 0#32)
    | .miss => (.over, s.wantWalk r x.pc .fetch)
    | .own => (.over, s)
    | .wake core b k => (.over, (s.wake core b).holdFetch r x.pc k)

/-! ## Time -/

/-- The last-use hints of a core's cycle take effect at its end (R72). -/
def State.endHints (s : State) (core : Nat) : State :=
  let due := (s.core core).due
  if due.isEmpty then s
  else due.foldl (fun t h => t.bankEvent core h.1 h.2) (s.modCore core fun c => { c with due := [] })

/-- Has a cluster a core that is stopped? -/
def State.anyStopped (s : State) (cluster : Nat) : Bool := (List.range 16).any fun i => (s.core (16 * cluster + i)).stopped

/-- Do the watchdog timers of a tenant's queues stand (R176)? -/
def State.timersStand (s : State) (ten : Nat) (t : Tenant) : Bool := !t.stoppedCores.isEmpty || (s.partition ten).any s.anyStopped

/-- The clocks go on by `n` cycles: offers lapse, BSTATE shows the banks as the cycle has left them (R66), and the slices and watchdog timers of clusters whose
cores are stopped stand (R176). -/
def State.pass (s : State) (n : Nat) : State :=
  { s with
    cycle := s.cycle + n
    servedAt := []
    cores := s.cores.map fun c => (c.1, { c.2 with e0 := c.2.b0, e1 := c.2.b1 })
    clusters := s.clusters.map fun c => (c.1, { c.2 with
      doms := c.2.doms.map fun d => (d.1, { d.2 with offer := none })
      sliceStart := if s.anyStopped c.1 then c.2.sliceStart + n else c.2.sliceStart })
    tenants := s.tenants.map fun t => (t.1, if s.timersStand t.1 t.2
      then { t.2 with queues := t.2.queues.map fun q => (q.1, { q.2 with wstart := q.2.wstart + n }) } else t.2) }

/-- The end of a cycle: deposits land and hints act (R63, R72), strands that have halted are over (R28), domains that are quiescent fire (R111), the offers of the
bank cycle are made where none has been taken (R103), and logs give back their records (R110). -/
def State.cycleEnd (s : State) : State :=
  let s1 : State := s.landDeposits
  let s2 : State := s1.cores.foldl (fun t c => t.endHints c.1) s1
  let s3 : State := s2.settleHalts.latchAll
  s3.clusters.foldl (fun t c => (t.makeOffers c.1).endLogs c.1) s3

/-- One cycle: it ends, packets move on (R180), and the next begins, with the claims and refills of its bank cycle (R89, R103) and with what stores of a
multicast window have waited for (R197). -/
def State.cycleOver (s : State) : State :=
  let s1 : State := s.cycleEnd.moveMesh.pass 1
  (s1.clusters.foldl (fun t c => t.bankStart c.1) s1).applyAll

/-- Does nothing but the clocks change while cycles pass? -/
def State.calm (s : State) : Bool :=
  s.deposits.isEmpty && s.cores.all (fun c => c.2.due.isEmpty) &&
    s.flights.all (fun f => f.hop.isNone && (match f.act with | .halted _ => false | _ => true)) &&
    s.groups.all (fun g => !(g.2.window.any fun st => st.n == g.2.gapply + 1)) &&
    s.clusters.all fun c => c.2.refills.isEmpty &&
      c.2.doms.all fun d => d.2.taken.isNone && d.2.head == d.2.tail && !d.2.posted && !(d.2.bound && c.2.folds.any fun e => e.dom == d.1)

/-- `n` cycles pass. -/
def State.tick (s : State) : Nat → State
  | 0 => s
  | n + 1 => if s.calm then s.pass (n + 1) else s.cycleOver.tick n

/-! ## The machine's own choice of turns (DESIGN CHOICE, log 2) -/

/-- The event by which an operation under way goes on. -/
def Flight.move (f : Flight) : Option (State → Out1) :=
  let land : State → Out1 := match f.seep with
    | some n => execSeepLineLand f.who.core n
    | none => execResultLands f.id
  match f.act with
  | .result _ _ _ _ => some land
  | .rows _ => some (execResultLands f.id)
  | .copyRead _ _ _ _ _ _ _ => some land
  | .cbarWait _ _ _ _ => some land
  | .load _ _ _ _ _ _ _ => some (execRemoteAccess f.id [0])
  | .store _ k _ _ _ => some (if isDeposit k then execDeposit f.id else execRemoteAccess f.id [0])
  | .atomic _ _ _ _ _ _ _ _ => some (execAtomicPerform f.id)
  | .decr _ _ _ => some (execCellDecr f.id)
  | .taskq _ => some (execCellTaskq f.id)
  | .await _ _ _ => some (execCellAwait f.id)
  | .bind _ _ => some (execHaltRtBind f.id)
  | .cbar _ _ _ => some (execCbarArrival f.id)
  | .post _ _ _ _ _ _ => some (execFoldPost f.id)
  | .send ws =>
    some (match msgHandler ws with
      | 0x00 => execBuiltinStore f.id
      | 0x10 => execBuiltinLoad f.id
      | 0x20 => execBuiltinAtomic f.id
      | 0x30 => execBuiltinPost f.id
      | 0x40 => execBuiltinDecr f.id
      | _ => execHandlerMessageArrival f.id)
  | .ack => some (execSendAck f.id)
  | .mcst _ _ _ _ _ => some (execMcstStamp f.id)
  | .stampReturn _ _ _ => some (execMcstStampReturn f.id)
  | .stamped _ _ => some (execMulticastStoreArrival f.id)
  | .enqueue _ _ => some (execEnqueueArrival f.id)
  | .engine _ _ => some (execEnqueueArrival f.id)
  | .marker _ _ => some (execEnqueueArrival f.id)
  | .lnch _ _ _ _ => some (execLnchHeaderRead f.id)
  | .ctxsave _ _ _ => some (execCtxsaveComplete ⟨f.id, true⟩)
  | .migr _ _ _ _ => some (execMigrationRestore f.id)
  | .coreStop _ _ _ _ cores => cores.head?.map fun c => execCoreStop f.id c
  | .gstop _ _ _ => some (execGstopComplete f.id)
  | .halted _ => none
  | .unit _ _ _ => none
  | .fetch _ _ => none

/-- The events of an operation under way: its own, once its packet has arrived (R179), and its timeout (R397). -/
def Flight.events (f : Flight) : List (State → Out1) :=
  (if f.hop.isSome then [] else f.move.toList) ++ (if f.pkt.isSome then [] else [execOperationTimeout f.id])

/-- Events of a core that may have come due. -/
def Core.events (c : Core) (k : Nat) : List (State → Out1) :=
  ((List.range 64).filter fun b => c.bank b == 3).map (fun b => execBankWakeComplete k ⟨b, true⟩) ++
  ((List.range 4).filter fun n => (c.slot n).drain.isSome).map (fun n => execStrandDrainEnd k n) ++
  (if c.seq.isEmpty then [] else [execSequencerExecute k [0]]) ++
  (if c.queue.isEmpty then [] else if k < 1024 then [execEngineOpStart (.copy k), execCopyComplete k] else [execEngineOpStart (.stream k), execStreamComplete k]) ++
  (if c.runList.isEmpty then [] else [execMemoryCorePop k]) ++
  (if c.inbound.isEmpty then [] else if k < 1024 then [execRunListPop (k / 16)] else [execMemoryCorePop k]) ++
  (c.falls.map fun e => execTaskPrefetch k e.1) ++
  (List.range c.forwards.length).map fun i => execForwardRetire k i

/-- Events of a cluster that may have come due; `parts` gives the partition of a tenant. -/
def Cluster.events (c : Cluster) (k : Nat) (parts : Nat → List Nat) : List (State → Out1) :=
  (c.doms.flatMap fun d =>
    (if (c.folds.any fun e => e.dom == d.1) then [execFoldOffer k d.1] else []) ++
    (if d.2.posted || !d.2.firings.isEmpty then [execFoldCompletionAction (d.1 / 16) (d.1 % 16)] else [])) ++
  (if c.entries.isEmpty then [] else (List.range 16).map fun i => execAgePromotion (16 * k + i)) ++
  (if c.entries.isEmpty && c.folds.isEmpty then [] else [execRunListPop k]) ++
  (if c.share.isEmpty && c.leaving.isNone && c.saved.isEmpty then [] else [execSliceSwitch k]) ++
  [execClusterIdle k, execStealRequest k, execStealAnswer k, execStealBackoffExpiry k] ++
  (if c.tqueue.isEmpty then [] else [execEngineOpStart (.task k), execTaskEngineComplete k]) ++
  (match c.fqueue with
    | [] => []
    | o :: _ => execEngineOpStart (.fold k) :: (parts o.ten).map fun p => execFoldCommitTake p) ++
  (if c.tileTasks.isEmpty && (c.array 0).loaded.isNone && (c.array 1).loaded.isNone then [] else [execTileTaskDispatch k]) ++
  [0, 1].flatMap fun a => (if (c.array a).queue.isEmpty then [] else [execEngineOpStart (.matrix k a)]) ++
    (if (c.array a).run.isNone then [] else [execMatrixUnitComplete k a, execMatrixOpComplete k a])

/-- Events of a tenant's queues. -/
def Tenant.events (t : Tenant) (v : Nat) : List (State → Out1) :=
  ((t.queues.filter fun q => bit q.2.cfg 63 && q.2.wp != q.2.rp).map fun q => execHeaderFetch v q.1) ++
  (if t.hbuf.isEmpty then [] else [execLaunchAccept]) ++
  (t.queues.filter fun q => q.2.wdog != 0#64).flatMap fun q => [execWatchdogPre v q.1, execWatchdogKill v q.1, execWatchdogFence v q.1]

/-- Events of a multicast group that this device holds. -/
def Group.events (g : Group) (k now dev : Nat) : List (State → Out1) :=
  if !g.entry.valid then []
  else [execGapplyReport k dev 0, execResendRequest k] ++ (if g.told + 700 ≤ now then [execSluiceGReport k] else []) ++
    g.entry.members.map fun m => execMemberLoss k m

/-- Events of a launch. -/
def Launch.events (l : Launch) : List (State → Out1) :=
  (if l.persist && !l.admitted then [execPersistAdmit l.id] else l.undealt.map fun t => execLaunchDeal l.id t) ++
  (if l.total ≤ l.halted then [execLaunchComplete l.id] else [])

/-- Every event that may have come due inside the device. -/
def State.events (s : State) : List (State → Out1) :=
  (s.walks.map fun w => execWalkComplete w.id) ++ s.flights.flatMap Flight.events ++ (s.groups.flatMap fun g => g.2.events g.1 s.cycle s.dev) ++ (s.cores.flatMap fun c => c.2.events c.1) ++
    (s.clusters.flatMap fun c => c.2.events c.1 s.partition) ++ (s.tenants.flatMap fun t => t.2.events t.1) ++ s.launches.flatMap Launch.events

/-! ## Turns -/

/-- Is the row an event of the device or of the world around it, not the execution of a word by a slot? -/
def isEvent (i : Instr) : Bool :=
  match i with
  | .illegalInstruction _ => false
  | .fetchFault _ _ => false
  | _ => (encode i).isNone

/-- May the row act while the part is in recovery (R206)? -/
def inRecovery : Instr → Bool
  | .recoveryImagePush _ => true
  | .coldReset _ => true
  | .warmReset _ => true
  | _ => false

/-- Does the turn that comes next leave a part in recovery as it is? -/
def State.stuck (s : State) : Bool :=
  s.recovery && (match s.agenda with
    | .event i :: _ => !inRecovery i
    | .eventAt i _ _ :: _ => !inRecovery i
    | _ => true)

/-- Bytes stored for a fetch at an address that translates to itself, with the translation and the bank that the fetch needs. -/
def State.placeWord (s : State) (r : SlotRef) (w : BitVec 32) : State :=
  let x : Slot := s.slot r
  let pc := x.pc.toNat % 2 ^ 57
  let key := if chipBit ≤ pc then pc else pc % 2 ^ 31
  let e : TlbEntry := { ten := x.ten, va := pc / 4096 * 4096, lg := 12, pa := key / 4096 * 4096, u := true, x := true, w := true, r := true }
  let s1 : State := if chipBit ≤ pc then
      (match (chipOf pc).bank? with
        | some b => s.modCore (chipOf pc).core fun c => c.setBank b 2
        | none => s)
    else s.modCluster (s.clusterOf r.core) fun c => { c with tlb := e :: c.tlb }
  { s1 with mem := Memory.setBytes s1.mem key (leBytes 4 w.toNat) }

end Sys2Proof.Machine
end

