-- ==== Sys2Proof/Machine/Dispatch.lean ====
section
/-! DEFINITION. One arm per row of the opcode table: the meaning of each instruction and event. -/

namespace Sys2Proof.Machine

open Host

def exec (i : Instr) (s : State) : Host.Outcome State Fault Refusal :=
  match i with
  | .add d a b wa wb w => Sys2Proof.Machine.execAdd d a b wa wb w s
  | .sub d a b wa wb w => Sys2Proof.Machine.execSub d a b wa wb w s
  | .mul d a b wa wb w => Sys2Proof.Machine.execMul d a b wa wb w s
  | .mulh d a b wa wb => Sys2Proof.Machine.execMulh d a b wa wb s
  | .mulhu d a b wa wb => Sys2Proof.Machine.execMulhu d a b wa wb s
  | .div d a b wa wb w => Sys2Proof.Machine.execDiv d a b wa wb w s
  | .divu d a b wa wb w => Sys2Proof.Machine.execDivu d a b wa wb w s
  | .rem d a b wa wb w => Sys2Proof.Machine.execRem d a b wa wb w s
  | .remu d a b wa wb w => Sys2Proof.Machine.execRemu d a b wa wb w s
  | .and d a b wa wb => Sys2Proof.Machine.execAnd d a b wa wb s
  | .or d a b wa wb => Sys2Proof.Machine.execOr d a b wa wb s
  | .xor d a b wa wb => Sys2Proof.Machine.execXor d a b wa wb s
  | .andn d a b wa wb => Sys2Proof.Machine.execAndn d a b wa wb s
  | .orn d a b wa wb => Sys2Proof.Machine.execOrn d a b wa wb s
  | .sll d a b wa wb w => Sys2Proof.Machine.execSll d a b wa wb w s
  | .srl d a b wa wb w => Sys2Proof.Machine.execSrl d a b wa wb w s
  | .sra d a b wa wb w => Sys2Proof.Machine.execSra d a b wa wb w s
  | .rol d a b wa wb w => Sys2Proof.Machine.execRol d a b wa wb w s
  | .ror d a b wa wb w => Sys2Proof.Machine.execRor d a b wa wb w s
  | .slt d a b wa wb => Sys2Proof.Machine.execSlt d a b wa wb s
  | .sltu d a b wa wb => Sys2Proof.Machine.execSltu d a b wa wb s
  | .min d a b wa wb => Sys2Proof.Machine.execMin d a b wa wb s
  | .max d a b wa wb => Sys2Proof.Machine.execMax d a b wa wb s
  | .minu d a b wa wb => Sys2Proof.Machine.execMinu d a b wa wb s
  | .maxu d a b wa wb => Sys2Proof.Machine.execMaxu d a b wa wb s
  | .clz d a wa w => Sys2Proof.Machine.execClz d a wa w s
  | .ctz d a wa w => Sys2Proof.Machine.execCtz d a wa w s
  | .popc d a wa w => Sys2Proof.Machine.execPopc d a wa w s
  | .sext d a b wa wb => Sys2Proof.Machine.execSext d a b wa wb s
  | .bext d a b wa wb => Sys2Proof.Machine.execBext d a b wa wb s
  | .bins d a b wa wb => Sys2Proof.Machine.execBins d a b wa wb s
  | .addi d a im => Sys2Proof.Machine.execAddi d a im s
  | .andi d a im => Sys2Proof.Machine.execAndi d a im s
  | .ori d a im => Sys2Proof.Machine.execOri d a im s
  | .xori d a im => Sys2Proof.Machine.execXori d a im s
  | .slti d a im => Sys2Proof.Machine.execSlti d a im s
  | .sltiu d a im => Sys2Proof.Machine.execSltiu d a im s
  | .slli d a w n => Sys2Proof.Machine.execSlli d a w n s
  | .srli d a w n => Sys2Proof.Machine.execSrli d a w n s
  | .srai d a w n => Sys2Proof.Machine.execSrai d a w n s
  | .rori d a w n => Sys2Proof.Machine.execRori d a w n s
  | .lui d im => Sys2Proof.Machine.execLui d im s
  | .luh d im => Sys2Proof.Machine.execLuh d im s
  | .adpc d im => Sys2Proof.Machine.execAdpc d im s
  | .beq a b im => Sys2Proof.Machine.execBeq a b im s
  | .bne a b im => Sys2Proof.Machine.execBne a b im s
  | .blt a b im => Sys2Proof.Machine.execBlt a b im s
  | .bge a b im => Sys2Proof.Machine.execBge a b im s
  | .bltu a b im => Sys2Proof.Machine.execBltu a b im s
  | .bgeu a b im => Sys2Proof.Machine.execBgeu a b im s
  | .j im => Sys2Proof.Machine.execJ im s
  | .jal im => Sys2Proof.Machine.execJal im s
  | .jr a o => Sys2Proof.Machine.execJr a o s
  | .jalr d a o => Sys2Proof.Machine.execJalr d a o s
  | .ld d a z h o im => Sys2Proof.Machine.execLd d a z h o im s
  | .st d a z h o im => Sys2Proof.Machine.execSt d a z h o im s
  | .rld r a h im => Sys2Proof.Machine.execRld r a h im s
  | .rst r a h im => Sys2Proof.Machine.execRst r a h im s
  | .aadd d a b wa wb o dbl => Sys2Proof.Machine.execAadd d a b wa wb o dbl s
  | .aand d a b wa wb o dbl => Sys2Proof.Machine.execAand d a b wa wb o dbl s
  | .aor d a b wa wb o dbl => Sys2Proof.Machine.execAor d a b wa wb o dbl s
  | .axor d a b wa wb o dbl => Sys2Proof.Machine.execAxor d a b wa wb o dbl s
  | .amin d a b wa wb o dbl => Sys2Proof.Machine.execAmin d a b wa wb o dbl s
  | .amax d a b wa wb o dbl => Sys2Proof.Machine.execAmax d a b wa wb o dbl s
  | .aminu d a b wa wb o dbl => Sys2Proof.Machine.execAminu d a b wa wb o dbl s
  | .amaxu d a b wa wb o dbl => Sys2Proof.Machine.execAmaxu d a b wa wb o dbl s
  | .aswp d a b wa wb o dbl => Sys2Proof.Machine.execAswp d a b wa wb o dbl s
  | .acas d a b wa wb o dbl => Sys2Proof.Machine.execAcas d a b wa wb o dbl s
  | .afadd d a b wa wb o => Sys2Proof.Machine.execAfadd d a b wa wb o s
  | .fence sc => Sys2Proof.Machine.execFence sc s
  | .qfence m => Sys2Proof.Machine.execQfence m s
  | .cbar d a b wa wb => Sys2Proof.Machine.execCbar d a b wa wb s
  | .gbar l => Sys2Proof.Machine.execGbar l s
  | .waitfe a => Sys2Proof.Machine.execWaitfe a s
  | .sete a => Sys2Proof.Machine.execSete a s
  | .mbw a k wa => Sys2Proof.Machine.execMbw a k wa s
  | .mbr d k => Sys2Proof.Machine.execMbr d k s
  | .send d => Sys2Proof.Machine.execSend d s
  | .mcst d => Sys2Proof.Machine.execMcst d s
  | .mseq d a wa => Sys2Proof.Machine.execMseq d a wa s
  | .post d a b wa wb m => Sys2Proof.Machine.execPost d a b wa wb m s
  | .frel => Sys2Proof.Machine.execFrel s
  | .fdstat d m => Sys2Proof.Machine.execFdstat d m s
  | .ewr e a b => Sys2Proof.Machine.execEwr e a b s
  | .erd e b d => Sys2Proof.Machine.execErd e b d s
  | .erdAct e b d => Sys2Proof.Machine.execErdAct e b d s
  | .ego e a => Sys2Proof.Machine.execEgo e a s
  | .ewait e a => Sys2Proof.Machine.execEwait e a s
  | .estat e a d => Sys2Proof.Machine.execEstat e a d s
  | .ttq a d => Sys2Proof.Machine.execTtq a d s
  | .spawn a wa => Sys2Proof.Machine.execSpawn a wa s
  | .susp rt => Sys2Proof.Machine.execSusp rt s
  | .await a wa rt => Sys2Proof.Machine.execAwait a wa rt s
  | .decr d a b wa wb => Sys2Proof.Machine.execDecr d a b wa wb s
  | .halt => Sys2Proof.Machine.execHalt s
  | .haltRt a wa => Sys2Proof.Machine.execHaltRt a wa s
  | .taskq a wa => Sys2Proof.Machine.execTaskq a wa s
  | .lnch d a wa => Sys2Proof.Machine.execLnch d a wa s
  | .wid d a b wa wb => Sys2Proof.Machine.execWid d a b wa wb s
  | .bank st n => Sys2Proof.Machine.execBank st n s
  | .bstat d n => Sys2Proof.Machine.execBstat d n s
  | .csrr d c => Sys2Proof.Machine.execCsrr d c s
  | .csrw d a c => Sys2Proof.Machine.execCsrw d a c s
  | .csrs d a c => Sys2Proof.Machine.execCsrs d a c s
  | .csrc d a c => Sys2Proof.Machine.execCsrc d a c s
  | .ptrootWrite ten v => Sys2Proof.Machine.execPtrootWrite ten v s
  | .tvecWrite ten v => Sys2Proof.Machine.execTvecWrite ten v s
  | .vaddF t d a b l => Sys2Proof.Machine.execVaddF t d a b l s
  | .vsubF t d a b l => Sys2Proof.Machine.execVsubF t d a b l s
  | .vmulF t d a b l => Sys2Proof.Machine.execVmulF t d a b l s
  | .vdiv t d a b l => Sys2Proof.Machine.execVdiv t d a b l s
  | .vfma t d a b l => Sys2Proof.Machine.execVfma t d a b l s
  | .vfms t d a b l => Sys2Proof.Machine.execVfms t d a b l s
  | .vminF t d a b l => Sys2Proof.Machine.execVminF t d a b l s
  | .vmaxF t d a b l => Sys2Proof.Machine.execVmaxF t d a b l s
  | .vabsF t d a l => Sys2Proof.Machine.execVabsF t d a l s
  | .vnegF t d a l => Sys2Proof.Machine.execVnegF t d a l s
  | .vsqrt t d a l => Sys2Proof.Machine.execVsqrt t d a l s
  | .vscl t d a b l => Sys2Proof.Machine.execVscl t d a b l s
  | .vcpys t d a b l => Sys2Proof.Machine.execVcpys t d a b l s
  | .vceqF t d a b l => Sys2Proof.Machine.execVceqF t d a b l s
  | .vcltF t d a b l => Sys2Proof.Machine.execVcltF t d a b l s
  | .vcle t d a b l => Sys2Proof.Machine.execVcle t d a b l s
  | .vaddI t d a b l => Sys2Proof.Machine.execVaddI t d a b l s
  | .vsubI t d a b l => Sys2Proof.Machine.execVsubI t d a b l s
  | .vmulI t d a b l => Sys2Proof.Machine.execVmulI t d a b l s
  | .vmulh t d a b l => Sys2Proof.Machine.execVmulh t d a b l s
  | .vadds t d a b l => Sys2Proof.Machine.execVadds t d a b l s
  | .vsubs t d a b l => Sys2Proof.Machine.execVsubs t d a b l s
  | .vminI t d a b l => Sys2Proof.Machine.execVminI t d a b l s
  | .vmaxI t d a b l => Sys2Proof.Machine.execVmaxI t d a b l s
  | .vminu t d a b l => Sys2Proof.Machine.execVminu t d a b l s
  | .vmaxu t d a b l => Sys2Proof.Machine.execVmaxu t d a b l s
  | .vceqI t d a b l => Sys2Proof.Machine.execVceqI t d a b l s
  | .vcltI t d a b l => Sys2Proof.Machine.execVcltI t d a b l s
  | .vcltu t d a b l => Sys2Proof.Machine.execVcltu t d a b l s
  | .vshl t d a n l => Sys2Proof.Machine.execVshl t d a n l s
  | .vshr t d a n l => Sys2Proof.Machine.execVshr t d a n l s
  | .vsra t d a n l => Sys2Proof.Machine.execVsra t d a n l s
  | .vabsI t d a l => Sys2Proof.Machine.execVabsI t d a l s
  | .vnegI t d a l => Sys2Proof.Machine.execVnegI t d a l s
  | .vand d a b l => Sys2Proof.Machine.execVand d a b l s
  | .vor d a b l => Sys2Proof.Machine.execVor d a b l s
  | .vxor d a b l => Sys2Proof.Machine.execVxor d a b l s
  | .vsel d a b l => Sys2Proof.Machine.execVsel d a b l s
  | .vperm d a b l => Sys2Proof.Machine.execVperm d a b l s
  | .vbcst d a w => Sys2Proof.Machine.execVbcst d a w s
  | .vins d a w n => Sys2Proof.Machine.execVins d a w n s
  | .vext d a w n l => Sys2Proof.Machine.execVext d a w n l s
  | .vrev d a w l => Sys2Proof.Machine.execVrev d a w l s
  | .vzipH d a b l => Sys2Proof.Machine.execVzipH d a b l s
  | .vzipW d a b l => Sys2Proof.Machine.execVzipW d a b l s
  | .vuzpH d a b l => Sys2Proof.Machine.execVuzpH d a b l s
  | .vuzpW d a b l => Sys2Proof.Machine.execVuzpW d a b l s
  | .vpark a p l => Sys2Proof.Machine.execVpark a p l s
  | .vunpk d p => Sys2Proof.Machine.execVunpk d p s
  | .vrep a n b => Sys2Proof.Machine.execVrep a n b s
  | .vcvt d a rm sat amx tp l => Sys2Proof.Machine.execVcvt d a rm sat amx tp l s
  | .vpack d a rm sat amx tp l => Sys2Proof.Machine.execVpack d a rm sat amx tp l s
  | .vwiden d a rm sat amx tp l => Sys2Proof.Machine.execVwiden d a rm sat amx tp l s
  | .vcvtB d a rm sat amx tb l => Sys2Proof.Machine.execVcvtB d a rm sat amx tb l s
  | .vcvtef d a e l f16 => Sys2Proof.Machine.execVcvtef d a e l f16 s
  | .vrsum d a t l => Sys2Proof.Machine.execVrsum d a t l s
  | .vrmax d a t l => Sys2Proof.Machine.execVrmax d a t l s
  | .vrmin d a t l => Sys2Proof.Machine.execVrmin d a t l s
  | .vdotF32 d a b l => Sys2Proof.Machine.execVdotF32 d a b l s
  | .vdotBf16 d a b l => Sys2Proof.Machine.execVdotBf16 d a b l s
  | .vdotF16 d a b l => Sys2Proof.Machine.execVdotF16 d a b l s
  | .vdotI16 d a b l => Sys2Proof.Machine.execVdotI16 d a b l s
  | .vdotI8 d a b l => Sys2Proof.Machine.execVdotI8 d a b l s
  | .vdotwBf16 d a b l => Sys2Proof.Machine.execVdotwBf16 d a b l s
  | .vdotwF16 d a b l => Sys2Proof.Machine.execVdotwF16 d a b l s
  | .vdotwI16 d a b l => Sys2Proof.Machine.execVdotwI16 d a b l s
  | .vdotwI8 d a b l => Sys2Proof.Machine.execVdotwI8 d a b l s
  | .vsprs d a m l => Sys2Proof.Machine.execVsprs d a m l s
  | .vsexp d a m l => Sys2Proof.Machine.execVsexp d a m l s
  | .vsdot d a b l => Sys2Proof.Machine.execVsdot d a b l s
  | .trap c => Sys2Proof.Machine.execTrap c s
  | .brk c => Sys2Proof.Machine.execBrk c s
  | .nop => Sys2Proof.Machine.execNop s
  | .pref a im => Sys2Proof.Machine.execPref a im s
  | .bhint x => Sys2Proof.Machine.execBhint x s
  | .yield => Sys2Proof.Machine.execYield s
  | .tret => Sys2Proof.Machine.execTret s
  | .ctxsave d a b wa wb => Sys2Proof.Machine.execCtxsave d a b wa wb s
  | .ctxload d a wa => Sys2Proof.Machine.execCtxload d a wa s
  | .migr d a b wa wb => Sys2Proof.Machine.execMigr d a b wa wb s
  | .gstop d a b wa wb => Sys2Proof.Machine.execGstop d a b wa wb s
  | .tlbinv a b wa wb => Sys2Proof.Machine.execTlbinv a b wa wb s
  | .tlbinva b wb => Sys2Proof.Machine.execTlbinva b wb s
  | .kzero a wa => Sys2Proof.Machine.execKzero a wa s
  | .kload d a wa => Sys2Proof.Machine.execKload d a wa s
  | .scrub d a wa => Sys2Proof.Machine.execScrub d a wa s
  | .tnassign d a wa => Sys2Proof.Machine.execTnassign d a wa s
  | .tnfree d a wa => Sys2Proof.Machine.execTnfree d a wa s
  | .tnstat d a wa => Sys2Proof.Machine.execTnstat d a wa s
  | .resultLands id => Sys2Proof.Machine.execResultLands id s
  | .sequencerExecute core view => Sys2Proof.Machine.execSequencerExecute core view s
  | .strandDrainEnd core slot => Sys2Proof.Machine.execStrandDrainEnd core slot s
  | .bankWakeComplete core wake => Sys2Proof.Machine.execBankWakeComplete core wake s
  | .deposit id => Sys2Proof.Machine.execDeposit id s
  | .remoteAccess id view => Sys2Proof.Machine.execRemoteAccess id view s
  | .atomicPerform id => Sys2Proof.Machine.execAtomicPerform id s
  | .cellDecr id => Sys2Proof.Machine.execCellDecr id s
  | .cellTaskq id => Sys2Proof.Machine.execCellTaskq id s
  | .cellAwait id => Sys2Proof.Machine.execCellAwait id s
  | .haltRtBind id => Sys2Proof.Machine.execHaltRtBind id s
  | .cbarArrival id => Sys2Proof.Machine.execCbarArrival id s
  | .enqueueArrival id => Sys2Proof.Machine.execEnqueueArrival id s
  | .taskPrefetch core handle => Sys2Proof.Machine.execTaskPrefetch core handle s
  | .queueDoorbell vf q v => Sys2Proof.Machine.execQueueDoorbell vf q v s
  | .headerFetch vf q => Sys2Proof.Machine.execHeaderFetch vf q s
  | .launchAccept => Sys2Proof.Machine.execLaunchAccept s
  | .lnchHeaderRead id => Sys2Proof.Machine.execLnchHeaderRead id s
  | .launchDeal launch target => Sys2Proof.Machine.execLaunchDeal launch target s
  | .persistAdmit launch => Sys2Proof.Machine.execPersistAdmit launch s
  | .runListPop cluster => Sys2Proof.Machine.execRunListPop cluster s
  | .memoryCorePop core => Sys2Proof.Machine.execMemoryCorePop core s
  | .agePromotion core => Sys2Proof.Machine.execAgePromotion core s
  | .launchComplete launch => Sys2Proof.Machine.execLaunchComplete launch s
  | .foldOffer cluster dom => Sys2Proof.Machine.execFoldOffer cluster dom s
  | .foldClaim cluster => Sys2Proof.Machine.execFoldClaim cluster s
  | .foldPost id => Sys2Proof.Machine.execFoldPost id s
  | .logRefill cluster dom => Sys2Proof.Machine.execLogRefill cluster dom s
  | .foldCommitTake cluster => Sys2Proof.Machine.execFoldCommitTake cluster s
  | .foldCompletionAction ten dom => Sys2Proof.Machine.execFoldCompletionAction ten dom s
  | .adaptChange ten dom shift => Sys2Proof.Machine.execAdaptChange ten dom shift s
  | .engineOpStart q => Sys2Proof.Machine.execEngineOpStart q s
  | .tileTaskDispatch cluster => Sys2Proof.Machine.execTileTaskDispatch cluster s
  | .matrixUnitComplete cluster array => Sys2Proof.Machine.execMatrixUnitComplete cluster array s
  | .matrixOpComplete cluster array => Sys2Proof.Machine.execMatrixOpComplete cluster array s
  | .copyComplete core => Sys2Proof.Machine.execCopyComplete core s
  | .streamComplete core => Sys2Proof.Machine.execStreamComplete core s
  | .taskEngineComplete cluster => Sys2Proof.Machine.execTaskEngineComplete cluster s
  | .walkComplete id => Sys2Proof.Machine.execWalkComplete id s
  | .hostRequestFail id => Sys2Proof.Machine.execHostRequestFail id s
  | .asyncTrap core slot => Sys2Proof.Machine.execAsyncTrap core slot s
  | .watchdogPre vf q => Sys2Proof.Machine.execWatchdogPre vf q s
  | .watchdogKill vf q => Sys2Proof.Machine.execWatchdogKill vf q s
  | .watchdogFence vf q => Sys2Proof.Machine.execWatchdogFence vf q s
  | .sliceSwitch cluster => Sys2Proof.Machine.execSliceSwitch cluster s
  | .clusterIdle cluster => Sys2Proof.Machine.execClusterIdle cluster s
  | .stealRequest cluster => Sys2Proof.Machine.execStealRequest cluster s
  | .stealAnswer cluster => Sys2Proof.Machine.execStealAnswer cluster s
  | .stealBackoffExpiry cluster => Sys2Proof.Machine.execStealBackoffExpiry cluster s
  | .seepLineLand core line => Sys2Proof.Machine.execSeepLineLand core line s
  | .ctxsaveComplete save => Sys2Proof.Machine.execCtxsaveComplete save s
  | .migrationRestore id => Sys2Proof.Machine.execMigrationRestore id s
  | .forwardRetire core entry => Sys2Proof.Machine.execForwardRetire core entry s
  | .coreStop id core => Sys2Proof.Machine.execCoreStop id core s
  | .gstopComplete id => Sys2Proof.Machine.execGstopComplete id s
  | .handlerMessageArrival id => Sys2Proof.Machine.execHandlerMessageArrival id s
  | .builtinStore id => Sys2Proof.Machine.execBuiltinStore id s
  | .builtinLoad id => Sys2Proof.Machine.execBuiltinLoad id s
  | .builtinAtomic id => Sys2Proof.Machine.execBuiltinAtomic id s
  | .builtinPost id => Sys2Proof.Machine.execBuiltinPost id s
  | .builtinDecr id => Sys2Proof.Machine.execBuiltinDecr id s
  | .sendAck id => Sys2Proof.Machine.execSendAck id s
  | .mcstStamp id => Sys2Proof.Machine.execMcstStamp id s
  | .mcstStampReturn id => Sys2Proof.Machine.execMcstStampReturn id s
  | .multicastStoreArrival id => Sys2Proof.Machine.execMulticastStoreArrival id s
  | .gapplyReport group member gapply => Sys2Proof.Machine.execGapplyReport group member gapply s
  | .sluiceGReport group => Sys2Proof.Machine.execSluiceGReport group s
  | .resendRequest group => Sys2Proof.Machine.execResendRequest group s
  | .memberLoss group member => Sys2Proof.Machine.execMemberLoss group member s
  | .sequencerFailover group first others => Sys2Proof.Machine.execSequencerFailover group first others s
  | .operationTimeout id => Sys2Proof.Machine.execOperationTimeout id s
  | .meshFlitResend position port resends => Sys2Proof.Machine.execMeshFlitResend position port resends s
  | .delmelFrameReceive port vc crcOk packets => Sys2Proof.Machine.execDelmelFrameReceive port vc crcOk packets s
  | .portRetrain port healthyLanes reserve => Sys2Proof.Machine.execPortRetrain port healthyLanes reserve s
  | .regionRestitch region linksUp => Sys2Proof.Machine.execRegionRestitch region linksUp s
  | .qstatusWrite vf q v => Sys2Proof.Machine.execQstatusWrite vf q v s
  | .tsliceWrite vf v => Sys2Proof.Machine.execTsliceWrite vf v s
  | .pwrcapWrite v => Sys2Proof.Machine.execPwrcapWrite v s
  | .pwgtWrite vf hi v => Sys2Proof.Machine.execPwgtWrite vf hi v s
  | .registerWrite fn off v => Sys2Proof.Machine.execRegisterWrite fn off v s
  | .mboxAssign desc => Sys2Proof.Machine.execMboxAssign desc s
  | .mboxFree vf => Sys2Proof.Machine.execMboxFree vf s
  | .mboxShare cluster vfs => Sys2Proof.Machine.execMboxShare cluster vfs s
  | .mboxPart p => Sys2Proof.Machine.execMboxPart p s
  | .mboxLife first => Sys2Proof.Machine.execMboxLife first s
  | .configWrite vf changesVf => Sys2Proof.Machine.execConfigWrite vf changesVf s
  | .bar2UnprotectedRequest vf isWrite => Sys2Proof.Machine.execBar2UnprotectedRequest vf isWrite s
  | .getVersion fn => Sys2Proof.Machine.execGetVersion fn s
  | .getCapabilities fn => Sys2Proof.Machine.execGetCapabilities fn s
  | .negotiateAlgorithms fn supported => Sys2Proof.Machine.execNegotiateAlgorithms fn supported s
  | .getDigests fn => Sys2Proof.Machine.execGetDigests fn s
  | .getCertificate fn => Sys2Proof.Machine.execGetCertificate fn s
  | .challenge fn => Sys2Proof.Machine.execChallenge fn s
  | .getMeasurements fn index => Sys2Proof.Machine.execGetMeasurements fn index s
  | .keyExchange fn unsupported => Sys2Proof.Machine.execKeyExchange fn unsupported s
  | .finish fn => Sys2Proof.Machine.execFinish fn s
  | .keyUpdate fn => Sys2Proof.Machine.execKeyUpdate fn s
  | .endSession fn => Sys2Proof.Machine.execEndSession fn s
  | .vendorDefinedRequest asked nonce base len => Sys2Proof.Machine.execVendorDefinedRequest asked nonce base len s
  | .securedMessage fn authentic => Sys2Proof.Machine.execSecuredMessage fn authentic s
  | .lockInterface vf => Sys2Proof.Machine.execLockInterface vf s
  | .ideKm vf session => Sys2Proof.Machine.execIdeKm vf session s
  | .coldReset b => Sys2Proof.Machine.execColdReset b s
  | .warmReset b => Sys2Proof.Machine.execWarmReset b s
  | .recoveryImagePush img => Sys2Proof.Machine.execRecoveryImagePush img s
  | .scrubChunkComplete => Sys2Proof.Machine.execScrubChunkComplete s
  | .patrolRead addr found => Sys2Proof.Machine.execPatrolRead addr found s
  | .keyIntegrityCheck slot fails => Sys2Proof.Machine.execKeyIntegrityCheck slot fails s
  | .lifetimeHourTick celsius watts => Sys2Proof.Machine.execLifetimeHourTick celsius watts s
  | .illegalInstruction w => Sys2Proof.Machine.execIllegalInstruction w s
  | .fetchFault code tval => Sys2Proof.Machine.execFetchFault code tval s
  | .tdispStartInterface vf => Sys2Proof.Machine.execTdispStartInterface vf s

end Sys2Proof.Machine
end

