-- ==== Sys2Proof/Machine/Choice.lean ====
section
/-! DEFINITION. The turns that the machine takes when no agenda says otherwise (R22, DESIGN CHOICE, log 2), and the plan of the next turn. -/

namespace Sys2Proof.Machine

open Host

/-- Would a turn of the slot do anything? A word that has to wait leaves the machine as it is, but for the note of what it waits for. -/
def State.canIssue (s : State) (r : SlotRef) : Bool :=
  match s.planSlot r with
  | (.over, t) => t != s
  | (.event _, _) => true
  | (.word i, t) => match exec i t with
    | .next u => (u.modSlot r fun x => { x with waits := (t.slot r).waits }) != t
    | _ => true

/-- Is another slot of the core ready to issue (R22)? -/
def State.readySlot (s : State) (core n : Nat) : Bool := s.mayTurn ⟨core, n⟩ && s.canIssue ⟨core, n⟩

/-- The slot that a core's integer pipeline chooses from its ready slots (R22): one that has not issued for 12 cycles, so that none waits for more than
16 (DESIGN CHOICE, log 2), else the highest priority, and among equals the first after the one of that priority that issued last. -/
def Core.choose (c : Core) (now : Nat) (ready : List Nat) : Option Nat :=
  match ready.find? fun n => decide (c.issuedAt.get now n + 12 ≤ now) with
  | some n => some n
  | none =>
    let top := (ready.map fun n => stPrio (c.slot n).st).foldl Nat.max 0
    let best := ready.filter fun n => stPrio (c.slot n).st == top
    ((List.range 4).map fun i => (c.last.get 3 top + 1 + i) % 4).find? fun n => best.contains n

/-- The slot whose turn it is: one that has executed YIELD forgoes this turn to another (R218). -/
def Core.turnOf (c : Core) (now : Nat) (ready : List Nat) : Option Nat :=
  match c.choose now ready with
  | none => none
  | some n => if (c.slot n).yielded then (c.choose now (ready.filter fun m => m != n)).or (some n) else some n

/-- Notes which slots of a core were not ready, since when the others wait (R22), and that a slot which yielded has forgone its turn (R218). -/
def Core.turned (c : Core) (now : Nat) (ready : List Nat) : Core :=
  let since := (List.range 4).filterMap fun n => if ready.contains n then some (n, c.issuedAt.get now n) else none
  { c with issuedAt := since
           slots := match c.choose now ready with
             | some n => if c.turnOf now ready = some n then c.slots else (c.setSlot n { c.slot n with yielded := false }).slots
             | none => c.slots }

/-- The slot that a core's integer pipeline chooses (R22). -/
def State.pickSlot (s : State) (core : Nat) : Option SlotRef :=
  ((s.core core).turnOf s.cycle ((List.range 4).filter (s.readySlot core))).map fun n => ⟨core, n⟩

/-- The turn of a slot that an agenda names: its core takes it when no other ready slot goes first (R22). -/
def State.planIssue (s : State) (r : SlotRef) : Todo × State :=
  let ready := (List.range 4).filter fun n => n == r.slot || s.readySlot r.core n
  if (s.core r.core).turnOf s.cycle ready = some r.slot then (s.modCore r.core fun c => c.turned s.cycle ready).planSlot r else (.over, s)

/-! ## Cycles that pass -/

/-- At the end of a cycle in which a core has not issued: since when each of its ready slots waits (R22). -/
def State.noteReady (s : State) : State :=
  { s with cores := s.cores.map fun c => (c.1, if c.2.issued == some s.cycle then c.2 else
      { c.2 with issuedAt := (List.range 4).filterMap fun n => if s.readySlot c.1 n then some (n, c.2.issuedAt.get s.cycle n) else none }) }

/-- A slot that has to issue before the cycle can end: the choice of a core that has not issued and on which a ready slot waits since 12 cycles, so
that each of the four is chosen within 16 (R22). -/
def State.overdue (s : State) : Option SlotRef :=
  (s.cores.filterMap fun c =>
    let k := s.core c.1
    if k.issued == some s.cycle || !(List.range 4).any (fun n => decide (k.issuedAt.get s.cycle n + 12 ≤ s.cycle) && s.readySlot c.1 n) then none
    else s.pickSlot c.1).head?

/-- `n` cycles that the agenda lets pass: one of them, unless a slot has to issue first. -/
def State.planTick (s : State) (ts : List Turn) : Nat → Todo × State
  | 0 => (.over, { s with agenda := ts })
  | n + 1 => match s.overdue with
    | some r => ({ s with view := [0], part := 0 } : State).planIssue r
    | none => (.over, { s.noteReady.tick 1 with agenda := if n = 0 then ts else .tick n :: ts })

/-! ## The next turn -/

/-- With no agenda the machine takes turns of its own, round after round: each event that may have come due, one issue of each core, and
a cycle. -/
def State.planIdle (s : State) : Todo × State :=
  let evs := s.events
  let s1 : State := { s with rota := s.rota + 1, view := [0], part := 0 }
  match evs[s.rota]? with
  | some f => (.event f, s1)
  | none =>
    match s.cores[s.rota - evs.length]? with
    | some c =>
      (match s1.pickSlot c.1 with
        | some r => s1.planIssue r
        | none => (.over, s1))
    | none => (.over, ({ s with rota := 0 } : State).noteReady.tick 1)

/-- An event that an agenda names: those of the opcode table that no slot executes as a word. -/
def State.planEvent (s : State) (i : Instr) : Todo × State := if isEvent i then (.word i, s) else (.over, s)

/-- The turn that comes next: what is executed, and on which machine; or the next machine. -/
def State.plan (s : State) : Todo × State :=
  match s.agenda with
  | [] => s.planIdle
  | .issue r :: ts => ({ s with agenda := ts, view := [0], part := 0 } : State).planIssue r
  | .issueAt r v :: ts => ({ s with agenda := ts, view := v, part := 0 } : State).planIssue r
  | .event i :: ts => ({ s with agenda := ts, view := [0], part := 0 } : State).planEvent i
  | .eventAt i v p :: ts => ({ s with agenda := ts, view := v, part := p } : State).planEvent i
  | .tick n :: ts => s.planTick ts n

end Sys2Proof.Machine
end

