-- ==== Sys2Proof/Machine/Step.lean ====
section
/-! DEFINITION. One step of the machine: one turn (DESIGN CHOICE, log 2). -/

namespace Sys2Proof.Machine

/-- One turn. A part in recovery stops (R206). -/
def step (s : State) : Host.Outcome State Fault Refusal :=
  if s.stuck then .fault .recovery
  else match s.plan with
    | (.word i, t) => exec i t
    | (.event f, t) => f t
    | (.over, t) => .next t

/-- The machine with a word stored where the next step fetches, and that slot next on the agenda (DESIGN CHOICE, log 1). Every instruction is one 32-bit
word (R210). -/
def State.withFetchWord (s : State) (_nbits w : Nat) : State :=
  { (s.placeWord s.cur (BitVec.ofNat 32 w)).modCore s.cur.core fun c => { c with issued := none } with agenda := [.issue s.cur] }

end Sys2Proof.Machine
end

