-- ==== Sys2Proof/Safety.lean ====
section
/-! DEFINITION. What counts as a safe run, and the terms in which the claims say what an instruction needs and what it leaves as it was. -/

namespace Sys2Proof.Machine

/-- A step that goes on: it neither faults nor refuses. -/
def State.goesOn (s : State) : Prop := ∃ t, step s = .next t

/-- The invariant of the machine's storage: memory stands in its canonical form. -/
def State.memOk (s : State) : Prop := Memory.wf s.mem = true

/-! ## What an instruction needs -/

/-- The issuing slot exists, its sources are full, and no result for its destinations is outstanding (R219, R220). -/
structure State.Ready (s : State) (src dst : List Reg) : Prop where
  slot : s.cur.slot < 4
  full : ∀ r ∈ src, s.sl.isFull r = true
  free : ∀ d ∈ dst, s.producing s.cur d = false

/-- Every page of a save area, on the chip every bank of it, passes its checks and lies in stack memory or cluster scratch (R310, R350, R367). -/
def State.AreaOk (s : State) (acc : Acc) : Nat → Word → Nat → Prop
  | 0, _, _ => True
  | f + 1, va, n =>
    let m := if bit va 56 then Nat.min n (8192 - va.toNat % 8192) else Nat.min n (4096 - va.toNat % 4096)
    n = 0 ∨ ∃ key, s.check s.cur acc va m 1 = .ok key ∧ (inScr key = true ∨ s.place key = .stack) ∧ s.AreaOk acc f (va + wd m) (n - m)

/-! ## What an instruction leaves as it was -/

/-- Slot `y` is slot `x` after an instruction that retires and goes to `pc`. Of the registers only those in `ds` may differ, in value or in
full bit; the flags, FRM, AMAX, WDEF, the trap registers, the message registers and every other part of the slot stand. -/
structure Slot.Retires (x y : Slot) (ds : List Reg) (pc : Word) : Prop where
  pc : y.pc = pc
  count : y.retired = x.retired + 1#64
  regs : ∀ r, r ∉ ds → y.rd r = x.rd r ∧ y.isFull r = x.isFull r
  armed : y.stepDue = (x.stepDue || x.armed) ∧ y.armed = false
  rest : y = { x with s := y.s, full := y.full, regRel := y.regRel, pc := y.pc, retired := y.retired, stepDue := y.stepDue,
                      armed := y.armed, walk := y.walk, yielded := y.yielded, waits := y.waits, latch := y.latch }

/-- Machine `t` is machine `s` after an instruction that only computes: the issuing slot retires, every byte of memory reads as before, and
no part of the machine differs but that slot and what its strand acquired with values it had waited for (R94). -/
structure State.Computes (s t : State) (ds : List Reg) (pc : Word) : Prop where
  slot : s.sl.Retires t.sl ds pc
  memory : ∀ a, Memory.get t.mem a = Memory.get s.mem a
  machine : ∃ ps, t = { s.setSlot s.cur t.sl with parties := ps }

/-- Machine `t` is machine `s` after an instruction that sends an operation on its way (R219): the issuing slot retires with the registers
`ds` empty (s0 never is), the operation is added as a flight of the slot, every byte of memory reads as before, and no part of the machine
differs but the slot, the flights, the number given to the new one and the count of packets that the core has sent (R175). -/
structure State.Starts (s t : State) (ds : List Reg) (act : Act) : Prop where
  slot : s.sl.Retires t.sl ds (s.sl.pc + 4#64)
  empty : ∀ d ∈ ds, t.sl.isFull d = (d == 0#5)
  flight : ∃ f, t.flights = s.flights ++ [f] ∧ f.id = s.fresh ∧ f.who = s.cur ∧ f.party = s.sl.party ∧ f.ten = s.sl.ten ∧
    f.level = s.sl.level ∧ f.act = act ∧ f.ready = true
  memory : ∀ a, Memory.get t.mem a = Memory.get s.mem a
  machine : ∃ n, t = { (s.modCore s.cur.core fun c => { c with sent := n }).setSlot s.cur t.sl with
    flights := t.flights, fresh := s.fresh + 1 }

/-- Machine `t` is machine `s` after a word entered the vector sequencer (R162): the issuing slot retires with its scalar destinations `ds`
empty, the word stands at the end of the sequencer with the scalars, the FRM and the number it captured, every byte of memory reads as before,
and no part of the machine differs but the slot, the sequencer and the number given to the entry. -/
structure State.Enters (s t : State) (i : Instr) (scal : List Word) (ds : List Reg) : Prop where
  slot : s.sl.Retires t.sl ds (s.sl.pc + 4#64)
  empty : ∀ d ∈ ds, t.sl.isFull d = (d == 0#5)
  entry : ∃ e, (t.core s.cur.core).seq = (s.core s.cur.core).seq ++ [.one e] ∧ e.slot = s.cur.slot ∧ e.party = s.sl.party ∧
    e.instr = i ∧ e.word = s.ir ∧ e.scal = scal ∧ e.id = s.fresh ∧ e.ea = none ∧
    e.frm = (if s.sl.frm = 0#2 then .rne else if s.sl.frm = 1#2 then .rtz else if s.sl.frm = 2#2 then .rdn else .rup)
  memory : ∀ a, Memory.get t.mem a = Memory.get s.mem a
  machine : ∃ q, t = { (s.modCore s.cur.core fun c => { c with seq := q }).setSlot s.cur t.sl with fresh := s.fresh + 1 }

/-- The issuing slot of `s` retires in `t` with an answer on its way to `d`, which is empty until then (R219). -/
structure State.Answers (s t : State) (d : Reg) (v : Word) : Prop where
  slot : s.sl.Retires t.sl [d] (s.sl.pc + 4#64)
  empty : t.sl.isFull d = (d == 0#5)
  flight : ∃ f ∈ t.flights, f.who = s.cur ∧ f.party = s.sl.party ∧ f.act = .result (.reg d) (v.setWidth 256) none []

/-- Register `d` holds `v` and is full; s0 holds 0. -/
def Slot.Holds (x : Slot) (d : Reg) (v : Word) : Prop := x.rd d = (if d = 0#5 then 0#64 else v) ∧ x.isFull d = true

/-- The word after the one at the slot's PC (R210). -/
def Slot.after (x : Slot) : Word := x.pc + 4#64

/-! ## Storage as it stands -/

/-- The little-endian number in the `n` bytes from address `k` on (R2). -/
def State.num (s : State) (k n : Nat) : Nat := leNat ((List.range n).map fun j => Memory.get s.mem (k + j))

/-- Every byte of memory but the `n` from address `k` on reads in `t` as in `s`. -/
def State.onlyAt (s t : State) (k n : Nat) : Prop := ∀ a, a < k ∨ k + n ≤ a → Memory.get t.mem a = Memory.get s.mem a

/-- What the machine has room for is not exceeded: a run list has eight banks of at most 256 entries (R34, R157), and a core has at most two
shadow task slots in use, counting those that wait for the copy of a packet (R32). -/
structure State.Capacities (s : State) : Prop where
  banks : ∀ c ∈ s.clusters, c.2.banks.length = 8 ∧ ∀ b ∈ c.2.banks, b.length ≤ 256
  tasks : ∀ c ∈ s.cores, c.2.tasks.length + c.2.falls.length ≤ 2

/-! ## Operations on their way and strands that begin -/

/-- The flight `f` has reached the atomic unit of a counter cell that it may use now: it is due and its turn at the cell has come (R60), the cell is
lawful and where it was, its bank is Full, and nothing is poisoned. -/
structure State.AtCell (s : State) (f : Flight) (cell : Word) : Prop where
  mem : s.memOk
  found : s.flight? f.id = some f
  due : s.performable f = true
  turn : f.reached.isSome = true ∧ ∀ l, s.locationOf f = some l → s.itsTurn f l = true
  lawful : s.cellFault f.ten cell = none
  stays : ∀ c ∈ [f.who.core, f.from?], s.barredAt c cell.toNat = false ∧ s.forwardOf c cell.toNat = none
  full : (s.core (chipOf cell.toNat).core).bank (16 + (chipOf cell.toNat).off / 0x2000) = 2
  clean : s.poison = []

/-- Every byte of memory from `k` on for `n` bytes is held by no write that a read could still miss (R80). -/
def State.settled (s : State) (k n : Nat) : Prop := ∀ w ∈ s.writes, w.touches k n = false

/-- The flight `f` has been answered with `v`: its result is on its way to its destination, or it is over when it has none. -/
def State.Answered (t : State) (f : Flight) (v : Word) : Prop :=
  if f.act.dest = .none then t.flight? f.id = none
  else ∃ h o, t.flight? f.id = some { f with act := .result f.act.dest (v.setWidth 256) none [], hop := h, owed := o }

/-- A strand of tenant `tn` has begun in a slot of `core` at `start` with s1 to s6 holding `vals` (R25): every register is full, the flags are clear,
and the level is U, or M for firmware on a monitor core. -/
structure Slot.Begins (y : Slot) (core : Nat) (start : Word) (tn : Nat) (vals : List Word) : Prop where
  occ : y.occ ≠ .free
  pc : y.pc = wd (fld start 56 2 * 4)
  ten : y.ten = tn
  level : y.level = if tn = 0 ∧ coreKind core = .monitor then .m else .u
  full : ∀ r, y.isFull r = true
  regs : ∀ i < 6, y.rd (BitVec.ofNat 5 (i + 1)) = wordAt vals i
  clear : y.frm = 0#2 ∧ y.fflags = 0#7 ∧ y.amax = 0#31 ∧ y.wdef = false

/-- Two entries are the same but for their stamps. -/
def RunEntry.sameWork (a b : RunEntry) : Prop := { a with stamp := 0 } = { b with stamp := 0 }

/-- The work of entry `e` stands in the run list of cluster `cl`, or waits there for room (R157, R390). -/
def State.Listed (t : State) (cl : Nat) (e : RunEntry) : Prop :=
  ∃ x, (x ∈ (t.cluster cl).entries ∨ x ∈ (t.cluster cl).overflow) ∧ x.sameWork e

/-! ## Numbers -/

/-- The magnitude of a pattern of a float format in units of its smallest subnormal (R115); the pattern of infinity has that of the next power of
two (R122). -/
def Fmt.ulps (f : Fmt) (c : Nat) : Nat :=
  if c / 2 ^ f.fw = 0 then c else (2 ^ f.fw + c % 2 ^ f.fw) * 2 ^ (c / 2 ^ f.fw - 1)

/-- The signed value of a finite pattern in the same units. -/
def Fmt.units (f : Fmt) (c : Nat) : Int :=
  if f.signBit ≤ c then -(f.ulps (c - f.signBit) : Int) else f.ulps c

/-- The pattern `c` is the value `n / d`, in those units, rounded once in mode `rm` (R121): it has the sign of `n`, and its magnitude is the neighbour
that the mode names, the even one of two that are equally near. -/
def Fmt.Rounds (f : Fmt) (rm : RMode) (n : Int) (d c : Nat) : Prop :=
  let g := c % f.signBit
  let v := fun k => f.ulps k * d
  let a := n.natAbs
  let down := v g ≤ a ∧ a < v (g + 1)
  let up := a ≤ v g ∧ v (g - 1) < a
  c = g + (if n < 0 then f.signBit else 0) ∧ g < f.infCode ∧
  match rm with
  | .rne => 2 * a ≤ v g + v (g + 1) ∧ (g = 0 ∨ v (g - 1) + v g ≤ 2 * a) ∧
      (2 * a = v g + v (g + 1) ∨ (0 < g ∧ 2 * a = v (g - 1) + v g) → g % 2 = 0)
  | .rtz => down
  | .rdn => if n < 0 then up else down
  | .rup => if n < 0 then down else up

end Sys2Proof.Machine
end

