-- ==== Sys2Proof/Certificates/Slice0/Obligations.lean ====
section
/-! DEFINITION. The statements about this machine, each formalising rules of the manual (OBLIGATIONS.json). -/

open Sys2Proof Sys2Proof.Machine

/-! ## Scalar arithmetic -/

/-- R233, R234, R237: ADD, SUB and ADDI write the sum or difference, wrapped to 64 bits; a .w form wraps to 32 bits and sign-extends. The
instruction completes in one cycle and changes nothing but d. R233, R234: CLZ and CTZ count the zeros above the highest and below the lowest one bit
of the 64 or 32 low bits, the width for zero; POPC counts the one bits. -/
def Obligations.ArithmeticAndBitCounts : Prop :=
  (∀ (s : State) (d a b : Reg) (wa wb w : Bool) (i : BitVec 16),
      (s.Ready [a, b] [d] →
        (∃ t v, exec (.add d a b wa wb w) s = .next t ∧ s.Computes t [d] s.sl.after ∧ t.sl.Holds d v ∧
          v.toInt = Int.bmod ((s.sl.rd a).toInt + (s.sl.rd b).toInt) (2 ^ (if w then 32 else 64))) ∧
        (∃ t v, exec (.sub d a b wa wb w) s = .next t ∧ s.Computes t [d] s.sl.after ∧ t.sl.Holds d v ∧
          v.toInt = Int.bmod ((s.sl.rd a).toInt - (s.sl.rd b).toInt) (2 ^ (if w then 32 else 64)))) ∧
      (s.Ready [a] [d] →
        ∃ t v, exec (.addi d a i) s = .next t ∧ s.Computes t [d] s.sl.after ∧ t.sl.Holds d v ∧
          v.toInt = Int.bmod ((s.sl.rd a).toInt + i.toInt) (2 ^ 64))) ∧
  (∀ (s : State) (d a : Reg) (wa w : Bool), s.Ready [a] [d] →
      let n := if w then 32 else 64
      let x := s.sl.rd a
      (∃ t v, exec (.clz d a wa w) s = .next t ∧ s.Computes t [d] s.sl.after ∧ t.sl.Holds d v ∧ v.toNat ≤ n ∧
        (∀ j, n - v.toNat ≤ j → j < n → x.getLsbD j = false) ∧ (v.toNat < n → x.getLsbD (n - 1 - v.toNat) = true)) ∧
      (∃ t v, exec (.ctz d a wa w) s = .next t ∧ s.Computes t [d] s.sl.after ∧ t.sl.Holds d v ∧ v.toNat ≤ n ∧
        (∀ j, j < v.toNat → x.getLsbD j = false) ∧ (v.toNat < n → x.getLsbD v.toNat = true)) ∧
      (∃ t v, exec (.popc d a wa w) s = .next t ∧ s.Computes t [d] s.sl.after ∧ t.sl.Holds d v ∧
        v.toNat = ((Finset.range n).filter fun j => x.getLsbD j = true).card))

/-- R233, R237: the logical operations act bit by bit; an immediate is zero-extended. R233, R237: comparisons give 1 or 0, and minimum and maximum
give the lesser or the greater, signed or unsigned. -/
def Obligations.LogicAndOrder : Prop :=
  (∀ (s : State) (d a b : Reg) (wa wb : Bool) (i : BitVec 16),
      let both (x : Instr) (f : Bool → Bool → Bool) : Prop :=
        ∃ t v, exec x s = .next t ∧ s.Computes t [d] s.sl.after ∧ t.sl.Holds d v ∧
          ∀ n < 64, v.getLsbD n = f ((s.sl.rd a).getLsbD n) ((s.sl.rd b).getLsbD n)
      let imm (x : Instr) (f : Bool → Bool → Bool) : Prop :=
        ∃ t v, exec x s = .next t ∧ s.Computes t [d] s.sl.after ∧ t.sl.Holds d v ∧
          ∀ n < 64, v.getLsbD n = f ((s.sl.rd a).getLsbD n) (i.getLsbD n)
      (s.Ready [a, b] [d] →
        both (.and d a b wa wb) (fun x y => x && y) ∧ both (.or d a b wa wb) (fun x y => x || y) ∧
        both (.xor d a b wa wb) (fun x y => x != y) ∧ both (.andn d a b wa wb) (fun x y => x && !y) ∧
        both (.orn d a b wa wb) (fun x y => x || !y)) ∧
      (s.Ready [a] [d] →
        imm (.andi d a i) (fun x y => x && y) ∧ imm (.ori d a i) (fun x y => x || y) ∧ imm (.xori d a i) (fun x y => x != y))) ∧
  (∀ (s : State) (d a b : Reg) (wa wb : Bool) (i : BitVec 16),
      let gives (x : Instr) (v : Word) : Prop :=
        ∃ t, exec x s = .next t ∧ s.Computes t [d] s.sl.after ∧ t.sl.Holds d v
      let x := s.sl.rd a
      let y := s.sl.rd b
      (s.Ready [a, b] [d] →
        gives (.slt d a b wa wb) (if x.toInt < y.toInt then 1#64 else 0#64) ∧
        gives (.sltu d a b wa wb) (if x.toNat < y.toNat then 1#64 else 0#64) ∧
        gives (.min d a b wa wb) (BitVec.ofInt 64 (Min.min x.toInt y.toInt)) ∧
        gives (.max d a b wa wb) (BitVec.ofInt 64 (Max.max x.toInt y.toInt)) ∧
        gives (.minu d a b wa wb) (BitVec.ofNat 64 (Min.min x.toNat y.toNat)) ∧
        gives (.maxu d a b wa wb) (BitVec.ofNat 64 (Max.max x.toNat y.toNat))) ∧
      (s.Ready [a] [d] →
        gives (.slti d a i) (if x.toInt < i.toInt then 1#64 else 0#64) ∧
        gives (.sltiu d a i) (if x.toNat < (BitVec.ofInt 64 i.toInt).toNat then 1#64 else 0#64)))

/-- R233, R234, R238: shifts and rotates by the amount modulo the width n, 64 or 32; bit j of the n-bit result stands in bit j of d, and bits from n
on repeat bit n - 1. R236: SEXT, BEXT and BINS take position and length from y; BINS reads d as a third source. R239, R240: LUI, LUH and ADPC build
constants and page addresses. R257: WID takes a field of WORKID: field i begins at the sum of the widths below it and has at most 64 bits; an index
from 6 on and a field above bit 63 give 0. -/
def Obligations.ShiftsFieldsAndConstants : Prop :=
  (∀ (s : State) (d a b : Reg) (wa wb w : Bool) (m : BitVec 6),
      let n := if w then 32 else 64
      let puts (x : Instr) (k : Nat) (f : (Nat → Bool) → Nat → Nat → Bool) : Prop :=
        ∃ t v, exec x s = .next t ∧ s.Computes t [d] s.sl.after ∧ t.sl.Holds d v ∧
          ∀ i < 64, v.getLsbD i = f (s.sl.rd a).getLsbD (k % n) (Nat.min i (n - 1))
      let left : (Nat → Bool) → Nat → Nat → Bool := fun x k j => decide (k ≤ j) && x (j - k)
      let right : (Nat → Bool) → Nat → Nat → Bool := fun x k j => decide (j + k < n) && x (j + k)
      let arith : (Nat → Bool) → Nat → Nat → Bool := fun x k j => x (Nat.min (j + k) (n - 1))
      let rotl : (Nat → Bool) → Nat → Nat → Bool := fun x k j => x ((j + n - k) % n)
      let rotr : (Nat → Bool) → Nat → Nat → Bool := fun x k j => x ((j + k) % n)
      (s.Ready [a, b] [d] →
        let k := (s.sl.rd b).toNat
        puts (.sll d a b wa wb w) k left ∧ puts (.srl d a b wa wb w) k right ∧ puts (.sra d a b wa wb w) k arith ∧
        puts (.rol d a b wa wb w) k rotl ∧ puts (.ror d a b wa wb w) k rotr) ∧
      (s.Ready [a] [d] →
        puts (.slli d a w m) m.toNat left ∧ puts (.srli d a w m) m.toNat right ∧ puts (.srai d a w m) m.toNat arith ∧
        puts (.rori d a w m) m.toNat rotr)) ∧
  ((∀ (s : State) (d a b : Reg) (wa wb : Bool),
        let pos := (s.sl.rd b).toNat % 64
        let len := (s.sl.rd b).toNat / 256 % 64 + 1
        (s.Ready [a, b] [d] →
          (∃ t v, exec (.sext d a b wa wb) s = .next t ∧ s.Computes t [d] s.sl.after ∧ t.sl.Holds d v ∧
            ∀ i < 64, v.getLsbD i = (s.sl.rd a).getLsbD (Nat.min i pos)) ∧
          (∃ t v, exec (.bext d a b wa wb) s = .next t ∧ s.Computes t [d] s.sl.after ∧ t.sl.Holds d v ∧
            ∀ i < 64, v.getLsbD i = (decide (i < len) && (s.sl.rd a).getLsbD (pos + i)))) ∧
        (s.Ready [a, b, d] [d] →
          ∃ t v, exec (.bins d a b wa wb) s = .next t ∧ s.Computes t [d] s.sl.after ∧ t.sl.Holds d v ∧
            ∀ i < 64, v.getLsbD i =
              if pos ≤ i ∧ i < pos + len then (s.sl.rd a).getLsbD (i - pos) else (s.sl.rd d).getLsbD i)) ∧
    (∀ (s : State) (d : Reg) (i : BitVec 21),
        (s.Ready [] [d] →
          (∃ t v, exec (.lui d i) s = .next t ∧ s.Computes t [d] s.sl.after ∧ t.sl.Holds d v ∧ v.toInt = i.toInt * 2 ^ 16) ∧
          (∃ t v, exec (.adpc d i) s = .next t ∧ s.Computes t [d] s.sl.after ∧ t.sl.Holds d v ∧
            v = BitVec.ofInt 64 ((s.sl.pc.toNat / 4096 * 4096 : Nat) + i.toInt * 4096))) ∧
        (s.Ready [d] [d] →
          ∃ t v, exec (.luh d i) s = .next t ∧ s.Computes t [d] s.sl.after ∧ t.sl.Holds d v ∧
            (∀ n < 37, v.getLsbD n = (s.sl.rd d).getLsbD n) ∧
            ∀ n, 37 ≤ n → n < 64 → v.getLsbD n = i.getLsbD (Nat.min (n - 37) 20))) ∧
    (∀ (s : State) (d a b : Reg) (wa wb : Bool), coreKind s.cur.core ≠ .monitor → s.Ready [a, b] [d] →
        let f := s.sl.rd a
        let i := (s.sl.rd b).toNat
        let width (j : Nat) : Nat := f.toNat / 2 ^ (8 * j) % 256
        let off := ((List.range i).map width).sum
        ∃ t v, exec (.wid d a b wa wb) s = .next t ∧ s.Computes t [d] s.sl.after ∧ t.sl.Holds d v ∧
          v.toNat = if 6 ≤ i ∨ 64 ≤ off then 0 else s.sl.workid.toNat / 2 ^ off % 2 ^ (Min.min (width i) 64)))

/-- R213, R241: a branch goes to PC + 4 × disp when its condition holds and to PC + 4 when it does not, and writes no register. R213, R242, R243,
R351: the jumps; JAL and JALR leave PC + 4 in the link register, the target being read first; a target of JR or JALR with bits 1:0 not zero traps
with 0x05 and the target in TVAL. -/
def Obligations.BranchesAndJumps : Prop :=
  (∀ (s : State) (a b : Reg) (i : BitVec 16), s.Ready [a, b] [] →
      let goes (x : Instr) (c : Prop) : Prop :=
        ∃ t pc, exec x s = .next t ∧ s.Computes t [] pc ∧
          (c → pc = s.sl.pc + BitVec.ofInt 64 (4 * i.toInt)) ∧ (¬ c → pc = s.sl.pc + 4#64)
      let x := s.sl.rd a
      let y := s.sl.rd b
      goes (.beq a b i) (x = y) ∧ goes (.bne a b i) (x ≠ y) ∧ goes (.blt a b i) (x.toInt < y.toInt) ∧
      goes (.bge a b i) (y.toInt ≤ x.toInt) ∧ goes (.bltu a b i) (x.toNat < y.toNat) ∧ goes (.bgeu a b i) (y.toNat ≤ x.toNat)) ∧
  (∀ (s : State) (d a : Reg) (i : BitVec 26) (o : BitVec 14),
      (s.cur.slot < 4 → ∃ t, exec (.j i) s = .next t ∧ s.Computes t [] (s.sl.pc + BitVec.ofInt 64 (4 * i.toInt))) ∧
      (s.Ready [] [31#5] →
        ∃ t, exec (.jal i) s = .next t ∧ s.Computes t [31#5] (s.sl.pc + BitVec.ofInt 64 (4 * i.toInt)) ∧
          t.sl.Holds 31#5 (s.sl.pc + 4#64)) ∧
      (let target := s.sl.rd a + BitVec.ofInt 64 (4 * o.toInt)
       (target.toNat % 4 = 0 → s.Ready [a] [] → ∃ t, exec (.jr a o) s = .next t ∧ s.Computes t [] target) ∧
       (target.toNat % 4 = 0 → s.Ready [a] [d] →
          ∃ t, exec (.jalr d a o) s = .next t ∧ s.Computes t [d] target ∧ t.sl.Holds d (s.sl.pc + 4#64)) ∧
       (target.toNat % 4 ≠ 0 → s.Ready [a] [d] → s.sl.waits = 0#32 →
          exec (.jr a o) s = .next (s.trap 5 target) ∧ exec (.jalr d a o) s = .next (s.trap 5 target))))

/-! ## Producers, traps and control registers -/

/-- R219, R233, R234, R235: MUL, MULH, MULHU and the divisions are producers: d is empty until the result lands. Products wrap, quotients round
toward zero, and division by zero gives all ones and leaves the dividend as remainder. R219, R220: a result that lands writes its register and sets
it full, or is dropped when its strand has left the slot; either way the operation is over, and no other slot and no byte of memory changes. -/
def Obligations.ResultsAreProducedAndLand : Prop :=
  (∀ (s : State) (d a b : Reg) (wa wb w : Bool), s.Ready [a, b] [d] →
      let s1 := s.consume [(a, wa), (b, wb)]
      let sends (i : Instr) (p : Word → Prop) : Prop :=
        ∃ t v, exec i s = .next t ∧ s1.Starts t [d] (.result (.reg d) (v.setWidth 256) none []) ∧ p v
      let x := (s.sl.rd a).toInt
      let y := (s.sl.rd b).toInt
      let n := if w then 2 ^ 32 else 2 ^ 64
      let xs := x.bmod n
      let ys := y.bmod n
      let xu := (s.sl.rd a).toNat % n
      let yu := (s.sl.rd b).toNat % n
      sends (.mul d a b wa wb w) (fun v => v.toInt = (x * y).bmod n) ∧
      sends (.mulh d a b wa wb) (fun v => v.toInt = x * y / 2 ^ 64) ∧
      sends (.mulhu d a b wa wb) (fun v => v.toNat = (s.sl.rd a).toNat * (s.sl.rd b).toNat / 2 ^ 64) ∧
      sends (.div d a b wa wb w) (fun v => v.toInt = if ys = 0 then -1 else (xs.tdiv ys).bmod n) ∧
      sends (.divu d a b wa wb w) (fun v => v.toInt = if yu = 0 then -1 else ((xu / yu : Nat) : Int).bmod n) ∧
      sends (.rem d a b wa wb w) (fun v => v.toInt = xs.tmod ys) ∧
      sends (.remu d a b wa wb w) (fun v => v.toInt = ((xu % yu : Nat) : Int).bmod n)) ∧
  (∀ (s : State) (f : Flight) (d : Reg) (v : Row) (p : Option Nat) (acq : List Nat),
      s.flight? f.id = some f → f.act = .result (.reg d) v p acq → f.seep = none → f.hop = none → f.who.slot < 4 →
      ∃ t, exec (.resultLands f.id) s = .next t ∧ t.flights = s.flights.filter (fun g => g.id != f.id) ∧
        (s.holds f.who f.party = true → (t.slot f.who).Holds d (v.setWidth 64) ∧
          ∀ r, r ≠ d → (t.slot f.who).rd r = (s.slot f.who).rd r ∧ (t.slot f.who).isFull r = (s.slot f.who).isFull r) ∧
        (s.holds f.who f.party = false → t.slot f.who = s.slot f.who) ∧
        (∀ r, r ≠ f.who → t.slot r = s.slot r) ∧ (t.slot f.who).pc = (s.slot f.who).pc ∧ ∀ a, Memory.get t.mem a = Memory.get s.mem a)

/-- R336: taking a trap with INH = 0 and a handler saves PC, cause, value and word, saves level and WDEF.MODE in TSTAT, sets INH, clears WDEF.MODE,
raises the level, and goes to the handler; scalars, their full bits, FRM, FFLAGS, AMAX, TSAVE, the other slots and memory stand. -/
def Obligations.TrapEntrySavesAndRedirects : Prop :=
  ∀ (s : State) (r : SlotRef) (async : Bool) (c : Nat) (v word : Word) (body : Option (Nat × Nat)),
    r.slot < 4 → c < 256 → bit (s.slot r).trap.tstat 4 = false → fld (s.tvecOf r) 56 2 ≠ 0 →
    let x := s.slot r
    let t := s.takeTrap r async c v word body
    let y := t.slot r
    y.trap.tpc = x.pc ∧ y.trap.tcause.toNat = (if async then 2 ^ 63 else 0) + c ∧ y.trap.tval = v ∧
    y.trap.tinst = (if async then 0#64 else word) ∧ y.trap.tsave = x.trap.tsave ∧
    fld y.trap.tstat 1 0 = x.level.code ∧ bit y.trap.tstat 6 = x.wdef ∧ bit y.trap.tstat 4 = true ∧
    bit y.trap.tstat 5 = bit x.trap.tstat 5 ∧
    (body = none → fld y.trap.tstat 63 43 = 0) ∧
    (∀ k e, body = some (k, e) →
      fld y.trap.tstat 63 48 = k % 2 ^ 16 ∧ fld y.trap.tstat 47 44 = e % 16 ∧ bit y.trap.tstat 43 = true) ∧
    y.wdef = false ∧ y.level = (if coreKind r.core = .monitor then .m else .s) ∧ y.pc = wd (fld (s.tvecOf r) 56 2 * 4) ∧
    (∀ q, y.rd q = x.rd q ∧ y.isFull q = x.isFull q) ∧ y.frm = x.frm ∧ y.fflags = x.fflags ∧ y.amax = x.amax ∧
    y.retired = x.retired ∧ (∀ q, q ≠ r → t.slot q = s.slot q) ∧ ∀ a, Memory.get t.mem a = Memory.get s.mem a

/-- R246, R336: TRAP and BRK take the software-trap and breakpoint traps, with TPC at their own address and CODE in TVAL. R215, R216, R344: a word
that names no instruction traps: unassigned major 0x01, too low a level 0x02, class absent 0x03 with the major in TVAL, else 0x01. R347: a fetch
that fails traps with its code and TINST = 0, unless it is the first of a trap handler (R336). -/
def Obligations.TrapsOfWordsEnterTheHandler : Prop :=
  (∀ (s : State) (c : BitVec 20), s.cur.slot < 4 → bit s.sl.trap.tstat 4 = false → fld (s.tvecOf s.cur) 56 2 ≠ 0 →
      let enters (i : Instr) (code : Nat) : Prop :=
        ∃ t, exec i s = .next t ∧ t.sl.trap.tpc = s.sl.pc ∧ t.sl.trap.tcause.toNat = code ∧ t.sl.trap.tval.toNat = c.toNat ∧
          t.sl.trap.tinst.toNat = s.ir.toNat ∧ bit t.sl.trap.tstat 4 = true ∧ fld t.sl.trap.tstat 1 0 = s.sl.level.code ∧
          t.sl.pc = wd (fld (s.tvecOf s.cur) 56 2 * 4) ∧ (∀ q, t.sl.rd q = s.sl.rd q ∧ t.sl.isFull q = s.sl.isFull q) ∧
          (∀ r, r ≠ s.cur → t.slot r = s.slot r) ∧ ∀ a, Memory.get t.mem a = Memory.get s.mem a
      enters (.trap c) 0x0E ∧ enters (.brk c) 0x0F) ∧
  (∀ (s : State) (w : BitVec 32) (code : Nat) (tval : Word),
      s.cur.slot < 4 → bit s.sl.trap.tstat 4 = false → fld (s.tvecOf s.cur) 56 2 ≠ 0 →
      let op := w.toNat / 2 ^ 26
      let enters (i : Instr) (c : Nat) (v word : Word) : Prop :=
        ∃ t, exec i s = .next t ∧ t.sl.trap.tpc = s.sl.pc ∧ t.sl.trap.tcause.toNat = c ∧ t.sl.trap.tval = v ∧ t.sl.trap.tinst = word ∧
          t.sl.pc = wd (fld (s.tvecOf s.cur) 56 2 * 4) ∧ ∀ q, t.sl.rd q = s.sl.rd q ∧ t.sl.isFull q = s.sl.isFull q
      (code < 256 → s.sl.entry = false → enters (.fetchFault code tval) code tval 0#64) ∧
      ((0x2A ≤ op ∧ op ≤ 0x2F) ∨ (0x32 ≤ op ∧ op ≤ 0x3B) → enters (.illegalInstruction w) 1 0#64 (w.setWidth 64)) ∧
      (op = 49 ∧ s.sl.level ≠ .m → enters (.illegalInstruction w) 2 0#64 (w.setWidth 64)) ∧
      (op = 0 ∧ s.sl.level = .u → enters (.illegalInstruction w) 2 0#64 (w.setWidth 64)) ∧
      (0x20 ≤ op ∧ op ≤ 0x29 ∧ coreKind s.cur.core ≠ .compute → enters (.illegalInstruction w) 3 (wd op) (w.setWidth 64)) ∧
      (0x20 ≤ op ∧ op ≤ 0x29 ∧ coreKind s.cur.core = .compute → enters (.illegalInstruction w) 1 0#64 (w.setWidth 64)))

/-- R309, R337: TRET at S or M with INH = 1 and a PLEVEL at which the core's kind runs (R8) restores level, WDEF.MODE and PC, clears INH, and arms a step
when SS = 1; no register and no memory changes. That PC := TPC leaves out bits 1:0 of TPC is the model's reading (DEDUCED, log 21). -/
def Obligations.TretRestoresTheInterruptedContext : Prop :=
  ∀ (s : State), s.cur.slot < 4 → s.sl.level ≠ .u → bit s.sl.trap.tstat 4 = true → runsLevel s.cur.core (fld s.sl.trap.tstat 1 0) = true →
    ∃ t, exec .tret s = .next t ∧
      t.sl.level = (if fld s.sl.trap.tstat 1 0 = 0 then .u else if fld s.sl.trap.tstat 1 0 = 1 then .s else .m) ∧
      t.sl.wdef = bit s.sl.trap.tstat 6 ∧ bit t.sl.trap.tstat 4 = false ∧ t.sl.pc = s.sl.trap.tpc &&& ~~~3#64 ∧
      t.sl.armed = bit s.sl.trap.tstat 5 ∧ (∀ q, t.sl.rd q = s.sl.rd q ∧ t.sl.isFull q = s.sl.isFull q) ∧
      (∀ i, i ≠ 4 → bit t.sl.trap.tstat i = bit s.sl.trap.tstat i) ∧
      (∀ r, r ≠ s.cur → t.slot r = s.slot r) ∧ ∀ a, Memory.get t.mem a = Memory.get s.mem a

/-- R216, R337: at level U TRET traps with 0x02; with INH = 0, or with PLEVEL = 0b11, it traps with 0x01. R215, R216, R368: SEC instructions below
level M, or on a core that is no monitor core, trap with 0x02. R215, R334: on a memory or monitor core every row instruction traps with 0x03 and its
major opcode in TVAL. -/
def Obligations.ForbiddenInstructionsTrap : Prop :=
  (∀ (s : State),
      (s.sl.level = .u → exec .tret s = .next (s.trap 2 0#64)) ∧
      (s.sl.level ≠ .u → bit s.sl.trap.tstat 4 = false ∨ fld s.sl.trap.tstat 1 0 = 3 → exec .tret s = .next (s.trap 1 0#64))) ∧
  (∀ (s : State) (d a b : Reg) (wa wb : Bool),
      (s.sl.level ≠ .m ∨ coreKind s.cur.core ≠ .monitor →
        ∀ i ∈ [Instr.kzero a wa, .kload d a wa, .scrub d a wa, .tnassign d a wa, .tnfree d a wa, .tnstat d a wa],
          exec i s = .next (s.trap 2 0#64)) ∧
      (s.sl.level ≠ .m → ∀ i ∈ [Instr.migr d a b wa wb, .gstop d a b wa wb], exec i s = .next (s.trap 2 0#64)) ∧
      (s.sl.level = .u → ∀ i ∈ [Instr.ctxsave d a b wa wb, .ctxload d a wa, .tlbinv a b wa wb, .tlbinva b wb, .tret],
        exec i s = .next (s.trap 2 0#64))) ∧
  (∀ (s : State) (i : Instr) (w : BitVec 32), (rowShape i).fields ≠ [] → coreKind s.cur.core ≠ .compute → encode i = some w →
      exec i s = .next (s.trap 3 (wd (w.toNat / 2 ^ 26))))

/-- R224, R244, R245, R352: CSRR of every CSR that the level may read writes the register's value to d; with s0 as source so do CSRS and CSRC, which
then make no write. BSTATE shows the banks as the cycle before has left them (R66). CSRs of banks, tiles and park rows read 0 on a core that has none. R129, R270: a read of FFLAGS, AMAX or PKFULL behind row
instructions that are still under way enters the vector sequencer after them; d is empty until it is performed there. -/
def Obligations.CsrReadsReturnTheRegister : Prop :=
  ∀ (s : State) (d : Reg) (c : BitVec 12) (v : Word), s.Ready [] [d] →
    let compute (w : Word) : Word := if coreKind s.cur.core = .compute then w else 0#64
    let tn := s.tenant s.sl.ten
    (c, v) ∈ ([(0x000#12, wd s.cycle), (0x001#12, s.sl.retired), (0x010#12, s.ctxid s.cur), (0x011#12, s.sl.workid),
      (0x012#12, compute s.sl.tilemap), (0x013#12, compute (s.core s.cur.core).pk), (0x014#12, compute (s.core s.cur.core).e0),
      (0x015#12, compute (s.core s.cur.core).e1), (0x016#12, if s.sl.wdef then 1#64 else 0#64), (0x017#12, compute (s.sl.sb.setWidth 64)),
      (0x018#12, s.sl.succ), (0x020#12, s.sl.frm.setWidth 64), (0x021#12, s.sl.fflags.setWidth 64), (0x022#12, s.sl.amax.setWidth 64),
      (0x030#12, s.sl.sallow), (0x040#12, s.capmesh), (0x041#12, s.capfab), (0x042#12, s.capunits), (0x043#12, s.capmap),
      (0x044#12, s.devloc)] ++
      (if s.sl.level = .u then [] else [(0x031#12, tn.ptroot), (0x032#12, tn.mspill), (0x033#12, tn.flog), (0x038#12, tn.mwin.getD 0 0#64),
        (0x039#12, tn.mwin.getD 1 0#64), (0x03A#12, tn.mwin.getD 2 0#64), (0x03B#12, tn.mwin.getD 3 0#64), (0x03C#12, tn.mwin.getD 4 0#64),
        (0x03D#12, tn.mwin.getD 5 0#64), (0x03E#12, tn.mwin.getD 6 0#64), (0x03F#12, tn.mwin.getD 7 0#64), (0x100#12, s.tvecOf s.cur),
        (0x101#12, s.sl.trap.tpc), (0x102#12, s.sl.trap.tcause), (0x103#12, s.sl.trap.tval), (0x104#12, s.sl.trap.tinst),
        (0x105#12, s.sl.trap.tstat), (0x106#12, s.sl.trap.tsave)]) ++
      (if s.sl.level = .m then [(0x200#12, s.journal.scrpos)] else []) : List (BitVec 12 × Word)) →
    let ordered := c = 0x013#12 ∨ c = 0x021#12 ∨ c = 0x022#12
    ((ordered → s.rowsUnderWay s.cur = false) →
      (∃ t, exec (.csrr d c) s = .next t ∧ s.Computes t [d] s.sl.after ∧ t.sl.Holds d v) ∧
      (∃ t, exec (.csrs d 0#5 c) s = .next t ∧ s.Computes t [d] s.sl.after ∧ t.sl.Holds d v) ∧
      (∃ t, exec (.csrc d 0#5 c) s = .next t ∧ s.Computes t [d] s.sl.after ∧ t.sl.Holds d v)) ∧
    (ordered → s.rowsUnderWay s.cur = true → (s.core s.cur.core).seqLen < 16 →
      let s1 := s.consume [(0#5, s.wmode)]
      (∃ t, exec (.csrr d c) s = .next t ∧ (s.consume []).Enters t (.csrr d c) [0#64] [d]) ∧
      (∃ t, exec (.csrs d 0#5 c) s = .next t ∧ s1.Enters t (.csrs d 0#5 c) [0#64] [d]) ∧
      (∃ t, exec (.csrc d 0#5 c) s = .next t ∧ s1.Enters t (.csrc d 0#5 c) [0#64] [d]))

/-- R224, R244: a permitted CSRW, CSRS or CSRC changes the writable fields of its CSR and no other CSR but RETIRED, which counts it; d gets the old
value; no other register, no other slot and no memory changes. The masks are those of the tables of R56, R224, R330 to R332. R193: a write of SALLOW
takes a LIMIT from 1 to 64. R332: at level S a write of TSTAT does not take PLEVEL 0b10 or 0b11. R129, R270: a write of FFLAGS or AMAX behind row
instructions still under way enters the sequencer after them. R224, R352: an unassigned CSR and a write of a CSR that no level writes trap with 0x01; a
CSR of a higher level traps with 0x02; that this holds of MWIN0 (0x038) at level U is the model's reading (DEDUCED, log 22). R56, R330: a write of PTROOT or TVEC takes effect for its tenant at once, and for no other. -/
def Obligations.CsrWritesAndRights : Prop :=
  (∀ (s : State) (d a : Reg) (c : BitVec 12) (m : Word), s.Ready [a] [d] →
      (c, m) ∈ ([(0x016#12, 1#64), (0x018#12, 0x01FF_FFFF_FFFF_FFF0#64), (0x020#12, 3#64), (0x021#12, 0x7F#64),
        (0x022#12, 0x7FFF_FFFF#64)] ++
        (if s.sl.level = .u then [] else [(0x031#12, 0x0000_FFFF_FFFF_F000#64), (0x032#12, 0x01FF_FFFF_FFFF_F00F#64),
          (0x033#12, 0x01FF_FFFF_FFFF_F08F#64), (0x100#12, 0x01FF_FFFF_FFFF_FFFC#64), (0x101#12, 0xFFFF_FFFF_FFFF_FFFF#64),
          (0x102#12, 0x8000_0000_0000_00FF#64), (0x103#12, 0xFFFF_FFFF_FFFF_FFFF#64), (0x104#12, 0xFFFF_FFFF#64),
          (0x106#12, 0xFFFF_FFFF_FFFF_FFFF#64)]) : List (BitVec 12 × Word)) →
      let ordered := c = 0x021#12 ∨ c = 0x022#12
      let writes (i : Instr) (new : Word) : Prop :=
        (ordered → s.rowsUnderWay s.cur = false) →
        ∃ t, exec i s = .next t ∧ t.csr c.toNat = new &&& m ∧ t.sl.Holds d (s.csr c.toNat) ∧ t.sl.pc = s.sl.pc + 4#64 ∧
          (∀ k, k ≠ c.toNat → k ≠ 1 → t.csr k = s.csr k) ∧ (∀ r, r ≠ d → t.sl.rd r = s.sl.rd r ∧ t.sl.isFull r = s.sl.isFull r) ∧
          (∀ r, r ≠ s.cur → t.slot r = s.slot r) ∧ ∀ n, Memory.get t.mem n = Memory.get s.mem n
      let enters (i : Instr) : Prop :=
        ordered → s.rowsUnderWay s.cur = true → (s.core s.cur.core).seqLen < 16 →
        ∃ t, exec i s = .next t ∧ (s.consume [(a, s.wmode)]).Enters t i [s.sl.rd a] [d]
      writes (.csrw d a c) (s.sl.rd a) ∧ enters (.csrw d a c) ∧
      (a ≠ 0#5 → writes (.csrs d a c) (s.csr c.toNat ||| s.sl.rd a) ∧ writes (.csrc d a c) (s.csr c.toNat &&& ~~~s.sl.rd a) ∧
        enters (.csrs d a c) ∧ enters (.csrc d a c))) ∧
  (∀ (s : State) (d a : Reg), s.Ready [a] [d] → s.sl.level ≠ .u →
      let v := s.sl.rd a
      let writes (c : BitVec 12) (p : Slot → Prop) : Prop :=
        ∃ t, exec (.csrw d a c) s = .next t ∧ t.sl.Holds d (s.csr c.toNat) ∧ t.sl.pc = s.sl.pc + 4#64 ∧ p t.sl
      writes 0x030#12 (fun y => y.limit = (if 1 ≤ fld v 15 8 ∧ fld v 15 8 ≤ 64 then fld v 15 8 else s.sl.limit) ∧ y.unacc = s.sl.unacc) ∧
      writes 0x105#12 (fun y => (∀ i < 64, bit y.trap.tstat i = if i < 2 then bit y.trap.tstat i else
          (bit v i && ((4 ≤ i && i ≤ 6) || 43 ≤ i))) ∧
        fld y.trap.tstat 1 0 = if s.sl.level = .s ∧ 2 ≤ fld v 1 0 then fld s.sl.trap.tstat 1 0 else fld v 1 0)) ∧
  (∀ (s : State) (d a : Reg) (c : BitVec 12),
      (c ∈ [0x002#12, 0x019#12, 0x0FF#12, 0x107#12, 0x201#12, 0xFFF#12] →
        exec (.csrr d c) s = .next (s.trap 1 0#64) ∧ exec (.csrw d a c) s = .next (s.trap 1 0#64)) ∧
      (c ∈ [0x000#12, 0x001#12, 0x010#12, 0x011#12, 0x012#12, 0x013#12, 0x014#12, 0x015#12, 0x017#12, 0x040#12, 0x042#12, 0x044#12] →
        exec (.csrw d a c) s = .next (s.trap 1 0#64)) ∧
      (s.sl.level = .u → c ∈ [0x031#12, 0x032#12, 0x033#12, 0x038#12, 0x100#12, 0x101#12, 0x105#12, 0x106#12, 0x200#12] →
        exec (.csrr d c) s = .next (s.trap 2 0#64) ∧ exec (.csrw d a c) s = .next (s.trap 2 0#64)) ∧
      (s.sl.level = .s → exec (.csrr d 0x200#12) s = .next (s.trap 2 0#64))) ∧
  (∀ (s : State) (ten : Nat) (v : Word), ten ≠ 0 →
      (∃ t, exec (.ptrootWrite ten v) s = .next t ∧ (t.tenant ten).ptroot = v &&& 0x0000_FFFF_FFFF_F000#64 ∧ t.mem = s.mem ∧
        ∀ k, k ≠ ten → t.tenant k = s.tenant k) ∧
      (∃ t, exec (.tvecWrite ten v) s = .next t ∧ (t.tenant ten).tvec = v &&& 0x01FF_FFFF_FFFF_FFFC#64 ∧ t.mem = s.mem ∧
        ∀ k, k ≠ ten → t.tenant k = s.tenant k))

/-! ## Accesses -/

/-- R214, R282 to R284: LD and ST whose address passes R350 send the access on its way; LD leaves d empty. The address is S(a) plus the scaled
offset; a release on LD is performed first, as a FENCE. -/
def Obligations.LoadsAndStoresAreSentOnTheirWay : Prop :=
  ∀ (s : State) (d a : Reg) (h : Hint) (o : Ordering2) (i : BitVec 9) (key : Nat),
    (∀ (z : LdSize) (n : Nat) (sg : Bool),
      (z, n, sg) ∈ [(LdSize.b, 1, true), (.h, 2, true), (.w, 4, true), (.d, 8, false), (.bu, 1, false), (.hu, 2, false), (.wu, 4, false)] →
      s.Ready [a] [d] →
      let s1 := s.consume [(a, s.wmode)]
      let va := s.sl.rd a + BitVec.ofInt 64 (i.toInt * n)
      s1.check s1.cur .load va n n = .ok key → s1.placeLS key = true → s1.deadOwn key = none →
      (o = .plain ∨ o = .acq → ∃ t, exec (.ld d a z h o i) s = .next t ∧
        s1.Starts t [d] (.load (.reg d) va key n sg (o == .acq) h)) ∧
      (o = .rel ∨ o = .ar → s1.quiet = true → ∃ t, exec (.ld d a z h o i) s = .next t ∧
        (s1.fence s1.sl.party 3).Starts t [d] (.load (.reg d) va key n sg (o == .ar) h))) ∧
    (∀ (z : StSize) (n : Nat), (z, n) ∈ [(StSize.b, 1), (.h, 2), (.w, 4), (.d, 8)] →
      s.Ready [a, d] [] →
      let s1 := s.consume [(a, s.wmode), (d, s.wmode)]
      let va := s.sl.rd a + BitVec.ofInt 64 (i.toInt * n)
      s1.check s1.cur .store va n n = .ok key → s1.placeLS key = true →
      ∃ t bs, exec (.st d a z h o i) s = .next t ∧ s1.Starts t [] (.store va key bs o h) ∧ bs.length = n ∧
        ∀ j < n, bs.getD j 0#8 = (s.sl.rd d).extractLsb' (8 * j) 8)

/-- R286 to R288: an atomic whose address passes R350 is sent on its way with its operation, its operand and, for ACAS, its compare value; d is
empty until the old value lands. R285: RLD and RST whose address passes R350 send the row's access on its way: RLD to LQ reserves its tail entry, to
the zero row reads and drops the row, and RLD and RST of a tile row enter the sequencer beside the access; RST of SQ takes its head, or queues the
address while SQ is empty. -/
def Obligations.AtomicsAndRowAccessesAreSent : Prop :=
  (∀ (s : State) (d a b : Reg) (wa wb dbl : Bool) (o : Ordering2) (key : Nat),
      let starts (i : Instr) (op : Nat) (dw : Bool) (src : List (Reg × Bool)) : Prop :=
        let s1 := s.consume src
        let n := if dw then 8 else 4
        s.Ready (src.map (·.1)) [d] → s1.check s1.cur .atomic (s.sl.rd a) n n = .ok key → s1.placeAtomic key = true →
        s1.deadOwn key = none →
        ∃ t, exec i s = .next t ∧ s1.Starts t [d] (.atomic (.reg d) op dw (s.sl.rd a) key (s.sl.rd b) (s.sl.rd d) o)
      starts (.aadd d a b wa wb o dbl) 0 dbl [(a, wa), (b, wb)] ∧ starts (.aand d a b wa wb o dbl) 1 dbl [(a, wa), (b, wb)] ∧
      starts (.aor d a b wa wb o dbl) 2 dbl [(a, wa), (b, wb)] ∧ starts (.axor d a b wa wb o dbl) 3 dbl [(a, wa), (b, wb)] ∧
      starts (.amin d a b wa wb o dbl) 4 dbl [(a, wa), (b, wb)] ∧ starts (.amax d a b wa wb o dbl) 5 dbl [(a, wa), (b, wb)] ∧
      starts (.aminu d a b wa wb o dbl) 6 dbl [(a, wa), (b, wb)] ∧ starts (.amaxu d a b wa wb o dbl) 7 dbl [(a, wa), (b, wb)] ∧
      starts (.aswp d a b wa wb o dbl) 8 dbl [(a, wa), (b, wb)] ∧
      starts (.acas d a b wa wb o dbl) 9 dbl [(a, wa), (b, wb), (d, false)] ∧
      starts (.afadd d a b wa wb o) 10 false [(a, wa), (b, wb)]) ∧
  (∀ (s : State) (r : RowName) (a : Reg) (h : Hint) (i : BitVec 11) (key : Nat), coreKind s.cur.core = .compute → s.Ready [a] [] →
      let s1 := s.consume [(a, s.wmode)]
      let va := s.sl.rd a + BitVec.ofInt 64 (32 * i.toInt)
      let goes (x : Instr) (p : State → Flight → Prop) : Prop :=
        ∃ t, exec x s = .next t ∧ t.sl.pc = s.sl.after ∧ t.mem = s.mem ∧ (∀ q, t.sl.rd q = s.sl.rd q ∧ t.sl.isFull q = s.sl.isFull q) ∧
          ∃ f ∈ t.flights, f.id = s.fresh ∧ f.who = s.cur ∧ f.party = s.sl.party ∧ p t f
      let joins (x : Instr) (t : State) (f : Flight) : Prop :=
        f.ready = false ∧ ∃ e, (t.core s.cur.core).seq = (s.core s.cur.core).seq ++ [SeqItem.one e] ∧ e.slot = s.cur.slot ∧ e.instr = x ∧
          e.ea = some (va, f.id)
      s1.placeRow key = true →
      (s1.check s1.cur .load va 32 32 = .ok key → s1.deadOwn key = none →
        (r = 112#7 → s.sl.lq.length < 16 → goes (.rld r a h i) fun t f =>
          f.act = .load .lq va key 32 false false h ∧ f.ready = true ∧ t.sl.lq = s.sl.lq ++ [{ flight := f.id }]) ∧
        (r = 114#7 → ∃ t, exec (.rld r a h i) s = .next t ∧ s1.Starts t [] (.load .none va key 32 false false h)) ∧
        (r.toNat < 112 → r.toNat < 16 * s.sl.tiles.length → (s.core s.cur.core).seqLen < 16 → goes (.rld r a h i) fun t f =>
          f.act = .load (.row r) va key 32 false false h ∧ joins (.rld r a h i) t f)) ∧
      (s1.check s1.cur .store va 32 32 = .ok key →
        (r = 113#7 → ∀ v rest, s.sl.sq = v :: rest → goes (.rst r a h i) fun t f =>
          f.act = .store va key (rowBytes v.bits) .plain .none ∧ f.ready = true ∧ t.sl.sq = rest) ∧
        (r = 113#7 → s.sl.sq = [] → s.sl.sa.length < 16 → goes (.rst r a h i) fun t f =>
          f.act = .store va key (rowBytes 0#256) .plain .none ∧ f.ready = false ∧ t.sl.sa = s.sl.sa ++ [⟨va, key, f.id⟩]) ∧
        (r = 114#7 → ∃ t, exec (.rst r a h i) s = .next t ∧ s1.Starts t [] (.store va key (rowBytes 0#256) .plain .none)) ∧
        (r.toNat < 112 → r.toNat < 16 * s.sl.tiles.length → s1.bankSoon s1.cur (s.sl.tileBank r.toNat) ≠ 0 →
          (s.core s.cur.core).seqLen < 16 → goes (.rst r a h i) fun t f =>
            f.act = .store va key (rowBytes 0#256) .plain .none ∧ joins (.rst r a h i) t f)))

/-- R220, R348: an empty source in trap mode traps with 0x04 and the register's number; one in block mode, or an outstanding result for d, holds the
instruction: the machine is as it was but for the mark that it waits. WAITFE waits and never traps. R282, R286, R285, R291, R351: an access whose
address is not a multiple of its alignment traps with 0x05 and the address in TVAL. -/
def Obligations.EmptySourcesWaitAndMisalignedAccessesTrap : Prop :=
  (∀ (s : State) (d a b : Reg) (wa wb w : Bool), s.cur.slot < 4 →
      let add := exec (.add d a b wa wb w) s
      (s.sl.isFull a = false → wa = true → add = .next (s.trap 4 (wd a.toNat))) ∧
      (s.sl.isFull a = true → s.sl.isFull b = false → wb = true → add = .next (s.trap 4 (wd b.toNat))) ∧
      (s.sl.isFull a = false → wa = false → s.sl.isFull b = false ∧ wb = true → add = .next (s.trap 4 (wd b.toNat))) ∧
      (s.sl.isFull a = false ∨ s.sl.isFull b = false → wa = false → wb = false →
        ∃ t m, add = .next t ∧ t = s.modSl fun x => { x with waits := m }) ∧
      (s.sl.isFull a = true → s.sl.isFull b = true → s.producing s.cur d = true → add = .next s) ∧
      (s.sl.isFull a = false → ∃ t m, exec (.waitfe a) s = .next t ∧ t = s.modSl fun x => { x with waits := m })) ∧
  (∀ (s : State) (d a b : Reg) (wa wb dbl : Bool) (o : Ordering2) (h : Hint) (i9 : BitVec 9) (i11 : BitVec 11) (r : RowName),
      s.sl.waits = 0#32 →
      (s.Ready [a] [d] → ¬ 2 ∣ (s.sl.rd a + BitVec.ofInt 64 (i9.toInt * 2)).toNat →
        exec (.ld d a .h h o i9) s = .next (s.trap 5 (s.sl.rd a + BitVec.ofInt 64 (i9.toInt * 2)))) ∧
      (s.Ready [a] [d] → ¬ 8 ∣ (s.sl.rd a + BitVec.ofInt 64 (i9.toInt * 8)).toNat →
        exec (.ld d a .d h o i9) s = .next (s.trap 5 (s.sl.rd a + BitVec.ofInt 64 (i9.toInt * 8)))) ∧
      (s.Ready [a, d] [] → ¬ 8 ∣ (s.sl.rd a + BitVec.ofInt 64 (i9.toInt * 8)).toNat →
        exec (.st d a .d h o i9) s = .next (s.trap 5 (s.sl.rd a + BitVec.ofInt 64 (i9.toInt * 8)))) ∧
      (s.Ready [a, b] [d] → ¬ (if dbl then 8 else 4) ∣ (s.sl.rd a).toNat →
        exec (.aadd d a b wa wb o dbl) s = .next (s.trap 5 (s.sl.rd a)) ∧
        exec (.aswp d a b wa wb o dbl) s = .next (s.trap 5 (s.sl.rd a))) ∧
      (s.Ready [a, b] [d] → ¬ 16 ∣ (s.sl.rd a).toNat → exec (.cbar d a b wa wb) s = .next (s.trap 5 (s.sl.rd a))) ∧
      (coreKind s.cur.core = .compute → s.Ready [a] [] → r = 112#7 →
        ¬ 32 ∣ (s.sl.rd a + BitVec.ofInt 64 (32 * i11.toInt)).toNat →
        exec (.rld r a h i11) s = .next (s.trap 5 (s.sl.rd a + BitVec.ofInt 64 (32 * i11.toInt)))))

/-- R80, R282, R379: a load of clean storage that is performed lands, extended to its width, in its result; no byte changes. R79, R282: a store into
stack memory that is performed changes exactly its bytes, and its operation is over. -/
def Obligations.LoadsReadAndStoresChangeTheirBytes : Prop :=
  (∀ (s : State) (f : Flight) (d : Reg) (va : Word) (key n : Nat) (sg acq : Bool),
      s.flight? f.id = some f → f.act = .load (.reg d) va key n sg acq .none → s.performable f = true →
      key < stackEnd → s.poison = [] → (∀ w ∈ s.writes, w.id ≠ 0) → n ∈ [1, 2, 4, 8] →
      ∃ t v, exec (.remoteAccess f.id [0]) s = .next t ∧ t.flight? f.id = some { f with act := .result (.reg d) v none [] } ∧
        (v.setWidth 64).toInt = (let m := leNat ((List.range n).map fun j => Memory.get s.mem (key + j))
          if sg then (m : Int).bmod (2 ^ (8 * n)) else (m : Int).bmod (2 ^ 64)) ∧
        (∀ a, Memory.get t.mem a = Memory.get s.mem a) ∧ t.cores = s.cores) ∧
  (∀ (s : State) (f : Flight) (va : Word) (key : Nat) (bs : List Byte) (o : Ordering2) (view : List Nat),
      s.memOk → s.flight? f.id = some f → f.act = .store va key bs o .none → s.performable f = true → key + bs.length ≤ stackEnd →
      ∃ t, exec (.remoteAccess f.id view) s = .next t ∧ t.flight? f.id = none ∧
        (∀ j < bs.length, Memory.get t.mem (key + j) = bs.getD j 0#8) ∧
        (∀ a, a < key ∨ key + bs.length ≤ a → Memory.get t.mem a = Memory.get s.mem a) ∧ t.cores = s.cores)

/-- R60, R81, R286: an atomic on stack memory whose turn at its location has come replaces its bytes by the new value and lands the old one. It first
reaches the atomic unit, which notes its arrival, unless another atomic of its core has gone out in this cycle; before its turn it waits there, and
nothing changes. -/
def Obligations.AtomicsReplaceAndReturnTheOldValue : Prop :=
  ∀ (s : State) (f : Flight) (d : Reg) (op : Nat) (dbl : Bool) (va : Word) (key : Nat) (x c : Word) (o : Ordering2),
    s.memOk → s.flight? f.id = some f → f.act = .atomic (.reg d) op dbl va key x c o → s.performable f = true →
    s.poison = [] →
    let n := if dbl then 8 else 4
    let w := 8 * n
    key + n ≤ stackEnd →
    (f.reached = none → s.portBusy f = true → exec (.atomicPerform f.id) s = .next s) ∧
    (f.reached = none → s.portBusy f = false → ∃ t, exec (.atomicPerform f.id) s = .next t ∧
      t.flight? f.id = some { f with reached := some (s.cycle, s.fresh), view := [] } ∧ t.mem = s.mem ∧ t.cores = s.cores) ∧
    (f.reached.isSome = true → s.itsTurn f (key, n) = false → exec (.atomicPerform f.id) s = .next s) ∧
    (f.reached.isSome = true → s.itsTurn f (key, n) = true →
    let old := leNat ((List.range n).map fun j => Memory.get s.mem (key + j))
    let xv := x.toNat % 2 ^ w
    let signed : Nat → Int := fun v => (v : Int).bmod (2 ^ w)
    ∃ t v new, exec (.atomicPerform f.id) s = .next t ∧ t.flight? f.id = some { f with act := .result (.reg d) v none [] } ∧
      (v.setWidth 64).toInt = (if dbl then (old : Int).bmod (2 ^ 64) else (old : Int).bmod (2 ^ 32)) ∧
      (op = 0 → new = (old + xv) % 2 ^ w) ∧ (op = 1 → new = old &&& xv) ∧ (op = 2 → new = old ||| xv) ∧ (op = 3 → new = old ^^^ xv) ∧
      (op = 4 → signed new = Min.min (signed old) (signed xv)) ∧ (op = 5 → signed new = Max.max (signed old) (signed xv)) ∧
      (op = 6 → new = Min.min old xv) ∧ (op = 7 → new = Max.max old xv) ∧ (op = 8 → new = xv) ∧
      (op = 9 → new = if old = c.toNat % 2 ^ w then xv else old) ∧ new < 2 ^ w ∧
      leNat ((List.range n).map fun j => Memory.get t.mem (key + j)) = new ∧
      (∀ a, a < key ∨ key + n ≤ a → Memory.get t.mem a = Memory.get s.mem a) ∧ t.cores = s.cores)

/-! ## Rows -/

/-- R162, R260, R344: a row word whose checks pass enters the vector sequencer with its scalars captured; a scalar destination is empty until the
word is performed. It holds for every row instruction of majors 0x20 to 0x29 but VREP: those with a row field. R164, R271: VREP whose body is
fetched, lawful and free of faults captures the body as one place of the sequencer with its count and its strides and goes on after it; with a count
of 0 the body is captured and nothing is performed, so that no place of the sequencer is taken. That VREP with its body counts once in RETIRED is the model's reading (DEDUCED, log 29). -/
def Obligations.RowWordsEnterTheSequencer : Prop :=
  (∀ (s : State) (i : Instr), (rowShape i).fields ≠ [] → coreKind s.cur.core = .compute →
      s.Ready (rowSources i) (seqDest i).toList →
      let s1 := s.consume ((rowSources i).map fun a => (a, s.wmode))
      let sc := (rowSources i).map s.sl.rd
      s1.rowFault s1.cur (s1.owedEffects s1.cur) i sc = none → (s1.core s1.cur.core).seqLen < 16 →
      ∃ t, exec i s = .next t ∧ s1.Enters t i sc (seqDest i).toList) ∧
  (∀ (s s0 : State) (a b : Reg) (n : BitVec 4) (ws : List (BitVec 32)) (is : List Instr), coreKind s.cur.core = .compute → s.Ready [a, b] [] →
      s.sl.waits = 0#32 →
      let len := n.toNat + 1
      let c := (s.sl.rd a).toNat % 65536
      let st := s.sl.rd b
      s.fetchBody (s.sl.pc + 4#64) len = .ok (ws, s0) → ws.map decode = is.map some → (∀ p ∈ List.zip ws is, isBodyWord p.1 p.2 = true) →
      s.bodyFault (is.map fun i => (i, (rowSources i).map s.sl.rd)) (fld st 6 0) (fld st 14 8) (fld st 22 16)
        (List.range (Nat.max 1 (Nat.min c 112))) (s.owedEffects s.cur) = none →
      (∀ i ∈ is, ∀ r ∈ rowSources i, s.sl.isFull r = true) → (∀ i ∈ is, ∀ r ∈ (seqDest i).toList, s.producing s.cur r = false) →
      let dst := is.filterMap seqDest
      (c = 0 → ∃ t, exec (.vrep a n b) s = .next t ∧ s0.Computes t [] (s.sl.pc + BitVec.ofNat 64 (4 * (len + 1)))) ∧
      (c ≠ 0 → (s.core s.cur.core).seqLen + len ≤ 16 →
        ∃ t body, exec (.vrep a n b) s = .next t ∧ s.sl.Retires t.sl dst (s.sl.pc + BitVec.ofNat 64 (4 * (len + 1))) ∧
          (t.core s.cur.core).seq = (s.core s.cur.core).seq ++ [SeqItem.rep body] ∧ body.words.map (·.instr) = is ∧ body.count = c ∧ body.k = 0 ∧
          body.e = 0 ∧ body.sd = fld st 6 0 ∧ body.sa = fld st 14 8 ∧ body.sb = fld st 22 16 ∧ body.slot = s.cur.slot ∧
          (∀ r ∈ dst, t.sl.isFull r = (r == 0#5)) ∧ t.mem = s.mem ∧ t.flights = s.flights))

/-- R71, R72, R162, R259, R261, R262: the sequencer's head, a row word of two tile rows into a third with Full banks and clean rows, starts on a core that
has started none in this cycle and is not stopped: it reads its rows, what it writes goes on its way, and no byte and no slot changes. With L = 1 the
bank of a turns Off at the end of that cycle, or, where the word writes to that bank, after its row. When such an entry lands, its row reads as it was
computed, the flags and AMAX are gathered, and no register and no other byte changes. -/
def Obligations.SequencerPerformsARowWord : Prop :=
  (∀ (s : State) (core : Nat) (e : SeqEntry) (rest : List SeqItem) (d a b : RowName) (l : Bool),
      let r : SlotRef := ⟨core, e.slot⟩
      let x := s.slot r
      let bank (n : RowName) : Nat := x.tileBank n.toNat
      let key (n : RowName) : Nat := tileKey core (bank n) (n.toNat % 16)
      let row (n : RowName) : Row := rowOf ((List.range 32).map fun j => Memory.get s.mem (key n + j))
      (s.core core).seq = .one e :: rest → core < 1024 → e.slot < 4 → e.last = true → e.body = none →
      (s.core core).ran ≠ some s.cycle → (s.core core).stopped = false → (s.core core).fenced = false →
      rowShape e.instr = ⟨some ⟨d, .dst, 1⟩, some ⟨a, .src, 1⟩, some ⟨b, .src, 1⟩, l⟩ →
      d.toNat < 112 → a.toNat < 112 → b.toNat < 112 → (∀ n ∈ [d, a, b], bank n < 16 ∧ (s.core core).bank (bank n) = 2) →
      s.entryReady r (e.ea.elim e.id fun p => p.2) e.instr = true → s.poison = [] → (∀ w ∈ s.writes, w.id ≠ 0) →
      let o := rowCompute e.instr { a := [row a], b := row b, d := 0#256, sc := e.scal, rm := e.frm, amax := 0 }
      ∃ t f w, exec (.sequencerExecute core [0]) s = .next t ∧ (t.core core).seq = rest ∧ (t.core core).ran = some s.cycle ∧
        t.flights = s.flights ++ [f] ∧ f.id = s.fresh ∧ f.who = r ∧ f.party = x.party ∧ f.act = .rows w ∧
        w.rows.map Prod.fst = [key d] ∧ w.rows.map Prod.snd = [o.d.headD 0#256] ∧ w.sq = [] ∧ w.reg = none ∧ w.pk = none ∧
        w.fl = o.fl ∧ w.amax = o.amax ∧
        w.offs = (if l = true ∧ bank a = bank d then [bank a] else []) ∧
        (t.core core).due = (s.core core).due ++ (if l = true ∧ bank a ≠ bank d then [(bank a, 0)] else []) ∧
        (∀ q, t.slot q = s.slot q) ∧ t.mem = s.mem ∧ ∀ k, k ≠ core → t.core k = s.core k) ∧
  (∀ (s : State) (f : Flight) (w : RowWrites) (d : RowName) (v : Row),
      let x := s.slot f.who
      let bank := x.tileBank d.toNat
      let key := tileKey f.who.core bank (d.toNat % 16)
      s.flight? f.id = some f → f.act = .rows w → f.seep = none → f.hop = none → s.holds f.who f.party = true → f.who.slot < 4 → f.who.core < 1024 →
      w.rows = [(key, v)] → w.sq = [] → w.reg = none → w.pk = none → w.offs = [] → d.toNat < 112 → bank < 16 →
      (s.core f.who.core).bank bank = 2 → s.memOk →
      ∃ t, exec (.resultLands f.id) s = .next t ∧ t.flights = s.flights.filter (fun g => g.id != f.id) ∧
        rowOf ((List.range 32).map fun j => Memory.get t.mem (key + j)) = v ∧
        (∀ k, k < key ∨ key + 32 ≤ k → Memory.get t.mem k = Memory.get s.mem k) ∧
        (t.slot f.who).fflags = (x.fflags ||| w.fl) ∧ (t.slot f.who).amax.toNat = Nat.max x.amax.toNat w.amax % 2 ^ 31 ∧
        (∀ q, (t.slot f.who).rd q = x.rd q ∧ (t.slot f.who).isFull q = x.isFull q) ∧ (t.slot f.who).pc = x.pc ∧
        (∀ q, q ≠ f.who → t.slot q = s.slot q) ∧ (t.core f.who.core).seq = (s.core f.who.core).seq)

/-- R264: integer lanes. With u and v the lanes of a and b, unsigned or signed, each lane of d is the wrapped, clamped or shifted result, or all
ones for a comparison that holds and else zero; no flag is raised and AMAX stands. -/
def Obligations.IntegerLanesFollowTheirTable : Prop :=
  ∀ (t : ITy) (d a b : RowName) (n : BitVec 5) (l : Bool) (x : RowIn) (i : Nat), i < 256 / t.width → n.toNat < t.width →
    let w := t.width
    let u := lane x.a0 w i
    let v := lane x.b w i
    let su := (u : Int).bmod (2 ^ w)
    let sv := (v : Int).bmod (2 ^ w)
    let lo : Int := -(2 ^ (w - 1))
    let hi : Int := 2 ^ (w - 1) - 1
    let gives (j : Instr) (p : Nat → Prop) : Prop :=
      p (lane ((rowCompute j x).d.headD 0#256) w i) ∧ (rowCompute j x).fl = 0#7 ∧ (rowCompute j x).amax = x.amax
    let is (j : Instr) (m : Int) : Prop := gives j fun r => (r : Int) = m % 2 ^ w
    is (.vaddI t d a b l) (u + v) ∧ is (.vsubI t d a b l) (u - v) ∧ is (.vmulI t d a b l) (u * v) ∧
    is (.vmulh t d a b l) (su * sv / 2 ^ w) ∧
    is (.vadds t d a b l) (Max.max lo (Min.min hi (su + sv))) ∧ is (.vsubs t d a b l) (Max.max lo (Min.min hi (su - sv))) ∧
    is (.vminI t d a b l) (Min.min su sv) ∧ is (.vmaxI t d a b l) (Max.max su sv) ∧
    is (.vminu t d a b l) (Min.min u v) ∧ is (.vmaxu t d a b l) (Max.max u v) ∧
    is (.vceqI t d a b l) (if u = v then -1 else 0) ∧ is (.vcltI t d a b l) (if su < sv then -1 else 0) ∧
    is (.vcltu t d a b l) (if u < v then -1 else 0) ∧
    is (.vshl t d a n l) (u * 2 ^ n.toNat) ∧ is (.vshr t d a n l) (u / 2 ^ n.toNat) ∧ is (.vsra t d a n l) (su / 2 ^ n.toNat) ∧
    is (.vabsI t d a l) su.natAbs ∧ is (.vnegI t d a l) (-su)

/-- R266, R267, R268: the moves place whole bits and lanes: AND, OR, XOR and select act bit by bit, VREV reverses the lanes, VBCST repeats its
scalar, VINS replaces one lane, VEXT reads one, VPERM picks bytes or zero; none raises a flag. -/
def Obligations.MovesPlaceBitsAndLanes : Prop :=
  ∀ (d a b : RowName) (q : Reg) (a5 : Reg) (w : LaneW) (n : BitVec 5) (l : Bool) (x : RowIn), n.toNat < w.lanes →
    let wid := 256 / w.lanes
    let out (i : Instr) : Row := (rowCompute i x).d.headD 0#256
    (∀ k < 256,
      (out (.vand d a b l)).getLsbD k = (x.a0.getLsbD k && x.b.getLsbD k) ∧
      (out (.vor d a b l)).getLsbD k = (x.a0.getLsbD k || x.b.getLsbD k) ∧
      (out (.vxor d a b l)).getLsbD k = (x.a0.getLsbD k != x.b.getLsbD k) ∧
      (out (.vsel d a b l)).getLsbD k = (if x.d.getLsbD k then x.a0.getLsbD k else x.b.getLsbD k)) ∧
    (∀ k < w.lanes,
      lane (out (.vrev d a w l)) wid k = lane x.a0 wid (w.lanes - 1 - k) ∧
      lane (out (.vbcst d a5 w)) wid k = (wordAt x.sc 0).toNat % 2 ^ wid ∧
      lane (out (.vins d a5 w n)) wid k = (if k = n.toNat then (wordAt x.sc 0).toNat % 2 ^ wid else lane x.d wid k)) ∧
    (rowCompute (.vext q a w n l) x).s = some (wd (lane x.a0 wid n.toNat)) ∧
    (∀ k < 32, lane (out (.vperm d a b l)) 8 k = (if 128 ≤ lane x.b 8 k then 0 else lane x.a0 8 (lane x.b 8 k % 32))) ∧
    (∀ k < 8, lane ((rowCompute (.vzipW d a b l) x).d.getD (k / 4) 0#256) 32 (2 * (k % 4)) = lane x.a0 32 k ∧
      lane ((rowCompute (.vzipW d a b l) x).d.getD (k / 4) 0#256) 32 (2 * (k % 4) + 1) = lane x.b 32 k) ∧
    ∀ i ∈ [Instr.vand d a b l, .vor d a b l, .vxor d a b l, .vsel d a b l, .vrev d a w l, .vbcst d a5 w, .vins d a5 w n, .vext q a w n l,
      .vperm d a b l, .vzipW d a b l], (rowCompute i x).fl = 0#7 ∧ (rowCompute i x).amax = x.amax

/-! ## Hints, synchronisation, banks -/

/-- R218: NOP, BHINT, YIELD and PREF go to the next word and change no register, no flag and no byte of memory; YIELD marks that the slot forgoes its next
turn, and PREF may start a walk and does nothing else. R219, R293, R294: WAITFE with a full source goes on; SETE empties its register; MBW writes one
message register, whose reserved bits read as zero (R4), and MBR reads one. R82, R84, R289: once every earlier entry of the strand
is performed FENCE acquires what the strand has read, puts its release set at the scope on its later writes, and goes on; that it is held until then, at its issue, is the model's choice (DESIGN CHOICE,
log 17). -/
def Obligations.HintsFencesAndMessageRegisters : Prop :=
  ((∀ (s : State) (x : Bool) (a : Reg) (i : BitVec 16), s.cur.slot < 4 →
        (∃ t, exec .nop s = .next t ∧ s.Computes t [] s.sl.after) ∧ (∃ t, exec (.bhint x) s = .next t ∧ s.Computes t [] s.sl.after) ∧
        (∃ t, exec .yield s = .next t ∧ s.Computes t [] s.sl.after ∧ t.sl.yielded = true) ∧
        (∃ t, exec (.pref a i) s = .next t ∧ s.sl.Retires t.sl [] s.sl.after ∧ t.mem = s.mem ∧ t.flights = s.flights ∧ t.writes = s.writes ∧
          t.clusters = s.clusters ∧ (t.walks = s.walks ∨ ∃ w, t.walks = s.walks ++ [w] ∧ w.pref = true ∧ w.ten = s.sl.ten ∧ w.waiters = []) ∧ ∀ r, r ≠ s.cur → t.slot r = s.slot r)) ∧
    (∀ (s : State) (a d : Reg) (k : BitVec 3) (wa : Bool),
        (s.Ready [a] [] → ∃ t, exec (.waitfe a) s = .next t ∧ s.Computes t [] s.sl.after) ∧
        (s.Ready [] [a] → ∃ t, exec (.sete a) s = .next t ∧ s.Computes t [a] s.sl.after ∧ t.sl.isFull a = (a == 0#5) ∧
          t.sl.rd a = s.sl.rd a) ∧
        (k.toNat < 6 → s.Ready [] [d] →
          ∃ t, exec (.mbr d k) s = .next t ∧ s.Computes t [d] s.sl.after ∧ t.sl.Holds d (s.sl.mb.toList.getD k.toNat 0#64)) ∧
        (k.toNat < 6 → s.Ready [a] [] →
          ∃ t, exec (.mbw a k wa) s = .next t ∧ t.sl.pc = s.sl.after ∧
            (let v := s.sl.rd a
             ∀ j, t.sl.mb.toList.getD j 0#64 = if j ≠ k.toNat then s.sl.mb.toList.getD j 0#64
               else if j = 0 then v &&& 0xFDFF_FFFF_FFFF_FFFF#64 else if j = 1 then v &&& 0xFFFC_FFFF_FFFF_FFFF#64 else v) ∧
            (∀ r, t.sl.rd r = s.sl.rd r ∧ t.sl.isFull r = s.sl.isFull r) ∧
            { t.sl with mb := s.sl.mb, pc := s.sl.pc, retired := s.sl.retired, stepDue := s.sl.stepDue, armed := s.sl.armed, walk := s.sl.walk,
                        yielded := s.sl.yielded, waits := s.sl.waits, latch := s.sl.latch } = s.sl ∧ ∃ ps, t = { s.setSlot s.cur t.sl with parties := ps }))) ∧
  (∀ (s : State) (sc : Scope) (n : Nat), s.cur.slot < 4 →
      (sc, n) ∈ [(Scope.slot, 0), (.core, 1), (.cluster, 2), (.device, 3), (.fabric, 4)] →
      (s.quiet = false → exec (.fence sc) s = .next s) ∧
      (s.quiet = true → ∃ t, exec (.fence sc) s = .next t ∧ s.Computes t [] s.sl.after ∧
        (t.party s.sl.party).fence = [(s.sl.party * 8 + n, (t.party s.sl.party).floor)] ∧ (t.party s.sl.party).pend = [] ∧
        (∀ w ∈ (s.party s.sl.party).floor, w ∈ (t.party s.sl.party).floor) ∧
        ∀ p, p ≠ s.sl.party → t.party p = s.party p))

/-- R66, R67, R308: BSTAT reads the state code of a bank. BANK on a bank of the strand that no earlier access needs is taken for the end of the cycle
(R72) and changes nothing before that. Then the bank is Off, its bytes lost, or Retain from Full, or the wake of one that is not Full starts; a
Waking bank takes the request when its wake ends (R68). A BANK on a bank that the strand does not hold traps. That one on a bank which an earlier
access still needs holds its slot at issue is the model's choice (DESIGN CHOICE, log 112). -/
def Obligations.BankRequestsChangeTheBankState : Prop :=
  (∀ (s : State) (d : Reg) (n : BitVec 6), coreKind s.cur.core = .compute →
      let c := s.cur.core
      (s.Ready [] [d] → ∃ t, exec (.bstat d n) s = .next t ∧ s.Computes t [d] s.sl.after ∧ t.sl.Holds d (wd ((s.core c).bankShown n.toNat))) ∧
      (s.cur.slot < 4 → s.sl.hasBank n.toNat = true → s.bankBusy s.cur n.toNat = false →
        ∀ q : BankReq, ∃ t, exec (.bank q n) s = .next t ∧ s.sl.Retires t.sl [] s.sl.after ∧
          (t.core c).due = (s.core c).due ++ [(n.toNat, match q with | .off => 0 | .retain => 1 | .full => 2)] ∧
          (t.core c).b0 = (s.core c).b0 ∧ (t.core c).b1 = (s.core c).b1 ∧ t.mem = s.mem ∧ t.flights = s.flights) ∧
      (s.cur.slot < 4 → s.sl.hasBank n.toNat = true → s.bankBusy s.cur n.toNat = true → ∀ q, exec (.bank q n) s = .next s) ∧
      (s.sl.hasBank n.toNat = false → ∀ q, exec (.bank q n) s = .next (s.trap 6 (wd (bankAddr c n.toNat))))) ∧
  (∀ (s : State) (core n code : Nat), n < 64 → code ≤ 2 → (s.core core).due = [(n, code)] →
      let t := s.endHints core
      let st := (s.core core).bank n
      (t.core core).due = [] ∧
      (t.core core).bank n = (if st = 3 then 3 else if code = 0 then 0 else if code = 1 then (if st = 2 then 1 else st)
        else if st = 2 then 2 else 3) ∧
      (st = 3 → (t.core core).hints = (s.core core).hints ++ [(n, code)]) ∧
      (code = 0 → st ≠ 3 → st ≠ 0 → ∀ a, bankAddr core n ≤ a → a < bankAddr core n + bankSize n → Memory.get t.mem a = Memory.unlisted) ∧
      (∀ a, code ≠ 0 ∨ st = 3 ∨ a < bankAddr core n ∨ bankAddr core n + bankSize n ≤ a → Memory.get t.mem a = Memory.get s.mem a) ∧
      ∀ m, m < 64 → m ≠ n → (t.core core).bank m = (s.core core).bank m)

/-! ## Strands -/

/-- R252, R255, R256, R291: DECR, TASKQ, LNCH and CBAR whose cell or address passes its checks send their operation on its way; d is empty until it
is answered. The amount of DECR is 1 when b is s0. LNCH reads its header when it issues, once the strand's earlier entries let its release take place
(R82), page by page (R58). R145, R304: TTQ of a record whose address passes its checks adds it to the cluster's tile-task list and gives 0, or gives 1
when the list holds 64. R249: SPAWN of a lawful record clears RETAIN and HOMECORE in its state word, marks a memory core's, changes no other byte of
memory, and sends the record to the run list of its core at its own priority; no register changes. -/
def Obligations.CellOperationsTileTasksAndSpawns : Prop :=
  ((∀ (s : State) (d a b : Reg) (wa wb : Bool) (key : Nat),
        let s2 := s.consume [(a, wa), (b, wb)]
        let s1 := s.consume [(a, wa)]
        (coreKind s.cur.core ≠ .monitor → s.Ready [a, b] [d] → s2.cellBad s2.sl (s.sl.rd a) = none →
          ∃ t, exec (.decr d a b wa wb) s = .next t ∧
            s2.Starts t [d] (.decr (if d = 0#5 then .none else .reg d) (s.sl.rd a) (if b = 0#5 then 1#64 else s.sl.rd b))) ∧
        (coreKind s.cur.core ≠ .monitor → s.Ready [a] [] → s1.cellBad s1.sl (s.sl.rd a) = none →
          ∃ t, exec (.taskq a wa) s = .next t ∧ s1.Starts t [] (.taskq (s.sl.rd a))) ∧
        (s.Ready [a, b] [d] → s2.check s2.cur .atomic (s.sl.rd a) 8 16 = .ok key → inScr key = true →
          (chipOf key).cluster = s2.clusterOf s2.cur.core → s2.deadOwn key = none →
          ∃ t, exec (.cbar d a b wa wb) s = .next t ∧
            s2.Starts t [d] (.cbar (.reg d) (s.sl.rd a) (Max.max 1 ((s.sl.rd b).toNat % 65536))))) ∧
    (∀ (s u : State) (d a : Reg) (wa : Bool) (k1 k2 : Nat) (bs : List Byte) (po : Option Nat) (rels : Rels),
        coreKind s.cur.core ≠ .monitor → s.Ready [a] [d] →
        let s1 := s.consume [(a, wa)]
        let va := s.sl.rd a
        let two := va.toNat % 4096 = 0xFC0
        let parts := if two then [(k1, 64), (k2, 64)] else [(k1, 128)]
        va.toNat % 64 = 0 → s1.check s1.cur .load va (if two then 64 else 128) 1 = .ok k1 →
        (two → s1.check s1.cur .load (va + 64#64) 64 1 = .ok k2) →
        (∀ p ∈ parts, (inScr p.1 = true ∨ s1.place p.1 = .stack) ∧ s1.deadOwn p.1 = none ∧ s1.deadOwn (p.1 + p.2 - 1) = none ∧
          s1.barredAt s.cur.core p.1 = false ∧ s1.forwardOf s.cur.core p.1 = none) →
        (∀ ws, s1.quietFor (.lnch .none va ws none) = true) →
        State.readParts s1.sl.party s1.sl.ten (parts.flatMap fun p => groups32 5 p.1 p.2) (s1.released s1.sl.party) = .val bs po rels u →
        ∃ t, exec (.lnch d a wa) s = .next t ∧ (t.flights.getLast?).map (·.rel) = some ((s1.party s1.sl.party).floor) ∧
          (match po with
            | some g => u.Starts t [d] (.lnch (.reg d) va [] (some (0x14, wd g)))
            | none => (u.pending s1.sl.party rels).Starts t [d] (.lnch (.reg d) va (leWords bs 16) none))) ∧
    (∀ (s : State) (a d : Reg) (key : Nat), coreKind s.cur.core = .compute → s.Ready [a] [d] →
        let s1 := s.consume [(a, s.wmode)]
        s1.engOwned .matrix true = true → s1.check s1.cur .load (s.sl.rd a) 64 64 = .ok key → inScr key = true ∨ s1.place key = .stack →
        s1.quiet = true →
        let cl := s.clusterOf s.cur.core
        ∃ t, exec (.ttq a d) s = .next t ∧ s.sl.Retires t.sl [d] s.sl.after ∧ t.mem = s.mem ∧
          (64 ≤ (s.cluster cl).tileTasks.length → t.sl.Holds d 1#64 ∧ (t.cluster cl).tileTasks = (s.cluster cl).tileTasks) ∧
          ((s.cluster cl).tileTasks.length < 64 → t.sl.Holds d 0#64 ∧
            ∃ k, (t.cluster cl).tileTasks = (s.cluster cl).tileTasks ++ [k] ∧ k.addr = s.sl.rd a ∧ k.who = s.cur ∧ k.core = s.cur.core ∧
              k.ten = s.sl.ten ∧ k.rel = (s1.party s.sl.party).floor))) ∧
  (∀ (s : State) (a : Reg) (wa : Bool) (key : Nat), s.memOk → coreKind s.cur.core ≠ .monitor → s.Ready [a] [] →
      let s1 := s.consume [(a, wa)]
      let list := if s.cur.core < 1024 then s.cur.core / 16 else s.cur.core
      s1.check s1.cur .atomic (s.sl.rd a) 64 64 = .ok key → key + 64 ≤ stackEnd → (∀ e, s1.quietFor (.enqueue e list) = true) → s.poison = [] →
      (∀ c ∈ s.cores, c.2.retained = []) →
      let st := wd (leNat (s1.read s1.sl.party s1.sl.ten (key + 48) 8 (s1.turnView (key + 48) 8)).1)
      let mem := coreKind s.cur.core = .memory
      fld st 63 58 < 48 → fld st 44 39 < 49 → (mem → fld st 47 45 = 0 ∧ fld st 44 39 = 0) →
      ∃ t e f, exec (.spawn a wa) s = .next t ∧ s.sl.Retires t.sl [] s.sl.after ∧
        t.flights = s.flights ++ [f] ∧ f.act = .enqueue e list ∧ f.who = s.cur ∧
        e.work = .record (s.sl.rd a) ∧ e.prio = fld st 63 58 ∧ e.queue = fld st 57 48 ∧ e.ten = s.sl.ten ∧
        (let st' := leNat ((List.range 8).map fun j => Memory.get t.mem (key + 48 + j))
         st' / 2 ^ 38 = st.toNat / 2 ^ 38 ∧ st' / 2 ^ 27 % 2 ^ 11 = 0 ∧ st' / 2 ^ 26 % 2 = (if mem then 1 else 0) ∧
         st' / 2 ^ 21 % 32 = (if mem then (s.cur.core - 1024) % 32 else st.toNat / 2 ^ 21 % 32) ∧ st' % 2 ^ 21 = st.toNat % 2 ^ 21) ∧
        ∀ n, n < key + 48 ∨ key + 56 ≤ n → Memory.get t.mem n = Memory.get s.mem n)

/-- R248, R250 to R254, R292: SUSP, AWAIT, HALT, HALT.rt and GBAR begin by draining their slot: the word is kept with the slot, whose PC stays, and
nothing else changes; the instruction takes effect when the drain ends. -/
def Obligations.StrandEndsBeginWithADrain : Prop :=
  ∀ (s : State) (a : Reg) (wa rt : Bool) (l : BitVec 3),
    let drains (i k : Instr) : Prop :=
      ∃ t, exec i s = .next t ∧ t.sl.drain = some k ∧ t.sl.dword = s.ir ∧ t.sl.pc = s.sl.pc ∧
        (∀ r, t.sl.rd r = s.sl.rd r ∧ t.sl.isFull r = s.sl.isFull r) ∧
        { t.sl with drain := s.sl.drain, dword := s.sl.dword, waits := s.sl.waits } = s.sl ∧
        ∃ ps, t = { s.setSlot s.cur t.sl with parties := ps }
    s.cur.slot < 4 →
    (l.toNat < 7 → drains (.gbar l) (.gbar l)) ∧
    (coreKind s.cur.core ≠ .monitor →
      drains .halt .halt ∧
      (s.sl.origin.noRecord = false → drains (.susp rt) (.susp rt)) ∧
      (s.sl.origin.noRecord = false → s.Ready [a] [] → drains (.await a wa rt) (.await a wa rt)) ∧
      (s.sl.tiles = [] → s.sl.sb = 0#48 → drains (.haltRt a wa) .halt) ∧
      (s.sl.tiles ≠ [] ∨ s.sl.sb ≠ 0#48 → s.Ready [a] [] → drains (.haltRt a wa) (.haltRt a wa)))

/-! ## Engines -/

/-- R301, R303: EWR writes a shadow parameter register, whose reserved fields read as zero (R4); ERD and ERD.act read a shadow and an active one. ESTAT
reads the status; a word that reports DONE waits for the strand's earlier entries, since it acquires (R85). Of a and b, only those that the engine
reads are waited for (R220, R302). That ESTAT waits at its issue, and for which entries, is the model's (DESIGN CHOICE, log 17; DEDUCED, log 81), and
so is which strand owns an engine (DEDUCED, log 70). -/
def Obligations.EngineRegistersAreReadAndWritten : Prop :=
  ∀ (s : State) (e : EngCode) (a b d : Reg), engPresent (coreKind s.cur.core) e = true → (e = .scrub → s.sl.level = .m) →
    let n := (s.sl.rd b).toNat % 64
    let s1 := s.consume [(b, s.wmode)]
    let src := s.engSource e false a
    let sa := s.consume src
    let q := sa.engQueue e (s.sl.rd a)
    let w := sa.estat e q
    let done : Prop := e ≠ .scrub ∧ (if e = .matrix then sa.ownOps q = [] ∧ 2 ≤ fld w 63 62 else bit w 63 = true)
    (n < engRegs e → s.Ready [a, b] [] →
      ∃ t, exec (.ewr e a b) s = .next t ∧ s.sl.Retires t.sl [] s.sl.after ∧
        (∀ i < 64, bit (t.readEp e n false) i = (bit (s.sl.rd a) i && (epFields (engNum e) n).any fun f => decide (f.2 ≤ i) && decide (i ≤ f.1))) ∧
        (∀ m, m < engRegs e → m ≠ n → t.readEp e m false = s.readEp e m false) ∧ t.mem = s.mem ∧ t.flights = s.flights) ∧
    (n < engRegs e → s.Ready [b] [d] →
      (∃ t, exec (.erd e b d) s = .next t ∧ s1.Starts t [d] (.result (.reg d) ((s.readEp e n false).setWidth 256) none [])) ∧
      (∃ t, exec (.erdAct e b d) s = .next t ∧ s1.Starts t [d] (.result (.reg d) ((s.readEp e n true).setWidth 256) none []))) ∧
    (engRegs e ≤ n → s.sl.waits = 0#32 → s.Ready [a, b] [d] →
      exec (.ewr e a b) s = .next (s.trap 0x0C (wd (n + engNum e * 256))) ∧
      exec (.erd e b d) s = .next (s.trap 0x0C (wd (n + engNum e * 256)))) ∧
    (s.Ready (src.map (·.1)) [d] → sa.engOwned e false = true →
      (¬ done ∨ sa.quiet = true → ∃ t, exec (.estat e a d) s = .next t ∧ s.Answers t d w ∧ t.mem = s.mem) ∧
      (done → sa.quiet = false → exec (.estat e a d) s = .next s)) ∧
    (src = if e = .matrix then [(a, s.wmode)] else [])

/-- R302, R303, R365: EGO with a lawful set, an owned engine and room in the queue sends the operation, with its copy of the set, to the queue; EWAIT
goes on once the strand has no operation left there and its earlier entries are performed, and is held until then. EGO and EWAIT of COPY, TASK and
STREAM do not read a, nor does EWAIT of FOLD (R220). R307: EGO of SCRUB traps, and EWAIT of SCRUB waits for the scrub pass. R88, R290, R360: QFENCE
sends a marker to each queue that its mask names and goes on; a queue that the core's kind does not have traps with 0x03. A marker that arrives stands
behind what is in its queue. That EWAIT is held at its issue, and for which entries, is the model's (DESIGN CHOICE, log 17; DEDUCED, log 81), and so is
which strand owns an engine (DEDUCED, log 70). -/
def Obligations.EngineOperationsAndMarkersAreEntered : Prop :=
  ((∀ (s : State) (e : EngCode) (a : Reg), engPresent (coreKind s.cur.core) e = true → e ≠ .scrub →
        let v := s.sl.rd a
        (s.Ready (if e = .matrix ∨ e = .fold then [a] else []) [] →
          let s1 := s.consume (if e = .matrix ∨ e = .fold then [(a, s.wmode)] else [])
          s1.engOwned e true = true → egoFault e v (s1.takeSet e v) = none → s1.streamSides e (s1.takeSet e v) = false →
          s1.queueFull (s1.engQueue e v) = false →
          ∃ t op, exec (.ego e a) s = .next t ∧ s1.Starts t [] (.engine (s1.engQueue e v) op) ∧ op.id = s.fresh ∧ op.who = s.cur ∧
            op.party = s.sl.party ∧ op.ten = s.sl.ten ∧ op.core = s.cur.core ∧ op.eps = s1.takeSet e v ∧ op.held = false) ∧
        (s.Ready (if e = .matrix then [a] else []) [] →
          let s1 := s.consume (if e = .matrix then [(a, s.wmode)] else [])
          let q := s1.engQueue e v
          s1.engOwned e false = true →
          (s1.ownOps q = [] → s1.quiet = true → ∃ t, exec (.ewait e a) s = .next t ∧ s.Computes t [] s.sl.after) ∧
          (s1.ownOps q ≠ [] ∨ s1.quiet = false → exec (.ewait e a) s = .next s))) ∧
    (∀ (s : State) (a : Reg), coreKind s.cur.core = .monitor → s.sl.level = .m → s.cur.slot < 4 →
        exec (.ego .scrub a) s = .next (s.trap 1 0#64) ∧
        (s.journal.run = false → ∃ t, exec (.ewait .scrub a) s = .next t ∧ s.Computes t [] s.sl.after) ∧
        (s.journal.run = true → exec (.ewait .scrub a) s = .next s))) ∧
  (∀ (s : State) (m : BitVec 5), s.cur.slot < 4 →
      let cl := s.clusterOf s.cur.core
      let qs : List EngQueue := (if m.getLsbD 0 then [.copy s.cur.core] else []) ++ (if m.getLsbD 1 then [.matrix cl 0, .matrix cl 1] else []) ++
        (if m.getLsbD 2 then [.fold cl] else []) ++ (if m.getLsbD 3 then [.task cl] else []) ++ (if m.getLsbD 4 then [.stream s.cur.core] else [])
      (qfenceAbsent (coreKind s.cur.core) m = none →
        ∃ t fs, exec (.qfence m) s = .next t ∧ s.sl.Retires t.sl [] s.sl.after ∧ t.mem = s.mem ∧ t.flights = s.flights ++ fs ∧
          fs.map (·.act) = qs.map (fun q => Act.marker q s.fresh) ∧ (∀ f ∈ fs, f.who = s.cur ∧ f.party = s.sl.party) ∧
          t.qfences = s.qfences ++ (if qs = [] then [] else [{ id := s.fresh, left := qs.length }])) ∧
      (∀ b, qfenceAbsent (coreKind s.cur.core) m = some b → exec (.qfence m) s = .next (s.trap 3 (wd (0x19 + b * 256))))) ∧
  (∀ (s : State) (f : Flight) (q : EngQueue) (n : Nat), s.flight? f.id = some f → f.act = .marker q n → s.performable f = true →
      (∀ k a, q = .matrix k a → a < 2) →
      ∃ t o, exec (.enqueueArrival f.id) s = .next t ∧ t.queueOps q = s.queueOps q ++ [o] ∧ o.isMarker = true ∧ o.id = f.id ∧ o.fenceOf = n % 2 ^ 64 ∧
        t.flight? f.id = none ∧ t.mem = s.mem)

/-! ## Folds, messages and multicast at issue -/

/-- R298, R300, R299: POST with an owned fold store sends key, value and domain to the home cluster's fold stage, with d empty until the status
lands; FDSTAT's status is on its way to d; FREL by a handler that holds its key ends the hold once the strand's earlier entries are performed, since it
releases (R82, R85), and waits until then; otherwise it only goes on. -/
def Obligations.FoldInstructionsAreIssued : Prop :=
  ∀ (s : State) (d a b : Reg) (wa wb : Bool) (m : BitVec 4), coreKind s.cur.core ≠ .monitor →
    let s1 := s.consume [(a, wa), (b, wb)]
    let home := (s1.foldHome s.sl.ten (s.sl.ten * 16 + m.toNat) (s.sl.rd a)).1
    (s.Ready [a, b] [d] → (s.tenant s.sl.ten).fold ≠ 0#64 → s1.quietFor (.post .none m.toNat (s.sl.rd a) (s.sl.rd b) none 0) = true →
      ∃ t f, exec (.post d a b wa wb m) s = .next t ∧ s.sl.Retires t.sl [d] s.sl.after ∧ t.sl.isFull d = (d == 0#5) ∧
        t.flights = s.flights ++ [f] ∧ f.act = .post (if d = 0#5 then .none else .reg d) m.toNat (s.sl.rd a) (s.sl.rd b) none home ∧
        f.who = s.cur ∧ f.ten = s.sl.ten ∧ f.rel = (s1.party s.sl.party).floor ∧ t.mem = s.mem) ∧
    (s.Ready [] [d] → (s.tenant s.sl.ten).fold ≠ 0#64 →
      ∃ t, exec (.fdstat d m) s = .next t ∧ (s.consume []).Starts t [d]
        (.result (.reg d) ((s.fdstat s.sl.ten m.toNat (s.clusterOf s.cur.core)).setWidth 256) none [])) ∧
    (s.Ready [a, b] [d] → (s.tenant s.sl.ten).fold = 0#64 → s.sl.waits = 0#32 →
      exec (.post d a b wa wb m) s = .next (s.trap 6 0#64)) ∧
    (s.cur.slot < 4 → (∀ cl dk key, s.sl.origin ≠ .fold cl dk key true) → ∃ t, exec .frel s = .next t ∧ s.Computes t [] s.sl.after) ∧
    (s.cur.slot < 4 → ∀ cl dk key, s.sl.origin = .fold cl dk key true → s.quiet = false → exec .frel s = .next s) ∧
    (s.cur.slot < 4 → ∀ cl dk key, s.sl.origin = .fold cl dk key true → s.quiet = true →
      ∃ t, exec .frel s = .next t ∧ t.sl.pc = s.sl.after ∧ t.sl.origin = .fold cl dk key false ∧ t.mem = s.mem ∧
        (∀ r, t.sl.rd r = s.sl.rd r ∧ t.sl.isFull r = s.sl.isFull r) ∧
        ∀ e ∈ (t.cluster cl).folds, e.dom = dk → e.key = key → e.st = .waiting)

/-- R190, R193, R295, R361: SEND with lawful build registers, room in the window and a target that can be reached sends the message with what the
strand releases, counts it as unacknowledged, and gives 0; with LIMIT messages unacknowledged it gives 1 and sends nothing. R398: to a device that
cannot be reached it gives 0, sends nothing and takes the asynchronous fault 0x19. R195, R296, R362: MCST of a lawful store to a group of its tenant sends
its bytes to the sequencer with d empty until the number returns; to another group it gives 0 and takes 0x18. R93, R297: MSEQ of a group of which
this device is a member reads GAPPLY, as 48 bits show it, once the strand's earlier entries are performed. -/
def Obligations.SendsAndMulticastsAreIssued : Prop :=
  (∀ (s : State) (d : Reg), s.Ready [] [d] → s.sendFault s.sl.mb.toList = none →
      let ws := s.sl.mb.toList
      (s.sl.limit ≤ s.sl.unacc → ∃ t, exec (.send d) s = .next t ∧ s.Computes t [d] s.sl.after ∧ t.sl.Holds d 1#64) ∧
      (s.sl.unacc < s.sl.limit → s.quietFor (.send ws) = true → s.sl.waits = 0#32 → s.reaches (msgDev ws) = true →
        (∀ f ∈ s.flights, f.id ≠ s.fresh) →
        ∃ t f, exec (.send d) s = .next t ∧ t.sl.Holds d 0#64 ∧ t.sl.pc = s.sl.after ∧ t.sl.unacc = s.sl.unacc + 1 ∧
          t.flights = s.flights ++ [f] ∧ f.act = .send ws ∧ f.who = s.cur ∧ f.ten = s.sl.ten ∧ f.rel = (s.party s.sl.party).floor ∧ t.mem = s.mem ∧
          ∀ r, r ≠ d → t.sl.rd r = s.sl.rd r ∧ t.sl.isFull r = s.sl.isFull r) ∧
      (s.sl.unacc < s.sl.limit → s.quietFor (.send ws) = true → s.sl.waits = 0#32 → s.reaches (msgDev ws) = false →
        s.sl.occ ≠ .free → s.sl.frozen = false →
        ∃ t a, exec (.send d) s = .next t ∧ t.sl.Holds d 0#64 ∧ t.sl.pc = s.sl.after ∧ t.sl.unacc = s.sl.unacc ∧ t.flights = s.flights ∧ t.mem = s.mem ∧
          t.sl.pend = s.sl.pend ++ [a] ∧ a.code = 0x19 ∧ a.tval = wordAt ws 1 ||| 0x0002_0000_0000_0000#64)) ∧
  (∀ (s : State) (d a : Reg) (wa : Bool),
      let ws := s.sl.mb.toList
      let g := fld (wordAt ws 0) 7 0
      let len := fld (wordAt ws 0) 13 8 + 1
      let off := fld (wordAt ws 1) 29 0
      let e := (s.groups.get {} g).entry
      let lawful := s.groupOf g s.sl.ten = true ∧ off + len ≤ e.wsize ∧ s.reaches e.seqdev = true
      (s.Ready [] [d] → s.sl.waits = 0#32 → len ≤ 32 → off % 32 + len ≤ 32 → s.unstamped < 8 → lawful →
        (∀ data, s.quietFor (.mcst .none g off len data) = true) → (∀ f ∈ s.flights, f.id ≠ s.fresh) →
        ∃ t f data, exec (.mcst d) s = .next t ∧ s.sl.Retires t.sl [d] s.sl.after ∧ t.sl.isFull d = (d == 0#5) ∧ t.flights = s.flights ++ [f] ∧
          f.act = .mcst (.reg d) g off len data ∧ f.who = s.cur ∧ f.rel = (s.party s.sl.party).floor ∧ t.mem = s.mem ∧
          data.length = len ∧ ∀ j < len, data.getD j 0#8 = (wordAt ws (2 + j / 8)).extractLsb' (8 * (j % 8)) 8) ∧
      (s.Ready [] [d] → s.sl.waits = 0#32 → len ≤ 32 → off % 32 + len ≤ 32 → s.unstamped < 8 → ¬ lawful → s.sl.occ ≠ .free → s.sl.frozen = false →
        ∃ t f, exec (.mcst d) s = .next t ∧ t.sl.Holds d 0#64 ∧ t.sl.pc = s.sl.after ∧ t.flights = s.flights ∧ t.mem = s.mem ∧
          t.sl.pend = s.sl.pend ++ [f] ∧ f.code = 0x18 ∧ f.tval = wd g) ∧
      (s.Ready [a] [d] → let k := fld (s.sl.rd a) 7 0
        s.groupOf k s.sl.ten = true → s.memberOf k = true → s.quiet = true →
        ∃ t, exec (.mseq d a wa) s = .next t ∧ s.Answers t d (wd (seq48 (s.groups.get {} k).gapply)) ∧ t.mem = s.mem))

/-! ## Supervisor and monitor instructions -/

/-- R310 to R313: CTXSAVE, MIGR and GSTOP with lawful operands stop their slot or their cores and go on, with d empty until the answer lands; a slot
that is free is answered at once, CTXSAVE with 0 and MIGR with 3, and MIGR with 1 where eight forwarding entries stand. R168, R171, R311: CTXLOAD of an
area that is no image answers 6 and changes nothing else, of one that does not fit it answers why; of a valid image that fits it answers the slot in
which the image then stands. -/
def Obligations.SavesLoadsMigrationsAndStops : Prop :=
  (∀ (s : State) (d a b : Reg) (wa wb : Bool) (key : Nat), s.Ready [a, b] [d] →
      let s1 := s.consume [(a, wa), (b, wb)]
      let owes (i : Instr) (p : State → Act → Prop) : Prop :=
        ∃ t, exec i s = .next t ∧ s.sl.Retires t.sl [d] s.sl.after ∧ t.sl.isFull d = (d == 0#5) ∧ t.mem = s.mem ∧
          ∃ f ∈ t.flights, f.who = s.cur ∧ f.party = s.sl.party ∧ p t f.act
      (s.sl.level ≠ .u → let r := slotSpec (s.sl.rd b)
        r ≠ s.cur → (s.sl.level = .m ∨ (s.coreOf s.sl.ten r.core = true ∧ ((s.slot r).occ = .free ∨ (s.slot r).ten = s.sl.ten))) →
        (s.sl.rd a).toNat % 64 = 0 → s1.AreaOk .store 128 (s.sl.rd a) (s1.imageLen r) →
        ((s.slot r).occ = .free ∨ 16 * s.nclusters ≤ r.core → ∃ t, exec (.ctxsave d a b wa wb) s = .next t ∧ s.Answers t d 0#64) ∧
        ((s.slot r).occ ≠ .free → r.core < 16 * s.nclusters →
          owes (.ctxsave d a b wa wb) fun t x => x = .ctxsave (.reg d) r (s.sl.rd a) ∧ (t.slot r).halted = true)) ∧
      (s.sl.level = .m → let r := slotSpec (s.sl.rd a)
        ((s.slot r).occ = .free ∨ 16 * s.nclusters ≤ r.core → ∃ t, exec (.migr d a b wa wb) s = .next t ∧ s.Answers t d 3#64) ∧
        ((s.slot r).occ ≠ .free → r.core < 16 * s.nclusters → 8 ≤ (s.core r.core).liveForwards →
          ∃ t, exec (.migr d a b wa wb) s = .next t ∧ s.Answers t d 1#64) ∧
        (r ≠ s.cur → r.core < 16 * s.nclusters → (s.slot r).occ ≠ .free → (s.core r.core).liveForwards < 8 →
          owes (.migr d a b wa wb) fun t x => x = .migr (.reg d) r (fld (s.sl.rd b) 9 0) (fld (s.sl.rd b) 27 16) ∧ (t.slot r).halted = true)) ∧
      (s.sl.level = .m → let vf := fld (s.sl.rd a) 14 8
        1 ≤ vf → vf ≤ 64 → (bit (s.sl.rd a) 0 = true ∨ ((s.sl.rd b).toNat % 64 = 0 ∧
          s1.check s1.cur .store (s.sl.rd b) 64 64 = .ok key ∧ (inScr key = true ∨ s1.place key = .stack))) →
        owes (.gstop d a b wa wb) fun _ x => ∃ n ids, x = .gstop (.reg d) n ids)) ∧
  (∀ (s : State) (d a : Reg) (wa : Bool) (bs : List Byte) (po : List Nat) (rl : List (Nat × List Nat)) (u : State),
      s.sl.level ≠ .u → s.Ready [a] [d] → s.sl.waits = 0#32 → (s.sl.rd a).toNat % 64 = 0 →
      s.AreaOk .load 128 (s.sl.rd a) 8192 → s.areaWakes (s.sl.rd a) 8192 = none →
      State.readArea s.cur.core s.sl.party s.sl.ten s.sl.level 128 0 (s.sl.rd a) s = .ok (bs, po, rl, u) →
      let w := wd (leNat (bs.take 8))
      let answers (v : Word) : Prop := ∃ t, exec (.ctxload d a wa) s = .next t ∧ s.Starts t [d] (.result (.reg d) (v.setWidth 256) none [])
      (imgOk w = false → answers 6#64) ∧
      (imgOk w = true → ∀ (bs' : List Byte) (po' : List Nat) (rl' : List (Nat × List Nat)) (u' : State),
        s.AreaOk .load 128 (s.sl.rd a) (fld w 31 0) → s.areaWakes (s.sl.rd a) (fld w 31 0) = none →
        State.readArea s.cur.core s.sl.party s.sl.ten s.sl.level (fld w 31 0 / 64) 0 (s.sl.rd a) s = .ok (bs', po', rl', u') →
        let n := leNat ((bs'.drop 2688).take 8)
        let im : Image := { bytes := bs', poison := po', tag := s.tagOf n }
        (∀ e, s.placeImage im s.cur.core = .error e → answers (wd e)) ∧
        (∀ (slot : Nat) (tiles : List Nat), s.placeImage im s.cur.core = .ok (slot, tiles) →
          ∃ t, exec (.ctxload d a wa) s = .next t ∧ (∃ f ∈ t.flights, f.who = s.cur ∧ f.act = .result (.reg d) ((wd slot).setWidth 256) none []) ∧
            (s.sl.occ ≠ .free → let y := t.slot ⟨s.cur.core, slot⟩
              y.occ ≠ .free ∧ y.pc = wd (fld (im.word 1) 56 2 * 4) ∧ y.level = im.tag.level ∧ y.ten = im.tag.ten ∧ y.workid = im.word 3))))

/-- R205, R315: on a monitor core at M, KZERO of a key slot that no access is using zeroes it; KLOAD of a zero slot loads a fresh key and answers 0,
of another answers 1 and leaves it. R319: TNSTAT answers the tenant's state. R314: TLBINV removes from every TLB the tenant's entries that cover the
address and TLBINVA all of the tenant's entries; no walk of the tenant that has begun installs anything; the others stand, and no register and no
memory changes. At level S the tenant is the strand's own; at level M it is named by b. -/
def Obligations.KeysTenantStateAndTranslations : Prop :=
  (∀ (s : State) (d a : Reg) (wa : Bool), coreKind s.cur.core = .monitor → s.sl.level = .m → s.Ready [a] [d] →
      let k := (s.sl.rd a).toNat % 128
      let s1 := s.consume [(a, wa)]
      (1 ≤ k → k ≤ 79 → s1.underKey k = false →
        ∃ t, exec (.kzero a wa) s = .next t ∧ s.sl.Retires t.sl [] s.sl.after ∧ t.keys.get {} k = {} ∧
          (∀ j, j ≠ k → t.keys.get {} j = s.keys.get {} j) ∧ t.mem = s.mem) ∧
      (16 ≤ k → k ≤ 79 → (s.keys.get {} k).st = .zero →
        ∃ t, exec (.kload d a wa) s = .next t ∧ s.Answers t d 0#64 ∧ (t.keys.get {} k).st = .loaded ∧ (t.keys.get {} k).gen = s.fresh ∧
          (∀ j, j ≠ k → t.keys.get {} j = s.keys.get {} j) ∧ t.mem = s.mem) ∧
      (16 ≤ k → k ≤ 79 → (s.keys.get {} k).st ≠ .zero →
        ∃ t, exec (.kload d a wa) s = .next t ∧ s1.Starts t [d] (.result (.reg d) ((1#64 : Word).setWidth 256) none [])) ∧
      (1 ≤ k → k ≤ 64 → ∃ t v, exec (.tnstat d a wa) s = .next t ∧ s1.Starts t [d] (.result (.reg d) (v.setWidth 256) none []) ∧
        fld v 2 0 = (match (s.tenant k).st with | .free => 0 | .assigned => 1 | .locked => 2 | .run => 3 | .scrub => 4) ∧
        fld v 14 8 = (s.tenant k).kslot % 128 ∧ fld v 7 5 = 0 ∧ fld v 31 15 = 0)) ∧
  (∀ (s : State) (a b : Reg) (wa wb : Bool), s.sl.level ≠ .u → s.Ready [a, b] [] →
      let ten := if s.sl.level = .m then (s.sl.rd b).toNat % 128 else s.sl.ten
      (s.sl.level = .m → 1 ≤ ten ∧ ten ≤ 64) →
      let keeps (i : Instr) (gone : TlbEntry → Prop) : Prop :=
        ∃ t, exec i s = .next t ∧ s.sl.Retires t.sl [] s.sl.after ∧ t.mem = s.mem ∧
          (∀ k ∈ s.clusters.map (·.1), ∀ e, e ∈ (t.cluster k).tlb ↔ e ∈ (s.cluster k).tlb ∧ ¬ gone e) ∧
          ∀ w ∈ t.walks, w.ten = ten → w.dead = true
      keeps (.tlbinv a b wa wb) (fun e => e.ten = ten ∧ (s.sl.rd a).toNat % 2 ^ 57 / 2 ^ e.lg = e.va / 2 ^ e.lg) ∧
      (s.sl.level = .m ∨ (b = 0#5 ∧ wb = false) → keeps (.tlbinva b wb) (fun e => e.ten = ten)))

/-- R316 to R318: on a monitor core at M, TNASSIGN of a lawful descriptor assigns the tenant and answers 0, of another it answers its status and
assigns nothing; TNFREE of a stopped tenant takes its resources away and leaves it in SCRUB or FREE, of another it answers 1 or 2; SCRUB starts a
pass. -/
def Obligations.TenantsAreAssignedFreedAndScrubbed : Prop :=
  ∀ (s : State) (d a : Reg) (wa : Bool), coreKind s.cur.core = .monitor → s.sl.level = .m → s.Ready [a] [d] → s.sl.waits = 0#32 →
    let v := (s.sl.rd a).toNat % 128
    (∀ ws l, (s.sl.rd a).toNat % 64 = 0 → s.poison = [] → s.stackWords (fun x => s.check s.cur .load x 8 8) (s.sl.rd a) 32 = .ok ws →
      let words := maskDescr (ws.map (·.1))
      s.stackWords (fun x => s.check s.cur .load x 8 8) (wd (fld (wordAt words 20) 56 3 * 8)) (Nat.min 1024 (wordAt words 21).toNat) = .ok l →
      let d0 : Descr := ⟨words, l.map (·.1)⟩
      ∃ t, exec (.tnassign d a wa) s = .next t ∧ s.Answers t d (wd (s.assignStatus d0 true)) ∧
        (s.assignStatus d0 true = 0 → (t.tenant d0.vf).st = .assigned ∧ (t.tenant d0.vf).kslot = d0.kslot ∧ (t.tenant d0.vf).seq = 0) ∧
        (s.assignStatus d0 true ≠ 0 → t.tenants = s.tenants)) ∧
    (1 ≤ v → v ≤ 64 → s.stopping = false →
      ((s.tenant v).st = .free → ∃ t, exec (.tnfree d a wa) s = .next t ∧ s.Starts t [d] (.result (.reg d) ((2#64 : Word).setWidth 256) none [])) ∧
      ((s.tenant v).st ≠ .free → (∃ c ∈ s.gangCores v, (s.core c).stopped = false) →
        ∃ t, exec (.tnfree d a wa) s = .next t ∧ s.Starts t [d] (.result (.reg d) ((1#64 : Word).setWidth 256) none [])) ∧
      ((s.tenant v).st ≠ .free → (∀ c ∈ s.gangCores v, (s.core c).stopped = true) → s.sl.ten ≠ v →
        ∃ t, exec (.tnfree d a wa) s = .next t ∧ (∃ f ∈ t.flights, f.who = s.cur ∧ f.act = .result (.reg d) ((0#64 : Word).setWidth 256) none []) ∧
          ((t.tenant v).st = .scrub ∨ (t.tenant v).st = .free) ∧ (t.tenant v).pairs = 0#512 ∧ (t.tenant v).scr = [] ∧
          (t.tenant v).fold = 0#64 ∧ (t.tenant v).matrix = 0#64 ∧ (t.tenant v).nq = 0)) ∧
    (1 ≤ v → v ≤ 64 → let jobs := scrubList (s.core s.cur.core).shadow
      (s.journal.run = true → ∃ t, exec (.scrub d a wa) s = .next t ∧ s.Starts t [d] (.result (.reg d) ((1#64 : Word).setWidth 256) none [])) ∧
      (s.journal.run = false → (∀ j ∈ jobs, s.jobBad j = false ∧ (s.tenant v).holdsJob j = true) → (∃ n, nextJob jobs 0 = some n) →
        ∃ t, exec (.scrub d a wa) s = .next t ∧ s.Answers t d 0#64 ∧ t.journal.run = true ∧ t.journal.vf = v ∧ t.journal.jobs = jobs ∧
          t.journal.chunk = 0 ∧ t.journal.boot = false ∧ t.mem = s.mem))

/-! ## Float lanes, reductions and sparsity -/

/-- R121, R262: on finite lanes, with an exact result in range, every lane of a float operation is that exact sum, product, quotient, fused or
scaled result, or root, rounded once under FRM, and NX says whether any lane is inexact. R262, R263: comparisons and extremes follow the order of
the values, −0 equal to +0, and the sign operations act on the sign bit only; none of these raises a flag. -/
def Obligations.FloatLanesAreRoundedOnce : Prop :=
  ∀ (t : FTy) (d a b : RowName) (l : Bool) (x : RowIn),
    let f := fmtOf t
    let w := f.width
    let fin := fun r : Row => ∀ i < 256 / w, lane r w i % f.signBit < f.infCode
    let out := fun (j : Instr) i => lane ((rowCompute j x).d.headD 0#256) w i
    let X := fun i => f.units (lane x.a0 w i)
    let Y := fun i => f.units (lane x.b w i)
    let Z := fun i => f.units (lane x.d w i)
    let one : Nat := 2 ^ (f.bias + f.fw - 1)
    let most := f.ulps f.maxCode
    let is := fun (j : Instr) (n : Nat → Int) (q : Nat → Nat) =>
      (∀ i < 256 / w, n i ≠ 0 → (n i).natAbs ≤ most * q i → f.Rounds x.rm (n i) (q i) (out j i)) ∧
      ((∀ i < 256 / w, (n i).natAbs ≤ most * q i) →
        ((rowCompute j x).fl.getLsbD 0 = true ↔ ∃ i < 256 / w, f.ulps (out j i % f.signBit) * q i ≠ (n i).natAbs))
    (fin x.a0 → fin x.b → fin x.d →
      is (.vaddF t d a b l) (fun i => X i + Y i) (fun _ => 1) ∧ is (.vsubF t d a b l) (fun i => X i - Y i) (fun _ => 1) ∧
      is (.vmulF t d a b l) (fun i => X i * Y i) (fun _ => one) ∧
      is (.vfma t d a b l) (fun i => Z i * one + X i * Y i) (fun _ => one) ∧ is (.vfms t d a b l) (fun i => Z i * one - X i * Y i) (fun _ => one) ∧
      is (.vdiv t d a b l) (fun i => X i * one * (Y i).sign) (fun i => (Y i).natAbs) ∧
      (∀ i < 256 / w, 0 < X i →
        let g := out (.vsqrt t d a l) i
        let n := (X i).natAbs * one
        match x.rm with
        | .rne => (f.ulps (g - 1) + f.ulps g) ^ 2 ≤ 4 * n ∧ 4 * n ≤ (f.ulps g + f.ulps (g + 1)) ^ 2
        | .rup => n ≤ f.ulps g ^ 2 ∧ f.ulps (g - 1) ^ 2 < n
        | _ => f.ulps g ^ 2 ≤ n ∧ n < f.ulps (g + 1) ^ 2) ∧
      (∀ i < 256 / w,
        out (.vceqF t d a b l) i = (if X i = Y i then 2 ^ w - 1 else 0) ∧ out (.vcltF t d a b l) i = (if X i < Y i then 2 ^ w - 1 else 0) ∧
        out (.vcle t d a b l) i = (if X i ≤ Y i then 2 ^ w - 1 else 0) ∧ f.units (out (.vminF t d a b l) i) = Min.min (X i) (Y i) ∧
        f.units (out (.vmaxF t d a b l) i) = Max.max (X i) (Y i)) ∧
      ∀ j ∈ [Instr.vceqF t d a b l, .vcltF t d a b l, .vcle t d a b l, .vminF t d a b l, .vmaxF t d a b l], (rowCompute j x).fl = 0#7) ∧
    (fin x.a0 →
      let n := fun i => sLane w (lane x.b w i)
      is (.vscl t d a b l) (fun i => X i * 2 ^ (n i).toNat) (fun i => 2 ^ (-n i).toNat)) ∧
    (∀ i < 256 / w, out (.vabsF t d a l) i = lane x.a0 w i % f.signBit ∧ out (.vnegF t d a l) i = (lane x.a0 w i + f.signBit) % 2 ^ w ∧
      out (.vcpys t d a b l) i = lane x.a0 w i % f.signBit + lane x.b w i / f.signBit * f.signBit) ∧
    ∀ j ∈ [Instr.vabsF t d a l, .vnegF t d a l, .vcpys t d a b l], (rowCompute j x).fl = 0#7

/-- R268: VUZP undoes VZIP. R272, R273: packing FP32 into BF16 rounds each lane once, widening BF16 to FP32 is exact, and a conversion to INT32 in
mode RTZ truncates. R276, R277: an integer sum, dot product or maximum takes every lane once into the accumulator lane, wrapped to 32 bits. R279:
VSPRS keeps four lanes of each group, none smaller than one that it drops, ties to the lower index. R280, R281: VSEXP puts them back, and VSDOT is
the dense dot product with that row. -/
def Obligations.ConversionsReductionsAndSparseRows : Prop :=
  ∀ (d a b : RowName) (q : Reg) (l : Bool) (x : RowIn),
    let out := fun (j : Instr) (y : RowIn) => (rowCompute j y).d.headD 0#256
    let total := fun (n : Nat) (f : Nat → Int) => ((List.range n).map f).sum
    let s8 := fun (r : Row) i => sLane 8 (lane r 8 i)
    (∀ p ∈ [(Instr.vzipH d a b l, Instr.vuzpH d a b l), (.vzipW d a b l, .vuzpW d a b l)],
      let z := (rowCompute p.1 x).d
      (rowCompute p.2 { x with a := z, b := z.getD 1 0#256 }).d = [x.a0, x.b]) ∧
    (∀ (rm : RMode) (i : Nat) (r0 r1 : Row), x.a = [r0, r1] → i < 16 →
      let v := lane (if i < 8 then r0 else r1) 32 (i % 8)
      v % 2 ^ 31 < fp32.infCode → fp32.units v ≠ 0 → (fp32.units v).natAbs ≤ bf16.ulps bf16.maxCode * 2 ^ 16 →
      bf16.Rounds rm (fp32.units v) (2 ^ 16) (lane (out (.vpack d a rm false false 0#4 l) x) 16 i)) ∧
    (∀ (rm : RMode) (i : Nat), i < 16 → lane x.a0 16 i % 2 ^ 15 < bf16.infCode →
      lane ((rowCompute (.vwiden d a rm false false 4#4 l) x).d.getD (i / 8) 0#256) 32 (i % 8) = lane x.a0 16 i * 2 ^ 16) ∧
    (∀ i, i < 8 → lane x.a0 32 i % 2 ^ 31 < fp32.infCode → (fp32.units (lane x.a0 32 i)).natAbs < 2 ^ 31 * 2 ^ 149 →
      sLane 32 (lane (out (.vcvt d a .rtz false false 12#4 l) x) 32 i) = (fp32.units (lane x.a0 32 i)).tdiv (2 ^ 149)) ∧
    (∀ p ∈ [(RedTy.i32, 32), (.i16, 16), (.i8, 8)],
      let n := 256 / p.2
      let v := fun i => sLane p.2 (lane x.a0 p.2 i)
      let acc := sLane 32 (lane x.d 32 0)
      (lane (out (.vrsum d a p.1 l) x) 32 0 : Int) = (acc + total n v) % 2 ^ 32 ∧
      (∀ m, sLane 32 (lane (out (.vrmax d a p.1 l) x) 32 0) ≤ m ↔ acc ≤ m ∧ ∀ i < n, v i ≤ m) ∧
      (∀ m, m ≤ sLane 32 (lane (out (.vrmin d a p.1 l) x) 32 0) ↔ m ≤ acc ∧ ∀ i < n, m ≤ v i) ∧
      ∀ j ∈ [Instr.vrsum d a p.1 l, .vrmax d a p.1 l, .vrmin d a p.1 l], (rowCompute j x).fl = 0#7 ∧
        ∀ i, 4 ≤ i → i < 32 → lane (out j x) 8 i = lane x.d 8 i) ∧
    (∀ p ∈ [(Instr.vdotI16 d a b l, Instr.vdotwI16 d a b l, 16), (.vdotI8 d a b l, .vdotwI8 d a b l, 8)],
      let v := fun i => sLane p.2.2 (lane x.a0 p.2.2 i) * sLane p.2.2 (lane x.b p.2.2 i)
      (lane (out p.1 x) 32 0 : Int) = (sLane 32 (lane x.d 32 0) + total (256 / p.2.2) v) % 2 ^ 32 ∧
      ∀ j < 8, (lane (out p.2.1 x) 32 j : Int) =
        (sLane 32 (lane x.d 32 j) + total (32 / p.2.2) fun k => v (32 / p.2.2 * j + k)) % 2 ^ 32) ∧
    (let r := out (.vsprs d a q l) x
      ∃ m, (rowCompute (.vsprs d a q l) x).s = some m ∧ metaOk m = true ∧ (∀ i, 16 ≤ i → i < 32 → lane r 8 i = 0) ∧
        (∀ g < 4, ∀ j < 4, lane r 8 (4 * g + j) = lane x.a0 8 (8 * g + metaIx m g j) ∧
          ∀ u < 8, (∀ k < 4, u ≠ metaIx m g k) →
            (s8 x.a0 (8 * g + u)).natAbs < (s8 x.a0 (8 * g + metaIx m g j)).natAbs ∨
            (s8 x.a0 (8 * g + u)).natAbs = (s8 x.a0 (8 * g + metaIx m g j)).natAbs ∧ metaIx m g j < u) ∧
        ∀ p < 32, lane (out (.vsexp d a q l) { x with a := [r], sc := [m] }) 8 p =
          if (List.range 4).any fun j => metaIx m (p / 8) j == p % 8 then lane x.a0 8 p else 0) ∧
    (∀ m, metaOk m = true →
      (rowCompute (.vsdot q a b l) { x with sc := [wordAt x.sc 0, m] }).s =
        some (wordAt x.sc 0 + BitVec.ofInt 64 (total 32 fun p => s8 (out (.vsexp d a q l) { x with sc := [m] }) p * s8 x.b p)))

/-! ## Cells and synchronisation as they are performed -/

/-- R29, R33, R252: DECR performed on a cell takes its amount from COUNT, not below 0, and answers with the old COUNT; reaching 0 it fires the
waiter and clears both words. R29, R251, R255: TASKQ and AWAIT of a cell that is not 0 leave their waiter in it. R254, R389: HALT.rt binds the
halted strand's banks to its handle while the count is not 0, charged to the task's queue. R291: a CBAR arrival counts, and the last one clears COUNT and adds 1 to GEN. -/
def Obligations.CellsCountWaitAndFire : Prop :=
  ∀ (s : State) (f : Flight) (cell : Word), s.AtCell f cell →
    let k := cell.toNat
    let c := wd (s.num k 8)
    let w := wd (s.num (k + 8) 8)
    (∀ d amount, f.act = .decr d cell amount → c = 0#64 ∨ amount < c ∨ fld w 63 62 = 0 →
      ∃ t, exec (.cellDecr f.id) s = .next t ∧ t.num k 8 = c.toNat - amount.toNat ∧ t.num (k + 8) 8 = w.toNat ∧ s.onlyAt t k 16 ∧
        t.Answered f c) ∧
    (∀ d amount p home task, f.act = .decr d cell amount → c ≠ 0#64 → c ≤ amount → fld w 63 62 = 1 → p = wd (fld w 56 0) →
      s.cellFault f.ten p = none → home = (chipOf p.toNat).core → s.coreOf f.ten home = true → (s.core home).tasks.find? (fun t => t.handle == p) = some task →
      (∀ e ∈ (s.core home).tasks, e.handle = p → e.bad = false) → headerBad (wordAt task.words 0) = false → (s.cluster (home / 16)).banks.length = 8 →
      ∃ t, exec (.cellDecr f.id) s = .next t ∧ t.num k 8 = 0 ∧ t.num (k + 8) 8 = 0 ∧ s.onlyAt t k 16 ∧ t.Answered f c ∧
        ∃ x, (x ∈ (t.cluster (home / 16)).entries ∨ x ∈ (t.cluster (home / 16)).overflow) ∧ x.work = .task p ∧ x.ten = f.ten ∧
          x.home = some home ∧ x.prio = fld (wordAt task.words 0) 63 58) ∧
    (f.act = .taskq cell → c ≠ 0#64 →
      ∃ t, exec (.cellTaskq f.id) s = .next t ∧ t.num (k + 8) 8 = 2 ^ 62 + k % 2 ^ 57 ∧ s.onlyAt t (k + 8) 8 ∧ t.flight? f.id = none) ∧
    (∀ rec e, f.act = .await cell rec e → c ≠ 0#64 →
      ∃ t, exec (.cellAwait f.id) s = .next t ∧ t.num (k + 8) 8 = 2 * 2 ^ 62 + rec.toNat % 2 ^ 57 ∧ s.onlyAt t (k + 8) 8 ∧
        t.flight? f.id = none) ∧
    (∀ held, f.act = .bind cell held → c ≠ 0#64 → (∀ e ∈ (s.core f.who.core).retained, ¬ (e.handle = cell ∧ e.ten = f.ten)) →
      ∃ t, exec (.haltRtBind f.id) s = .next t ∧ t.flight? f.id = none ∧
        ∀ e ∈ (s.core f.who.core).retained, e.handle = held → e.ten = f.ten →
          { e with handle := cell, queue := fld (wd (s.num (k + 16) 8)) 57 48 } ∈ (t.core f.who.core).retained) ∧
    (∀ d n, f.act = .cbar d cell n →
      ∃ t, exec (.cbarArrival f.id) s = .next t ∧ s.onlyAt t k 16 ∧
        t.num k 8 = (if n ≤ c.toNat + 1 then 0 else (c.toNat + 1) % 2 ^ 64) ∧
        t.num (k + 8) 8 = (if n ≤ c.toNat + 1 then (w.toNat + 1) % 2 ^ 64 else w.toNat) ∧
        ∃ h o, t.flight? f.id = some { f with act := .cbarWait d cell w [], hop := h, owed := o })

/-- R62 to R64: a store into a scalar register is a deposit that lands at the end of the cycle: until then no register differs; then it writes the
register and sets it full, and changes no other; of two that land in one cycle the one that R60 orders later remains. R67, R68: a bank's wake makes it
Full, what it held is then performed, and a hint that waited takes effect after that. R58, R369: a walk that ends in a leaf installs its translation,
and one that fails leaves its fault with the strands that wait. R371: a failed host request gives all ones and fault 0x17; of a copy's group, all
ones in its destination where it is the read, and the fault, with the operation ended. R372: a wake that fails its retention check leaves every
granule poisoned. R88: an entry arrives in its run list, an operation at the tail of its engine queue, each with all that its party has
performed. -/
def Obligations.DepositsWakesWalksAndArrivals : Prop :=
  (∀ (s : State) (f : Flight) (va : Word) (k : Nat) (bs : List Byte), s.flight? f.id = some f →
    s.barredAt f.who.core k = false → s.forwardOf f.who.core k = none → f.act = .store va k bs .plain .none →
    chipBit ≤ k → (chipOf k).unit < 16 → (chipOf k).region = 2 → (chipOf k).off < 0x400 → (chipOf k).off % 8 = 0 → bs.length = 8 →
    let r : SlotRef := ⟨(chipOf k).core, (chipOf k).off / 0x100⟩
    let d : Reg := BitVec.ofNat 5 ((chipOf k).off % 0x100 / 8)
    (s.performable f = true →
      ∃ t, exec (.deposit f.id) s = .next t ∧ t.slot r = s.slot r ∧ t.mem = s.mem ∧ t.flight? f.id = some { f with landing := true } ∧
        t.deposits = s.deposits ++ [{ op := f.id, party := f.party, ten := f.ten, rank := s.reqRank f k, key := k, data := bs }]) ∧
    (∀ e, s.deposits = [e] → e.op = f.id →
      let t := s.landDeposits
      (t.slot r).Holds d (wd (leNat bs)) ∧ t.mem = s.mem ∧ t.flight? f.id = none ∧ t.deposits = [] ∧
        ∀ q, q ≠ d → (t.slot r).rd q = (s.slot r).rd q ∧ (t.slot r).isFull q = (s.slot r).isFull q) ∧
    (∀ e g : Deposit, s.deposits = [e, g] → s.flight? e.op = none → s.flight? g.op = none → e.key = k → g.key = k → e.data.length = 8 →
      g.data.length = 8 → (s.landDeposits.slot r).Holds d (wd (leNat (if g.rank < e.rank then e.data else g.data))))) ∧
  (∀ (s : State) (core b : Nat) (sound : Bool), (s.core core).bank b = 3 → s.groups = [] →
    let due := (s.core core).hints.filter fun h => h.1 == b
    ((∀ f ∈ s.flights, s.heldAt core b f = false) →
      ∃ t, exec (.bankWakeComplete core ⟨b, sound⟩) s = .next t ∧ (∀ n, n ≠ b → (t.core core).bank n = (s.core core).bank n) ∧
        (due = [] → (t.core core).bank b = 2 ∧ t.mem = s.mem ∧
          (sound = true ∨ (s.core core).kept.getLsbD b = false → t.poison = s.poison) ∧
          (sound = false → (s.core core).kept.getLsbD b = true → ∀ i < bankSize b / 16, bankAddr core b + 16 * i ∈ t.poison)) ∧
        (due = [(b, 1)] → (t.core core).bank b = 1 ∧ t.mem = s.mem) ∧
        (due = [(b, 0)] → (t.core core).bank b = 0 ∧ s.onlyAt t (bankAddr core b) (bankSize b) ∧
          ∀ a, bankAddr core b ≤ a → a < bankAddr core b + bankSize b → Memory.get t.mem a = Memory.unlisted)) ∧
    (∀ (f : Flight) (d : Reg) (va : Word) (k n : Nat) (sg acq : Bool), s.flight? f.id = some f → s.heldAt core b f = true →
      (∀ g ∈ s.flights, g ≠ f → s.heldAt core b g = false) → f.act = .load (.reg d) va k n sg acq .none → s.barredAt f.who.core k = false →
      s.forwardOf f.who.core k = none → s.settled k n → s.poison = [] → due = [] → sound = true →
      ∃ t h o, exec (.bankWakeComplete core ⟨b, sound⟩) s = .next t ∧ (t.core core).bank b = 2 ∧ t.mem = s.mem ∧
        t.flight? f.id = some { f with act := .result (.reg d) (extend sg n (s.num k n)) none [], hop := h, owed := o })) ∧
  (∀ (s : State) (w : Walk), s.walks.find? (fun v => v.id == w.id) = some w → w.dead = false → s.walkRuns w = true →
    (∀ r ∈ w.waiters, s.storesOwed r = false ∧ r.slot < 4) →
    ∃ t, exec (.walkComplete w.id) s = .next t ∧ t.mem = s.mem ∧ (∀ v ∈ t.walks, v.id ≠ w.id) ∧
      (∀ e, s.walk w.ten w.level w.root (w.page * 4096) = .ok e → ∀ c ∈ w.cluster :: w.waiters.map (fun r => s.clusterOf r.core) ++ w.units.map (·.2),
        ∃ g ∈ (t.cluster c).tlb, g.covers w.ten (w.page * 4096) = true) ∧
      (∀ l, s.walk w.ten w.level w.root (w.page * 4096) = .error l → ∀ r ∈ w.waiters, (s.slot r).ten = w.ten →
        (t.slot r).walk = some ⟨w.page, 7, wd (l * 2 ^ 61)⟩)) ∧
  (∀ (s : State) (f : Flight) (va : Word) (k : Nat), s.flight? f.id = some f → s.place k = .host → s.holds f.who f.party = true →
    (s.slot f.who).frozen = false → f.who.slot < 4 → f.own = false → f.pkt = none → f.outlived = false →
    let fails (t : State) : Prop := t.mem = s.mem ∧ (t.slot f.who).pend = (s.slot f.who).pend ++ [{ code := 0x17, tval := va, handler := f.inh }]
    (∀ d n sg acq h, f.act = .load d va k n sg acq h → ∃ t h o, exec (.hostRequestFail f.id) s = .next t ∧ fails t ∧
      t.flight? f.id = some { f with act := .result d (BitVec.allOnes 256) none [], hop := h, owed := o }) ∧
    (∀ bs o h, f.act = .store va k bs o h → ∃ t, exec (.hostRequestFail f.id) s = .next t ∧ fails t ∧ t.flight? f.id = none)) ∧
  (∀ (s : State) (p : HostPiece), let o := p.op
    s.flight? o.id = none → s.hostPiece o.id = some p → s.holds o.who o.party = true → (s.slot o.who).frozen = false → o.who.slot < 4 →
    ∃ t, exec (.hostRequestFail o.id) s = .next t ∧ (∀ x ∈ (t.core p.core).queue, x.id ≠ o.id) ∧
      (t.slot o.who).pend = (s.slot o.who).pend ++ [{ code := 0x17, tval := p.va }] ∧ (p.dst = none → t.mem = s.mem) ∧
      ∀ k, p.dst = some k → s.memOk → s.place k = .stack → t.num k 8 = 2 ^ 64 - 1 ∧ s.onlyAt t k 8) ∧
  (∀ (s : State) (f : Flight), s.flight? f.id = some f → s.performable f = true →
    (∀ e l, f.act = .enqueue e l → ∃ t, exec (.enqueueArrival f.id) s = .next t ∧ t.flight? f.id = none ∧ t.mem = s.mem ∧
      (l < 1024 → (s.cluster l).banks.length = 8 → t.Listed l { e with rel := s.relOf f.party 3 }) ∧
      (1024 ≤ l → (t.core l).runList = (s.core l).runList ++ [{ e with rel := s.relOf f.party 3, stamp := s.cycle }])) ∧
    (∀ c op, f.act = .engine (.copy c) op → ∃ t, exec (.enqueueArrival f.id) s = .next t ∧ t.flight? f.id = none ∧ t.mem = s.mem ∧
      (t.core c).queue = (s.core c).queue ++ [{ op with rel := s.relSet f.party }]))

/-! ## Strands begin and end -/

/-- R28, R248, R253: at the end of its drain HALT frees its slot, turns its banks Off, counts the instruction and sends a DECR of 1 to each
successor and to SUCC. R27, R250: SUSP writes the strand's record and frees its slot, and the record enters the run list. R40: GBAR of a strand of
no launch only goes on. R248: a drain discards the queued rows and the store addresses that have none. -/
def Obligations.DrainedStrandsEndSuspendOrGoOn : Prop :=
  ∀ (s : State) (core slot : Nat), slot < 4 →
    let r : SlotRef := ⟨core, slot⟩
    let x := s.slot r
    s.mayRun r = true → s.drained r = true → s.boundaryDue r = false →
    (x.drain = some .halt → x.origin = .record → x.pend = [] →
      ∃ t, exec (.strandDrainEnd core slot) s = .next t ∧ (t.slot r).occ = .free ∧ (t.slot r).retired = x.retired + 1#64 ∧
        (∀ b ∈ x.tiles, (t.core core).bank b = 0) ∧ (∀ b < 48, x.sb.getLsbD b = true → (t.core core).bank (16 + b) = 0) ∧
        (∀ h ∈ x.succs ++ (if x.succ = 0#64 then [] else [x.succ]), ∃ f ∈ t.flights, f.act = .decr .none h 1#64 ∧ f.who = r ∧ f.ten = x.ten) ∧
        ∀ a < 2 ^ 56, Memory.get t.mem a = Memory.get s.mem a) ∧
    (∀ key, x.drain = some (.susp false) → x.origin = .record → x.occ = .running → x.pend = [] → x.tiles = [] → x.sb = 0#48 → core < 1024 →
      ({ s with cur := r } : State).quietDrain = true → s.memOk → (s.cluster (core / 16)).banks.length = 8 →
      s.check r .store (x.rd 6#5) 64 64 = .ok key → s.place key = .stack →
      ∃ t, exec (.strandDrainEnd core slot) s = .next t ∧ (t.slot r).occ = .free ∧ s.onlyAt t key 64 ∧
        t.num key 8 = (x.pc + 4#64).toNat ∧ t.num (key + 8) 8 = x.workid.toNat ∧
        (∀ i < 4, t.num (key + 16 + 8 * i) 8 = (x.rd (BitVec.ofNat 5 (2 + i))).toNat) ∧
        t.num (key + 48) 8 = x.st.toNat / 2 ^ 39 * 2 ^ 39 ∧ t.num (key + 56) 8 = x.succ.toNat ∧
        ∃ e, (e ∈ (t.cluster (core / 16)).entries ∨ e ∈ (t.cluster (core / 16)).overflow) ∧ e.work = .record (x.rd 6#5) ∧ e.ten = x.ten ∧
          e.prio = fld x.st 63 58) ∧
    (∀ l, x.drain = some (.gbar l) → (∀ id n, x.origin ≠ .launch id n) → ({ s with cur := r } : State).quietDrain = true →
      ∃ t, exec (.strandDrainEnd core slot) s = .next t ∧ (t.slot r).pc = x.pc + 4#64 ∧ (t.slot r).drain = none ∧ t.mem = s.mem ∧
        (t.slot r).lq = [] ∧ (t.slot r).sq = [] ∧ (t.slot r).sa = [] ∧
        (∀ f ∈ t.flightsOf r, f ∈ s.flightsOf r ∧ ∀ va k bs o h, f.act = .store va k bs o h → f.ready = true) ∧
        ∀ q, (t.slot r).rd q = x.rd q ∧ (t.slot r).isFull q = x.isFull q)

/-- R25, R34, R158, R160, R193: a pop that picks a launch entry starts the strand of its lowest ordinal in the granted slot with the work ID and the
arguments of its header; a memory core's pop does the same, or starts the message at the head of its inbound queue. R34: the oldest entry that has
waited is promoted for a core. R387: an entry with an uncorrectable error is removed and reported. R41: an admitted PERSIST launch has a pinned slot
for its strand, which starts there from its launch entry. R32: a task whose count has fallen to 1 is copied to a shadow slot. -/
def Obligations.PopsAdmissionsAndPrefetches : Prop :=
  (∀ (s : State) (cluster core n id lo hi : Nat) (l : BitVec 32) (e : RunEntry) (la : Launch) (g : List Nat × BitVec 48),
    let cores := (List.range 16).map (16 * cluster + ·)
    let s0 := (s.makeOffers cluster).refreshTasks cluster
    (s.cluster cluster).popped ≠ some s.cycle → (∀ c ∈ cores, s.nextSpilled c = none) →
    cores.find? (fun c => s0.coreOpen c && (s0.pickFor c).1.isSome) = some core → s0.pickFor core = (some (.entry e), l) →
    e.work = .launch id lo hi → e.poison = false → s0.launch? id = some la → s0.grantFor e core = some (n, g.1, g.2) →
    let sp := la.spec (la.ordinalAt (e.home.getD 0) lo) g.1 g.2
    ∃ t, exec (.runListPop cluster) s = .next t ∧ (t.slot ⟨core, n⟩).Begins core sp.pc la.ten sp.regs ∧ (t.slot ⟨core, n⟩).tiles = g.1 ∧
      (t.slot ⟨core, n⟩).sb = g.2 ∧ (la.persist = true → (t.slot ⟨core, n⟩).occ = .pinned) ∧ (t.cluster cluster).popped = some s.cycle) ∧
  (∀ (s : State) (core n : Nat), coreKind core = .memory → s.coreOpen core = true → (s.core core).popped ≠ some s.cycle →
    s.nextSpilled core = none →
    (∀ (e : RunEntry) (id lo hi : Nat) (la : Launch) (g : List Nat × BitVec 48), s.candidates core ((s.core core).runList.take 64) = [e] →
      s.messageFor core = none → e.work = .launch id lo hi → e.poison = false → s.launch? id = some la →
      s.grantFor e core = some (n, g.1, g.2) →
      let sp := la.spec (la.ordinalAt (e.home.getD 0) lo) g.1 g.2
      ∃ t, exec (.memoryCorePop core) s = .next t ∧ (t.slot ⟨core, n⟩).Begins core sp.pc la.ten sp.regs) ∧
    (∀ e : RunEntry, s.candidates core ((s.core core).runList.take 64) = [e] → s.messageFor core = none → e.poison = true → s.launches = [] →
      fld (s.tenant e.ten).flog 7 0 = 0 →
      ∃ t rp, exec (.memoryCorePop core) s = .next t ∧ (t.core core).runList = (s.core core).runList.erase e ∧ t.mem = s.mem ∧
        t.reports = s.reports ++ [rp] ∧ rp.ten = e.ten ∧ rp.cause = 0x16#64 ∧ rp.tval = 0#64) ∧
    (∀ (m : HMsg) (ms : List HMsg), s.candidates core ((s.core core).runList.take 64) = [] → s.freeSlotOf core = some n →
      (s.core core).aged = none → (s.core core).inbound = m :: ms →
      ∃ t, exec (.memoryCorePop core) s = .next t ∧ (t.slot ⟨core, n⟩).Begins core m.pc m.ten (m.src :: m.args) ∧ (t.core core).inbound = ms)) ∧
  (∀ (s : State) (core : Nat) (e : RunEntry), core < 1024 → (s.core core).aged = none → s.coreOpen core = true →
    e ∈ (s.cluster (core / 16)).entries → 65536 < s.cycle - e.stamp → s.mayStart e core = true → s.couldGrant e core = true →
    (∀ i < 16, (s.core (core / 16 * 16 + i)).aged.any e.same = false) → (∀ q, e.work ≠ .resume q) →
    ∃ t a, exec (.agePromotion core) s = .next t ∧ (t.core core).aged = some a ∧ a ∈ (s.cluster (core / 16)).entries ∧ a.stamp ≤ e.stamp ∧
      t.mem = s.mem) ∧
  (∀ (s u : State) (la : Launch), s.launch? la.id = some la → la.admitted = false →
    s.admitBehind la = false → la.targets = 1 → la.shareOf 0 = 1 → s.pinSlot la 0 0 = some u →
    ∃ t n, exec (.persistAdmit la.id) s = .next t ∧ t.launch? la.id = some { la with admitted := true } ∧
      let y := t.slot ⟨if la.memc then 1024 + fld la.place 5 0 else fld la.place 5 0 * 16, n⟩
      y.occ = .pinned ∧ y.parked = true ∧ y.ten = la.ten ∧ y.origin = .launch la.id (la.ordinalAt 0 0)) ∧
  (∀ (s : State) (core ten : Nat) (handle : Word), (s.core core).falls.find? (fun e => e.1 == handle) = some (handle, ten) → s.poison = [] →
    let k := handle.toNat + 16
    let w := wd (s.num k 8)
    let there (j : Nat) : Prop := s.checkNow (core / 16) ten (s.devLevel ten) .load false (wd (k + 8 * j)) 8 = .ok (k + 8 * j) ∧
      inScr (k + 8 * j) = true ∧ s.goneAt 4096 (k + 8 * j) = false ∧ s.forwardOf 4096 (k + 8 * j) = none ∧ s.settled (k + 8 * j) 8 ∧
      (s.core (chipOf (k + 8 * j)).core).bank (16 + (chipOf (k + 8 * j)).off / 0x2000) = 2
    k < 2 ^ 57 → there 0 →
    (headerBad w = false → (∀ j < fld w 5 0 - 2, there j) →
      ∃ t ws, exec (.taskPrefetch core handle) s = .next t ∧ (t.core core).tasks = (s.core core).tasks ++ [{ handle := handle, words := ws }] ∧
        (t.core core).falls = (s.core core).falls.erase (handle, ten) ∧ ws.length = fld w 5 0 - 2 ∧
        (∀ j < ws.length, (wordAt ws j).toNat = s.num (k + 8 * j) 8) ∧ t.mem = s.mem) ∧
    (headerBad w = true →
      ∃ t, exec (.taskPrefetch core handle) s = .next t ∧ (∃ e ∈ (t.core core).tasks, e.handle = handle ∧ e.bad = true) ∧
        ∃ p ∈ t.reports, p.ten = ten ∧ p.cause = 0x0C#64 ∧ p.tval = 0x302#64))

/-- R336, R341, R343: at a boundary a slot takes its completed single step, else the oldest asynchronous fault that waits, else the watchdog's
request, through the one trap entry, the PC of the interrupted strand in TPC. R338: a fault of a handler's own access escalates: the slot freezes
and a report is written that says in KILLED whether a launch of its queue was killed. -/
def Obligations.BoundaryEventsEnterTheHandler : Prop :=
  ∀ (s : State) (core slot : Nat), slot < 4 →
    let r : SlotRef := ⟨core, slot⟩
    let x := s.slot r
    s.mayAct r = true →
    (bit x.trap.tstat 4 = false → fld (s.tvecOf r) 56 2 ≠ 0 →
      let enters (code v : Word) (rest : List AFault) : Prop :=
        ∃ t, exec (.asyncTrap core slot) s = .next t ∧ t.mem = s.mem ∧
          let y := t.slot r
          y.pc = wd (fld (s.tvecOf r) 56 2 * 4) ∧ y.trap.tpc = x.pc ∧ y.trap.tcause = code ∧ y.trap.tval = v ∧ bit y.trap.tstat 4 = true ∧
          fld y.trap.tstat 1 0 = x.level.code ∧ y.level = (if coreKind core = .monitor then .m else .s) ∧ y.pend = rest ∧
          ∀ q, y.rd q = x.rd q ∧ y.isFull q = x.isFull q
      (s.stepTrap r = true → enters 0x10#64 0#64 x.pend) ∧
      (x.stepDue = false → ∀ f rest, x.pend = f :: rest → enters (wd (2 ^ 63 + f.code)) f.tval rest) ∧
      (x.stepDue = false → x.pend = [] → x.pre = true → enters (wd (2 ^ 63 + 0x11)) (wd (fld x.st 57 48)) [])) ∧
    (bit x.trap.tstat 4 = true → ∀ f, x.pend = [f] → f.handler = true → coreKind core ≠ .monitor →
      ∃ t, exec (.asyncTrap core slot) s = .next t ∧ (t.slot r).frozen = true ∧
        ∃ p ∈ t.reports, p.killed = s.kills x.ten (fld x.st 57 48) ∧ p.cause = wd (2 ^ 63 + f.code) ∧ p.tval = f.tval ∧ p.src = s.srcId r ∧ p.ten = x.ten)

/-! ## Launches, watchdogs and donations -/

/-- R149, R150: a doorbell writes QWP, and a header is fetched into the header buffer while there is room. R39, R151, R153: the arbiter's acceptance
of a lawful header makes its launch; a failing header is refused with report 0x0C. R256, R354: LNCH, whose header was read as it issued, answers the
number of strands, or 0 with the fault of the read or with 0x0C. -/
def Obligations.HeadersAreFetchedAndAccepted : Prop :=
  (∀ (s : State) (vf q : Nat) (v : Word), q < (s.tenant vf).nq →
    ∃ t, exec (.queueDoorbell vf q v) s = .next t ∧ ((t.tenant vf).queues.get {} q).wp = v.toNat % 2 ^ 32 ∧
      (∀ p, p ≠ q → (t.tenant vf).queues.get {} p = (s.tenant vf).queues.get {} p) ∧ t.mem = s.mem) ∧
  (∀ (s : State) (vf q k : Nat), let h := (s.tenant vf).queues.get {} q
    q < (s.tenant vf).nq → bit h.cfg 63 = true → h.wp ≠ h.rp → (s.tenant vf).hbuf.length < 8 → (s.tenant vf).served = true → s.poison = [] →
    s.checkNow 0 vf .s .load false (wd (fld h.base 56 12 * 0x1000 + 128 * (h.rp % 2 ^ fld h.cfg 4 0))) 128 = .ok k → s.place k = .stack →
    s.settled k 128 →
    ∃ t ws, exec (.headerFetch vf q) s = .next t ∧ (t.tenant vf).hbuf = (s.tenant vf).hbuf ++ [⟨q, ws, s.fresh⟩] ∧ ws.length = 16 ∧
      (∀ i < 16, (wordAt ws i).toNat = s.num (k + 8 * i) 8) ∧ ((t.tenant vf).queues.get {} q).rp = (h.rp + 1) % 2 ^ 32 ∧ t.mem = s.mem) ∧
  (∀ (s : State) (v q : Nat) (te : Tenant) (hd : Header) (rest : List Header), s.accepted ≠ some s.cycle →
    ((s.tenants.filter fun t => !t.2.pendingQueues.isEmpty).map (·.1)) = [v] → (s.tenant v).choose = some (q, te) →
    takeHeader q te.hbuf = some (hd, rest) →
    let l := launchOf hd.words s.fresh v (some q) hd.arrived s.cycle []
    (s.headerFault l = none → wordAt hd.words 15 = 0#64 →
      ∃ t, exec .launchAccept s = .next t ∧ t.launches = s.launches ++ [l] ∧ (t.tenant v).hbuf = rest ∧ t.accepted = some s.cycle ∧ t.mem = s.mem) ∧
    (∀ i, s.headerFault l = some i → ∃ t, exec .launchAccept s = .next t ∧ t.launches = s.launches ∧
      ∃ p ∈ t.reports, p.cause = 0x0C#64 ∧ p.tval = wd (0x300 + i) ∧ p.ten = v ∧ p.queue = q)) ∧
  (∀ (s : State) (f : Flight) (d : Dest) (hdr : Word) (ws : List Word) (bad : Option (Nat × Word)), s.flight? f.id = some f →
    f.act = .lnch d hdr ws bad →
    let l := launchOf ws s.fresh f.ten none f.id s.cycle f.rel
    let fails (c : Nat) (v : Word) : Prop :=
      ∃ t, exec (.lnchHeaderRead f.id) s = .next t ∧ t.launches = s.launches ∧ t.Answered f 0#64 ∧ t.mem = s.mem ∧
        (t.slot f.who).pend = (s.slot f.who).pend ++ [{ code := c, tval := v, handler := f.inh }]
    (bad = none → s.headerFault l = none → wordAt ws 15 = 0#64 →
      ∃ t, exec (.lnchHeaderRead f.id) s = .next t ∧ t.launches = s.launches ++ [l] ∧ t.Answered f (wd l.total) ∧ t.mem = s.mem) ∧
    (s.holds f.who f.party = true → (s.slot f.who).frozen = false → f.who.slot < 4 → f.own = false → f.pkt = none → f.outlived = false →
      (∀ i, bad = none → s.headerFault l = some i → fails 0x0C (wd (0x300 + i))) ∧
      (∀ c v, bad = some (c, v) → fails c v)))

/-- R38, R155: a target's share of a launch joins its run list as one launch entry. R113, R149, R151: a launch whose strands have all halted is
complete: it leaves, QSTATUS counts it and shows that it was approximate, and the vector of the queue whose ring it came from is raised. R165, R343,
R391: the watchdog's steps ask for pre-emption, kill the queue and fence the cores that still hold a strand of a killed launch. -/
def Obligations.LaunchesAreDealtCompletedAndWatched : Prop :=
  (∀ (s : State) (la : Launch) (k : Nat), s.launch? la.id = some la → k ∈ la.undealt → la.admitted = true → la.memc = false → la.shareOf k ≠ 0 →
    fld la.place 5 0 + k < 1024 → (s.cluster (fld la.place 5 0 + k)).banks.length = 8 →
    ∃ t, exec (.launchDeal la.id k) s = .next t ∧ t.launch? la.id = some { la with undealt := la.undealt.erase k } ∧ t.mem = s.mem ∧
      t.Listed (fld la.place 5 0 + k) { work := .launch la.id 0 (la.shareOf k), prio := fld la.state 63 58, stamp := 0, ten := la.ten, queue := la.queue,
                                        home := some k, rel := [(3, la.rel)], st := la.state }) ∧
  (∀ (s : State) (la : Launch), s.launch? la.id = some la → la.total ≤ la.halted →
    (∀ f ∈ s.flights, f.ten = la.ten → ∀ d c a, f.act = .decr d c a → c ≠ wordAt la.words 15) →
    ∃ t, exec (.launchComplete la.id) s = .next t ∧ t.launches = s.launches.filter (fun m => m.id != la.id) ∧ t.mem = s.mem ∧
      ((t.tenant la.ten).queues.get {} la.queue).done = (((s.tenant la.ten).queues.get {} la.queue).done + 1) % 2 ^ 32 ∧
      (la.approx = true → ((t.tenant la.ten).queues.get {} la.queue).approx = true ∧ (t.tenant la.ten).flags.getLsbD 0 = true) ∧
      ∀ q, la.ring = some q → let cfg := ((s.tenant la.ten).queues.get {} q).cfg
        bit cfg 62 = true → fld cfg 55 48 < msixVectors la.ten → Out.msix la.ten (fld cfg 55 48) ∈ t.out) ∧
  (∀ (s : State) (vf q : Nat), let h := (s.tenant vf).queues.get {} q
    (∀ la, s.oldestLaunch vf q = some la → h.wstep = 0 → fld h.wdog 19 0 ≠ 0 → h.wstart + 700 * fld h.wdog 19 0 ≤ s.cycle →
      ∃ t, exec (.watchdogPre vf q) s = .next t ∧ t.mem = s.mem ∧ ((t.tenant vf).queues.get {} q).wstep = 1 ∧
        ∀ r ∈ s.allSlots, (s.slot r).occ ≠ .free → (∃ n, (s.slot r).origin = .launch la.id n) → (t.slot r).pre = true) ∧
    (∀ la, s.oldestLaunch vf q = some la → h.wstep = 1 → fld h.wdog 19 0 ≠ 0 → fld h.wdog 39 20 ≠ 0 →
      h.wstart + 700 * fld h.wdog 39 20 ≤ s.cycle →
      ∃ t, exec (.watchdogKill vf q) s = .next t ∧ (∀ m ∈ t.launches, ¬ (m.ten = vf ∧ m.queue = q)) ∧
        bit ((t.tenant vf).queues.get {} q).cfg 63 = false ∧
        ((t.tenant vf).queues.get {} q).fences = h.fences ++ [(s.cycle, (s.launches.filter fun l => l.ten == vf && l.queue == q).map (·.id))] ∧
        ∃ p ∈ t.reports, p.ten = vf ∧ p.cause = 0x12#64 ∧ p.tval = wd q ∧ p.killed = true) ∧
    (∀ t0 ids rest, h.fences = (t0, ids) :: rest → fld h.wdog 19 0 ≠ 0 → fld h.wdog 39 20 ≠ 0 → fld h.wdog 59 40 ≠ 0 →
      t0 + 700 * fld h.wdog 59 40 ≤ s.cycle →
      ∃ t, exec (.watchdogFence vf q) s = .next t ∧ ((t.tenant vf).queues.get {} q).fences = rest ∧
        ∀ r ∈ s.allSlots, s.holdsAny ids r = true →
          (t.core r.core).fenced = true ∧ ∃ p ∈ t.reports, p.ten = vf ∧ p.cause = 0x12#64 ∧ p.fenced = true))

/-- R161: a cluster that has been idle for 64 cycles asks its first neighbour; the victim keeps the lower half of the ranks of its highest-ranked
launch entry and ships the upper half, which the thief enters in its run list; refused, it asks the next one while it is still idle, and after four
refusals it waits for 1,024 cycles and may then ask again. -/
def Obligations.IdleClustersStealHalfOfALaunchEntry : Prop :=
  ∀ (s : State) (k : Nat), let st := (s.cluster k).steal
    (∀ t0 ten n ns, k < s.nclusters → s.idleNow k = true → st.idleSince = some t0 → 64 ≤ s.cycle - t0 → st.waiting = none → st.backoff = none →
      s.tenantOn k = some ten → s.neighbours ten k = n :: ns → st.asked = 0 →
      ∃ t, exec (.clusterIdle k) s = .next t ∧ (t.cluster k).steal.waiting = some n ∧ (t.cluster k).steal.ten = ten ∧
        (t.cluster k).steal.answered = false ∧ t.mem = s.mem) ∧
    (∀ v e id lo hi, st.waiting = some v → st.answered = false → s.donation v st.ten = some e → e.work = .launch id lo hi →
      let mid := lo + (hi - lo + 1) / 2
      ∃ t, exec (.stealRequest k) s = .next t ∧ (t.cluster k).steal.shipped = some { e with work := .launch id mid hi } ∧
        (t.cluster k).steal.answered = true ∧ { e with work := .launch id lo mid } ∈ (t.cluster v).entries ∧ t.mem = s.mem) ∧
    (∀ v, st.waiting = some v → st.answered = false → s.donation v st.ten = none →
      ∃ t, exec (.stealRequest k) s = .next t ∧ (t.cluster k).steal.shipped = none ∧ (t.cluster k).steal.answered = true ∧
        (t.cluster v).entries = (s.cluster v).entries ∧ t.mem = s.mem) ∧
    (∀ e, k < 1024 → st.answered = true → st.shipped = some e → (s.cluster k).banks.length = 8 →
      ∃ t, exec (.stealAnswer k) s = .next t ∧ t.Listed k e ∧ (t.cluster k).steal = {} ∧ t.mem = s.mem) ∧
    (st.answered = true → st.shipped = none → st.asked < 3 → s.longIdle k = true → s.tenantOn k = some st.ten → s.neighbours st.ten k ≠ [] →
      ∃ t, exec (.stealAnswer k) s = .next t ∧
        (t.cluster k).steal.waiting = some ((s.neighbours st.ten k).getD ((st.asked + 1) % (s.neighbours st.ten k).length) 0) ∧
        (t.cluster k).steal.asked = st.asked + 1 ∧ (t.cluster k).steal.answered = false ∧ t.mem = s.mem) ∧
    (st.answered = true → st.shipped = none → st.asked = 3 →
      ∃ t, exec (.stealAnswer k) s = .next t ∧ (t.cluster k).steal = { idleSince := st.idleSince, backoff := some (s.cycle + 1024) } ∧
        t.mem = s.mem) ∧
    (∀ t0, st.backoff = some t0 → t0 ≤ s.cycle →
      ∃ t, exec (.stealBackoffExpiry k) s = .next t ∧ (t.cluster k).steal = { idleSince := st.idleSince } ∧ t.mem = s.mem)

/-! ## The fold store -/

/-- R100, R105, R381: a post folds its value into the waiting entry of its key, or makes one, and answers 0. R102, R103: a domain that may claim
offers an eligible entry of the greatest weight, the lowest key among equals. R103, R107, R129: a claim starts the domain's handler with key, value,
domain, sequence number and flags in s1 to s6, and with EXCL the key is held. R110: at the end of a bank cycle the head record leaves its log, and at
the next fold stage it goes back into its bank with LOGGED. -/
def Obligations.FoldPostsOffersClaimsAndRefills : Prop :=
  (∀ (s : State) (f : Flight) (d : Dest) (m k bank : Nat) (key x : Word) (reply : Option Word) (cl : Nat), s.flight? f.id = some f →
    s.performable f = true → f.act = .post d m key x reply cl →
    let dk := f.ten * 16 + m
    let D := (s.cluster k).dom dk
    s.foldHome f.ten dk key = (k, bank) → s.foldOpen k = true → s.outOfSlice f.ten k = false → fld D.dctl 19 17 = 1 →
    (∀ e, (s.cluster k).fentry dk key = some e → e.st = .waiting → e.poison = false →
      ∃ t g, exec (.foldPost f.id) s = .next t ∧ t.Answered f 0#64 ∧ t.mem = s.mem ∧ (t.cluster k).fentry dk key = some g ∧ g.st = .waiting ∧
        g.val = BitVec.ofNat 128 ((e.val.toNat % 2 ^ 64 + x.toNat) % 2 ^ 64) ∧ g.posts = Nat.min (2 ^ 32 - 1) (e.posts + 1)) ∧
    (∀ i, (s.cluster k).fentry dk key = none → (s.cluster k).freeIndex bank = some i →
      ∃ t g, exec (.foldPost f.id) s = .next t ∧ t.Answered f 0#64 ∧ t.mem = s.mem ∧ (t.cluster k).fentry dk key = some g ∧ g.st = .waiting ∧
        g.val = BitVec.ofNat 128 x.toNat ∧ g.posts = 1 ∧ g.bank = bank ∧ g.index = i)) ∧
  (∀ (s : State) (k dk : Nat) (e : FEntry), let d := (s.cluster k).dom dk
    d.mayClaim = true → (s.cluster k).folded ≠ some s.cycle → (∃ x ∈ (s.cluster k).doms, x.1 = dk) → s.claimDue k = false → bit d.dctl 22 = false → s.clusterFrozen k = false →
    s.outOfSlice (dk / 16) k = false → e ∈ (s.cluster k).folds → e.dom = dk → d.offerable e = true →
    ∃ t g, exec (.foldOffer k dk) s = .next t ∧ ((t.cluster k).dom dk).offer = some (g.key, g.since) ∧
      ((t.cluster k).dom dk).offered = some s.cycle ∧ (t.cluster k).folded = some s.cycle ∧ g ∈ (s.cluster k).folds ∧ g.dom = dk ∧
      d.offerable g = true ∧ e.weight d.op d.wfn ≤ g.weight d.op d.wfn ∧
      (e.weight d.op d.wfn = g.weight d.op d.wfn → g.key ≤ e.key) ∧ t.mem = s.mem) ∧
  (∀ (s : State) (k dk core slot : Nat) (d : FDomain) (key : Word) (e : FEntry),
    (s.cluster k).doms.find? (fun x => x.2.taken.isSome && decide (x.2.takenAt < s.cycle)) = some (dk, d) → (s.cluster k).dom dk = d →
    d.taken = some (key, core, slot) →
    (s.cluster k).fentry dk key = some e → e.poison = false → d.mayClaim = true → d.offerable e = true → s.clusterFrozen k = false →
    s.coreOpen core = true → s.inSlice (dk / 16) core = true → slot < 4 → ((s.core core).slot slot).occ = .free →
    ∃ t, exec (.foldClaim k) s = .next t ∧ (t.slot ⟨core, slot⟩).Begins core d.hpc (dk / 16)
        [key, delivered d.op e.val e.nan, wd (dk % 16), wd (d.seq + 1),
          wd (e.posts * 2 ^ 32 + b01 e.logged * 8 + b01 (decide (0 < d.shift)) * 4 + b01 e.nan * 2 + b01 e.ovr), 0#64] ∧
      (t.slot ⟨core, slot⟩).workid = key ∧ ((t.cluster k).dom dk).hrun = d.hrun + 1 ∧ ((t.cluster k).dom dk).taken = none ∧
      (d.excl = false → (t.cluster k).fentry dk key = none) ∧
      (d.excl = true → ∃ g, (t.cluster k).fentry dk key = some g ∧ g.st = .claimed ∧ g.posts = 0)) ∧
  (∀ (s : State) (k dk p : Nat), let d := (s.cluster k).dom dk
    d.head ≠ d.tail → s.outOfSlice (dk / 16) k = false → s.poison = [] →
    s.checkNow k (dk / 16) .s .load false (wd (s.logSegment (dk / 16) k d + 64 + 16 * (d.head % d.logCap))) 16 = .ok p → s.place p = .stack →
    s.settled p 16 →
    let key := wd (s.num p 8)
    let bank := if bit d.dctl 11 then key.toNat % 16 else key.toNat / Nat.max 1 (s.partition (dk / 16)).length % 16
    (s.cluster k).roomFor dk bank key = true →
    let t := s.endLog k dk
    ((t.cluster k).dom dk).head = d.head + 1 ∧ t.mem = s.mem ∧
      (t.cluster k).refills = (s.cluster k).refills ++ [{ dom := dk, bank := bank, key := key, val := wd (s.num (p + 8) 8), rel := d.logRel.headD [] }]) ∧
  (∀ (s : State) (k i : Nat) (r : Refill) (rs : List Refill), (s.cluster k).refills = r :: rs → s.claimDue k = false →
    fld ((s.cluster k).dom r.dom).dctl 19 17 = 1 → (s.cluster k).fentry r.dom r.key = none → (s.cluster k).freeIndex r.bank = some i →
    ∃ t g, exec (.logRefill k r.dom) s = .next t ∧ (t.cluster k).refills = rs ∧ (t.cluster k).fentry r.dom r.key = some g ∧
      g.logged = true ∧ g.val = BitVec.ofNat 128 r.val.toNat ∧ g.posts = 1 ∧ g.index = i ∧ t.mem = s.mem)

/-- R98, R385: a fold store takes a committed domain's four registers and clears its flags and counts; its entries stay while the operator does, and
go with a new one, which a busy domain's strand is told by fault 0x0C; the EGO is over when every fold store of the partition has taken it. R111,
R424: a domain's quiescent instant after a post owes one completion action, which is then performed: QSTAT as it was and the count go to the log, where
there is one, and a DECR of 1 to the cell of COMPL. R113: the adaptive multiplier changes in every fold store of the partition whose domain is adaptive, to at most 16, and while it
is above 1 the launches that have posted there are approximate. -/
def Obligations.FoldDomainsCommitCompleteAndAdapt : Prop :=
  (∀ (s : State) (k j : Nat) (o : EngOp), s.commitDue k = some (j, o) →
    let g : Nat → Word := o.eps.get 0#64
    let dk := o.ten * 16 + o.arg
    let old := (s.cluster k).dom dk
    let busy := decide (o.done = 0) && decide (old.op ≠ fld (g 0) 19 17) && s.domainBusy o.ten dk
    let all := (s.partition o.ten).all fun c => bitOf (o.done + 2 ^ k) c
    ∃ t, exec (.foldCommitTake k) s = .next t ∧ (busy = false → t.mem = s.mem) ∧
      (let d := (t.cluster k).dom dk
       d.dctl = g 0 ∧ d.hpc = g 1 ∧ d.log = g 2 ∧ d.compl = g 3 ∧ d.ovr = false ∧ d.approx = false ∧ d.nane = false ∧ d.claims = 0 ∧ d.seq = 0 ∧
         d.lfsr = 0x9E3779B9#32 ^^^ BitVec.ofNat 32 (k * 256) ^^^ BitVec.ofNat 32 (dk % 16) ∧
         d.shift = (if bit (g 0) 23 then old.shift else 0) ∧ d.hrun = old.hrun ∧
         (if old.op = fld (g 0) 19 17 then d.head = old.head ∧ d.tail = old.tail else d.head = 0 ∧ d.tail = 0)) ∧
      (t.cluster k).folds.map (fun e => (e.dom, e.key, e.val, e.posts)) =
        ((s.cluster k).folds.filter fun e => decide (old.op = fld (g 0) 19 17) || e.dom != dk).map (fun e => (e.dom, e.key, e.val, e.posts)) ∧
      (busy = true → s.holds o.who o.party = true → (s.slot o.who).frozen = false → o.who.slot < 4 →
        (t.slot o.who).pend = (s.slot o.who).pend ++ [{ code := 0x0C, tval := wd (0x200 + 4 * o.arg) }]) ∧
      (all = true → ∀ x ∈ (t.cluster j).fqueue, x.id ≠ o.id) ∧
      (all = false → o ∈ (s.cluster j).fqueue → { o with done := o.done + 2 ^ k } ∈ (t.cluster j).fqueue)) ∧
  (∀ (s : State) (ten m : Nat), let dk := ten * 16 + m
    let ps := s.partition ten
    let home := ps.getD 0 0
    let d := (s.cluster home).dom dk
    let ds := ps.map fun k => (s.cluster k).dom dk
    let qstat := b01 (ds.any (·.ovr)) * 2 ^ 63 + b01 (ds.any (·.approx)) * 2 ^ 62 + b01 (ds.any (·.nane)) * 2 ^ 61 + (ds.map (·.claims)).sum % 2 ^ 48
    let u := s.latchQuiet ten m
    ((∃ k ∈ ps, ((s.cluster k).dom dk).posted = true) → (∀ k ∈ ps, ((s.cluster k).dom dk).failed = false) → s.quiescent ten m = true →
      (∀ k ∈ ps, ((u.cluster k).dom dk).posted = false) ∧
      ∃ rel, ((u.cluster home).dom dk).firings = d.firings ++ [⟨wd qstat, d.log, d.compl, d.queue, rel⟩]) ∧
    (s.quiescent ten m = false ∨ (∀ k ∈ ps, ((s.cluster k).dom dk).posted = false) → u = s) ∧
    (∀ f rest, ((u.cluster home).dom dk).firings = f :: rest →
      let c := fld f.compl 56 4 * 16
      let va := wd (fld f.log 56 12 * 0x1000)
      ∃ t, exec (.foldCompletionAction ten m) s = .next t ∧ ((t.cluster home).dom dk).firings = rest ∧ ((t.cluster home).dom dk).fired = d.fired + 1 ∧
        (c = 0 → t.flights = s.flights) ∧
        (c ≠ 0 → ∃ g, t.flights = s.flights ++ [g] ∧ g.act = .decr .none (wd c) 1#64 ∧ g.ten = ten ∧ g.queue = f.queue ∧
          g.who.core = unitKey home 1) ∧
        (fld f.log 4 0 = 0 → t.mem = s.mem) ∧
        (∀ p, fld f.log 4 0 ≠ 0 → u.checkNow home ten .s .store false va 16 = .ok p → s.place p = .stack → s.memOk →
          t.num p 8 = f.qstat.toNat ∧ t.num (p + 8) 8 = (d.fired + 1) % 2 ^ 64 ∧ s.onlyAt t p 16) ∧
        (∀ n v, fld f.log 4 0 ≠ 0 → u.checkNow home ten .s .store false va 16 = .bad n v →
          ∃ r ∈ t.reports, r.ten = ten ∧ r.cause = wd n ∧ r.tval = va ∧ r.queue = f.queue))) ∧
  (∀ (s : State) (ten m n : Nat), let dk := ten * 16 + m
    ∃ t, exec (.adaptChange ten m n) s = .next t ∧ t.mem = s.mem ∧ ∀ k ∈ s.partition ten, let d := (s.cluster k).dom dk
      (n ≤ 4 → bit d.dctl 23 = true → (t.cluster k).dom dk = { d with shift := n } ∧
        (0 < n → ∀ l ∈ t.launches, l.id ∈ d.launches → l.approx = true)) ∧
      (4 < n ∨ bit d.dctl 23 = false → (t.cluster k).dom dk = d) ∧ (n = 0 → t.launches = s.launches))

/-! ## Engines and matrix arrays -/

/-- R87, R302: the head of a queue starts, its copy of the parameters becomes the active set, and the engine acquires what its EGO released. R49, R305: a
copy writes the source's bytes at the destination and changes nothing else. R52, R53: a stream brings the bytes of its own channel, as the tenant reads
them, into a core's scratch. R306: the TASK engine sends a TASKQ for each handle of its array, and completes once the last has been performed. -/
def Obligations.EngineOperationsStartAndComplete : Prop :=
  (∀ (s : State) (o : EngOp) (os : List EngOp), o.started = false → o.isMarker = false →
    let acquired (t : State) (q : EngQueue) : Prop := ∀ i ∈ o.rel, i ∈ (t.party (engPartyId q)).floor
    (∀ c, (s.core c).queue = o :: os → (s.core c).freeze = false →
      (∃ t, exec (.engineOpStart (.copy c)) s = .next t ∧ (t.core c).queue.head? = some { o with started := true } ∧
        (∀ n, n ≠ 7 → (t.core c).active.get 0#64 n = o.eps.get 0#64 n) ∧ acquired t (.copy c) ∧ t.mem = s.mem) ∧
      (∃ t, exec (.engineOpStart (.stream c)) s = .next t ∧ (t.core c).queue.head? = some { o with started := true } ∧
        (t.core c).active = o.eps ∧ acquired t (.stream c) ∧ t.mem = s.mem)) ∧
    (∀ k, (s.cluster k).tqueue = o :: os → s.clusterFrozen k = false →
      ∃ t, exec (.engineOpStart (.task k)) s = .next t ∧ (t.cluster k).tqueue.head? = some { o with started := true } ∧
        (t.cluster k).tactive = o.eps ∧ acquired t (.task k) ∧ t.mem = s.mem) ∧
    (∀ k a, a < 2 → ((s.cluster k).array a).queue = o :: os → ((s.cluster k).array a).run = none → s.clusterFrozen k = false →
      ∃ t, exec (.engineOpStart (.matrix k a)) s = .next t ∧ ((t.cluster k).array a).queue = os ∧
        ((t.cluster k).array a).run = some { op := { o with started := true }, recd := none } ∧
        fld (((t.cluster k).array a).active.get 0#64 15) 63 62 = 1 ∧ acquired t (.matrix k a) ∧ t.mem = s.mem)) ∧
  (∀ (s : State) (core : Nat) (o : EngOp) (os : List EngOp) (sk dk : Nat), s.memOk → s.poison = [] → (s.core core).queue = o :: os →
    o.started = true → o.held = false → (s.core core).freeze = false → (s.slot o.who).halted = false → o.abandoned = false → o.done = 0 →
    o.parts = [] → s.part = 0 → (∀ d ∈ s.deposits, d.op ≠ o.id) → (∀ f ∈ s.flights, ∀ c n va k bad l, f.act ≠ .copyRead c o.id n va k bad l) →
    let g : Nat → Word := o.eps.get 0#64
    let src := wd (fld (g 0) 56 0)
    let dst := wd (fld (g 1) 56 0)
    let cl := s.clusterOf core
    fld (g 2) 47 32 = 32 → fld (g 2) 31 0 = 1 → fld (g 5) 2 0 = 0 → fld (g 6) 56 0 = 0 → s.settled sk 32 →
    (coreKind core = .compute → s.checkUnit o.id cl o.ten o.level .load true src 32 = .ok sk → s.checkUnit o.id cl o.ten o.level .store true dst 32 = .ok dk →
      s.place sk = .stack → s.place dk = .stack →
      ∃ t, exec (.copyComplete core) s = .next t ∧ (∀ j < 32, Memory.get t.mem (dk + j) = Memory.get s.mem (sk + j)) ∧ s.onlyAt t dk 32 ∧
        ∀ p ∈ (t.core core).queue, p.id ≠ o.id) ∧
    (coreKind core = .memory → s.checkUnit o.id cl o.ten o.level .load false src 32 = .ok sk → s.checkUnit o.id cl o.ten o.level .store false dst 32 = .ok dk →
      s.place sk = .lpddr (coreNum core) → s.lostKey o.ten sk = false → inScr dk = true → s.goneAt core dk = false → s.forwardOf core dk = none →
      (s.core (chipOf dk).core).bank (16 + (chipOf dk).off / 0x2000) = 2 →
      ∃ t, exec (.streamComplete core) s = .next t ∧ (∀ j < 32, Memory.get t.mem (dk + j) = s.rdByte o.ten (sk + j)) ∧ s.onlyAt t dk 32 ∧
        ∀ p ∈ (t.core core).queue, p.id ≠ o.id)) ∧
  (∀ (s : State) (k : Nat) (o : EngOp) (os : List EngOp), s.memOk → s.poison = [] → (s.cluster k).tqueue = o :: os → o.started = true →
    o.held = false → s.clusterFrozen k = false → o.abandoned = false →
    let g : Nat → Word := o.eps.get 0#64
    (∀ p, fld (g 1) 16 0 = 1 → o.done = 0 → s.checkUnit o.id k o.ten o.level .load true (wd (fld (g 0) 56 3 * 8)) 8 = .ok p → s.place p = .stack →
      s.settled p 8 →
      ∃ t f, exec (.taskEngineComplete k) s = .next t ∧ t.flights = s.flights ++ [f] ∧ f.act = .taskq (wd (s.num p 8)) ∧
        f.who.core = unitKey k 0 ∧ f.ten = o.ten ∧ (t.cluster k).tqueue.head? = some { o with done := 1 } ∧ t.mem = s.mem) ∧
    (o.done = fld (g 1) 16 0 → s.taskqUnderWay k = false → fld (g 2) 56 4 = 0 →
      ∃ t, exec (.taskEngineComplete k) s = .next t ∧ (∀ q ∈ (t.cluster k).tqueue, q.id ≠ o.id) ∧ t.mem = s.mem))

/-- R143, R375: a unit whose operands can be read adds 1 to K-progress and leaves its sums. R145, R376: an operation whose units are done ends, its
STATUS saying done, or failed after a fault. R145, R147: the oldest listed record that is ripe leaves the list, its STATUS says running, and it runs
on the idle array 0 with what its TTQ released acquired. -/
def Obligations.MatrixUnitsOperationsAndTileTasks : Prop :=
  (∀ (s : State) (k a : Nat) (m : MatOp) (r : UnitRes) (u : State), a < 2 → ((s.cluster k).array a).run = some m → s.clusterFrozen k = false →
    m.failed = false → m.op.held = false → m.kprog < m.op.units s.arows → m.recd = none →
    State.runUnit (engPartyId (.matrix k a)) k m s = .ok (r, u) →
    ∃ t n, exec (.matrixUnitComplete k a) s = .next t ∧ ((t.cluster k).array a).run = some n ∧ n.kprog = m.kprog + 1 ∧ n.acc = r.acc ∧
      n.iovf = (m.iovf || r.iovf) ∧ n.skipped = (m.skipped || r.skipped) ∧ t.mem = u.mem ∧
      fld (((t.cluster k).array a).active.get 0#64 15) 63 62 = 1) ∧
  (∀ (s : State) (k a : Nat) (m : MatOp), a < 2 → ((s.cluster k).array a).run = some m → ((s.cluster k).array a).loaded = none →
    s.clusterFrozen k = false → m.op.held = false → m.failed = true ∨ m.op.units s.arows ≤ m.kprog → m.recd = none →
    fld (m.op.eps.get 0#64 11) 56 4 = 0 →
    ∃ t, exec (.matrixOpComplete k a) s = .next t ∧ ((t.cluster k).array a).run = none ∧ t.mem = s.mem ∧
      fld (((t.cluster k).array a).active.get 0#64 15) 63 62 = (if m.failed then 3 else 2) ∧
      fld (((t.cluster k).array a).active.get 0#64 15) 47 0 = m.kprog % 2 ^ 48) ∧
  (∀ (s s1 : State) (k key : Nat) (tt : TileTask) (ws : List Word) (rels : Rels), s.memOk → s.clusterFrozen k = false →
    (∀ a < 2, ((s.cluster k).array a).loaded = none) → ((s.cluster k).array 0).run = none → ((s.cluster k).array 0).queue = [] →
    State.oldestRipe k (s.cluster k).tileTasks s = .ok (tt, .go ws rels s1) →
    s.checkNow k tt.ten tt.level .store true (tt.addr + 120#64) 8 = .ok key →
    s1.checkNow k tt.ten tt.level .store true (tt.addr + 120#64) 8 = .ok key → s.place key = .stack →
    ∃ t m, exec (.tileTaskDispatch k) s = .next t ∧ (t.cluster k).tileTasks = (s.cluster k).tileTasks.erase tt ∧
      ((t.cluster k).array 0).run = some m ∧ m.recd = some tt.addr ∧ m.kprog = 0 ∧ m.failed = false ∧ m.op.who = tt.who ∧ m.op.ten = tt.ten ∧
      (∀ i ∈ tt.rel, i ∈ m.op.rel) ∧ (∀ i < 15, m.op.eps.get 0#64 i = epMask 1 i (wordAt ws i)) ∧ t.num key 8 = 2 ^ 62 ∧ s.onlyAt t key 8)

/-! ## Messages, multicast and links -/

/-- R191 to R193, R361, R391: a handler message of a core of its sender's tenant joins the core's inbound queue and is acknowledged; another takes
fault 0x06. A built-in STORE, LOAD, ATOMIC, POST or DECR does what its handler number says at its target, an ATOMIC or DECR in its turn there (R60), and
replies where a reply is asked for. R193: an acknowledgement gives the sender one more place in its window. -/
def Obligations.MessagesAreServedAndAcknowledged : Prop :=
  ∀ (s : State) (f : Flight) (ws : List Word), f.pkt = none →
    let acked (t : State) : Prop := ∃ h w o, t.flight? f.id = some { f with act := .ack, hop := h, gather := w, owed := o }
    let replied (t : State) (va : Word) (bs : List Byte) : Prop :=
      ∃ g ∈ t.flights, g.act = .store va va.toNat bs .rel .none ∧ g.who = f.who ∧ g.ten = f.ten
    let turn : Prop := f.reached.isSome = true ∧ ∀ l, s.locationOf f = some l → s.itsTurn f l = true
    (s.message? f.id = some (f, ws) → msgBuiltin ws = false → ∀ core, s.messageCore f.ten (msgCore ws) = (none, core) →
      (s.coreOf f.ten core = true → (s.core core).fenced = false → (s.core core).inbound.length < 32 → s.nextSpilled core = none →
        (s.tenant f.ten).spill.get [] core = [] →
        ∃ t, exec (.handlerMessageArrival f.id) s = .next t ∧ acked t ∧ t.mem = s.mem ∧
          (t.core core).inbound = (s.core core).inbound ++ [{ ten := f.ten, prio := msgPrio ws, stamp := s.cycle, pc := wd (msgHandler ws)
                                                              src := s.srcId f.who, args := ws.drop 2, queue := f.queue, rel := [(4, f.rel)] }]) ∧
      (s.coreOf f.ten core = false → s.holds f.who f.party = true → (s.slot f.who).frozen = false → f.who.slot < 4 → f.own = false →
        f.outlived = false →
        ∃ t, exec (.handlerMessageArrival f.id) s = .next t ∧ acked t ∧ t.mem = s.mem ∧
          (t.slot f.who).pend = (s.slot f.who).pend ++ [{ code := 6, tval := wordAt ws 1, handler := f.inh }])) ∧
    (s.message? f.id = some (f, ws) → s.memOk → s.poison = [] → ws.length = 6 →
      (∀ k, msgHandler ws = 0x00 → s.msgCheck f .store ws = .ok k → s.place k = .stack → k % 32 + msgPrio ws < 32 →
        ∃ t, exec (.builtinStore f.id) s = .next t ∧ acked t ∧ s.onlyAt t k (msgPrio ws + 1) ∧
          ∀ j < msgPrio ws + 1, Memory.get t.mem (k + j) = (wordAt ws (2 + j / 8)).extractLsb' (8 * (j % 8)) 8) ∧
      (∀ k, msgHandler ws = 0x10 → s.msgCheck f .load ws = .ok k → s.place k = .stack → k % 32 + msgPrio ws < 32 →
        (wordAt ws 2).toNat % 32 + msgPrio ws < 32 → f.gather = 0#256 → s.settled k (msgPrio ws + 1) →
        ∃ t, exec (.builtinLoad f.id) s = .next t ∧ acked t ∧ t.mem = s.mem ∧
          replied t (wordAt ws 2) ((List.range (msgPrio ws + 1)).map fun j => Memory.get s.mem (k + j))) ∧
      (∀ k, msgHandler ws = 0x20 → fld (wordAt ws 2) 3 0 = 0 → bit (wordAt ws 2) 4 = true →
        s.msgCheck f .atomic ws = .ok k → s.place k = .stack → turn →
        ∃ t, exec (.builtinAtomic f.id) s = .next t ∧ acked t ∧ s.onlyAt t k 8 ∧ t.num k 8 = (s.num k 8 + (wordAt ws 3).toNat) % 2 ^ 64 ∧
          (wordAt ws 5 ≠ 0#64 → (wordAt ws 5).toNat % 8 = 0 → replied t (wordAt ws 5) (leBytes 8 (s.num k 8)))) ∧
      (∀ k bank e, msgHandler ws = 0x30 → (s.tenant f.ten).fold ≠ 0#64 →
        let dk := f.ten * 16 + fld (wordAt ws 2) 3 0
        s.foldHome f.ten dk (wordAt ws 3) = (k, bank) → s.foldOpen k = true → s.outOfSlice f.ten k = false →
        fld ((s.cluster k).dom dk).dctl 19 17 = 1 → (s.cluster k).fentry dk (wordAt ws 3) = some e → e.st = .waiting → e.poison = false →
        ∃ t g, exec (.builtinPost f.id) s = .next t ∧ acked t ∧ t.mem = s.mem ∧ (t.cluster k).fentry dk (wordAt ws 3) = some g ∧
          g.val = BitVec.ofNat 128 ((e.val.toNat % 2 ^ 64 + (wordAt ws 4).toNat) % 2 ^ 64) ∧
          (wordAt ws 5 ≠ 0#64 → (wordAt ws 5).toNat % 8 = 0 → replied t (wordAt ws 5) (leBytes 8 0))) ∧
      (let cell := msgVa ws
       let c := wd (s.num cell.toNat 8)
       msgHandler ws = 0x40 → s.cellFault f.ten cell = none →
        s.barredAt f.who.core cell.toNat = false → s.forwardOf f.who.core cell.toNat = none → turn →
        (s.core (chipOf cell.toNat).core).bank (16 + (chipOf cell.toNat).off / 0x2000) = 2 → wordAt ws 2 < c →
        ∃ t, exec (.builtinDecr f.id) s = .next t ∧ acked t ∧ s.onlyAt t cell.toNat 8 ∧
          t.num cell.toNat 8 = c.toNat - (wordAt ws 2).toNat)) ∧
    (s.flight? f.id = some f → f.act = .ack → f.hop = none → f.late = false → f.outlived = false → s.holds f.who f.party = true →
      (s.slot f.who).halted = false → f.who.slot < 4 →
      ∃ t, exec (.sendAck f.id) s = .next t ∧ t.flight? f.id = none ∧ (t.slot f.who).unacc = (s.slot f.who).unacc - 1 ∧ t.mem = s.mem)

/-- R92, R196: the sequencer numbers a store that has reached it before every other one after the last, answers the sender and sends it to the
members; a store it refuses gets the number 0 and its sender fault 0x18. R93: a store that is next in number is applied, one that is ahead waits in
the window. R197, R400: reports raise G, which the Sluice tells every member; a member that lacks a store for 100 µs asks for it, and after three
requests is lost. R401 to R403: a lost member leaves the view, which the Sluice tells the
others; at a failover the survivors' lowest device collects from each how far it holds every store, and sequences from the cut on. -/
def Obligations.MulticastIsStampedAppliedAndRepaired : Prop :=
  (∀ (s : State) (f : Flight), s.flight? f.id = some f → f.pkt = none →
    (∀ d g off len data, f.act = .mcst d g off len data → s.atSluice f = true →
      (∀ x ∈ s.flights, s.atSluice x = true → x.reachedBefore f = false) →
      let x := s.group g
      (s.groupHas g f.ten = true → off + len ≤ x.entry.wsize → x.cutting = false → x.stamp + 1 ≤ x.g + 256 → s.servedAt.contains sluicePlace = false →
        let st : Stamped := { n := x.stamp + 1, src := s.srcId f.who, off := off, len := len, data := data, rel := f.rel }
        ∃ t h o, exec (.mcstStamp f.id) s = .next t ∧ (t.group g).stamp = x.stamp + 1 ∧ (t.group g).kept = x.kept ++ [st] ∧ t.mem = s.mem ∧
          t.flight? f.id = some { f with act := .stampReturn d g (seq48 (x.stamp + 1)), hop := h, owed := o } ∧
          ∀ m ∈ x.entry.members,
            (m = s.dev → ∃ q ∈ t.flights, q.act = .stamped g st) ∧
            (m ≠ s.dev → let p := stampedPacket m x.entry.ten g st
              ∀ n ch, s.delmelPort p none = some (n, ch) → Out.packet n (closePacket { p with ch := ch }) ∈ t.out)) ∧
      (s.groupHas g f.ten = false ∨ x.entry.wsize < off + len → s.holds f.who f.party = true → (s.slot f.who).frozen = false → f.who.slot < 4 →
        f.own = false → f.outlived = false →
        ∃ t h o, exec (.mcstStamp f.id) s = .next t ∧ t.groups = s.groups ∧ t.mem = s.mem ∧
          t.flight? f.id = some { f with act := .stampReturn d g 0, hop := h, owed := o } ∧
          (t.slot f.who).pend = (s.slot f.who).pend ++ [{ code := 0x18, tval := wd g, handler := f.inh }])) ∧
    (∀ d g n, f.act = .stampReturn (.reg d) g n → f.seep = none → f.hop = none → f.late = false → s.holds f.who f.party = true → f.who.slot < 4 →
      ∃ t, exec (.mcstStampReturn f.id) s = .next t ∧ (t.slot f.who).Holds d (wd n) ∧ t.flight? f.id = none ∧ t.mem = s.mem) ∧
    (∀ g st k, f.act = .stamped g st → f.reached = none → (s.group g).lost = false → (s.group g).entry.valid = true → (s.group g).window = [] →
      (st.n = (s.group g).gapply + 1 → s.memOk → let va := (s.group g).entry.wbase + wd st.off
        s.checkNow (msgCluster va) (s.group g).entry.ten (s.devLevel (s.group g).entry.ten) .store false va st.len = .ok k → s.place k = .stack →
        ∃ t, exec (.multicastStoreArrival f.id) s = .next t ∧ (t.group g).gapply = st.n ∧ s.onlyAt t k st.data.length ∧
          ∀ j < st.data.length, Memory.get t.mem (k + j) = st.data.getD j 0#8) ∧
      ((s.group g).gapply + 1 < st.n →
        ∃ t, exec (.multicastStoreArrival f.id) s = .next t ∧ (t.group g).gapply = (s.group g).gapply ∧ (t.group g).window = [st] ∧
          t.mem = s.mem))) ∧
  (∀ (s : State) (g : Nat), let x := s.group g
    x.entry.valid = true → let logs (t : State) (kind : Nat) : Prop := ∃ r, t.mlog.getLast? = some r ∧ r.kind = kind
    let told (t : State) (dev kind : Nat) (values : List Nat) : Prop :=
      let p : Packet := { ddev := dev, dport := 4, cls := 3, ch := 1, ord := true, ten := x.entry.ten, srcid := s.switchId, opw := wd kind
                          tgt := wd g, payload := values.map wd }
      ∀ n ch, s.delmelPort p none = some (n, ch) → Out.packet n (closePacket { p with ch := ch }) ∈ t.out
    (∀ m n, m ∈ x.entry.members → x.entry.seqdev = s.dev → m ≠ s.dev →
      ∃ t, exec (.gapplyReport g m n) s = .next t ∧ (t.group g).reports.get 0 m = Nat.max n (x.reports.get 0 m) ∧ x.g ≤ (t.group g).g ∧
        (∀ st ∈ (t.group g).kept, (t.group g).g < st.n) ∧ t.mem = s.mem) ∧
    (∀ n, s.dev ∈ x.entry.members → x.lost = false → x.reported + 700 ≤ s.cycle →
      ∃ t, exec (.gapplyReport g s.dev n) s = .next t ∧ (t.group g).reported = s.cycle ∧ t.mem = s.mem ∧
        (x.entry.seqdev = s.dev → (t.group g).reports.get 0 s.dev = Nat.max x.gapply (x.reports.get 0 s.dev)) ∧
        (x.entry.seqdev ≠ s.dev → told t x.entry.seqdev 1 [seq48 x.gapply])) ∧
    (x.entry.seqdev = s.dev → ∃ t, exec (.sluiceGReport g) s = .next t ∧ (t.group g).g = x.g ∧ t.mem = s.mem ∧
      ∀ m ∈ x.entry.members, m ≠ s.dev → told t m 2 [seq48 x.g]) ∧
    (x.lacks = true → x.lost = false →
      (s.cycle < x.lackSince + 70000 → exec (.resendRequest g) s = .next s) ∧
      (x.lackSince + 70000 ≤ s.cycle →
        (3 ≤ x.requests → ∃ t, exec (.resendRequest g) s = .next t ∧ (t.group g).lost = true ∧ t.mem = s.mem) ∧
        (x.requests < 3 → x.entry.seqdev ≠ s.dev → ∃ t, exec (.resendRequest g) s = .next t ∧ (t.group g).requests = x.requests + 1 ∧
          told t x.entry.seqdev 3 [seq48 (x.gapply + 1)] ∧ t.mem = s.mem))) ∧
    (∀ m, m ∈ x.entry.members → x.entry.seqdev = s.dev → x.heard.get 0 m + 700000 ≤ s.cycle →
      let rest := x.entry.members.filter fun d => d != m
      ∃ t r, exec (.memberLoss g m) s = .next t ∧ (t.group g).entry.members = rest ∧ (m = s.dev → (t.group g).lost = true) ∧ logs t 9 ∧
        (∀ d ∈ m :: rest, d ≠ s.dev → ∀ ws ∈ memberParts 40 0 rest, told t d 4 (seq48 x.stamp :: ws)) ∧
        r ∈ t.reports ∧ r.cause = 0x18#64 ∧ r.ten = x.entry.ten ∧ r.tval = wd (seq48 x.stamp * 2 ^ 8 + g % 256)) ∧
    (∀ first others, let members := first :: others
      s.dev ∈ members → x.entry.seqdev ∉ members → x.lost = false → x.heardG + 700000 ≤ s.cycle →
      ∃ t, exec (.sequencerFailover g first others) s = .next t ∧ (t.group g).entry.seqdev ∈ members ∧
        (∀ d ∈ members, (t.group g).entry.seqdev ≤ d) ∧ (t.group g).entry.members = members ∧
        ((t.group g).entry.seqdev ≠ s.dev → told t (t.group g).entry.seqdev 5 [seq48 x.held]) ∧
        ((t.group g).entry.seqdev = s.dev →
          let hs := x.hs.put s.dev x.held
          let ncut := members.foldl (fun a m => Nat.max a (hs.get 0 m)) 0
          ((∃ m ∈ members, hs.find? (fun e => e.1 == m) = none) → (t.group g).cutting = true ∧ (t.group g).hs = hs) ∧
          ((∀ m ∈ members, hs.find? (fun e => e.1 == m) ≠ none) → (t.group g).cutting = false ∧ (t.group g).stamp = ncut ∧
            (∀ st ∈ (t.group g).window, st.n ≤ ncut) ∧ logs t 9))))

/-- R397: an operation whose response has not come within its limit sets its destination to all ones, MCST's to 0, and its strand takes 0x19; a SEND gives
its place in the window back. R392, R394: a mesh flit that fails after four resends stops the part. R392, R395: a frame that fails its check is not taken, nor any after eight replays;
of a good frame a bad packet is dropped and logged, a message for this device is on its way to its target, and a packet for another one leaves by its port.
R393, R417: a port runs at eight lanes, at four, as it has where four are retired, or is down. R189, R404: between launches a region is stitched, or goes back to the mesh. -/
def Obligations.TimeoutsLinksAndRegions : Prop :=
  (∀ (s : State) (f : Flight) (v : Word) (limit : Nat), s.flight? f.id = some f → s.timed? f = some (v, limit) → f.pkt = none → f.late = false →
    (s.cycle < f.born + limit → exec (.operationTimeout f.id) s = .next s) ∧
    (f.born + limit ≤ s.cycle → f.seep = none → s.holds f.who f.party = true → (s.slot f.who).frozen = false → f.who.slot < 4 →
      f.own = false → f.outlived = false →
      let unanswered : Word := match f.act with
        | .mcst _ _ _ _ _ => 0#64
        | .stampReturn _ _ _ => 0#64
        | _ => BitVec.allOnes 64
      ∃ t, exec (.operationTimeout f.id) s = .next t ∧ t.mem = s.mem ∧
        (t.slot f.who).pend = (s.slot f.who).pend ++ [{ code := 0x19, tval := v, handler := f.inh }] ∧
        (∀ d, f.act.dest = .reg d → (t.slot f.who).Holds d unanswered) ∧
        (f.act = .ack ∨ (∃ ws, f.act = .send ws) → (t.slot f.who).unacc = (s.slot f.who).unacc - 1) ∧
        ((∃ d, f.act.dest = .reg d) ∨ f.act = .ack ∨ (∃ ws, f.act = .send ws) →
          (s.part = 0 ∨ f.reply = true → t.flight? f.id = none) ∧
          (s.part ≠ 0 → f.reply = false →
            t.flight? f.id = some { f with act := f.act.orphan, party := f.id, late := true, seep := none, owed := none })))) ∧
  (∀ (s : State) (pos port n : Nat),
    (n ≤ 4 → exec (.meshFlitResend pos port n) s = .next s) ∧
    (4 < n → ∃ t, exec (.meshFlitResend pos port n) s = .next t ∧ t.recovery = true ∧ t.mem = s.mem)) ∧
  (∀ (s : State) (port vc : Nat) (p : Packet), s.portUp port = true →
    (9 ≤ s.badFrames.get 0 port → ∀ ok ps, exec (.delmelFrameReceive port vc ok ps) s = .next s) ∧
    (s.badFrames.get 0 port < 9 →
    (∀ ps, exec (.delmelFrameReceive port vc false ps) s =
      .next { s with out := s.out ++ [Out.frame port false], badFrames := s.badFrames.put port (s.badFrames.get 0 port + 1) }) ∧
    (∀ kind, packetBad p vc = some kind → ∃ t r, exec (.delmelFrameReceive port vc true [p]) s = .next t ∧ t.mem = s.mem ∧ t.flights = s.flights ∧
      t.dropped.get 0 p.cls = s.dropped.get 0 p.cls + 1 ∧ t.mlog.getLast? = some r ∧ r.kind = kind) ∧
    (packetBad p vc = none → p.ddev = s.dev → p.cls ≠ 1 → p.cls ≠ 3 → p.opw ≠ 0x50#64 → (∀ g ∈ s.flights, g.id ≠ s.fresh) →
      ∃ t f, exec (.delmelFrameReceive port vc true [p]) s = .next t ∧ t.mem = s.mem ∧ t.flights = s.flights ++ [f] ∧
        f.act = .send (p.opw :: p.tgt :: p.payload.take 4) ∧ f.pkt = some p ∧ f.ten = p.ten ∧ f.party = farParty p.srcid) ∧
    (∀ n ch, packetBad p vc = none → p.ddev ≠ s.dev → s.delmelPort p (some port) = some (n, ch) →
      exec (.delmelFrameReceive port vc true [p]) s =
        .next { s with out := s.out ++ [Out.frame port true] ++ [Out.packet n (closePacket { p with ch := ch })], badFrames := s.badFrames.put port 0 }))) ∧
  (∀ (s : State) (port lanes : Nat) (reserve : Bool), s.portUp port = true →
    ∃ t, exec (.portRetrain port lanes reserve) s = .next t ∧ t.mem = s.mem ∧
      t.portState port = (if reserve = false ∨ lanes < 4 then .down else if lanes < 8 ∨ (3, port) ∈ s.life.retired then .narrow
        else .wide)) ∧
  (∀ (s : State) (r : Region),
    (s.launches ≠ [] → ∀ up, exec (.regionRestitch r up) s = .next s) ∧
    (s.launches = [] →
      (∃ t, exec (.regionRestitch r true) s = .next t ∧ r ∈ t.stitched ∧ (∀ q ∈ t.stitched, q = r ∨ q.meets r = false) ∧ t.mem = s.mem) ∧
      (∃ t l, exec (.regionRestitch r false) s = .next t ∧ t.stitched = s.stitched ∧ r ∈ t.unstitch ∧ t.mlog.getLast? = some l ∧ l.kind = 8 ∧
        t.mem = s.mem)))

/-! ## Switching and stopping -/

/-- R152, R154: at a slice boundary the outgoing tenant's slots are saved, or have stopped for it, and its fold entries and the next tenant's change places
once the last is saved; a saved slot comes back in its old place. R170: a redirected read lands in its line. R169, R310, R380: a save that can be written
answers its length and frees the slot; one that cannot answers all ones and the slot stays. R172, R173, R312: a migration restores the strand in its new
slot, or hands it to another device, leaves a forwarding entry and answers 0; one that finds no room answers 2, one without an entry 1, and the strand goes
on. R399: an idle forwarding entry retires. R174, R175, R313: a core of the gang stops and writes its record, or resumes, and GSTOP answers the number of
cores when all have. -/
def Obligations.SlotsAreSwitchedSavedMovedAndStopped : Prop :=
  (∀ (s : State) (k : Nat), s.sliceDue k = true → (s.cluster k).leaving = none →
    let c := s.cluster k
    let out := c.share.getD c.turn 0
    let nxt := c.share.getD ((c.turn + 1) % c.share.length) 0
    out ≠ nxt → (∀ e ∈ c.folds, e.dom / 16 = out → e.poison = false) →
    ∃ t, exec (.sliceSwitch k) s = .next t ∧ (t.cluster k).turn = (c.turn + 1) % c.share.length ∧
      (∀ r ∈ s.slotsOn k out, (∃ v ∈ (t.cluster k).saved, v.ten = out ∧ ∃ e ∈ v.slots, e.at_ = r) ∨
        ((t.slot r).halted = true ∧ (t.cluster k).leaving = some out)) ∧
      (s.slotsOn k out = [] → (t.cluster k).sliceStart = s.cycle ∧ (t.cluster k).leaving = none ∧
        (t.cluster k).folds = c.folds.filter (fun e => e.dom / 16 != out) ++ ((c.saved.find? fun v => v.ten == nxt).getD { ten := nxt }).folds ∧
        ∃ v ∈ (t.cluster k).saved, v.ten = out ∧ ∀ e ∈ c.folds, e.dom / 16 = out → e ∈ v.folds)) ∧
  (∀ (s : State) (k : Nat) (v : Slice) (e : SavedSlot) (ts : List Nat), s.sliceDue k = false → (s.cluster k).leaving = none →
    let ten := (s.cluster k).share.getD (s.cluster k).turn 0
    let m : Image := { bytes := e.bytes, poison := e.poison, tag := e.tag }
    (s.cluster k).saved.find? (fun v => v.ten == ten) = some v → v.slots = [e] → (s.slot e.at_).occ = .free → e.at_.slot < 4 →
    s.promised e.at_.core e.at_.slot = false → s.banksFor m e.at_.core = .ok ts → m.word 15 = 0#64 →
    ∃ t, exec (.sliceSwitch k) s = .next t ∧ (∀ w ∈ (t.cluster k).saved, w.ten = ten → ∀ d ∈ w.slots, d.at_ ≠ e.at_) ∧
      let y := t.slot e.at_
      y.occ ≠ .free ∧ y.pc = wd (fld (m.word 1) 56 2 * 4) ∧ y.ten = e.tag.ten ∧ y.level = e.tag.level ∧ y.workid = m.word 3 ∧
        ∀ q : Reg, y.rd q = if q = 0#5 then 0#64 else m.word (32 + q.toNat)) ∧
  (∀ (s : State) (core line : Nat) (f : Flight) (d : Dest) (v : Row) (po : Option Nat) (rs : List Nat),
    let l := (s.core core).seep.get {} line
    l.v = true → l.landed = false → s.flight? l.flight = some f → f.hop = none → f.act = .result d v po rs →
    ∃ t, exec (.seepLineLand core line) s = .next t ∧ t.flight? l.flight = none ∧ t.mem = s.mem ∧
      (t.core core).seep.get {} line = { l with landed := true, data := v, poison := po.isSome }) ∧
  (∀ (s : State) (f : Flight) (r : SlotRef) (d : Dest), s.flight? f.id = some f → f.who ≠ r → r.slot < 4 → s.saveTurn f.id r = true →
    let x := s.slot r
    let answered (t : State) (n : Nat) : Prop :=
      ∃ h o, t.flight? f.id = some { f with act := .result d (BitVec.ofNat 256 n) none [], hop := h, owed := o }
    let saved : Prop := x.occ ≠ .free ∧ x.halted = true ∧ x.saving = true ∧ s.savable r = true
    (∀ va, f.act = .ctxsave d r va →
      let s0 : State := { s with fresh := s.fresh + 1 }
      let bs := s0.imageBytes r s.fresh
      let area := State.writeArea x.party f.ten f.level (s0.imagePoison r) [(x.party * 8 + 3, (s0.party x.party).floor)] (bs.length / 64) 0 va bs s0
      (∀ u, saved → s.areaWakes va bs.length = none → area = some u → ∃ t, exec (.ctxsaveComplete ⟨f.id, true⟩) s = .next t ∧ answered t (s.imageLen r) ∧ (t.slot r).occ = .free ∧
        ∀ a < 2 ^ 56, Memory.get t.mem a = Memory.get u.mem a) ∧
      (∀ sound, saved → s.areaWakes va bs.length = none → area = none ∨ sound = false →
        ∃ t b, exec (.ctxsaveComplete ⟨f.id, sound⟩) s = .next t ∧ answered t (2 ^ 64 - 1) ∧ t.slot r = { x with saving := b } ∧ t.mem = s.mem) ∧
      (∀ sound, x.occ = .free ∨ x.halted = false → s.sliced r = false →
        ∃ t, exec (.ctxsaveComplete ⟨f.id, sound⟩) s = .next t ∧ answered t 0 ∧ t.mem = s.mem)) ∧
    (∀ core dev, f.act = .migr d r core dev →
      let m : Image := { bytes := s.imageBytes r 0, poison := s.imagePoison r, tag := s.imageTag r }
      let stays (n : Nat) : Prop := ∃ t, exec (.migrationRestore f.id) s = .next t ∧ answered t n ∧ (t.slot r).occ = x.occ ∧
        (t.slot r).halted = false ∧ (t.core r.core).forwards = (s.core r.core).forwards
      (∀ slot tiles, saved → (s.core r.core).liveForwards < 8 → dev = s.dev → core ≠ r.core → (s.core r.core).seep = [] →
        s.moveTo m r core = some (slot, tiles) →
        ∃ t fw, exec (.migrationRestore f.id) s = .next t ∧ answered t 0 ∧ (t.slot r).occ = .free ∧
          (t.core r.core).forwards = (s.core r.core).forwards ++ [fw] ∧ fw.dev = none ∧ fw.oldSlot = r.slot ∧ fw.newCore = core ∧
          fw.newSlot = slot ∧ fw.retired = false ∧
          (let y := t.slot ⟨core, slot⟩
           y.occ ≠ .free ∧ y.pc = wd (fld x.pc 56 2 * 4) ∧ y.ten = x.ten ∧ y.level = x.level ∧ y.workid = x.workid ∧
             ∀ q, y.rd q = x.rd q ∧ y.isFull q = x.isFull q)) ∧
      (saved → (s.core r.core).liveForwards < 8 → dev ≠ s.dev → s.reaches dev = true → Config.farTakes s.fresh = true →
        ∃ t fw, exec (.migrationRestore f.id) s = .next t ∧ answered t 0 ∧ (t.slot r).occ = .free ∧ Out.image dev core m.bytes ∈ t.out ∧
          (t.core r.core).forwards = (s.core r.core).forwards ++ [fw] ∧ fw.dev = some dev ∧ fw.newCore = core) ∧
      (saved → (s.core r.core).seep = [] → 8 ≤ (s.core r.core).liveForwards → stays 1) ∧
      (saved → (s.core r.core).seep = [] → (s.core r.core).liveForwards < 8 → dev = s.dev → s.moveTo m r core = none → stays 2) ∧
      (saved → (s.core r.core).seep = [] → (s.core r.core).liveForwards < 8 → dev ≠ s.dev →
        s.reaches dev = false ∨ Config.farTakes s.fresh = false → stays 2) ∧
      (x.occ = .free ∨ x.halted = false → s.sliced r = false → ∃ t, exec (.migrationRestore f.id) s = .next t ∧ answered t 3 ∧ t.mem = s.mem))) ∧
  (∀ (s : State) (core n : Nat) (f : Forward), (s.core core).forwards[n]? = some f → f.retired = false → f.used + 65536 ≤ s.cycle →
    f.sent ≤ (s.core core).received ∨ f.moved + 1400000 ≤ s.cycle →
    ∃ t, exec (.forwardRetire core n) s = .next t ∧ t.mem = s.mem ∧
      (f.oldSlot < 4 → f.backSlot = false → f.backSb = 0#48 → (t.core core).forwards[n]? = some { f with retired := true }) ∧
      (f.backSlot = true → f.sb &&& ~~~f.backSb = 0#48 → (t.core core).forwards = (s.core core).forwards.eraseIdx n)) ∧
  (∀ (s : State) (f : Flight) (vf core : Nat) (freeze : Bool) (recd : Word) (cores : List Nat), s.flight? f.id = some f → core ∈ cores →
    (∀ k, f.act = .coreStop vf false freeze recd cores → s.memOk →
      s.checkNow (s.clusterOf f.who.core) f.ten f.level .store false (recd + wd (64 * s.recordIndex core)) 64 = .ok k → s.place k = .stack →
      ∃ t, exec (.coreStop f.id core) s = .next t ∧ (t.core core).stopped = true ∧ (t.core core).freeze = ((s.core core).freeze || freeze) ∧
        core ∈ (t.tenant vf).stoppedCores ∧ s.onlyAt t k 64 ∧ t.num k 8 = s.cycle % 2 ^ 64 ∧
        t.num (k + 16) 8 = (s.core core).sent.get 0 0 % 2 ^ 32 + (s.core core).sent.get 0 1 % 2 ^ 32 * 2 ^ 32 ∧
        t.num (k + 32) 8 = (s.core core).recv.get 0 0 % 2 ^ 32 + (s.core core).recv.get 0 1 % 2 ^ 32 * 2 ^ 32) ∧
    (f.act = .coreStop vf true freeze recd cores →
      ∃ t, exec (.coreStop f.id core) s = .next t ∧ (t.core core).stopped = false ∧ (t.core core).freeze = false ∧ (t.core core).fenced = false ∧
        ((s.core core).fenced = false → t.mem = s.mem) ∧
        ((s.core core).fenced = true → ∀ n < 4, (t.slot ⟨core, n⟩).occ = .free))) ∧
  (∀ (s : State) (f : Flight) (d : Dest) (n : Nat) (ids : List Nat), s.flight? f.id = some f → f.act = .gstop d n ids →
    (∀ i ∈ ids, s.flight? i = none) →
    ∃ t h o, exec (.gstopComplete f.id) s = .next t ∧
      t.flight? f.id = some { f with act := .result d (BitVec.ofNat 256 n) none [], hop := h, owed := o } ∧
      t.mem = s.mem)

/-! ## The host port -/

/-- R149: a 1 in bit 63 clears APPROX. R200, R204, R410: TSLICE takes 10 to 10,000 µs and a sealed VF refuses it, counted. R209: PWRCAP takes 600 to
1,250 W. R153: the weights change and the credits stay. R149, R199, R390: the request area and the queue registers take the writes of their fields,
and reserved values of PRIO and LOGN change nothing. R410: a change of a sealed VF ends its TDI; unprotected requests to it are refused and counted. -/
def Obligations.HostWritesReachTheirRegisters : Prop :=
  (∀ (s : State) (vf q : Nat) (v : Word), q < (s.tenant vf).nq →
    let h := (s.tenant vf).queues.get {} q
    (bit v 63 = true → ∃ t, exec (.qstatusWrite vf q v) s = .next t ∧ (t.tenant vf).queues.get {} q = { h with approx := false }) ∧
    (bit v 63 = false → exec (.qstatusWrite vf q v) s = .next s)) ∧
  (∀ (s : State) (vf : Nat) (v : Word), 1 ≤ vf → vf ≤ 64 →
    let n := fld v 13 0
    (s.sealed vf = true → ∃ t, exec (.tsliceWrite vf v) s = .next t ∧ (t.tenant vf).slice = (s.tenant vf).slice ∧
      t.life.counters.get 0 (0xD0 + vf) = Nat.min (2 ^ 32 - 1) (s.life.counters.get 0 (0xD0 + vf) + 1)) ∧
    (s.sealed vf = false → (10 ≤ n ∧ n ≤ 10000 → ∃ t, exec (.tsliceWrite vf v) s = .next t ∧ (t.tenant vf).slice = n ∧ t.life = s.life) ∧
      (n < 10 ∨ 10000 < n → exec (.tsliceWrite vf v) s = .next s)) ∧
    (∃ t, exec (.pwgtWrite vf 0 v) s = .next t ∧ (t.tenant vf).pwgt0 = v ∧ (t.tenant vf).pwgt1 = (s.tenant vf).pwgt1 ∧
      (t.tenant vf).credit = (s.tenant vf).credit) ∧
    (∃ t, exec (.pwgtWrite vf 1 v) s = .next t ∧ (t.tenant vf).pwgt1 = v ∧ (t.tenant vf).pwgt0 = (s.tenant vf).pwgt0 ∧
      (t.tenant vf).credit = (s.tenant vf).credit)) ∧
  (∀ (s : State) (v : Word),
    exec (.pwrcapWrite v) s = .next (if 600 ≤ fld v 10 0 ∧ fld v 10 0 ≤ 1250 then { s with pwrcap := fld v 10 0 } else s)) ∧
  (∀ (s : State) (i : Nat) (v : Word), i < 32 → exec (.registerWrite 0 (0x100 + 8 * i) v) s = .next { s with mbox := s.mbox.put i v }) ∧
  (∀ (s : State) (fn q : Nat) (v : Word), 0 < fn → q < (s.tenant fn).nq →
    let h := (s.tenant fn).queues.get {} q
    (∃ t, exec (.registerWrite fn (64 * q) v) s = .next t ∧
      (t.tenant fn).queues.get {} q = { h with base := v &&& 0x01FF_FFFF_FFFF_F000#64 }) ∧
    (∃ t c, exec (.registerWrite fn (64 * q + 8) v) s = .next t ∧ (t.tenant fn).queues.get {} q = { h with cfg := c } ∧
      fld c 47 42 = (if fld v 47 42 < 48 then fld v 47 42 else fld h.cfg 47 42) ∧
      fld c 4 0 = (if 1 ≤ fld v 4 0 ∧ fld v 4 0 ≤ 16 then fld v 4 0 else fld h.cfg 4 0) ∧ bit c 63 = bit v 63 ∧ bit c 62 = bit v 62 ∧
      fld c 55 48 = fld v 55 48) ∧
    (∃ t, exec (.registerWrite fn (64 * q + 32) v) s = .next t ∧
      (t.tenant fn).queues.get {} q = { h with wdog := v &&& 0x0FFF_FFFF_FFFF_FFFF#64 }) ∧
    (∀ o ∈ [16, 24, 48, 56], exec (.registerWrite fn (64 * q + o) v) s = .next s)) ∧
  (∀ (s : State) (vf : Nat), 1 ≤ vf → vf ≤ 64 →
    ((s.tenant vf).tdi = .locked ∨ (s.tenant vf).tdi = .run →
      ∃ t, exec (.configWrite vf true) s = .next t ∧ (t.tenant vf).tdi = .error ∧ (t.tenant vf).st = .scrub) ∧
    exec (.configWrite vf false) s = .next s ∧
    (s.sealed vf = true → ∀ w, ∃ t, exec (.bar2UnprotectedRequest vf w) s = .next t ∧
      t.out = s.out ++ (if w then [] else [Out.completion vf true]) ∧ t.tenants = s.tenants ∧
      t.life.counters.get 0 (0xD0 + vf) = Nat.min (2 ^ 32 - 1) (s.life.counters.get 0 (0xD0 + vf) + 1)))

/-- R201: a request is accepted once the host has written 1 to +0xF8 and no earlier one is being performed; the device clears +0xF8, and the answer is
a status in the response area. R316: an ASSIGN of a descriptor that is in order assigns the tenant. R418: a FREE stops the arbiter's service of the
VF. R152: a SHARE of a cluster without a launch gives it to the tenants named, and the tenant there stops. R185, R188, R194: PART writes DEVLOC, a
route or a group entry. R416: LIFE gives 31 counters. The operands' places are the model's (DESIGN CHOICE, log 101). -/
def Obligations.MailboxRequestsAreAnswered : Prop :=
  ∀ s : State,
  let asked (cmd : Nat) : Prop := s.mboxWord 31 = 1 ∧ s.mboxFree = none ∧ s.mboxWord 0 = cmd
  let answers (t : State) (n : Nat) (ws : List Nat) : Prop :=
    t.out = s.out ++ [Out.mbox n ws] ∧ t.mbox.get 0#64 32 = wd n ∧ t.mbox.get 0#64 31 = 0#64
  (s.mboxWord 31 ≠ 1 ∨ s.mboxFree.isSome = true → ∀ desc vf k vfs p n,
    ∀ i ∈ [Instr.mboxAssign desc, .mboxFree vf, .mboxShare k vfs, .mboxPart p, .mboxLife n], exec i s = .next s) ∧
  (∀ (desc : Word) (ws l : List (Word × Nat)),
    let chk := fun a : Word => s.checkNow (s.clusterOf 2048) 0 .m .load false a 8
    let words := maskDescr (ws.map (·.1))
    let d : Descr := ⟨words, l.map (·.1)⟩
    s.stackWords chk desc 32 = .ok ws →
    s.stackWords chk (wd (fld (wordAt words 20) 56 3 * 8)) (Nat.min 1024 (wordAt words 21).toNat) = .ok l → desc.toNat % 64 = 0 →
    asked 1 → s.mboxWord 1 = d.vf →
    ∃ t, exec (.mboxAssign desc) s = .next t ∧ answers t (s.assignStatus d true) [] ∧
      (s.assignStatus d true = 0 → (t.tenant d.vf).st = .assigned ∧ (t.tenant d.vf).pairs = d.pairs ∧ (t.tenant d.vf).kslot = d.kslot ∧
        (t.tenant d.vf).nq = d.nq ∧ (t.tenant d.vf).mwin = d.mwin ∧ (t.tenant d.vf).served = true) ∧
      (s.assignStatus d true ≠ 0 → t.tenants = s.tenants)) ∧
  (∀ vf : Nat, 1 ≤ vf → vf ≤ 64 → asked 2 → s.mboxWord 1 = vf →
    ((s.tenant vf).st = .free → ∃ t, exec (.mboxFree vf) s = .next t ∧ answers t 2 [] ∧ t.tenants = s.tenants) ∧
    ((s.tenant vf).st ≠ .free → 0 < (s.tenant vf).nq → ∃ t, exec (.mboxFree vf) s = .next t ∧ t.out = s.out ∧ t.mboxFree = some vf ∧
      t.mbox.get 0#64 31 = 0#64 ∧ t.tenant vf = { s.tenant vf with hbuf := [], served := false })) ∧
  (∀ (k : Nat) (vfs : List Nat), let c := s.cluster k
    asked 3 → s.mboxWord 1 = k → (∀ i < vfs.length, s.mboxWord (2 + i) = vfs.getD i 0) → s.mboxWord (2 + vfs.length) = 0 →
    (∀ v ∈ vfs, 1 ≤ v ∧ v ≤ 64) → vfs.Nodup → vfs ≠ [] → vfs.length ≤ 8 → k < s.nclusters →
    ((∃ v ∈ vfs, s.sealed v = true) → ∃ t, exec (.mboxShare k vfs) s = .next t ∧ t.clusters = s.clusters ∧ answers t 2 []) ∧
    ((∀ v ∈ vfs, s.sealed v = false) → (∃ v ∈ c.share ++ vfs, s.launching v = true) ∨ c.leaving.isSome = true →
      ∃ t, exec (.mboxShare k vfs) s = .next t ∧ t.clusters = s.clusters ∧ answers t 1 []) ∧
    ((∀ v ∈ vfs, s.sealed v = false) → (∀ v ∈ c.share ++ vfs, s.launching v = false) → c.leaving = none → (∀ e ∈ c.folds, e.poison = false) →
      ∃ t, exec (.mboxShare k vfs) s = .next t ∧ (t.cluster k).share = vfs ∧ (t.cluster k).turn = 0 ∧ (t.cluster k).sliceStart = s.cycle ∧
        answers t 0 [] ∧ t.mem = s.mem ∧
        ∀ v, s.tenantOn k = some v → v ≠ vfs.headD 0 → (t.cluster k).leaving = some v ∧ ∀ r ∈ s.slotsOn k v, (t.slot r).halted = true)) ∧
  (asked 4 →
    (∀ v, ∃ t, exec (.mboxPart (.devloc v)) s = .next t ∧ t.devloc = v &&& 0x000F_FFFF_FFF0_0FFF#64 ∧ answers t 0 []) ∧
    (∀ dev r, (dev < 4096 → ∃ t, exec (.mboxPart (.route dev r)) s = .next t ∧ t.routes = s.routes.put dev r ∧ answers t 0 []) ∧
      (4096 ≤ dev → ∃ t, exec (.mboxPart (.route dev r)) s = .next t ∧ t.routes = s.routes ∧ answers t 2 [])) ∧
    (∀ g ws, g < 256 →
      (groupLawful (s.groupEntry ws) = true → ∃ t, exec (.mboxPart (.group g ws)) s = .next t ∧ (t.group g).entry = s.groupEntry ws ∧
        (t.group g).stamp = 0 ∧ (t.group g).gapply = 0 ∧ (t.group g).window = [] ∧ answers t 0 []) ∧
      (groupLawful (s.groupEntry ws) = false → ∃ t, exec (.mboxPart (.group g ws)) s = .next t ∧ t.groups = s.groups ∧ answers t 2 []))) ∧
  (∀ n : Nat, asked 5 → s.mboxWord 1 = n →
    (n % 31 = 0 → n + 30 ≤ 0x13F → ∃ t, exec (.mboxLife n) s = .next t ∧ t.life = s.life ∧
      answers t 0 ((List.range 31).map fun i => s.lifeCount (n + i)) ∧ ∀ i < 31, t.mbox.get 0#64 (33 + i) = wd (s.lifeCount (n + i))) ∧
    (n % 31 ≠ 0 → ∃ t, exec (.mboxLife n) s = .next t ∧ answers t 2 [] ∧ t.life = s.life))

/-- R207, R408: the requests come in their order, one that is out of order or that a function does not serve gets UnexpectedRequest, algorithms
other than the fixed ones, mutual authentication and PSK_EXCHANGE UnsupportedRequest, and a measurement index that is not reported InvalidRequest. R409: a message
that fails ends its session, and ERROR for a TDI whose keys were set in it. R204: LOCK_INTERFACE and START_INTERFACE take the TDI to LOCKED and to
RUN. R208: a report clears the flags and goes out, and while a launch runs, or
another request of the function is served, it answers Busy. The order is the model's (PRESUMED, log 46). -/
def Obligations.SpdmRequestsAreServedInOrder : Prop :=
  (∀ (s : State) (fn : Nat), s.serves fn = true →
    let x := s.spdmOf fn
    let answered := fun (i : Instr) (e : Option Nat) (y : Spdm) => ∃ t, exec i s = .next t ∧ t.spdmOf fn = y ∧ t.out = s.out ++ [Out.spdm fn e] ∧
      t.tenants = s.tenants ∧ t.mem = s.mem
    answered (.getVersion fn) none { x with stage := 1, session := false, established := false } ∧
    (x.stage = 1 → answered (.getCapabilities fn) none { x with stage := 2 }) ∧
    (x.stage ≠ 1 → answered (.getCapabilities fn) (some 4) x) ∧
    (x.stage = 2 → answered (.negotiateAlgorithms fn true) none { x with stage := 3 } ∧ answered (.negotiateAlgorithms fn false) (some 7) x) ∧
    (x.stage ≠ 2 → ∀ b, answered (.negotiateAlgorithms fn b) (some 4) x) ∧
    (∀ i ∈ [Instr.getDigests fn, .getCertificate fn, .challenge fn], answered i (if 3 ≤ x.stage then none else some 4) x) ∧
    (3 ≤ x.stage → ∀ n, 1 ≤ n → n ≤ 5 → (n = 5 → fn ≠ 0) → ∃ t m, exec (.getMeasurements fn n) s = .next t ∧
      t.out = s.out ++ [Out.measurement fn n m] ∧ t.mem = s.mem ∧ (n = 2 → m = Config.sha384 s.firmware.content) ∧
        (n = 3 → m = Config.sha384 (leBytes 8 s.life.secver ++ Config.fuseBytes)) ∧ (n = 5 → m = Config.sha384 (s.tenant fn).descr)) ∧
    (3 ≤ x.stage → answered (.getMeasurements fn 6) (some 1) x) ∧
    (x.stage < 3 → ∀ n, answered (.getMeasurements fn n) (some 4) x) ∧
    (3 ≤ x.stage → answered (.keyExchange fn false) none { x with session := true, established := false, ide := false, id := x.id + 1 } ∧
      answered (.keyExchange fn true) (some 7) x) ∧
    (x.session = true → x.established = false → answered (.finish fn) none { x with established := true }) ∧
    (x.session = false → ∀ i ∈ [Instr.finish fn, .keyUpdate fn, .endSession fn], answered i (some 4) x) ∧
    (x.session = true → x.established = true → answered (.keyUpdate fn) none x ∧
      answered (.endSession fn) none { x with session := false, established := false } ∧
      answered (.ideKm fn x.id) none { x with ide := true } ∧ answered (.finish fn) (some 4) x)) ∧
  (∀ (s : State) (fn : Nat), s.serves fn = false → ∀ i ∈ [Instr.getVersion fn, .getCapabilities fn, .getDigests fn, .challenge fn, .finish fn],
    ∃ t, exec i s = .next t ∧ t.out = s.out ++ [Out.spdm fn (some 4)] ∧ t.spdm = s.spdm) ∧
  (∀ (s : State) (fn : Nat),
    exec (.securedMessage fn true) s = .next s ∧
    ((s.spdmOf fn).session = true → ∃ t, exec (.securedMessage fn false) s = .next t ∧ (t.spdmOf fn).session = false ∧
      (t.spdmOf fn).ide = false ∧ t.out = s.out ∧
      ((s.spdmOf fn).ide = true → (s.tenant fn).tdi = .locked ∨ (s.tenant fn).tdi = .run →
        (t.tenant fn).tdi = .error ∧ (t.tenant fn).st = .scrub))) ∧
  (∀ (s : State) (vf : Nat), 1 ≤ vf → vf ≤ 64 →
    let x := s.tenant vf
    (x.st = .assigned → x.tdi = .unlocked → ∃ t, exec (.lockInterface vf) s = .next t ∧ t.tenant vf = { x with st := .locked, tdi := .locked } ∧
      t.out = s.out ++ [Out.spdm vf none]) ∧
    (x.tdi = .locked → ∃ t, exec (.tdispStartInterface vf) s = .next t ∧ t.tenant vf = { x with st := .run, tdi := .run } ∧
      t.out = s.out ++ [Out.spdm vf none]) ∧
    (x.tdi ≠ .unlocked → ∃ t, exec (.lockInterface vf) s = .next t ∧ t.tenants = s.tenants ∧ t.out = s.out ++ [Out.spdm vf (some 4)]) ∧
    (x.tdi ≠ .locked → ∃ t, exec (.tdispStartInterface vf) s = .next t ∧ t.tenants = s.tenants ∧ t.out = s.out ++ [Out.spdm vf (some 4)])) ∧
  (∀ (s : State) (fn : Nat) (nonce : BitVec 256) (base len : Word) (busy : Bool), s.serves fn = true → fn ≠ 0 →
    let x := s.spdmOf fn
    let good := base.toNat < 2 ^ 56 ∧ base.toNat % 4096 = 0 ∧ len.toNat % 32 = 0 ∧ len.toNat ≤ 2 ^ 40
    (x.session = false → ∃ t, exec (.vendorDefinedRequest ⟨fn, busy⟩ nonce base len) s = .next t ∧ t.out = s.out ++ [Out.spdm fn (some 4)]) ∧
    (x.session = true → x.established = true →
      (¬good → ∃ t, exec (.vendorDefinedRequest ⟨fn, busy⟩ nonce base len) s = .next t ∧ t.out = s.out ++ [Out.spdm fn (some 1)]) ∧
      (good → ∀ ks, s.digestPages fn base ((len.toNat + 4095) / 4096) = some ks →
        (busy = true ∨ s.launching fn = true → ∃ t, exec (.vendorDefinedRequest ⟨fn, busy⟩ nonce base len) s = .next t ∧ t.out = s.out ++ [Out.spdm fn (some 3)] ∧
          t.tenants = s.tenants) ∧
        (busy = false → s.launching fn = false → ∃ t r, exec (.vendorDefinedRequest ⟨fn, busy⟩ nonce base len) s = .next t ∧ t.out = s.out ++ [Out.report fn r] ∧
          t.tenant fn = { s.tenant fn with flags := 0#4 } ∧ t.mem = s.mem ∧
          r.length = 256 ∧ (∀ i < 32, r.getD (8 + i) 0#8 = (leBytes 32 nonce.toNat).getD i 0#8) ∧
          r.getD 1 0#8 = BitVec.ofNat 8 fn))))

/-- R206, R413, R414: after a cold reset with a good image in module flash, a cluster and a channel left, the four monitor cores run, no tenant
exists, keys 0 to 15 are new and the pass over everything begins; otherwise, or with a bad mesh link, the part is in recovery, where nothing but a
reset or an image happens. R7, R11, R14, R17: only clusters of the die that are not retired stand at its router positions, and a port comes up as its
lanes allow. After a warm reset the scratch and tile bytes are gone, the other bytes stand, the key slots of the tenants are zero, and a pass that ran
goes on. -/
def Obligations.ResetsRestartTheMachine : Prop :=
  let monitorsRun (t : State) : Prop := ∀ k < 4, (t.slot ⟨2048 + k, 0⟩).occ = .running ∧ (t.slot ⟨2048 + k, 0⟩).level = .m
  let whole (s : State) (b : BootReport) : Prop := b.badLinks = [] ∧ (s.retire b).seated b.seats [] ≠ [] ∧ (s.retire b).trained b ≠ []
  (∀ (s : State) (b : BootReport), s.imageGood s.firmware = true → whole s b →
    ∃ t, exec (.coldReset b) s = .next t ∧ t.recovery = false ∧ t.tenants = [] ∧ t.flights = [] ∧ t.launches = [] ∧ t.cycle = 0 ∧
      t.journal = { run := true, boot := true, cold := true } ∧ monitorsRun t ∧
      (∀ r, (∀ k < 4, r ≠ ⟨2048 + k, 0⟩) → (t.slot r).occ = .free) ∧ (∀ k < 16, (t.keys.get {} k).st = .loaded ∧ s.fresh ≤ (t.keys.get {} k).gen) ∧
      (∀ k, 16 ≤ k → k < 80 → (t.keys.get {} k).st = .zero) ∧ t.devloc = 0#64 ∧ t.reports = s.reports ∧ t.firmware = s.firmware ∧
      (∀ e ∈ t.seats, e.1 < 64 ∧ e.1 / 32 = e.2 / 33 ∧ (0, e.2) ∉ t.life.retired) ∧ (∀ c ∈ t.chans, (2, c) ∉ t.life.retired ∧ c ∉ b.untrained) ∧
      (∀ p < 16, t.portState p = t.life.portUp b p) ∧ t.boot = b) ∧
  (∀ (s : State) (b : BootReport),
    (s.imageGood s.firmware = false ∨ ¬whole s b → ∃ t, exec (.coldReset b) s = .next t ∧ t.recovery = true) ∧
    (s.imageGood s.firmware = false ∨ b.badLinks ≠ [] ∨ s.seats = [] ∨ s.chans = [] → ∃ t, exec (.warmReset b) s = .next t ∧ t.recovery = true)) ∧
  (∀ (s : State) (b : BootReport), s.memOk → s.imageGood s.firmware = true → b.badLinks = [] → s.seats ≠ [] → s.chans ≠ [] →
    (∀ c ∈ s.cores, (∀ x ∈ c.2.slots.toList, ∀ n ∈ x.tiles, n < 16) ∧ ∀ e ∈ c.2.retained, ∀ n ∈ e.tiles, n < 16) →
    ∃ t, exec (.warmReset b) s = .next t ∧ t.recovery = false ∧
      (∀ a, Memory.get t.mem a = if chipBit ≤ a ∧ (chipOf a).unit < 16 ∧ (chipOf a).region < 2 then 0#8 else Memory.get s.mem a) ∧
      (∀ c b, (t.core c).bank b = 0) ∧ t.flights = [] ∧ t.launches = [] ∧ (∀ r, (∀ k < 4, r ≠ ⟨2048 + k, 0⟩) → (t.slot r).occ = .free) ∧
      monitorsRun t ∧ t.seats = s.seats ∧ t.chans = s.chans ∧ t.firmware = s.firmware ∧
      (∀ v ∈ s.tenants.map (·.1), (s.tenant v).st ≠ .free → (s.tenant v).kslot ≠ 0 → (t.keys.get {} (s.tenant v).kslot).st = .zero) ∧
      (s.journal.run = true → t.journal.run = true ∧ t.journal.rsm = true ∧ t.journal.job = s.journal.job ∧ t.journal.chunk = s.journal.chunk ∧
        t.journal.jobs = s.journal.jobs)) ∧
  (∀ (s : State) (img : FirmwareImage),
    (s.recovery = false ∨ s.imageGood img = false → exec (.recoveryImagePush img) s = .next s) ∧
    (s.recovery = true → s.imageGood img = true → ∃ t, exec (.recoveryImagePush img) s = .next t ∧ t.firmware = img ∧
      ((∃ e ∈ s.life.retired, e.1 = 1) → t.recovery = true) ∧
      ((∀ e ∈ s.life.retired, e.1 ≠ 1) → s.life.seated s.boot.seats [] ≠ [] → s.life.trained s.boot ≠ [] → t.recovery = false ∧ monitorsRun t))) ∧
  (∀ s : State, s.recovery = true → s.agenda = [] ∨ (∃ r ts, s.agenda = .issue r :: ts) ∨ (∃ n ts, s.agenda = .tick n :: ts) ∨
      (∃ i ts, s.agenda = .event i :: ts ∧ inRecovery i = false) → step s = .fault .recovery)

/-- R307, R411: a chunk becomes zero, is recorded, and leaves quarantine in one step. R378, R416: what the patrol cannot correct is poisoned and reported to
the monitor, in SRAM poisoned and counted, and an error of LPDDR-6 that it corrects is only counted. R415: a key slot that fails its check is lost with its TDI, is zeroed when no
tenant is bound to it, or takes the part to recovery. R416: an hour counts in its bins of temperature and power. -/
def Obligations.PlatriuzScrubsPatrolsAndChecks : Prop :=
  (∀ s : State, s.journal.run = false → exec .scrubChunkComplete s = .next s) ∧
  (∀ (s : State) (base : Nat), s.memOk → s.journal.run = true → s.chunkNow = some (.pa base) → s.recorded.2 = false →
    (∀ m, Chunk.channel? s (.pa base) = some m → s.journal.failedCh.contains m = false) →
    ∃ t, exec .scrubChunkComplete s = .next t ∧ t.journal = s.recorded.1 ∧
      (∀ a, Memory.get t.mem a = if base ≤ a ∧ a < base + 0x10000 then 0#8 else Memory.get s.mem a) ∧
      (∀ v, (t.tenant v).quar = (s.tenant v).quar.flatMap (Quar.release (.pa base)))) ∧
  (∀ (s : State) (core : Nat) (m : BitVec 48), s.journal.run = true → s.chunkNow = some (.banks core m) → s.recorded.2 = false →
    s.journal.failed.contains (core / 16) = false →
    ∃ t, exec .scrubChunkComplete s = .next t ∧ t.journal = s.recorded.1 ∧
      ∀ b < 48, (t.core core).bank (16 + b) = if m.getLsbD b then 0 else (s.core core).bank (16 + b)) ∧
  (∀ (s : State) (addr : Nat),
    exec (.patrolRead addr .clean) s = .next s ∧
    (∀ ch, s.place addr = .lpddr ch → ∃ t, exec (.patrolRead addr .corrected) s = .next t ∧ t.mem = s.mem ∧ t.poison = s.poison ∧
      t.lifeCount (0x80 + ch) = Nat.min (2 ^ 32 - 1) (s.lifeCount (0x80 + ch) + 1)) ∧
    (s.place addr = .stack → ∃ t r, exec (.patrolRead addr .uncorrectable) s = .next t ∧ granule addr ∈ t.poison ∧ (∀ g ∈ s.poison, g ∈ t.poison) ∧
      t.reports = s.reports ++ [r] ∧ r.cause = wd (2 ^ 63 + 0x14) ∧ r.tval = wd (granule addr) ∧ t.mem = s.mem ∧
      ∀ x, (t.slot x) = (s.slot x)) ∧
    (s.place addr = .chip → (chipOf addr).unit < 16 → (chipOf addr).region < 2 → ∃ t, exec (.patrolRead addr .uncorrectable) s = .next t ∧
      granule addr ∈ t.poison ∧ t.reports = s.reports ∧ t.mem = s.mem ∧
      t.lifeCount (0x40 + (chipOf addr).cluster) = Nat.min (2 ^ 32 - 1) (s.lifeCount (0x40 + (chipOf addr).cluster) + 1))) ∧
  (∀ (s : State) (k : Nat), k < 80 → (s.keys.get {} k).st ≠ .lost →
    exec (.keyIntegrityCheck k false) s = .next s ∧
    (k < 16 → ∃ t, exec (.keyIntegrityCheck k true) s = .next t ∧ t.recovery = true) ∧
    (16 ≤ k → s.boundTo k = [] → ∃ t, exec (.keyIntegrityCheck k true) s = .next t ∧ (t.keys.get {} k).st = .zero ∧ t.tenants = s.tenants) ∧
    (∀ v vs, 16 ≤ k → s.boundTo k = v :: vs → ∃ t, exec (.keyIntegrityCheck k true) s = .next t ∧ (t.keys.get {} k).st = .lost ∧
      (t.tenant v).tdi = .error ∧ (t.tenant v).st = .scrub)) ∧
  (∀ (s : State) (c w : Nat), ∃ t, exec (.lifetimeHourTick c w) s = .next t ∧
    (40 ≤ c → 500 ≤ w → ∀ i, t.life.counters.get 0 i =
      if i = 0x120 + Nat.min 15 ((c - 40) / 8) ∨ i = 0x130 + Nat.min 15 ((w - 500) / 50) then Nat.min (2 ^ 32 - 1) (s.life.counters.get 0 i + 1)
      else s.life.counters.get 0 i) ∧ t.mem = s.mem ∧ t.tenants = s.tenants)

/-! ## Words and turns -/

/-- R86, R215, R341, R347: in its turn a slot that may run, has no boundary event due, does not drain and whose core has not issued in this cycle
executes the word at its PC: the step is `exec` of the instruction that the word decodes to, on the machine in which the slot issues; an undecodable
word is an illegal instruction, and a fetch that fails traps. A due boundary event comes first. R22: a turn is taken by the slot that its core chooses
among those that are ready, a slot that alone is ready is chosen, and no cycle passes while one that waits since 12 cycles has not been chosen. An
event of the device is `exec` of it. Turns and their order are the model's (DESIGN CHOICE, log 2). -/
def Obligations.AStepRunsTheDecodedWord : Prop :=
  (∀ (s : State) (r : SlotRef) (v : List Nat) (ts : List Turn),
    (s.agenda = .issue r :: ts ∧ v = [0]) ∨ s.agenda = .issueAt r v :: ts → s.recovery = false →
    let u : State := { s with agenda := ts, view := v, part := 0 }
    let ready := (List.range 4).filter fun n => n == r.slot || u.readySlot r.core n
    (r.slot < 4 → (∀ n < 4, n ≠ r.slot → u.readySlot r.core n = false) → (u.core r.core).turnOf s.cycle ready = some r.slot) ∧
    ((u.core r.core).turnOf s.cycle ready ≠ some r.slot → step s = .next u) ∧
    ((u.core r.core).turnOf s.cycle ready = some r.slot →
      let x : State := u.modCore r.core fun c => c.turned s.cycle ready
      let pc := (x.slot r).pc
      (x.mayTurn r = false → step s = .next x) ∧
      (x.mayTurn r = true → x.boundaryDue r = true → step s = exec (.asyncTrap r.core r.slot) { x with cur := r }) ∧
      (x.mayTurn r = true → x.boundaryDue r = false → (x.slot r).drain.isSome = true ∨ (x.core r.core).issued = some s.cycle → step s = .next x) ∧
      (x.mayTurn r = true → x.boundaryDue r = false → (x.slot r).drain = none → (x.core r.core).issued ≠ some s.cycle →
        (∀ w i t, x.fetchWord r pc = .word w t → decode w = some i → step s = exec i (t.issuing r w)) ∧
        (∀ w t, x.fetchWord r pc = .word w t → decode w = none → step s = exec (.illegalInstruction w) (t.issuing r w)) ∧
        (∀ c v, x.fetchWord r pc = .bad c v → step s = exec (.fetchFault c v) (x.issuing r 0#32)) ∧
        (x.fetchWord r pc = .miss → step s = .next (x.wantWalk r pc .fetch)) ∧
        (x.fetchWord r pc = .own → step s = .next x) ∧
        (∀ core b k, x.fetchWord r pc = .wake core b k → step s = .next ((x.wake core b).holdFetch r pc k))))) ∧
  (∀ (s : State) (r : SlotRef) (pc : Word), (∀ e ∈ (s.slot r).latch, e.1 ≠ pc) →
    (∀ w t, s.fetchAt r pc = .word w t → s.fetchWord r pc = .word w (t.entered r)) ∧
    ∀ o, s.fetchAt r pc = o → (∀ w t, o ≠ .word w t) → s.fetchWord r pc = o) ∧
  (∀ (s : State) (r : SlotRef) (w : BitVec 32),
    (s.issuing r w).cur = r ∧ (s.issuing r w).ir = w ∧ (s.issuing r w).mem = s.mem ∧ (s.issuing r w).sl.pc = (s.slot r).pc ∧
      (∀ q, (s.issuing r w).sl.rd q = (s.slot r).rd q) ∧ (∀ q, q ≠ r → (s.issuing r w).slot q = s.slot q) ∧
      ((s.slot r).armed = false → (s.issuing r w).sl = s.slot r)) ∧
  (∀ (s : State) (i : Instr) (v : List Nat) (p : Nat) (ts : List Turn),
    (s.agenda = .event i :: ts ∧ v = [0] ∧ p = 0) ∨ s.agenda = .eventAt i v p :: ts → s.recovery = false ∨ inRecovery i = true →
    step s = if isEvent i then exec i { s with agenda := ts, view := v, part := p } else .next { s with agenda := ts, view := v, part := p }) ∧
  (∀ (s : State) (n : Nat) (ts : List Turn), s.agenda = .tick (n + 1) :: ts → s.recovery = false →
    (s.overdue = none → ∃ t, step s = .next t ∧ t.cycle = s.cycle + 1 ∧ t.agenda = (if n = 0 then ts else .tick n :: ts) ∧
      (s.calm = true → t.mem = s.mem)) ∧
    (∀ r, s.overdue = some r → (s.core r.core).issued ≠ some s.cycle ∧ step s = step { s with agenda := .issue r :: s.agenda }))

/-- R210 to R216: an instruction that a word can name is what the decoder reads from its word, with every operand at every value that the encoding
admits. -/
def Obligations.EncodedInstructionsDecode : Prop :=
  ∀ (i : Instr) (w : BitVec 32), i.wf = true → encode i = some w → decode w = some i

/-- The words that the manual writes out in its examples are the instructions that it says they are, and words of unassigned majors, reserved values
and non-zero reserved fields of the strict classes (R215, R216) are none. -/
def Obligations.WrittenWordsDecode : Prop :=
  decode 0x04611000#32 = some (.add 3#5 1#5 2#5 false false false) ∧
  decode 0x08E00010#32 = some (.addi 7#5 0#5 16#16) ∧
  decode 0x2520A300#32 = some (.lui 9#5 0xA300#21) ∧
  decode 0x53EC4000#32 = some (.jalr 31#5 12#5 0#14) ∧
  decode 0x55284202#32 = some (.ld 9#5 8#5 .w .none .acq 2#9) ∧
  decode 0x582B6400#32 = some (.st 1#5 11#5 .d .none .rel 0#9) ∧
  decode 0x5D021002#32 = some (.rld 32#7 8#5 .dd 2#11) ∧
  decode 0x60CA00C0#32 = some (.aadd 6#5 10#5 0#5 false false .acq true) ∧
  decode 0x640C0005#32 = some (.sete 12#5) ∧
  decode 0x68051000#32 = some (.mbw 5#5 2#3 false) ∧
  decode 0x6D253030#32 = some (.post 9#5 5#5 6#5 false false 3#4) ∧
  decode 0x70456014#32 = some (.ttq 12#5 10#5) ∧
  decode 0x740E0104#32 = some (.haltRt 14#5 false) ∧
  decode 0x7800003F#32 = some (.bank .off 63#6) ∧
  decode 0x7CA00088#32 = some (.csrr 5#5 0x22#12) ∧
  decode 0x80800020#32 = some (.vaddF .f32 16#7 0#7 1#7 false) ∧
  decode 0x911A388D#32 = some (.vsra .i16 35#7 35#7 4#5 false) ∧
  decode 0x9D0001C4#32 = some (.vpack 32#7 0#7 .rne true true 2#4 false) ∧
  decode 0xA1800204#32 = some (.vdotBf16 48#7 0#7 16#7 false) ∧
  decode 0xC0100000#32 = some (.brk 0#20) ∧
  decode 0x00000001#32 = some .tret ∧
  decode 0xC4050001#32 = some (.kzero 5#5 false) ∧
  ∀ w ∈ [0x00000000#32, 0x00000801#32, 0x5400E000#32, 0x54001800#32, 0x64000073#32, 0xA8000000#32, 0xE8000000#32, 0xC4000000#32], decode w = none

/-! ## Invariants -/

/-- Whatever the next step does, storage stays in its canonical form: every byte has one place and none is listed that reads as an unlisted one. -/
def Obligations.EveryStepKeepsMemoryCanonical : Prop :=
  ∀ s t : State, s.memOk → step s = .next t → t.memOk

/-- R34, R157: a run list keeps its eight banks of at most 256 entries whatever the next step does. R32: no core has more than two shadow task slots
in use. -/
def Obligations.EveryStepKeepsTheCapacities : Prop :=
  ∀ s t : State, s.Capacities → step s = .next t → t.Capacities

/-- R206: after reset the four monitor cores run, each in slot 0 at level M, and nothing else, keys 0 to 15 are loaded and the others zero, no tenant
has anything, and the pass over all storage begins. R66: every bank is Off. The PC is the model's choice (DESIGN CHOICE, log 1), and so is every
register that the manual gives no reset value: it holds 0 (DESIGN CHOICE, log 5). -/
def Obligations.ResetIsAsStated : Prop :=
  let s := State.reset
  (∀ k < 4, let x := s.slot ⟨2048 + k, 0⟩
    x.occ = .running ∧ x.level = .m ∧ x.pc = 0x10000#64 ∧ x.ten = 0) ∧
  (∀ r, (∀ k < 4, r ≠ ⟨2048 + k, 0⟩) → (s.slot r).occ = .free) ∧ (∀ r n, (s.slot r).rd n = 0#64 ∧ (s.slot r).isFull n = true) ∧
  (∀ r, (s.slot r).frm = 0#2 ∧ (s.slot r).fflags = 0#7 ∧ (s.slot r).amax = 0#31 ∧ (s.slot r).wdef = false) ∧
  (∀ c b, (s.core c).bank b = 0) ∧ (∀ a, Memory.get s.mem a = 0#8) ∧
  (∀ v, (s.tenant v).st = .free ∧ (s.tenant v).tdi = .unlocked ∧ (s.tenant v).pairs = 0#512 ∧ (s.tenant v).nq = 0) ∧
  (∀ k, k < 80 → (s.keys.get {} k).st = if k < 16 then .loaded else .zero) ∧
  s.flights = [] ∧ s.launches = [] ∧ s.cycle = 0 ∧ s.recovery = false ∧ s.journal = { run := true, boot := true, cold := true } ∧
  s.pwrcap = 1250 ∧ s.memOk ∧ s.Capacities
end

