-- ==== Sys2Proof/Laws/Formats.lean ====
section
/-! SUPPORT. What each field of each format reads back as: the facts from which the round trip of an encoding follows. -/

namespace Sys2Proof

open BitVec

/-! ## Parts of a concatenation -/

theorem ext_hi {n m k l : Nat} (a : BitVec n) (b : BitVec m) (h : m ≤ k) : (a ++ b).extractLsb' k l = a.extractLsb' (k - m) l := by
  apply eq_of_getLsbD_eq; intro i hi
  have h1 : ¬ k + i < m := by omega
  simp [getLsbD_append, h1, show k - m + i = k + i - m by omega]

theorem ext_lo {n m k l : Nat} (a : BitVec n) (b : BitVec m) (h : k + l ≤ m) : (a ++ b).extractLsb' k l = b.extractLsb' k l := by
  apply eq_of_getLsbD_eq; intro i hi
  have h1 : k + i < m := by omega
  simp [getLsbD_append, h1]

theorem bit_hi {n m k : Nat} (a : BitVec n) (b : BitVec m) (h : m ≤ k) : (a ++ b).getLsbD k = a.getLsbD (k - m) := by
  have h1 : ¬ k < m := by omega
  simp [getLsbD_append, h1]

theorem bit_lo {n m k : Nat} (a : BitVec n) (b : BitVec m) (h : k < m) : (a ++ b).getLsbD k = b.getLsbD k := by
  simp [getLsbD_append, h]

theorem ext_all {n : Nat} (a : BitVec n) : a.extractLsb' 0 n = a := by simp

theorem bit_ofBool (b : Bool) : (ofBool b).getLsbD 0 = b := by cases b <;> rfl

/-! ## The formats -/

@[simp] theorem mkS3_op (op : BitVec 6) (d : BitVec 5) (a : BitVec 5) (b : BitVec 5) (wa : Bool) (wb : Bool) (fn : BitVec 9) : (mkS3 op d a b wa wb fn).extractLsb' 26 6 = op := by
  apply eq_of_getLsbD_eq; intro i hi; interval_cases i <;> (simp only [mkS3, getLsbD_extractLsb', getLsbD_append]; simp)

@[simp] theorem mkS3_d (op : BitVec 6) (d : BitVec 5) (a : BitVec 5) (b : BitVec 5) (wa : Bool) (wb : Bool) (fn : BitVec 9) : (mkS3 op d a b wa wb fn).extractLsb' 21 5 = d := by
  apply eq_of_getLsbD_eq; intro i hi; interval_cases i <;> (simp only [mkS3, getLsbD_extractLsb', getLsbD_append]; simp)

@[simp] theorem mkS3_a (op : BitVec 6) (d : BitVec 5) (a : BitVec 5) (b : BitVec 5) (wa : Bool) (wb : Bool) (fn : BitVec 9) : (mkS3 op d a b wa wb fn).extractLsb' 16 5 = a := by
  apply eq_of_getLsbD_eq; intro i hi; interval_cases i <;> (simp only [mkS3, getLsbD_extractLsb', getLsbD_append]; simp)

@[simp] theorem mkS3_b (op : BitVec 6) (d : BitVec 5) (a : BitVec 5) (b : BitVec 5) (wa : Bool) (wb : Bool) (fn : BitVec 9) : (mkS3 op d a b wa wb fn).extractLsb' 11 5 = b := by
  apply eq_of_getLsbD_eq; intro i hi; interval_cases i <;> (simp only [mkS3, getLsbD_extractLsb', getLsbD_append]; simp)

@[simp] theorem mkS3_wa (op : BitVec 6) (d : BitVec 5) (a : BitVec 5) (b : BitVec 5) (wa : Bool) (wb : Bool) (fn : BitVec 9) : (mkS3 op d a b wa wb fn).getLsbD 10 = wa := by
  cases wa <;> (simp only [mkS3, getLsbD_append]; simp)

@[simp] theorem mkS3_wb (op : BitVec 6) (d : BitVec 5) (a : BitVec 5) (b : BitVec 5) (wa : Bool) (wb : Bool) (fn : BitVec 9) : (mkS3 op d a b wa wb fn).getLsbD 9 = wb := by
  cases wb <;> (simp only [mkS3, getLsbD_append]; simp)

@[simp] theorem mkS3_fn (op : BitVec 6) (d : BitVec 5) (a : BitVec 5) (b : BitVec 5) (wa : Bool) (wb : Bool) (fn : BitVec 9) : (mkS3 op d a b wa wb fn).extractLsb' 0 9 = fn := by
  apply eq_of_getLsbD_eq; intro i hi; interval_cases i <;> (simp only [mkS3, getLsbD_extractLsb', getLsbD_append]; simp)

@[simp] theorem mkSI_op (op : BitVec 6) (d : BitVec 5) (a : BitVec 5) (i : BitVec 16) : (mkSI op d a i).extractLsb' 26 6 = op := by
  apply eq_of_getLsbD_eq; intro i hi; interval_cases i <;> (simp only [mkSI, getLsbD_extractLsb', getLsbD_append]; simp)

@[simp] theorem mkSI_d (op : BitVec 6) (d : BitVec 5) (a : BitVec 5) (i : BitVec 16) : (mkSI op d a i).extractLsb' 21 5 = d := by
  apply eq_of_getLsbD_eq; intro i hi; interval_cases i <;> (simp only [mkSI, getLsbD_extractLsb', getLsbD_append]; simp)

@[simp] theorem mkSI_a (op : BitVec 6) (d : BitVec 5) (a : BitVec 5) (i : BitVec 16) : (mkSI op d a i).extractLsb' 16 5 = a := by
  apply eq_of_getLsbD_eq; intro i hi; interval_cases i <;> (simp only [mkSI, getLsbD_extractLsb', getLsbD_append]; simp)

@[simp] theorem mkSI_i (op : BitVec 6) (d : BitVec 5) (a : BitVec 5) (i : BitVec 16) : (mkSI op d a i).extractLsb' 0 16 = i := by
  apply eq_of_getLsbD_eq; intro i hi; interval_cases i <;> (simp only [mkSI, getLsbD_extractLsb', getLsbD_append]; simp)

@[simp] theorem mkSU_op (op : BitVec 6) (d : BitVec 5) (i : BitVec 21) : (mkSU op d i).extractLsb' 26 6 = op := by
  apply eq_of_getLsbD_eq; intro i hi; interval_cases i <;> (simp only [mkSU, getLsbD_extractLsb', getLsbD_append]; simp)

@[simp] theorem mkSU_d (op : BitVec 6) (d : BitVec 5) (i : BitVec 21) : (mkSU op d i).extractLsb' 21 5 = d := by
  apply eq_of_getLsbD_eq; intro i hi; interval_cases i <;> (simp only [mkSU, getLsbD_extractLsb', getLsbD_append]; simp)

@[simp] theorem mkSU_i (op : BitVec 6) (d : BitVec 5) (i : BitVec 21) : (mkSU op d i).extractLsb' 0 21 = i := by
  apply eq_of_getLsbD_eq; intro i hi; interval_cases i <;> (simp only [mkSU, getLsbD_extractLsb', getLsbD_append]; simp)

@[simp] theorem mkJ_op (op : BitVec 6) (i : BitVec 26) : (mkJ op i).extractLsb' 26 6 = op := by
  apply eq_of_getLsbD_eq; intro i hi; interval_cases i <;> (simp only [mkJ, getLsbD_extractLsb', getLsbD_append]; simp)

@[simp] theorem mkJ_i (op : BitVec 6) (i : BitVec 26) : (mkJ op i).extractLsb' 0 26 = i := by
  apply eq_of_getLsbD_eq; intro i hi; interval_cases i <;> (simp only [mkJ, getLsbD_extractLsb', getLsbD_append]; simp)

@[simp] theorem mkM_op (op : BitVec 6) (d : BitVec 5) (a : BitVec 5) (z : BitVec 3) (h : BitVec 2) (o : BitVec 2) (i : BitVec 9) : (mkM op d a z h o i).extractLsb' 26 6 = op := by
  apply eq_of_getLsbD_eq; intro i hi; interval_cases i <;> (simp only [mkM, getLsbD_extractLsb', getLsbD_append]; simp)

@[simp] theorem mkM_d (op : BitVec 6) (d : BitVec 5) (a : BitVec 5) (z : BitVec 3) (h : BitVec 2) (o : BitVec 2) (i : BitVec 9) : (mkM op d a z h o i).extractLsb' 21 5 = d := by
  apply eq_of_getLsbD_eq; intro i hi; interval_cases i <;> (simp only [mkM, getLsbD_extractLsb', getLsbD_append]; simp)

@[simp] theorem mkM_a (op : BitVec 6) (d : BitVec 5) (a : BitVec 5) (z : BitVec 3) (h : BitVec 2) (o : BitVec 2) (i : BitVec 9) : (mkM op d a z h o i).extractLsb' 16 5 = a := by
  apply eq_of_getLsbD_eq; intro i hi; interval_cases i <;> (simp only [mkM, getLsbD_extractLsb', getLsbD_append]; simp)

@[simp] theorem mkM_z (op : BitVec 6) (d : BitVec 5) (a : BitVec 5) (z : BitVec 3) (h : BitVec 2) (o : BitVec 2) (i : BitVec 9) : (mkM op d a z h o i).extractLsb' 13 3 = z := by
  apply eq_of_getLsbD_eq; intro i hi; interval_cases i <;> (simp only [mkM, getLsbD_extractLsb', getLsbD_append]; simp)

@[simp] theorem mkM_h (op : BitVec 6) (d : BitVec 5) (a : BitVec 5) (z : BitVec 3) (h : BitVec 2) (o : BitVec 2) (i : BitVec 9) : (mkM op d a z h o i).extractLsb' 11 2 = h := by
  apply eq_of_getLsbD_eq; intro i hi; interval_cases i <;> (simp only [mkM, getLsbD_extractLsb', getLsbD_append]; simp)

@[simp] theorem mkM_o (op : BitVec 6) (d : BitVec 5) (a : BitVec 5) (z : BitVec 3) (h : BitVec 2) (o : BitVec 2) (i : BitVec 9) : (mkM op d a z h o i).extractLsb' 9 2 = o := by
  apply eq_of_getLsbD_eq; intro i hi; interval_cases i <;> (simp only [mkM, getLsbD_extractLsb', getLsbD_append]; simp)

@[simp] theorem mkM_i (op : BitVec 6) (d : BitVec 5) (a : BitVec 5) (z : BitVec 3) (h : BitVec 2) (o : BitVec 2) (i : BitVec 9) : (mkM op d a z h o i).extractLsb' 0 9 = i := by
  apply eq_of_getLsbD_eq; intro i hi; interval_cases i <;> (simp only [mkM, getLsbD_extractLsb', getLsbD_append]; simp)

@[simp] theorem mkROW_op (op : BitVec 6) (r : BitVec 7) (a : BitVec 5) (st : Bool) (h : BitVec 2) (i : BitVec 11) : (mkROW op r a st h i).extractLsb' 26 6 = op := by
  apply eq_of_getLsbD_eq; intro i hi; interval_cases i <;> (simp only [mkROW, getLsbD_extractLsb', getLsbD_append]; simp)

@[simp] theorem mkROW_r (op : BitVec 6) (r : BitVec 7) (a : BitVec 5) (st : Bool) (h : BitVec 2) (i : BitVec 11) : (mkROW op r a st h i).extractLsb' 19 7 = r := by
  apply eq_of_getLsbD_eq; intro i hi; interval_cases i <;> (simp only [mkROW, getLsbD_extractLsb', getLsbD_append]; simp)

@[simp] theorem mkROW_a (op : BitVec 6) (r : BitVec 7) (a : BitVec 5) (st : Bool) (h : BitVec 2) (i : BitVec 11) : (mkROW op r a st h i).extractLsb' 14 5 = a := by
  apply eq_of_getLsbD_eq; intro i hi; interval_cases i <;> (simp only [mkROW, getLsbD_extractLsb', getLsbD_append]; simp)

@[simp] theorem mkROW_st (op : BitVec 6) (r : BitVec 7) (a : BitVec 5) (st : Bool) (h : BitVec 2) (i : BitVec 11) : (mkROW op r a st h i).getLsbD 13 = st := by
  cases st <;> (simp only [mkROW, getLsbD_append]; simp)

@[simp] theorem mkROW_h (op : BitVec 6) (r : BitVec 7) (a : BitVec 5) (st : Bool) (h : BitVec 2) (i : BitVec 11) : (mkROW op r a st h i).extractLsb' 11 2 = h := by
  apply eq_of_getLsbD_eq; intro i hi; interval_cases i <;> (simp only [mkROW, getLsbD_extractLsb', getLsbD_append]; simp)

@[simp] theorem mkROW_i (op : BitVec 6) (r : BitVec 7) (a : BitVec 5) (st : Bool) (h : BitVec 2) (i : BitVec 11) : (mkROW op r a st h i).extractLsb' 0 11 = i := by
  apply eq_of_getLsbD_eq; intro i hi; interval_cases i <;> (simp only [mkROW, getLsbD_extractLsb', getLsbD_append]; simp)

@[simp] theorem mkV_op (op : BitVec 6) (d : BitVec 7) (a : BitVec 7) (b : BitVec 7) (l : Bool) (fn : BitVec 4) : (mkV op d a b l fn).extractLsb' 26 6 = op := by
  apply eq_of_getLsbD_eq; intro i hi; interval_cases i <;> (simp only [mkV, getLsbD_extractLsb', getLsbD_append]; simp)

@[simp] theorem mkV_d (op : BitVec 6) (d : BitVec 7) (a : BitVec 7) (b : BitVec 7) (l : Bool) (fn : BitVec 4) : (mkV op d a b l fn).extractLsb' 19 7 = d := by
  apply eq_of_getLsbD_eq; intro i hi; interval_cases i <;> (simp only [mkV, getLsbD_extractLsb', getLsbD_append]; simp)

@[simp] theorem mkV_a (op : BitVec 6) (d : BitVec 7) (a : BitVec 7) (b : BitVec 7) (l : Bool) (fn : BitVec 4) : (mkV op d a b l fn).extractLsb' 12 7 = a := by
  apply eq_of_getLsbD_eq; intro i hi; interval_cases i <;> (simp only [mkV, getLsbD_extractLsb', getLsbD_append]; simp)

@[simp] theorem mkV_b (op : BitVec 6) (d : BitVec 7) (a : BitVec 7) (b : BitVec 7) (l : Bool) (fn : BitVec 4) : (mkV op d a b l fn).extractLsb' 5 7 = b := by
  apply eq_of_getLsbD_eq; intro i hi; interval_cases i <;> (simp only [mkV, getLsbD_extractLsb', getLsbD_append]; simp)

@[simp] theorem mkV_l (op : BitVec 6) (d : BitVec 7) (a : BitVec 7) (b : BitVec 7) (l : Bool) (fn : BitVec 4) : (mkV op d a b l fn).getLsbD 4 = l := by
  cases l <;> (simp only [mkV, getLsbD_append]; simp)

@[simp] theorem mkV_fn (op : BitVec 6) (d : BitVec 7) (a : BitVec 7) (b : BitVec 7) (l : Bool) (fn : BitVec 4) : (mkV op d a b l fn).extractLsb' 0 4 = fn := by
  apply eq_of_getLsbD_eq; intro i hi; interval_cases i <;> (simp only [mkV, getLsbD_extractLsb', getLsbD_append]; simp)

@[simp] theorem mkE_op (op : BitVec 6) (e : BitVec 4) (fn : BitVec 6) (a : BitVec 5) (b : BitVec 5) (d : BitVec 5) (sh : Bool) : (mkE op e fn a b d sh).extractLsb' 26 6 = op := by
  apply eq_of_getLsbD_eq; intro i hi; interval_cases i <;> (simp only [mkE, getLsbD_extractLsb', getLsbD_append]; simp)

@[simp] theorem mkE_e (op : BitVec 6) (e : BitVec 4) (fn : BitVec 6) (a : BitVec 5) (b : BitVec 5) (d : BitVec 5) (sh : Bool) : (mkE op e fn a b d sh).extractLsb' 22 4 = e := by
  apply eq_of_getLsbD_eq; intro i hi; interval_cases i <;> (simp only [mkE, getLsbD_extractLsb', getLsbD_append]; simp)

@[simp] theorem mkE_fn (op : BitVec 6) (e : BitVec 4) (fn : BitVec 6) (a : BitVec 5) (b : BitVec 5) (d : BitVec 5) (sh : Bool) : (mkE op e fn a b d sh).extractLsb' 16 6 = fn := by
  apply eq_of_getLsbD_eq; intro i hi; interval_cases i <;> (simp only [mkE, getLsbD_extractLsb', getLsbD_append]; simp)

@[simp] theorem mkE_a (op : BitVec 6) (e : BitVec 4) (fn : BitVec 6) (a : BitVec 5) (b : BitVec 5) (d : BitVec 5) (sh : Bool) : (mkE op e fn a b d sh).extractLsb' 11 5 = a := by
  apply eq_of_getLsbD_eq; intro i hi; interval_cases i <;> (simp only [mkE, getLsbD_extractLsb', getLsbD_append]; simp)

@[simp] theorem mkE_b (op : BitVec 6) (e : BitVec 4) (fn : BitVec 6) (a : BitVec 5) (b : BitVec 5) (d : BitVec 5) (sh : Bool) : (mkE op e fn a b d sh).extractLsb' 6 5 = b := by
  apply eq_of_getLsbD_eq; intro i hi; interval_cases i <;> (simp only [mkE, getLsbD_extractLsb', getLsbD_append]; simp)

@[simp] theorem mkE_d (op : BitVec 6) (e : BitVec 4) (fn : BitVec 6) (a : BitVec 5) (b : BitVec 5) (d : BitVec 5) (sh : Bool) : (mkE op e fn a b d sh).extractLsb' 1 5 = d := by
  apply eq_of_getLsbD_eq; intro i hi; interval_cases i <;> (simp only [mkE, getLsbD_extractLsb', getLsbD_append]; simp)

@[simp] theorem mkE_sh (op : BitVec 6) (e : BitVec 4) (fn : BitVec 6) (a : BitVec 5) (b : BitVec 5) (d : BitVec 5) (sh : Bool) : (mkE op e fn a b d sh).getLsbD 0 = sh := by
  cases sh <;> (simp only [mkE, getLsbD_append]; simp)

@[simp] theorem mkC_op (op : BitVec 6) (d : BitVec 5) (a : BitVec 5) (k : BitVec 2) (c : BitVec 12) : (mkC op d a k c).extractLsb' 26 6 = op := by
  apply eq_of_getLsbD_eq; intro i hi; interval_cases i <;> (simp only [mkC, getLsbD_extractLsb', getLsbD_append]; simp)

@[simp] theorem mkC_d (op : BitVec 6) (d : BitVec 5) (a : BitVec 5) (k : BitVec 2) (c : BitVec 12) : (mkC op d a k c).extractLsb' 21 5 = d := by
  apply eq_of_getLsbD_eq; intro i hi; interval_cases i <;> (simp only [mkC, getLsbD_extractLsb', getLsbD_append]; simp)

@[simp] theorem mkC_a (op : BitVec 6) (d : BitVec 5) (a : BitVec 5) (k : BitVec 2) (c : BitVec 12) : (mkC op d a k c).extractLsb' 16 5 = a := by
  apply eq_of_getLsbD_eq; intro i hi; interval_cases i <;> (simp only [mkC, getLsbD_extractLsb', getLsbD_append]; simp)

@[simp] theorem mkC_k (op : BitVec 6) (d : BitVec 5) (a : BitVec 5) (k : BitVec 2) (c : BitVec 12) : (mkC op d a k c).extractLsb' 14 2 = k := by
  apply eq_of_getLsbD_eq; intro i hi; interval_cases i <;> (simp only [mkC, getLsbD_extractLsb', getLsbD_append]; simp)

@[simp] theorem mkC_c (op : BitVec 6) (d : BitVec 5) (a : BitVec 5) (k : BitVec 2) (c : BitVec 12) : (mkC op d a k c).extractLsb' 2 12 = c := by
  apply eq_of_getLsbD_eq; intro i hi; interval_cases i <;> (simp only [mkC, getLsbD_extractLsb', getLsbD_append]; simp)

@[simp] theorem mkH_op (op : BitVec 6) (hk : BitVec 4) (x : Bool) (a : BitVec 5) (i : BitVec 16) : (mkH op hk x a i).extractLsb' 26 6 = op := by
  apply eq_of_getLsbD_eq; intro i hi; interval_cases i <;> (simp only [mkH, getLsbD_extractLsb', getLsbD_append]; simp)

@[simp] theorem mkH_hk (op : BitVec 6) (hk : BitVec 4) (x : Bool) (a : BitVec 5) (i : BitVec 16) : (mkH op hk x a i).extractLsb' 22 4 = hk := by
  apply eq_of_getLsbD_eq; intro i hi; interval_cases i <;> (simp only [mkH, getLsbD_extractLsb', getLsbD_append]; simp)

@[simp] theorem mkH_x (op : BitVec 6) (hk : BitVec 4) (x : Bool) (a : BitVec 5) (i : BitVec 16) : (mkH op hk x a i).getLsbD 21 = x := by
  cases x <;> (simp only [mkH, getLsbD_append]; simp)

@[simp] theorem mkH_a (op : BitVec 6) (hk : BitVec 4) (x : Bool) (a : BitVec 5) (i : BitVec 16) : (mkH op hk x a i).extractLsb' 16 5 = a := by
  apply eq_of_getLsbD_eq; intro i hi; interval_cases i <;> (simp only [mkH, getLsbD_extractLsb', getLsbD_append]; simp)

@[simp] theorem mkH_i (op : BitVec 6) (hk : BitVec 4) (x : Bool) (a : BitVec 5) (i : BitVec 16) : (mkH op hk x a i).extractLsb' 0 16 = i := by
  apply eq_of_getLsbD_eq; intro i hi; interval_cases i <;> (simp only [mkH, getLsbD_extractLsb', getLsbD_append]; simp)

/-! What the decoder does with a word of each format. -/

theorem decode_S3 (op : BitVec 6) (h : formatOf op.toNat = .s3) (d a b : BitVec 5) (wa wb : Bool) (fn : BitVec 9) :
    decode (mkS3 op d a b wa wb fn) = decS3 op.toNat d a b wa wb fn := by
  simp only [decode, h, mkS3_op, mkS3_d, mkS3_a, mkS3_b, mkS3_wa, mkS3_wb, mkS3_fn]

theorem decode_SI (op : BitVec 6) (h : formatOf op.toNat = .si) (d a : BitVec 5) (i : BitVec 16) :
    decode (mkSI op d a i) = decSI op.toNat d a i := by
  simp only [decode, h, mkSI_op, mkSI_d, mkSI_a, mkSI_i]

theorem decode_SU (op : BitVec 6) (h : formatOf op.toNat = .su) (d : BitVec 5) (i : BitVec 21) :
    decode (mkSU op d i) = decSU op.toNat d i := by
  simp only [decode, h, mkSU_op, mkSU_d, mkSU_i]

theorem decode_J (op : BitVec 6) (h : formatOf op.toNat = .j) (i : BitVec 26) :
    decode (mkJ op i) = if op.toNat = 18 then some (.j i) else some (.jal i) := by
  simp only [decode, h, mkJ_op, mkJ_i]

theorem decode_M (op : BitVec 6) (h : formatOf op.toNat = .m) (d a : BitVec 5) (z : BitVec 3) (u o : BitVec 2) (i : BitVec 9) :
    decode (mkM op d a z u o i) = if op.toNat = 21 then decLd d a z u o i else decSt d a z u o i := by
  simp only [decode, h, mkM_op, mkM_d, mkM_a, mkM_z, mkM_h, mkM_o, mkM_i]

theorem decode_ROW (op : BitVec 6) (h : formatOf op.toNat = .row) (r : BitVec 7) (a : BitVec 5) (st : Bool) (u : BitVec 2) (i : BitVec 11) :
    decode (mkROW op r a st u i) = decRow r a st u i := by
  simp only [decode, h, mkROW_op, mkROW_r, mkROW_a, mkROW_st, mkROW_h, mkROW_i]

theorem decode_V (op : BitVec 6) (h : formatOf op.toNat = .v) (d a b : BitVec 7) (l : Bool) (fn : BitVec 4) :
    decode (mkV op d a b l fn) = decV op.toNat d a b l fn := by
  simp only [decode, h, mkV_op, mkV_d, mkV_a, mkV_b, mkV_l, mkV_fn]

theorem decode_E (op : BitVec 6) (h : formatOf op.toNat = .e) (e : BitVec 4) (fn : BitVec 6) (a b d : BitVec 5) (sh : Bool) :
    decode (mkE op e fn a b d sh) = decEng e fn a b d sh := by
  simp only [decode, h, mkE_op, mkE_e, mkE_fn, mkE_a, mkE_b, mkE_d, mkE_sh]

theorem decode_C (op : BitVec 6) (h : formatOf op.toNat = .c) (d a : BitVec 5) (k : BitVec 2) (c : BitVec 12) :
    decode (mkC op d a k c) = decCsr d a k c := by
  simp only [decode, h, mkC_op, mkC_d, mkC_a, mkC_k, mkC_c]

theorem decode_H (op : BitVec 6) (h : formatOf op.toNat = .h) (hk : BitVec 4) (x : Bool) (a : BitVec 5) (i : BitVec 16) :
    decode (mkH op hk x a i) = some (decHint hk x a i) := by
  simp only [decode, h, mkH_op, mkH_hk, mkH_x, mkH_a, mkH_i]

/-! ## Parts of the smaller fields -/

theorem shi_w (k : BitVec 2) (w : Bool) (n : BitVec 6) : (k ++ ofBool w ++ 0#7 ++ n).getLsbD 13 = w := by revert k w n; decide
theorem shi_n (k : BitVec 2) (w : Bool) (n : BitVec 6) : (k ++ ofBool w ++ 0#7 ++ n).extractLsb' 0 6 = n := by revert k w n; decide
theorem shi_k (k : BitVec 2) (w : Bool) (n : BitVec 6) : (k ++ ofBool w ++ 0#7 ++ n).extractLsb' 14 2 = k := by revert k w n; decide
theorem jreg_k (k : BitVec 2) (o : BitVec 14) : (k ++ o).extractLsb' 14 2 = k := by
  apply eq_of_getLsbD_eq; intro i hi; interval_cases i <;> (simp only [getLsbD_extractLsb', getLsbD_append]; simp)
theorem jreg_o (k : BitVec 2) (o : BitVec 14) : (k ++ o).extractLsb' 0 14 = o := by
  apply eq_of_getLsbD_eq; intro i hi; interval_cases i <;> (simp only [getLsbD_extractLsb', getLsbD_append]; simp)
theorem su_k (k : BitVec 1) (c : BitVec 20) : (k ++ c).getLsbD 20 = k.getLsbD 0 := by simp only [getLsbD_append]; simp
theorem su_c (k : BitVec 1) (c : BitVec 20) : (k ++ c).extractLsb' 0 20 = c := by
  apply eq_of_getLsbD_eq; intro i hi; interval_cases i <;> (simp only [getLsbD_extractLsb', getLsbD_append]; simp)
theorem two5_lo (k : BitVec 2) (n : BitVec 5) : (k ++ n).extractLsb' 0 5 = n := by revert k n; decide
theorem two5_hi (k : BitVec 2) (n : BitVec 5) : (k ++ n).extractLsb' 5 2 = k := by revert k n; decide
theorem two5_bit (n : BitVec 5) : (0#2 ++ n).getLsbD 0 = n.getLsbD 0 := by revert n; decide
theorem three4_lo (n : BitVec 4) : (0#3 ++ n).extractLsb' 0 4 = n := by revert n; decide
theorem five4_hi (m : BitVec 5) (k : BitVec 4) : (m ++ k).extractLsb' 4 5 = m := by revert m k; decide
theorem five4_lo (m : BitVec 5) (k : BitVec 4) : (m ++ k).extractLsb' 0 4 = k := by revert m k; decide
theorem sync_l (l : BitVec 3) (k : BitVec 4) : (0#2 ++ l ++ k).extractLsb' 4 3 = l := by revert l k; decide
theorem sync_k (l : BitVec 3) (k : BitVec 4) : (0#2 ++ l ++ k).extractLsb' 0 4 = k := by revert l k; decide
theorem mb_k (k : BitVec 3) : (0#2 ++ k).extractLsb' 0 3 = k := by revert k; decide
theorem mb_lt (k : BitVec 3) (h : k.toNat < 6) : ¬ 6 ≤ (0#2 ++ k).toNat := by revert k; decide
theorem fold_m (m k : BitVec 4) : (0#1 ++ m ++ k).extractLsb' 4 4 = m := by revert m k; decide
theorem fold_k (m k : BitVec 4) : (0#1 ++ m ++ k).extractLsb' 0 4 = k := by revert m k; decide
theorem bank_8 (k : BitVec 1) (c : BitVec 2) (n : BitVec 6) : (k ++ c ++ n).getLsbD 8 = k.getLsbD 0 := by revert k c n; decide
theorem bank_c (k : BitVec 1) (c : BitVec 2) (n : BitVec 6) : (k ++ c ++ n).extractLsb' 6 2 = c := by revert k c n; decide
theorem bank_n (k : BitVec 1) (c : BitVec 2) (n : BitVec 6) : (k ++ c ++ n).extractLsb' 0 6 = n := by revert k c n; decide
theorem cvt_sat (r : BitVec 3) (s x : Bool) (t : BitVec 2) : (r ++ ofBool s ++ ofBool x ++ t).getLsbD 3 = s := by revert r s x t; decide
theorem cvt_amx (r : BitVec 3) (s x : Bool) (t : BitVec 2) : (r ++ ofBool s ++ ofBool x ++ t).getLsbD 2 = x := by revert r s x t; decide
theorem cvt_t (r : BitVec 3) (s x : Bool) (t : BitVec 2) : (r ++ ofBool s ++ ofBool x ++ t).extractLsb' 0 2 = t := by revert r s x t; decide
theorem cvt_r (r : BitVec 3) (s x : Bool) (t : BitVec 2) : (r ++ ofBool s ++ ofBool x ++ t).extractLsb' 4 3 = r := by revert r s x t; decide
theorem tp_split (tp : BitVec 4) : tp.extractLsb' 2 2 ++ tp.extractLsb' 0 2 = tp := by revert tp; decide
theorem tb_split (tb : BitVec 3) : tb.extractLsb' 2 1 ++ tb.extractLsb' 0 2 = tb := by revert tb; decide
theorem two2_lo (k t : BitVec 2) : (k ++ t).extractLsb' 0 2 = t := by revert k t; decide
theorem two2_hi (k t : BitVec 2) : (k ++ t).extractLsb' 2 2 = k := by revert k t; decide
theorem b_lo (t : BitVec 1) : (6#3 ++ t).extractLsb' 0 1 = t := by revert t; decide
theorem b_hi (t : BitVec 1) : (6#3 ++ t).extractLsb' 2 2 = 3#2 := by revert t; decide
theorem b_1 (t : BitVec 1) : (6#3 ++ t).getLsbD 1 = false := by revert t; decide
theorem rmode_code (r : RMode) : rmode? r.code3 = some r := by cases r <;> rfl
theorem bankReq_code (r : BankReq) : bankReq? r.code = some r := by cases r <;> rfl
theorem laneW_code (w : LaneW) : laneW w.code = w := by cases w <;> rfl

end Sys2Proof
end

