-- ==== Sys2Proof/Laws/State.lean ====
section
/-! SUPPORT. What each update of the state leaves of each field: one lemma per field per update. -/

namespace Sys2Proof.Machine

/-! ## setCore -/

@[simp] theorem State.setCore_mem (s : State) (k : Nat) (c : Core) : (s.setCore k c).mem = s.mem := rfl
@[simp] theorem State.setCore_poison (s : State) (k : Nat) (c : Core) : (s.setCore k c).poison = s.poison := rfl
@[simp] theorem State.setCore_keyTags (s : State) (k : Nat) (c : Core) : (s.setCore k c).keyTags = s.keyTags := rfl
@[simp] theorem State.setCore_cores (s : State) (k : Nat) (c : Core) : (s.setCore k c).cores = s.cores.put k c := rfl
@[simp] theorem State.setCore_clusters (s : State) (k : Nat) (c : Core) : (s.setCore k c).clusters = s.clusters := rfl
@[simp] theorem State.setCore_tenants (s : State) (k : Nat) (c : Core) : (s.setCore k c).tenants = s.tenants := rfl
@[simp] theorem State.setCore_keys (s : State) (k : Nat) (c : Core) : (s.setCore k c).keys = s.keys := rfl
@[simp] theorem State.setCore_capunits (s : State) (k : Nat) (c : Core) : (s.setCore k c).capunits = s.capunits := rfl
@[simp] theorem State.setCore_capmesh (s : State) (k : Nat) (c : Core) : (s.setCore k c).capmesh = s.capmesh := rfl
@[simp] theorem State.setCore_capfab (s : State) (k : Nat) (c : Core) : (s.setCore k c).capfab = s.capfab := rfl
@[simp] theorem State.setCore_capmap (s : State) (k : Nat) (c : Core) : (s.setCore k c).capmap = s.capmap := rfl
@[simp] theorem State.setCore_devloc (s : State) (k : Nat) (c : Core) : (s.setCore k c).devloc = s.devloc := rfl
@[simp] theorem State.setCore_cycle (s : State) (k : Nat) (c : Core) : (s.setCore k c).cycle = s.cycle := rfl
@[simp] theorem State.setCore_launches (s : State) (k : Nat) (c : Core) : (s.setCore k c).launches = s.launches := rfl
@[simp] theorem State.setCore_flights (s : State) (k : Nat) (c : Core) : (s.setCore k c).flights = s.flights := rfl
@[simp] theorem State.setCore_deposits (s : State) (k : Nat) (c : Core) : (s.setCore k c).deposits = s.deposits := rfl
@[simp] theorem State.setCore_servedAt (s : State) (k : Nat) (c : Core) : (s.setCore k c).servedAt = s.servedAt := rfl
@[simp] theorem State.setCore_qfences (s : State) (k : Nat) (c : Core) : (s.setCore k c).qfences = s.qfences := rfl
@[simp] theorem State.setCore_walks (s : State) (k : Nat) (c : Core) : (s.setCore k c).walks = s.walks := rfl
@[simp] theorem State.setCore_answers (s : State) (k : Nat) (c : Core) : (s.setCore k c).answers = s.answers := rfl
@[simp] theorem State.setCore_writes (s : State) (k : Nat) (c : Core) : (s.setCore k c).writes = s.writes := rfl
@[simp] theorem State.setCore_parties (s : State) (k : Nat) (c : Core) : (s.setCore k c).parties = s.parties := rfl
@[simp] theorem State.setCore_images (s : State) (k : Nat) (c : Core) : (s.setCore k c).images = s.images := rfl
@[simp] theorem State.setCore_groups (s : State) (k : Nat) (c : Core) : (s.setCore k c).groups = s.groups := rfl
@[simp] theorem State.setCore_routes (s : State) (k : Nat) (c : Core) : (s.setCore k c).routes = s.routes := rfl
@[simp] theorem State.setCore_stitched (s : State) (k : Nat) (c : Core) : (s.setCore k c).stitched = s.stitched := rfl
@[simp] theorem State.setCore_unstitch (s : State) (k : Nat) (c : Core) : (s.setCore k c).unstitch = s.unstitch := rfl
@[simp] theorem State.setCore_ports (s : State) (k : Nat) (c : Core) : (s.setCore k c).ports = s.ports := rfl
@[simp] theorem State.setCore_badFrames (s : State) (k : Nat) (c : Core) : (s.setCore k c).badFrames = s.badFrames := rfl
@[simp] theorem State.setCore_dropped (s : State) (k : Nat) (c : Core) : (s.setCore k c).dropped = s.dropped := rfl
@[simp] theorem State.setCore_mlog (s : State) (k : Nat) (c : Core) : (s.setCore k c).mlog = s.mlog := rfl
@[simp] theorem State.setCore_life (s : State) (k : Nat) (c : Core) : (s.setCore k c).life = s.life := rfl
@[simp] theorem State.setCore_firmware (s : State) (k : Nat) (c : Core) : (s.setCore k c).firmware = s.firmware := rfl
@[simp] theorem State.setCore_boot (s : State) (k : Nat) (c : Core) : (s.setCore k c).boot = s.boot := rfl
@[simp] theorem State.setCore_seats (s : State) (k : Nat) (c : Core) : (s.setCore k c).seats = s.seats := rfl
@[simp] theorem State.setCore_chans (s : State) (k : Nat) (c : Core) : (s.setCore k c).chans = s.chans := rfl
@[simp] theorem State.setCore_journal (s : State) (k : Nat) (c : Core) : (s.setCore k c).journal = s.journal := rfl
@[simp] theorem State.setCore_spdm (s : State) (k : Nat) (c : Core) : (s.setCore k c).spdm = s.spdm := rfl
@[simp] theorem State.setCore_pwrcap (s : State) (k : Nat) (c : Core) : (s.setCore k c).pwrcap = s.pwrcap := rfl
@[simp] theorem State.setCore_mbox (s : State) (k : Nat) (c : Core) : (s.setCore k c).mbox = s.mbox := rfl
@[simp] theorem State.setCore_mboxFree (s : State) (k : Nat) (c : Core) : (s.setCore k c).mboxFree = s.mboxFree := rfl
@[simp] theorem State.setCore_stopArea (s : State) (k : Nat) (c : Core) : (s.setCore k c).stopArea = s.stopArea := rfl
@[simp] theorem State.setCore_reports (s : State) (k : Nat) (c : Core) : (s.setCore k c).reports = s.reports := rfl
@[simp] theorem State.setCore_out (s : State) (k : Nat) (c : Core) : (s.setCore k c).out = s.out := rfl
@[simp] theorem State.setCore_lastVf (s : State) (k : Nat) (c : Core) : (s.setCore k c).lastVf = s.lastVf := rfl
@[simp] theorem State.setCore_accepted (s : State) (k : Nat) (c : Core) : (s.setCore k c).accepted = s.accepted := rfl
@[simp] theorem State.setCore_recovery (s : State) (k : Nat) (c : Core) : (s.setCore k c).recovery = s.recovery := rfl
@[simp] theorem State.setCore_agenda (s : State) (k : Nat) (c : Core) : (s.setCore k c).agenda = s.agenda := rfl
@[simp] theorem State.setCore_rota (s : State) (k : Nat) (c : Core) : (s.setCore k c).rota = s.rota := rfl
@[simp] theorem State.setCore_view (s : State) (k : Nat) (c : Core) : (s.setCore k c).view = s.view := rfl
@[simp] theorem State.setCore_part (s : State) (k : Nat) (c : Core) : (s.setCore k c).part = s.part := rfl
@[simp] theorem State.setCore_cur (s : State) (k : Nat) (c : Core) : (s.setCore k c).cur = s.cur := rfl
@[simp] theorem State.setCore_ir (s : State) (k : Nat) (c : Core) : (s.setCore k c).ir = s.ir := rfl
@[simp] theorem State.setCore_fresh (s : State) (k : Nat) (c : Core) : (s.setCore k c).fresh = s.fresh := rfl

/-! ## modCore -/

@[simp] theorem State.modCore_mem (s : State) (k : Nat) (f : Core → Core) : (s.modCore k f).mem = s.mem := rfl
@[simp] theorem State.modCore_poison (s : State) (k : Nat) (f : Core → Core) : (s.modCore k f).poison = s.poison := rfl
@[simp] theorem State.modCore_keyTags (s : State) (k : Nat) (f : Core → Core) : (s.modCore k f).keyTags = s.keyTags := rfl
@[simp] theorem State.modCore_cores (s : State) (k : Nat) (f : Core → Core) : (s.modCore k f).cores = s.cores.put k (f (s.core k)) := rfl
@[simp] theorem State.modCore_clusters (s : State) (k : Nat) (f : Core → Core) : (s.modCore k f).clusters = s.clusters := rfl
@[simp] theorem State.modCore_tenants (s : State) (k : Nat) (f : Core → Core) : (s.modCore k f).tenants = s.tenants := rfl
@[simp] theorem State.modCore_keys (s : State) (k : Nat) (f : Core → Core) : (s.modCore k f).keys = s.keys := rfl
@[simp] theorem State.modCore_capunits (s : State) (k : Nat) (f : Core → Core) : (s.modCore k f).capunits = s.capunits := rfl
@[simp] theorem State.modCore_capmesh (s : State) (k : Nat) (f : Core → Core) : (s.modCore k f).capmesh = s.capmesh := rfl
@[simp] theorem State.modCore_capfab (s : State) (k : Nat) (f : Core → Core) : (s.modCore k f).capfab = s.capfab := rfl
@[simp] theorem State.modCore_capmap (s : State) (k : Nat) (f : Core → Core) : (s.modCore k f).capmap = s.capmap := rfl
@[simp] theorem State.modCore_devloc (s : State) (k : Nat) (f : Core → Core) : (s.modCore k f).devloc = s.devloc := rfl
@[simp] theorem State.modCore_cycle (s : State) (k : Nat) (f : Core → Core) : (s.modCore k f).cycle = s.cycle := rfl
@[simp] theorem State.modCore_launches (s : State) (k : Nat) (f : Core → Core) : (s.modCore k f).launches = s.launches := rfl
@[simp] theorem State.modCore_flights (s : State) (k : Nat) (f : Core → Core) : (s.modCore k f).flights = s.flights := rfl
@[simp] theorem State.modCore_deposits (s : State) (k : Nat) (f : Core → Core) : (s.modCore k f).deposits = s.deposits := rfl
@[simp] theorem State.modCore_servedAt (s : State) (k : Nat) (f : Core → Core) : (s.modCore k f).servedAt = s.servedAt := rfl
@[simp] theorem State.modCore_qfences (s : State) (k : Nat) (f : Core → Core) : (s.modCore k f).qfences = s.qfences := rfl
@[simp] theorem State.modCore_walks (s : State) (k : Nat) (f : Core → Core) : (s.modCore k f).walks = s.walks := rfl
@[simp] theorem State.modCore_answers (s : State) (k : Nat) (f : Core → Core) : (s.modCore k f).answers = s.answers := rfl
@[simp] theorem State.modCore_writes (s : State) (k : Nat) (f : Core → Core) : (s.modCore k f).writes = s.writes := rfl
@[simp] theorem State.modCore_parties (s : State) (k : Nat) (f : Core → Core) : (s.modCore k f).parties = s.parties := rfl
@[simp] theorem State.modCore_images (s : State) (k : Nat) (f : Core → Core) : (s.modCore k f).images = s.images := rfl
@[simp] theorem State.modCore_groups (s : State) (k : Nat) (f : Core → Core) : (s.modCore k f).groups = s.groups := rfl
@[simp] theorem State.modCore_routes (s : State) (k : Nat) (f : Core → Core) : (s.modCore k f).routes = s.routes := rfl
@[simp] theorem State.modCore_stitched (s : State) (k : Nat) (f : Core → Core) : (s.modCore k f).stitched = s.stitched := rfl
@[simp] theorem State.modCore_unstitch (s : State) (k : Nat) (f : Core → Core) : (s.modCore k f).unstitch = s.unstitch := rfl
@[simp] theorem State.modCore_ports (s : State) (k : Nat) (f : Core → Core) : (s.modCore k f).ports = s.ports := rfl
@[simp] theorem State.modCore_badFrames (s : State) (k : Nat) (f : Core → Core) : (s.modCore k f).badFrames = s.badFrames := rfl
@[simp] theorem State.modCore_dropped (s : State) (k : Nat) (f : Core → Core) : (s.modCore k f).dropped = s.dropped := rfl
@[simp] theorem State.modCore_mlog (s : State) (k : Nat) (f : Core → Core) : (s.modCore k f).mlog = s.mlog := rfl
@[simp] theorem State.modCore_life (s : State) (k : Nat) (f : Core → Core) : (s.modCore k f).life = s.life := rfl
@[simp] theorem State.modCore_firmware (s : State) (k : Nat) (f : Core → Core) : (s.modCore k f).firmware = s.firmware := rfl
@[simp] theorem State.modCore_boot (s : State) (k : Nat) (f : Core → Core) : (s.modCore k f).boot = s.boot := rfl
@[simp] theorem State.modCore_seats (s : State) (k : Nat) (f : Core → Core) : (s.modCore k f).seats = s.seats := rfl
@[simp] theorem State.modCore_chans (s : State) (k : Nat) (f : Core → Core) : (s.modCore k f).chans = s.chans := rfl
@[simp] theorem State.modCore_journal (s : State) (k : Nat) (f : Core → Core) : (s.modCore k f).journal = s.journal := rfl
@[simp] theorem State.modCore_spdm (s : State) (k : Nat) (f : Core → Core) : (s.modCore k f).spdm = s.spdm := rfl
@[simp] theorem State.modCore_pwrcap (s : State) (k : Nat) (f : Core → Core) : (s.modCore k f).pwrcap = s.pwrcap := rfl
@[simp] theorem State.modCore_mbox (s : State) (k : Nat) (f : Core → Core) : (s.modCore k f).mbox = s.mbox := rfl
@[simp] theorem State.modCore_mboxFree (s : State) (k : Nat) (f : Core → Core) : (s.modCore k f).mboxFree = s.mboxFree := rfl
@[simp] theorem State.modCore_stopArea (s : State) (k : Nat) (f : Core → Core) : (s.modCore k f).stopArea = s.stopArea := rfl
@[simp] theorem State.modCore_reports (s : State) (k : Nat) (f : Core → Core) : (s.modCore k f).reports = s.reports := rfl
@[simp] theorem State.modCore_out (s : State) (k : Nat) (f : Core → Core) : (s.modCore k f).out = s.out := rfl
@[simp] theorem State.modCore_lastVf (s : State) (k : Nat) (f : Core → Core) : (s.modCore k f).lastVf = s.lastVf := rfl
@[simp] theorem State.modCore_accepted (s : State) (k : Nat) (f : Core → Core) : (s.modCore k f).accepted = s.accepted := rfl
@[simp] theorem State.modCore_recovery (s : State) (k : Nat) (f : Core → Core) : (s.modCore k f).recovery = s.recovery := rfl
@[simp] theorem State.modCore_agenda (s : State) (k : Nat) (f : Core → Core) : (s.modCore k f).agenda = s.agenda := rfl
@[simp] theorem State.modCore_rota (s : State) (k : Nat) (f : Core → Core) : (s.modCore k f).rota = s.rota := rfl
@[simp] theorem State.modCore_view (s : State) (k : Nat) (f : Core → Core) : (s.modCore k f).view = s.view := rfl
@[simp] theorem State.modCore_part (s : State) (k : Nat) (f : Core → Core) : (s.modCore k f).part = s.part := rfl
@[simp] theorem State.modCore_cur (s : State) (k : Nat) (f : Core → Core) : (s.modCore k f).cur = s.cur := rfl
@[simp] theorem State.modCore_ir (s : State) (k : Nat) (f : Core → Core) : (s.modCore k f).ir = s.ir := rfl
@[simp] theorem State.modCore_fresh (s : State) (k : Nat) (f : Core → Core) : (s.modCore k f).fresh = s.fresh := rfl

/-! ## modCluster -/

@[simp] theorem State.modCluster_mem (s : State) (k : Nat) (f : Cluster → Cluster) : (s.modCluster k f).mem = s.mem := rfl
@[simp] theorem State.modCluster_poison (s : State) (k : Nat) (f : Cluster → Cluster) : (s.modCluster k f).poison = s.poison := rfl
@[simp] theorem State.modCluster_keyTags (s : State) (k : Nat) (f : Cluster → Cluster) : (s.modCluster k f).keyTags = s.keyTags := rfl
@[simp] theorem State.modCluster_cores (s : State) (k : Nat) (f : Cluster → Cluster) : (s.modCluster k f).cores = s.cores := rfl
@[simp] theorem State.modCluster_clusters (s : State) (k : Nat) (f : Cluster → Cluster) : (s.modCluster k f).clusters = s.clusters.put k (f (s.cluster k)) := rfl
@[simp] theorem State.modCluster_tenants (s : State) (k : Nat) (f : Cluster → Cluster) : (s.modCluster k f).tenants = s.tenants := rfl
@[simp] theorem State.modCluster_keys (s : State) (k : Nat) (f : Cluster → Cluster) : (s.modCluster k f).keys = s.keys := rfl
@[simp] theorem State.modCluster_capunits (s : State) (k : Nat) (f : Cluster → Cluster) : (s.modCluster k f).capunits = s.capunits := rfl
@[simp] theorem State.modCluster_capmesh (s : State) (k : Nat) (f : Cluster → Cluster) : (s.modCluster k f).capmesh = s.capmesh := rfl
@[simp] theorem State.modCluster_capfab (s : State) (k : Nat) (f : Cluster → Cluster) : (s.modCluster k f).capfab = s.capfab := rfl
@[simp] theorem State.modCluster_capmap (s : State) (k : Nat) (f : Cluster → Cluster) : (s.modCluster k f).capmap = s.capmap := rfl
@[simp] theorem State.modCluster_devloc (s : State) (k : Nat) (f : Cluster → Cluster) : (s.modCluster k f).devloc = s.devloc := rfl
@[simp] theorem State.modCluster_cycle (s : State) (k : Nat) (f : Cluster → Cluster) : (s.modCluster k f).cycle = s.cycle := rfl
@[simp] theorem State.modCluster_launches (s : State) (k : Nat) (f : Cluster → Cluster) : (s.modCluster k f).launches = s.launches := rfl
@[simp] theorem State.modCluster_flights (s : State) (k : Nat) (f : Cluster → Cluster) : (s.modCluster k f).flights = s.flights := rfl
@[simp] theorem State.modCluster_deposits (s : State) (k : Nat) (f : Cluster → Cluster) : (s.modCluster k f).deposits = s.deposits := rfl
@[simp] theorem State.modCluster_servedAt (s : State) (k : Nat) (f : Cluster → Cluster) : (s.modCluster k f).servedAt = s.servedAt := rfl
@[simp] theorem State.modCluster_qfences (s : State) (k : Nat) (f : Cluster → Cluster) : (s.modCluster k f).qfences = s.qfences := rfl
@[simp] theorem State.modCluster_walks (s : State) (k : Nat) (f : Cluster → Cluster) : (s.modCluster k f).walks = s.walks := rfl
@[simp] theorem State.modCluster_answers (s : State) (k : Nat) (f : Cluster → Cluster) : (s.modCluster k f).answers = s.answers := rfl
@[simp] theorem State.modCluster_writes (s : State) (k : Nat) (f : Cluster → Cluster) : (s.modCluster k f).writes = s.writes := rfl
@[simp] theorem State.modCluster_parties (s : State) (k : Nat) (f : Cluster → Cluster) : (s.modCluster k f).parties = s.parties := rfl
@[simp] theorem State.modCluster_images (s : State) (k : Nat) (f : Cluster → Cluster) : (s.modCluster k f).images = s.images := rfl
@[simp] theorem State.modCluster_groups (s : State) (k : Nat) (f : Cluster → Cluster) : (s.modCluster k f).groups = s.groups := rfl
@[simp] theorem State.modCluster_routes (s : State) (k : Nat) (f : Cluster → Cluster) : (s.modCluster k f).routes = s.routes := rfl
@[simp] theorem State.modCluster_stitched (s : State) (k : Nat) (f : Cluster → Cluster) : (s.modCluster k f).stitched = s.stitched := rfl
@[simp] theorem State.modCluster_unstitch (s : State) (k : Nat) (f : Cluster → Cluster) : (s.modCluster k f).unstitch = s.unstitch := rfl
@[simp] theorem State.modCluster_ports (s : State) (k : Nat) (f : Cluster → Cluster) : (s.modCluster k f).ports = s.ports := rfl
@[simp] theorem State.modCluster_badFrames (s : State) (k : Nat) (f : Cluster → Cluster) : (s.modCluster k f).badFrames = s.badFrames := rfl
@[simp] theorem State.modCluster_dropped (s : State) (k : Nat) (f : Cluster → Cluster) : (s.modCluster k f).dropped = s.dropped := rfl
@[simp] theorem State.modCluster_mlog (s : State) (k : Nat) (f : Cluster → Cluster) : (s.modCluster k f).mlog = s.mlog := rfl
@[simp] theorem State.modCluster_life (s : State) (k : Nat) (f : Cluster → Cluster) : (s.modCluster k f).life = s.life := rfl
@[simp] theorem State.modCluster_firmware (s : State) (k : Nat) (f : Cluster → Cluster) : (s.modCluster k f).firmware = s.firmware := rfl
@[simp] theorem State.modCluster_boot (s : State) (k : Nat) (f : Cluster → Cluster) : (s.modCluster k f).boot = s.boot := rfl
@[simp] theorem State.modCluster_seats (s : State) (k : Nat) (f : Cluster → Cluster) : (s.modCluster k f).seats = s.seats := rfl
@[simp] theorem State.modCluster_chans (s : State) (k : Nat) (f : Cluster → Cluster) : (s.modCluster k f).chans = s.chans := rfl
@[simp] theorem State.modCluster_journal (s : State) (k : Nat) (f : Cluster → Cluster) : (s.modCluster k f).journal = s.journal := rfl
@[simp] theorem State.modCluster_spdm (s : State) (k : Nat) (f : Cluster → Cluster) : (s.modCluster k f).spdm = s.spdm := rfl
@[simp] theorem State.modCluster_pwrcap (s : State) (k : Nat) (f : Cluster → Cluster) : (s.modCluster k f).pwrcap = s.pwrcap := rfl
@[simp] theorem State.modCluster_mbox (s : State) (k : Nat) (f : Cluster → Cluster) : (s.modCluster k f).mbox = s.mbox := rfl
@[simp] theorem State.modCluster_mboxFree (s : State) (k : Nat) (f : Cluster → Cluster) : (s.modCluster k f).mboxFree = s.mboxFree := rfl
@[simp] theorem State.modCluster_stopArea (s : State) (k : Nat) (f : Cluster → Cluster) : (s.modCluster k f).stopArea = s.stopArea := rfl
@[simp] theorem State.modCluster_reports (s : State) (k : Nat) (f : Cluster → Cluster) : (s.modCluster k f).reports = s.reports := rfl
@[simp] theorem State.modCluster_out (s : State) (k : Nat) (f : Cluster → Cluster) : (s.modCluster k f).out = s.out := rfl
@[simp] theorem State.modCluster_lastVf (s : State) (k : Nat) (f : Cluster → Cluster) : (s.modCluster k f).lastVf = s.lastVf := rfl
@[simp] theorem State.modCluster_accepted (s : State) (k : Nat) (f : Cluster → Cluster) : (s.modCluster k f).accepted = s.accepted := rfl
@[simp] theorem State.modCluster_recovery (s : State) (k : Nat) (f : Cluster → Cluster) : (s.modCluster k f).recovery = s.recovery := rfl
@[simp] theorem State.modCluster_agenda (s : State) (k : Nat) (f : Cluster → Cluster) : (s.modCluster k f).agenda = s.agenda := rfl
@[simp] theorem State.modCluster_rota (s : State) (k : Nat) (f : Cluster → Cluster) : (s.modCluster k f).rota = s.rota := rfl
@[simp] theorem State.modCluster_view (s : State) (k : Nat) (f : Cluster → Cluster) : (s.modCluster k f).view = s.view := rfl
@[simp] theorem State.modCluster_part (s : State) (k : Nat) (f : Cluster → Cluster) : (s.modCluster k f).part = s.part := rfl
@[simp] theorem State.modCluster_cur (s : State) (k : Nat) (f : Cluster → Cluster) : (s.modCluster k f).cur = s.cur := rfl
@[simp] theorem State.modCluster_ir (s : State) (k : Nat) (f : Cluster → Cluster) : (s.modCluster k f).ir = s.ir := rfl
@[simp] theorem State.modCluster_fresh (s : State) (k : Nat) (f : Cluster → Cluster) : (s.modCluster k f).fresh = s.fresh := rfl

/-! ## modTenant -/

@[simp] theorem State.modTenant_mem (s : State) (v : Nat) (f : Tenant → Tenant) : (s.modTenant v f).mem = s.mem := rfl
@[simp] theorem State.modTenant_poison (s : State) (v : Nat) (f : Tenant → Tenant) : (s.modTenant v f).poison = s.poison := rfl
@[simp] theorem State.modTenant_keyTags (s : State) (v : Nat) (f : Tenant → Tenant) : (s.modTenant v f).keyTags = s.keyTags := rfl
@[simp] theorem State.modTenant_cores (s : State) (v : Nat) (f : Tenant → Tenant) : (s.modTenant v f).cores = s.cores := rfl
@[simp] theorem State.modTenant_clusters (s : State) (v : Nat) (f : Tenant → Tenant) : (s.modTenant v f).clusters = s.clusters := rfl
@[simp] theorem State.modTenant_tenants (s : State) (v : Nat) (f : Tenant → Tenant) : (s.modTenant v f).tenants = s.tenants.put v (f (s.tenant v)) := rfl
@[simp] theorem State.modTenant_keys (s : State) (v : Nat) (f : Tenant → Tenant) : (s.modTenant v f).keys = s.keys := rfl
@[simp] theorem State.modTenant_capunits (s : State) (v : Nat) (f : Tenant → Tenant) : (s.modTenant v f).capunits = s.capunits := rfl
@[simp] theorem State.modTenant_capmesh (s : State) (v : Nat) (f : Tenant → Tenant) : (s.modTenant v f).capmesh = s.capmesh := rfl
@[simp] theorem State.modTenant_capfab (s : State) (v : Nat) (f : Tenant → Tenant) : (s.modTenant v f).capfab = s.capfab := rfl
@[simp] theorem State.modTenant_capmap (s : State) (v : Nat) (f : Tenant → Tenant) : (s.modTenant v f).capmap = s.capmap := rfl
@[simp] theorem State.modTenant_devloc (s : State) (v : Nat) (f : Tenant → Tenant) : (s.modTenant v f).devloc = s.devloc := rfl
@[simp] theorem State.modTenant_cycle (s : State) (v : Nat) (f : Tenant → Tenant) : (s.modTenant v f).cycle = s.cycle := rfl
@[simp] theorem State.modTenant_launches (s : State) (v : Nat) (f : Tenant → Tenant) : (s.modTenant v f).launches = s.launches := rfl
@[simp] theorem State.modTenant_flights (s : State) (v : Nat) (f : Tenant → Tenant) : (s.modTenant v f).flights = s.flights := rfl
@[simp] theorem State.modTenant_deposits (s : State) (v : Nat) (f : Tenant → Tenant) : (s.modTenant v f).deposits = s.deposits := rfl
@[simp] theorem State.modTenant_servedAt (s : State) (v : Nat) (f : Tenant → Tenant) : (s.modTenant v f).servedAt = s.servedAt := rfl
@[simp] theorem State.modTenant_qfences (s : State) (v : Nat) (f : Tenant → Tenant) : (s.modTenant v f).qfences = s.qfences := rfl
@[simp] theorem State.modTenant_walks (s : State) (v : Nat) (f : Tenant → Tenant) : (s.modTenant v f).walks = s.walks := rfl
@[simp] theorem State.modTenant_answers (s : State) (v : Nat) (f : Tenant → Tenant) : (s.modTenant v f).answers = s.answers := rfl
@[simp] theorem State.modTenant_writes (s : State) (v : Nat) (f : Tenant → Tenant) : (s.modTenant v f).writes = s.writes := rfl
@[simp] theorem State.modTenant_parties (s : State) (v : Nat) (f : Tenant → Tenant) : (s.modTenant v f).parties = s.parties := rfl
@[simp] theorem State.modTenant_images (s : State) (v : Nat) (f : Tenant → Tenant) : (s.modTenant v f).images = s.images := rfl
@[simp] theorem State.modTenant_groups (s : State) (v : Nat) (f : Tenant → Tenant) : (s.modTenant v f).groups = s.groups := rfl
@[simp] theorem State.modTenant_routes (s : State) (v : Nat) (f : Tenant → Tenant) : (s.modTenant v f).routes = s.routes := rfl
@[simp] theorem State.modTenant_stitched (s : State) (v : Nat) (f : Tenant → Tenant) : (s.modTenant v f).stitched = s.stitched := rfl
@[simp] theorem State.modTenant_unstitch (s : State) (v : Nat) (f : Tenant → Tenant) : (s.modTenant v f).unstitch = s.unstitch := rfl
@[simp] theorem State.modTenant_ports (s : State) (v : Nat) (f : Tenant → Tenant) : (s.modTenant v f).ports = s.ports := rfl
@[simp] theorem State.modTenant_badFrames (s : State) (v : Nat) (f : Tenant → Tenant) : (s.modTenant v f).badFrames = s.badFrames := rfl
@[simp] theorem State.modTenant_dropped (s : State) (v : Nat) (f : Tenant → Tenant) : (s.modTenant v f).dropped = s.dropped := rfl
@[simp] theorem State.modTenant_mlog (s : State) (v : Nat) (f : Tenant → Tenant) : (s.modTenant v f).mlog = s.mlog := rfl
@[simp] theorem State.modTenant_life (s : State) (v : Nat) (f : Tenant → Tenant) : (s.modTenant v f).life = s.life := rfl
@[simp] theorem State.modTenant_firmware (s : State) (v : Nat) (f : Tenant → Tenant) : (s.modTenant v f).firmware = s.firmware := rfl
@[simp] theorem State.modTenant_boot (s : State) (v : Nat) (f : Tenant → Tenant) : (s.modTenant v f).boot = s.boot := rfl
@[simp] theorem State.modTenant_seats (s : State) (v : Nat) (f : Tenant → Tenant) : (s.modTenant v f).seats = s.seats := rfl
@[simp] theorem State.modTenant_chans (s : State) (v : Nat) (f : Tenant → Tenant) : (s.modTenant v f).chans = s.chans := rfl
@[simp] theorem State.modTenant_journal (s : State) (v : Nat) (f : Tenant → Tenant) : (s.modTenant v f).journal = s.journal := rfl
@[simp] theorem State.modTenant_spdm (s : State) (v : Nat) (f : Tenant → Tenant) : (s.modTenant v f).spdm = s.spdm := rfl
@[simp] theorem State.modTenant_pwrcap (s : State) (v : Nat) (f : Tenant → Tenant) : (s.modTenant v f).pwrcap = s.pwrcap := rfl
@[simp] theorem State.modTenant_mbox (s : State) (v : Nat) (f : Tenant → Tenant) : (s.modTenant v f).mbox = s.mbox := rfl
@[simp] theorem State.modTenant_mboxFree (s : State) (v : Nat) (f : Tenant → Tenant) : (s.modTenant v f).mboxFree = s.mboxFree := rfl
@[simp] theorem State.modTenant_stopArea (s : State) (v : Nat) (f : Tenant → Tenant) : (s.modTenant v f).stopArea = s.stopArea := rfl
@[simp] theorem State.modTenant_reports (s : State) (v : Nat) (f : Tenant → Tenant) : (s.modTenant v f).reports = s.reports := rfl
@[simp] theorem State.modTenant_out (s : State) (v : Nat) (f : Tenant → Tenant) : (s.modTenant v f).out = s.out := rfl
@[simp] theorem State.modTenant_lastVf (s : State) (v : Nat) (f : Tenant → Tenant) : (s.modTenant v f).lastVf = s.lastVf := rfl
@[simp] theorem State.modTenant_accepted (s : State) (v : Nat) (f : Tenant → Tenant) : (s.modTenant v f).accepted = s.accepted := rfl
@[simp] theorem State.modTenant_recovery (s : State) (v : Nat) (f : Tenant → Tenant) : (s.modTenant v f).recovery = s.recovery := rfl
@[simp] theorem State.modTenant_agenda (s : State) (v : Nat) (f : Tenant → Tenant) : (s.modTenant v f).agenda = s.agenda := rfl
@[simp] theorem State.modTenant_rota (s : State) (v : Nat) (f : Tenant → Tenant) : (s.modTenant v f).rota = s.rota := rfl
@[simp] theorem State.modTenant_view (s : State) (v : Nat) (f : Tenant → Tenant) : (s.modTenant v f).view = s.view := rfl
@[simp] theorem State.modTenant_part (s : State) (v : Nat) (f : Tenant → Tenant) : (s.modTenant v f).part = s.part := rfl
@[simp] theorem State.modTenant_cur (s : State) (v : Nat) (f : Tenant → Tenant) : (s.modTenant v f).cur = s.cur := rfl
@[simp] theorem State.modTenant_ir (s : State) (v : Nat) (f : Tenant → Tenant) : (s.modTenant v f).ir = s.ir := rfl
@[simp] theorem State.modTenant_fresh (s : State) (v : Nat) (f : Tenant → Tenant) : (s.modTenant v f).fresh = s.fresh := rfl

/-! ## setSlot -/

@[simp] theorem State.setSlot_mem (s : State) (r : SlotRef) (x : Slot) : (s.setSlot r x).mem = s.mem := rfl
@[simp] theorem State.setSlot_poison (s : State) (r : SlotRef) (x : Slot) : (s.setSlot r x).poison = s.poison := rfl
@[simp] theorem State.setSlot_keyTags (s : State) (r : SlotRef) (x : Slot) : (s.setSlot r x).keyTags = s.keyTags := rfl
@[simp] theorem State.setSlot_cores (s : State) (r : SlotRef) (x : Slot) : (s.setSlot r x).cores = s.cores.put r.core ((s.core r.core).setSlot r.slot x) := rfl
@[simp] theorem State.setSlot_clusters (s : State) (r : SlotRef) (x : Slot) : (s.setSlot r x).clusters = s.clusters := rfl
@[simp] theorem State.setSlot_tenants (s : State) (r : SlotRef) (x : Slot) : (s.setSlot r x).tenants = s.tenants := rfl
@[simp] theorem State.setSlot_keys (s : State) (r : SlotRef) (x : Slot) : (s.setSlot r x).keys = s.keys := rfl
@[simp] theorem State.setSlot_capunits (s : State) (r : SlotRef) (x : Slot) : (s.setSlot r x).capunits = s.capunits := rfl
@[simp] theorem State.setSlot_capmesh (s : State) (r : SlotRef) (x : Slot) : (s.setSlot r x).capmesh = s.capmesh := rfl
@[simp] theorem State.setSlot_capfab (s : State) (r : SlotRef) (x : Slot) : (s.setSlot r x).capfab = s.capfab := rfl
@[simp] theorem State.setSlot_capmap (s : State) (r : SlotRef) (x : Slot) : (s.setSlot r x).capmap = s.capmap := rfl
@[simp] theorem State.setSlot_devloc (s : State) (r : SlotRef) (x : Slot) : (s.setSlot r x).devloc = s.devloc := rfl
@[simp] theorem State.setSlot_cycle (s : State) (r : SlotRef) (x : Slot) : (s.setSlot r x).cycle = s.cycle := rfl
@[simp] theorem State.setSlot_launches (s : State) (r : SlotRef) (x : Slot) : (s.setSlot r x).launches = s.launches := rfl
@[simp] theorem State.setSlot_flights (s : State) (r : SlotRef) (x : Slot) : (s.setSlot r x).flights = s.flights := rfl
@[simp] theorem State.setSlot_deposits (s : State) (r : SlotRef) (x : Slot) : (s.setSlot r x).deposits = s.deposits := rfl
@[simp] theorem State.setSlot_servedAt (s : State) (r : SlotRef) (x : Slot) : (s.setSlot r x).servedAt = s.servedAt := rfl
@[simp] theorem State.setSlot_qfences (s : State) (r : SlotRef) (x : Slot) : (s.setSlot r x).qfences = s.qfences := rfl
@[simp] theorem State.setSlot_walks (s : State) (r : SlotRef) (x : Slot) : (s.setSlot r x).walks = s.walks := rfl
@[simp] theorem State.setSlot_answers (s : State) (r : SlotRef) (x : Slot) : (s.setSlot r x).answers = s.answers := rfl
@[simp] theorem State.setSlot_writes (s : State) (r : SlotRef) (x : Slot) : (s.setSlot r x).writes = s.writes := rfl
@[simp] theorem State.setSlot_parties (s : State) (r : SlotRef) (x : Slot) : (s.setSlot r x).parties = s.parties := rfl
@[simp] theorem State.setSlot_images (s : State) (r : SlotRef) (x : Slot) : (s.setSlot r x).images = s.images := rfl
@[simp] theorem State.setSlot_groups (s : State) (r : SlotRef) (x : Slot) : (s.setSlot r x).groups = s.groups := rfl
@[simp] theorem State.setSlot_routes (s : State) (r : SlotRef) (x : Slot) : (s.setSlot r x).routes = s.routes := rfl
@[simp] theorem State.setSlot_stitched (s : State) (r : SlotRef) (x : Slot) : (s.setSlot r x).stitched = s.stitched := rfl
@[simp] theorem State.setSlot_unstitch (s : State) (r : SlotRef) (x : Slot) : (s.setSlot r x).unstitch = s.unstitch := rfl
@[simp] theorem State.setSlot_ports (s : State) (r : SlotRef) (x : Slot) : (s.setSlot r x).ports = s.ports := rfl
@[simp] theorem State.setSlot_badFrames (s : State) (r : SlotRef) (x : Slot) : (s.setSlot r x).badFrames = s.badFrames := rfl
@[simp] theorem State.setSlot_dropped (s : State) (r : SlotRef) (x : Slot) : (s.setSlot r x).dropped = s.dropped := rfl
@[simp] theorem State.setSlot_mlog (s : State) (r : SlotRef) (x : Slot) : (s.setSlot r x).mlog = s.mlog := rfl
@[simp] theorem State.setSlot_life (s : State) (r : SlotRef) (x : Slot) : (s.setSlot r x).life = s.life := rfl
@[simp] theorem State.setSlot_firmware (s : State) (r : SlotRef) (x : Slot) : (s.setSlot r x).firmware = s.firmware := rfl
@[simp] theorem State.setSlot_boot (s : State) (r : SlotRef) (x : Slot) : (s.setSlot r x).boot = s.boot := rfl
@[simp] theorem State.setSlot_seats (s : State) (r : SlotRef) (x : Slot) : (s.setSlot r x).seats = s.seats := rfl
@[simp] theorem State.setSlot_chans (s : State) (r : SlotRef) (x : Slot) : (s.setSlot r x).chans = s.chans := rfl
@[simp] theorem State.setSlot_journal (s : State) (r : SlotRef) (x : Slot) : (s.setSlot r x).journal = s.journal := rfl
@[simp] theorem State.setSlot_spdm (s : State) (r : SlotRef) (x : Slot) : (s.setSlot r x).spdm = s.spdm := rfl
@[simp] theorem State.setSlot_pwrcap (s : State) (r : SlotRef) (x : Slot) : (s.setSlot r x).pwrcap = s.pwrcap := rfl
@[simp] theorem State.setSlot_mbox (s : State) (r : SlotRef) (x : Slot) : (s.setSlot r x).mbox = s.mbox := rfl
@[simp] theorem State.setSlot_mboxFree (s : State) (r : SlotRef) (x : Slot) : (s.setSlot r x).mboxFree = s.mboxFree := rfl
@[simp] theorem State.setSlot_stopArea (s : State) (r : SlotRef) (x : Slot) : (s.setSlot r x).stopArea = s.stopArea := rfl
@[simp] theorem State.setSlot_reports (s : State) (r : SlotRef) (x : Slot) : (s.setSlot r x).reports = s.reports := rfl
@[simp] theorem State.setSlot_out (s : State) (r : SlotRef) (x : Slot) : (s.setSlot r x).out = s.out := rfl
@[simp] theorem State.setSlot_lastVf (s : State) (r : SlotRef) (x : Slot) : (s.setSlot r x).lastVf = s.lastVf := rfl
@[simp] theorem State.setSlot_accepted (s : State) (r : SlotRef) (x : Slot) : (s.setSlot r x).accepted = s.accepted := rfl
@[simp] theorem State.setSlot_recovery (s : State) (r : SlotRef) (x : Slot) : (s.setSlot r x).recovery = s.recovery := rfl
@[simp] theorem State.setSlot_agenda (s : State) (r : SlotRef) (x : Slot) : (s.setSlot r x).agenda = s.agenda := rfl
@[simp] theorem State.setSlot_rota (s : State) (r : SlotRef) (x : Slot) : (s.setSlot r x).rota = s.rota := rfl
@[simp] theorem State.setSlot_view (s : State) (r : SlotRef) (x : Slot) : (s.setSlot r x).view = s.view := rfl
@[simp] theorem State.setSlot_part (s : State) (r : SlotRef) (x : Slot) : (s.setSlot r x).part = s.part := rfl
@[simp] theorem State.setSlot_cur (s : State) (r : SlotRef) (x : Slot) : (s.setSlot r x).cur = s.cur := rfl
@[simp] theorem State.setSlot_ir (s : State) (r : SlotRef) (x : Slot) : (s.setSlot r x).ir = s.ir := rfl
@[simp] theorem State.setSlot_fresh (s : State) (r : SlotRef) (x : Slot) : (s.setSlot r x).fresh = s.fresh := rfl

/-! ## modSlot -/

@[simp] theorem State.modSlot_mem (s : State) (r : SlotRef) (f : Slot → Slot) : (s.modSlot r f).mem = s.mem := rfl
@[simp] theorem State.modSlot_poison (s : State) (r : SlotRef) (f : Slot → Slot) : (s.modSlot r f).poison = s.poison := rfl
@[simp] theorem State.modSlot_keyTags (s : State) (r : SlotRef) (f : Slot → Slot) : (s.modSlot r f).keyTags = s.keyTags := rfl
@[simp] theorem State.modSlot_cores (s : State) (r : SlotRef) (f : Slot → Slot) : (s.modSlot r f).cores = s.cores.put r.core ((s.core r.core).setSlot r.slot (f (s.slot r))) := rfl
@[simp] theorem State.modSlot_clusters (s : State) (r : SlotRef) (f : Slot → Slot) : (s.modSlot r f).clusters = s.clusters := rfl
@[simp] theorem State.modSlot_tenants (s : State) (r : SlotRef) (f : Slot → Slot) : (s.modSlot r f).tenants = s.tenants := rfl
@[simp] theorem State.modSlot_keys (s : State) (r : SlotRef) (f : Slot → Slot) : (s.modSlot r f).keys = s.keys := rfl
@[simp] theorem State.modSlot_capunits (s : State) (r : SlotRef) (f : Slot → Slot) : (s.modSlot r f).capunits = s.capunits := rfl
@[simp] theorem State.modSlot_capmesh (s : State) (r : SlotRef) (f : Slot → Slot) : (s.modSlot r f).capmesh = s.capmesh := rfl
@[simp] theorem State.modSlot_capfab (s : State) (r : SlotRef) (f : Slot → Slot) : (s.modSlot r f).capfab = s.capfab := rfl
@[simp] theorem State.modSlot_capmap (s : State) (r : SlotRef) (f : Slot → Slot) : (s.modSlot r f).capmap = s.capmap := rfl
@[simp] theorem State.modSlot_devloc (s : State) (r : SlotRef) (f : Slot → Slot) : (s.modSlot r f).devloc = s.devloc := rfl
@[simp] theorem State.modSlot_cycle (s : State) (r : SlotRef) (f : Slot → Slot) : (s.modSlot r f).cycle = s.cycle := rfl
@[simp] theorem State.modSlot_launches (s : State) (r : SlotRef) (f : Slot → Slot) : (s.modSlot r f).launches = s.launches := rfl
@[simp] theorem State.modSlot_flights (s : State) (r : SlotRef) (f : Slot → Slot) : (s.modSlot r f).flights = s.flights := rfl
@[simp] theorem State.modSlot_deposits (s : State) (r : SlotRef) (f : Slot → Slot) : (s.modSlot r f).deposits = s.deposits := rfl
@[simp] theorem State.modSlot_servedAt (s : State) (r : SlotRef) (f : Slot → Slot) : (s.modSlot r f).servedAt = s.servedAt := rfl
@[simp] theorem State.modSlot_qfences (s : State) (r : SlotRef) (f : Slot → Slot) : (s.modSlot r f).qfences = s.qfences := rfl
@[simp] theorem State.modSlot_walks (s : State) (r : SlotRef) (f : Slot → Slot) : (s.modSlot r f).walks = s.walks := rfl
@[simp] theorem State.modSlot_answers (s : State) (r : SlotRef) (f : Slot → Slot) : (s.modSlot r f).answers = s.answers := rfl
@[simp] theorem State.modSlot_writes (s : State) (r : SlotRef) (f : Slot → Slot) : (s.modSlot r f).writes = s.writes := rfl
@[simp] theorem State.modSlot_parties (s : State) (r : SlotRef) (f : Slot → Slot) : (s.modSlot r f).parties = s.parties := rfl
@[simp] theorem State.modSlot_images (s : State) (r : SlotRef) (f : Slot → Slot) : (s.modSlot r f).images = s.images := rfl
@[simp] theorem State.modSlot_groups (s : State) (r : SlotRef) (f : Slot → Slot) : (s.modSlot r f).groups = s.groups := rfl
@[simp] theorem State.modSlot_routes (s : State) (r : SlotRef) (f : Slot → Slot) : (s.modSlot r f).routes = s.routes := rfl
@[simp] theorem State.modSlot_stitched (s : State) (r : SlotRef) (f : Slot → Slot) : (s.modSlot r f).stitched = s.stitched := rfl
@[simp] theorem State.modSlot_unstitch (s : State) (r : SlotRef) (f : Slot → Slot) : (s.modSlot r f).unstitch = s.unstitch := rfl
@[simp] theorem State.modSlot_ports (s : State) (r : SlotRef) (f : Slot → Slot) : (s.modSlot r f).ports = s.ports := rfl
@[simp] theorem State.modSlot_badFrames (s : State) (r : SlotRef) (f : Slot → Slot) : (s.modSlot r f).badFrames = s.badFrames := rfl
@[simp] theorem State.modSlot_dropped (s : State) (r : SlotRef) (f : Slot → Slot) : (s.modSlot r f).dropped = s.dropped := rfl
@[simp] theorem State.modSlot_mlog (s : State) (r : SlotRef) (f : Slot → Slot) : (s.modSlot r f).mlog = s.mlog := rfl
@[simp] theorem State.modSlot_life (s : State) (r : SlotRef) (f : Slot → Slot) : (s.modSlot r f).life = s.life := rfl
@[simp] theorem State.modSlot_firmware (s : State) (r : SlotRef) (f : Slot → Slot) : (s.modSlot r f).firmware = s.firmware := rfl
@[simp] theorem State.modSlot_boot (s : State) (r : SlotRef) (f : Slot → Slot) : (s.modSlot r f).boot = s.boot := rfl
@[simp] theorem State.modSlot_seats (s : State) (r : SlotRef) (f : Slot → Slot) : (s.modSlot r f).seats = s.seats := rfl
@[simp] theorem State.modSlot_chans (s : State) (r : SlotRef) (f : Slot → Slot) : (s.modSlot r f).chans = s.chans := rfl
@[simp] theorem State.modSlot_journal (s : State) (r : SlotRef) (f : Slot → Slot) : (s.modSlot r f).journal = s.journal := rfl
@[simp] theorem State.modSlot_spdm (s : State) (r : SlotRef) (f : Slot → Slot) : (s.modSlot r f).spdm = s.spdm := rfl
@[simp] theorem State.modSlot_pwrcap (s : State) (r : SlotRef) (f : Slot → Slot) : (s.modSlot r f).pwrcap = s.pwrcap := rfl
@[simp] theorem State.modSlot_mbox (s : State) (r : SlotRef) (f : Slot → Slot) : (s.modSlot r f).mbox = s.mbox := rfl
@[simp] theorem State.modSlot_mboxFree (s : State) (r : SlotRef) (f : Slot → Slot) : (s.modSlot r f).mboxFree = s.mboxFree := rfl
@[simp] theorem State.modSlot_stopArea (s : State) (r : SlotRef) (f : Slot → Slot) : (s.modSlot r f).stopArea = s.stopArea := rfl
@[simp] theorem State.modSlot_reports (s : State) (r : SlotRef) (f : Slot → Slot) : (s.modSlot r f).reports = s.reports := rfl
@[simp] theorem State.modSlot_out (s : State) (r : SlotRef) (f : Slot → Slot) : (s.modSlot r f).out = s.out := rfl
@[simp] theorem State.modSlot_lastVf (s : State) (r : SlotRef) (f : Slot → Slot) : (s.modSlot r f).lastVf = s.lastVf := rfl
@[simp] theorem State.modSlot_accepted (s : State) (r : SlotRef) (f : Slot → Slot) : (s.modSlot r f).accepted = s.accepted := rfl
@[simp] theorem State.modSlot_recovery (s : State) (r : SlotRef) (f : Slot → Slot) : (s.modSlot r f).recovery = s.recovery := rfl
@[simp] theorem State.modSlot_agenda (s : State) (r : SlotRef) (f : Slot → Slot) : (s.modSlot r f).agenda = s.agenda := rfl
@[simp] theorem State.modSlot_rota (s : State) (r : SlotRef) (f : Slot → Slot) : (s.modSlot r f).rota = s.rota := rfl
@[simp] theorem State.modSlot_view (s : State) (r : SlotRef) (f : Slot → Slot) : (s.modSlot r f).view = s.view := rfl
@[simp] theorem State.modSlot_part (s : State) (r : SlotRef) (f : Slot → Slot) : (s.modSlot r f).part = s.part := rfl
@[simp] theorem State.modSlot_cur (s : State) (r : SlotRef) (f : Slot → Slot) : (s.modSlot r f).cur = s.cur := rfl
@[simp] theorem State.modSlot_ir (s : State) (r : SlotRef) (f : Slot → Slot) : (s.modSlot r f).ir = s.ir := rfl
@[simp] theorem State.modSlot_fresh (s : State) (r : SlotRef) (f : Slot → Slot) : (s.modSlot r f).fresh = s.fresh := rfl

/-! ## modSl -/

@[simp] theorem State.modSl_mem (s : State) (f : Slot → Slot) : (s.modSl f).mem = s.mem := rfl
@[simp] theorem State.modSl_poison (s : State) (f : Slot → Slot) : (s.modSl f).poison = s.poison := rfl
@[simp] theorem State.modSl_keyTags (s : State) (f : Slot → Slot) : (s.modSl f).keyTags = s.keyTags := rfl
@[simp] theorem State.modSl_cores (s : State) (f : Slot → Slot) : (s.modSl f).cores = s.cores.put s.cur.core ((s.core s.cur.core).setSlot s.cur.slot (f s.sl)) := rfl
@[simp] theorem State.modSl_clusters (s : State) (f : Slot → Slot) : (s.modSl f).clusters = s.clusters := rfl
@[simp] theorem State.modSl_tenants (s : State) (f : Slot → Slot) : (s.modSl f).tenants = s.tenants := rfl
@[simp] theorem State.modSl_keys (s : State) (f : Slot → Slot) : (s.modSl f).keys = s.keys := rfl
@[simp] theorem State.modSl_capunits (s : State) (f : Slot → Slot) : (s.modSl f).capunits = s.capunits := rfl
@[simp] theorem State.modSl_capmesh (s : State) (f : Slot → Slot) : (s.modSl f).capmesh = s.capmesh := rfl
@[simp] theorem State.modSl_capfab (s : State) (f : Slot → Slot) : (s.modSl f).capfab = s.capfab := rfl
@[simp] theorem State.modSl_capmap (s : State) (f : Slot → Slot) : (s.modSl f).capmap = s.capmap := rfl
@[simp] theorem State.modSl_devloc (s : State) (f : Slot → Slot) : (s.modSl f).devloc = s.devloc := rfl
@[simp] theorem State.modSl_cycle (s : State) (f : Slot → Slot) : (s.modSl f).cycle = s.cycle := rfl
@[simp] theorem State.modSl_launches (s : State) (f : Slot → Slot) : (s.modSl f).launches = s.launches := rfl
@[simp] theorem State.modSl_flights (s : State) (f : Slot → Slot) : (s.modSl f).flights = s.flights := rfl
@[simp] theorem State.modSl_deposits (s : State) (f : Slot → Slot) : (s.modSl f).deposits = s.deposits := rfl
@[simp] theorem State.modSl_servedAt (s : State) (f : Slot → Slot) : (s.modSl f).servedAt = s.servedAt := rfl
@[simp] theorem State.modSl_qfences (s : State) (f : Slot → Slot) : (s.modSl f).qfences = s.qfences := rfl
@[simp] theorem State.modSl_walks (s : State) (f : Slot → Slot) : (s.modSl f).walks = s.walks := rfl
@[simp] theorem State.modSl_answers (s : State) (f : Slot → Slot) : (s.modSl f).answers = s.answers := rfl
@[simp] theorem State.modSl_writes (s : State) (f : Slot → Slot) : (s.modSl f).writes = s.writes := rfl
@[simp] theorem State.modSl_parties (s : State) (f : Slot → Slot) : (s.modSl f).parties = s.parties := rfl
@[simp] theorem State.modSl_images (s : State) (f : Slot → Slot) : (s.modSl f).images = s.images := rfl
@[simp] theorem State.modSl_groups (s : State) (f : Slot → Slot) : (s.modSl f).groups = s.groups := rfl
@[simp] theorem State.modSl_routes (s : State) (f : Slot → Slot) : (s.modSl f).routes = s.routes := rfl
@[simp] theorem State.modSl_stitched (s : State) (f : Slot → Slot) : (s.modSl f).stitched = s.stitched := rfl
@[simp] theorem State.modSl_unstitch (s : State) (f : Slot → Slot) : (s.modSl f).unstitch = s.unstitch := rfl
@[simp] theorem State.modSl_ports (s : State) (f : Slot → Slot) : (s.modSl f).ports = s.ports := rfl
@[simp] theorem State.modSl_badFrames (s : State) (f : Slot → Slot) : (s.modSl f).badFrames = s.badFrames := rfl
@[simp] theorem State.modSl_dropped (s : State) (f : Slot → Slot) : (s.modSl f).dropped = s.dropped := rfl
@[simp] theorem State.modSl_mlog (s : State) (f : Slot → Slot) : (s.modSl f).mlog = s.mlog := rfl
@[simp] theorem State.modSl_life (s : State) (f : Slot → Slot) : (s.modSl f).life = s.life := rfl
@[simp] theorem State.modSl_firmware (s : State) (f : Slot → Slot) : (s.modSl f).firmware = s.firmware := rfl
@[simp] theorem State.modSl_boot (s : State) (f : Slot → Slot) : (s.modSl f).boot = s.boot := rfl
@[simp] theorem State.modSl_seats (s : State) (f : Slot → Slot) : (s.modSl f).seats = s.seats := rfl
@[simp] theorem State.modSl_chans (s : State) (f : Slot → Slot) : (s.modSl f).chans = s.chans := rfl
@[simp] theorem State.modSl_journal (s : State) (f : Slot → Slot) : (s.modSl f).journal = s.journal := rfl
@[simp] theorem State.modSl_spdm (s : State) (f : Slot → Slot) : (s.modSl f).spdm = s.spdm := rfl
@[simp] theorem State.modSl_pwrcap (s : State) (f : Slot → Slot) : (s.modSl f).pwrcap = s.pwrcap := rfl
@[simp] theorem State.modSl_mbox (s : State) (f : Slot → Slot) : (s.modSl f).mbox = s.mbox := rfl
@[simp] theorem State.modSl_mboxFree (s : State) (f : Slot → Slot) : (s.modSl f).mboxFree = s.mboxFree := rfl
@[simp] theorem State.modSl_stopArea (s : State) (f : Slot → Slot) : (s.modSl f).stopArea = s.stopArea := rfl
@[simp] theorem State.modSl_reports (s : State) (f : Slot → Slot) : (s.modSl f).reports = s.reports := rfl
@[simp] theorem State.modSl_out (s : State) (f : Slot → Slot) : (s.modSl f).out = s.out := rfl
@[simp] theorem State.modSl_lastVf (s : State) (f : Slot → Slot) : (s.modSl f).lastVf = s.lastVf := rfl
@[simp] theorem State.modSl_accepted (s : State) (f : Slot → Slot) : (s.modSl f).accepted = s.accepted := rfl
@[simp] theorem State.modSl_recovery (s : State) (f : Slot → Slot) : (s.modSl f).recovery = s.recovery := rfl
@[simp] theorem State.modSl_agenda (s : State) (f : Slot → Slot) : (s.modSl f).agenda = s.agenda := rfl
@[simp] theorem State.modSl_rota (s : State) (f : Slot → Slot) : (s.modSl f).rota = s.rota := rfl
@[simp] theorem State.modSl_view (s : State) (f : Slot → Slot) : (s.modSl f).view = s.view := rfl
@[simp] theorem State.modSl_part (s : State) (f : Slot → Slot) : (s.modSl f).part = s.part := rfl
@[simp] theorem State.modSl_cur (s : State) (f : Slot → Slot) : (s.modSl f).cur = s.cur := rfl
@[simp] theorem State.modSl_ir (s : State) (f : Slot → Slot) : (s.modSl f).ir = s.ir := rfl
@[simp] theorem State.modSl_fresh (s : State) (f : Slot → Slot) : (s.modSl f).fresh = s.fresh := rfl

/-! ## modParty -/

@[simp] theorem State.modParty_mem (s : State) (p : Nat) (f : Party → Party) : (s.modParty p f).mem = s.mem := rfl
@[simp] theorem State.modParty_poison (s : State) (p : Nat) (f : Party → Party) : (s.modParty p f).poison = s.poison := rfl
@[simp] theorem State.modParty_keyTags (s : State) (p : Nat) (f : Party → Party) : (s.modParty p f).keyTags = s.keyTags := rfl
@[simp] theorem State.modParty_cores (s : State) (p : Nat) (f : Party → Party) : (s.modParty p f).cores = s.cores := rfl
@[simp] theorem State.modParty_clusters (s : State) (p : Nat) (f : Party → Party) : (s.modParty p f).clusters = s.clusters := rfl
@[simp] theorem State.modParty_tenants (s : State) (p : Nat) (f : Party → Party) : (s.modParty p f).tenants = s.tenants := rfl
@[simp] theorem State.modParty_keys (s : State) (p : Nat) (f : Party → Party) : (s.modParty p f).keys = s.keys := rfl
@[simp] theorem State.modParty_capunits (s : State) (p : Nat) (f : Party → Party) : (s.modParty p f).capunits = s.capunits := rfl
@[simp] theorem State.modParty_capmesh (s : State) (p : Nat) (f : Party → Party) : (s.modParty p f).capmesh = s.capmesh := rfl
@[simp] theorem State.modParty_capfab (s : State) (p : Nat) (f : Party → Party) : (s.modParty p f).capfab = s.capfab := rfl
@[simp] theorem State.modParty_capmap (s : State) (p : Nat) (f : Party → Party) : (s.modParty p f).capmap = s.capmap := rfl
@[simp] theorem State.modParty_devloc (s : State) (p : Nat) (f : Party → Party) : (s.modParty p f).devloc = s.devloc := rfl
@[simp] theorem State.modParty_cycle (s : State) (p : Nat) (f : Party → Party) : (s.modParty p f).cycle = s.cycle := rfl
@[simp] theorem State.modParty_launches (s : State) (p : Nat) (f : Party → Party) : (s.modParty p f).launches = s.launches := rfl
@[simp] theorem State.modParty_flights (s : State) (p : Nat) (f : Party → Party) : (s.modParty p f).flights = s.flights := rfl
@[simp] theorem State.modParty_deposits (s : State) (p : Nat) (f : Party → Party) : (s.modParty p f).deposits = s.deposits := rfl
@[simp] theorem State.modParty_servedAt (s : State) (p : Nat) (f : Party → Party) : (s.modParty p f).servedAt = s.servedAt := rfl
@[simp] theorem State.modParty_qfences (s : State) (p : Nat) (f : Party → Party) : (s.modParty p f).qfences = s.qfences := rfl
@[simp] theorem State.modParty_walks (s : State) (p : Nat) (f : Party → Party) : (s.modParty p f).walks = s.walks := rfl
@[simp] theorem State.modParty_answers (s : State) (p : Nat) (f : Party → Party) : (s.modParty p f).answers = s.answers := rfl
@[simp] theorem State.modParty_writes (s : State) (p : Nat) (f : Party → Party) : (s.modParty p f).writes = s.writes := rfl
@[simp] theorem State.modParty_parties (s : State) (p : Nat) (f : Party → Party) : (s.modParty p f).parties = s.parties.put p (f (s.party p)) := rfl
@[simp] theorem State.modParty_images (s : State) (p : Nat) (f : Party → Party) : (s.modParty p f).images = s.images := rfl
@[simp] theorem State.modParty_groups (s : State) (p : Nat) (f : Party → Party) : (s.modParty p f).groups = s.groups := rfl
@[simp] theorem State.modParty_routes (s : State) (p : Nat) (f : Party → Party) : (s.modParty p f).routes = s.routes := rfl
@[simp] theorem State.modParty_stitched (s : State) (p : Nat) (f : Party → Party) : (s.modParty p f).stitched = s.stitched := rfl
@[simp] theorem State.modParty_unstitch (s : State) (p : Nat) (f : Party → Party) : (s.modParty p f).unstitch = s.unstitch := rfl
@[simp] theorem State.modParty_ports (s : State) (p : Nat) (f : Party → Party) : (s.modParty p f).ports = s.ports := rfl
@[simp] theorem State.modParty_badFrames (s : State) (p : Nat) (f : Party → Party) : (s.modParty p f).badFrames = s.badFrames := rfl
@[simp] theorem State.modParty_dropped (s : State) (p : Nat) (f : Party → Party) : (s.modParty p f).dropped = s.dropped := rfl
@[simp] theorem State.modParty_mlog (s : State) (p : Nat) (f : Party → Party) : (s.modParty p f).mlog = s.mlog := rfl
@[simp] theorem State.modParty_life (s : State) (p : Nat) (f : Party → Party) : (s.modParty p f).life = s.life := rfl
@[simp] theorem State.modParty_firmware (s : State) (p : Nat) (f : Party → Party) : (s.modParty p f).firmware = s.firmware := rfl
@[simp] theorem State.modParty_boot (s : State) (p : Nat) (f : Party → Party) : (s.modParty p f).boot = s.boot := rfl
@[simp] theorem State.modParty_seats (s : State) (p : Nat) (f : Party → Party) : (s.modParty p f).seats = s.seats := rfl
@[simp] theorem State.modParty_chans (s : State) (p : Nat) (f : Party → Party) : (s.modParty p f).chans = s.chans := rfl
@[simp] theorem State.modParty_journal (s : State) (p : Nat) (f : Party → Party) : (s.modParty p f).journal = s.journal := rfl
@[simp] theorem State.modParty_spdm (s : State) (p : Nat) (f : Party → Party) : (s.modParty p f).spdm = s.spdm := rfl
@[simp] theorem State.modParty_pwrcap (s : State) (p : Nat) (f : Party → Party) : (s.modParty p f).pwrcap = s.pwrcap := rfl
@[simp] theorem State.modParty_mbox (s : State) (p : Nat) (f : Party → Party) : (s.modParty p f).mbox = s.mbox := rfl
@[simp] theorem State.modParty_mboxFree (s : State) (p : Nat) (f : Party → Party) : (s.modParty p f).mboxFree = s.mboxFree := rfl
@[simp] theorem State.modParty_stopArea (s : State) (p : Nat) (f : Party → Party) : (s.modParty p f).stopArea = s.stopArea := rfl
@[simp] theorem State.modParty_reports (s : State) (p : Nat) (f : Party → Party) : (s.modParty p f).reports = s.reports := rfl
@[simp] theorem State.modParty_out (s : State) (p : Nat) (f : Party → Party) : (s.modParty p f).out = s.out := rfl
@[simp] theorem State.modParty_lastVf (s : State) (p : Nat) (f : Party → Party) : (s.modParty p f).lastVf = s.lastVf := rfl
@[simp] theorem State.modParty_accepted (s : State) (p : Nat) (f : Party → Party) : (s.modParty p f).accepted = s.accepted := rfl
@[simp] theorem State.modParty_recovery (s : State) (p : Nat) (f : Party → Party) : (s.modParty p f).recovery = s.recovery := rfl
@[simp] theorem State.modParty_agenda (s : State) (p : Nat) (f : Party → Party) : (s.modParty p f).agenda = s.agenda := rfl
@[simp] theorem State.modParty_rota (s : State) (p : Nat) (f : Party → Party) : (s.modParty p f).rota = s.rota := rfl
@[simp] theorem State.modParty_view (s : State) (p : Nat) (f : Party → Party) : (s.modParty p f).view = s.view := rfl
@[simp] theorem State.modParty_part (s : State) (p : Nat) (f : Party → Party) : (s.modParty p f).part = s.part := rfl
@[simp] theorem State.modParty_cur (s : State) (p : Nat) (f : Party → Party) : (s.modParty p f).cur = s.cur := rfl
@[simp] theorem State.modParty_ir (s : State) (p : Nat) (f : Party → Party) : (s.modParty p f).ir = s.ir := rfl
@[simp] theorem State.modParty_fresh (s : State) (p : Nat) (f : Party → Party) : (s.modParty p f).fresh = s.fresh := rfl

/-! ## dropFlight -/

@[simp] theorem State.dropFlight_mem (s : State) (id : Nat) : (s.dropFlight id).mem = s.mem := rfl
@[simp] theorem State.dropFlight_poison (s : State) (id : Nat) : (s.dropFlight id).poison = s.poison := rfl
@[simp] theorem State.dropFlight_keyTags (s : State) (id : Nat) : (s.dropFlight id).keyTags = s.keyTags := rfl
@[simp] theorem State.dropFlight_cores (s : State) (id : Nat) : (s.dropFlight id).cores = s.cores := rfl
@[simp] theorem State.dropFlight_clusters (s : State) (id : Nat) : (s.dropFlight id).clusters = s.clusters := rfl
@[simp] theorem State.dropFlight_tenants (s : State) (id : Nat) : (s.dropFlight id).tenants = s.tenants := rfl
@[simp] theorem State.dropFlight_keys (s : State) (id : Nat) : (s.dropFlight id).keys = s.keys := rfl
@[simp] theorem State.dropFlight_capunits (s : State) (id : Nat) : (s.dropFlight id).capunits = s.capunits := rfl
@[simp] theorem State.dropFlight_capmesh (s : State) (id : Nat) : (s.dropFlight id).capmesh = s.capmesh := rfl
@[simp] theorem State.dropFlight_capfab (s : State) (id : Nat) : (s.dropFlight id).capfab = s.capfab := rfl
@[simp] theorem State.dropFlight_capmap (s : State) (id : Nat) : (s.dropFlight id).capmap = s.capmap := rfl
@[simp] theorem State.dropFlight_devloc (s : State) (id : Nat) : (s.dropFlight id).devloc = s.devloc := rfl
@[simp] theorem State.dropFlight_cycle (s : State) (id : Nat) : (s.dropFlight id).cycle = s.cycle := rfl
@[simp] theorem State.dropFlight_launches (s : State) (id : Nat) : (s.dropFlight id).launches = s.launches := rfl
@[simp] theorem State.dropFlight_flights (s : State) (id : Nat) : (s.dropFlight id).flights = s.flights.filter fun f => f.id != id := rfl
@[simp] theorem State.dropFlight_deposits (s : State) (id : Nat) : (s.dropFlight id).deposits = s.deposits := rfl
@[simp] theorem State.dropFlight_servedAt (s : State) (id : Nat) : (s.dropFlight id).servedAt = s.servedAt := rfl
@[simp] theorem State.dropFlight_qfences (s : State) (id : Nat) : (s.dropFlight id).qfences = s.qfences := rfl
@[simp] theorem State.dropFlight_walks (s : State) (id : Nat) : (s.dropFlight id).walks = s.walks := rfl
@[simp] theorem State.dropFlight_answers (s : State) (id : Nat) : (s.dropFlight id).answers = s.answers := rfl
@[simp] theorem State.dropFlight_writes (s : State) (id : Nat) : (s.dropFlight id).writes = s.writes := rfl
@[simp] theorem State.dropFlight_parties (s : State) (id : Nat) : (s.dropFlight id).parties = s.parties := rfl
@[simp] theorem State.dropFlight_images (s : State) (id : Nat) : (s.dropFlight id).images = s.images := rfl
@[simp] theorem State.dropFlight_groups (s : State) (id : Nat) : (s.dropFlight id).groups = s.groups := rfl
@[simp] theorem State.dropFlight_routes (s : State) (id : Nat) : (s.dropFlight id).routes = s.routes := rfl
@[simp] theorem State.dropFlight_stitched (s : State) (id : Nat) : (s.dropFlight id).stitched = s.stitched := rfl
@[simp] theorem State.dropFlight_unstitch (s : State) (id : Nat) : (s.dropFlight id).unstitch = s.unstitch := rfl
@[simp] theorem State.dropFlight_ports (s : State) (id : Nat) : (s.dropFlight id).ports = s.ports := rfl
@[simp] theorem State.dropFlight_badFrames (s : State) (id : Nat) : (s.dropFlight id).badFrames = s.badFrames := rfl
@[simp] theorem State.dropFlight_dropped (s : State) (id : Nat) : (s.dropFlight id).dropped = s.dropped := rfl
@[simp] theorem State.dropFlight_mlog (s : State) (id : Nat) : (s.dropFlight id).mlog = s.mlog := rfl
@[simp] theorem State.dropFlight_life (s : State) (id : Nat) : (s.dropFlight id).life = s.life := rfl
@[simp] theorem State.dropFlight_firmware (s : State) (id : Nat) : (s.dropFlight id).firmware = s.firmware := rfl
@[simp] theorem State.dropFlight_boot (s : State) (id : Nat) : (s.dropFlight id).boot = s.boot := rfl
@[simp] theorem State.dropFlight_seats (s : State) (id : Nat) : (s.dropFlight id).seats = s.seats := rfl
@[simp] theorem State.dropFlight_chans (s : State) (id : Nat) : (s.dropFlight id).chans = s.chans := rfl
@[simp] theorem State.dropFlight_journal (s : State) (id : Nat) : (s.dropFlight id).journal = s.journal := rfl
@[simp] theorem State.dropFlight_spdm (s : State) (id : Nat) : (s.dropFlight id).spdm = s.spdm := rfl
@[simp] theorem State.dropFlight_pwrcap (s : State) (id : Nat) : (s.dropFlight id).pwrcap = s.pwrcap := rfl
@[simp] theorem State.dropFlight_mbox (s : State) (id : Nat) : (s.dropFlight id).mbox = s.mbox := rfl
@[simp] theorem State.dropFlight_mboxFree (s : State) (id : Nat) : (s.dropFlight id).mboxFree = s.mboxFree := rfl
@[simp] theorem State.dropFlight_stopArea (s : State) (id : Nat) : (s.dropFlight id).stopArea = s.stopArea := rfl
@[simp] theorem State.dropFlight_reports (s : State) (id : Nat) : (s.dropFlight id).reports = s.reports := rfl
@[simp] theorem State.dropFlight_out (s : State) (id : Nat) : (s.dropFlight id).out = s.out := rfl
@[simp] theorem State.dropFlight_lastVf (s : State) (id : Nat) : (s.dropFlight id).lastVf = s.lastVf := rfl
@[simp] theorem State.dropFlight_accepted (s : State) (id : Nat) : (s.dropFlight id).accepted = s.accepted := rfl
@[simp] theorem State.dropFlight_recovery (s : State) (id : Nat) : (s.dropFlight id).recovery = s.recovery := rfl
@[simp] theorem State.dropFlight_agenda (s : State) (id : Nat) : (s.dropFlight id).agenda = s.agenda := rfl
@[simp] theorem State.dropFlight_rota (s : State) (id : Nat) : (s.dropFlight id).rota = s.rota := rfl
@[simp] theorem State.dropFlight_view (s : State) (id : Nat) : (s.dropFlight id).view = s.view := rfl
@[simp] theorem State.dropFlight_part (s : State) (id : Nat) : (s.dropFlight id).part = s.part := rfl
@[simp] theorem State.dropFlight_cur (s : State) (id : Nat) : (s.dropFlight id).cur = s.cur := rfl
@[simp] theorem State.dropFlight_ir (s : State) (id : Nat) : (s.dropFlight id).ir = s.ir := rfl
@[simp] theorem State.dropFlight_fresh (s : State) (id : Nat) : (s.dropFlight id).fresh = s.fresh := rfl

/-! ## modFlight -/

@[simp] theorem State.modFlight_mem (s : State) (id : Nat) (g : Flight → Flight) : (s.modFlight id g).mem = s.mem := rfl
@[simp] theorem State.modFlight_poison (s : State) (id : Nat) (g : Flight → Flight) : (s.modFlight id g).poison = s.poison := rfl
@[simp] theorem State.modFlight_keyTags (s : State) (id : Nat) (g : Flight → Flight) : (s.modFlight id g).keyTags = s.keyTags := rfl
@[simp] theorem State.modFlight_cores (s : State) (id : Nat) (g : Flight → Flight) : (s.modFlight id g).cores = s.cores := rfl
@[simp] theorem State.modFlight_clusters (s : State) (id : Nat) (g : Flight → Flight) : (s.modFlight id g).clusters = s.clusters := rfl
@[simp] theorem State.modFlight_tenants (s : State) (id : Nat) (g : Flight → Flight) : (s.modFlight id g).tenants = s.tenants := rfl
@[simp] theorem State.modFlight_keys (s : State) (id : Nat) (g : Flight → Flight) : (s.modFlight id g).keys = s.keys := rfl
@[simp] theorem State.modFlight_capunits (s : State) (id : Nat) (g : Flight → Flight) : (s.modFlight id g).capunits = s.capunits := rfl
@[simp] theorem State.modFlight_capmesh (s : State) (id : Nat) (g : Flight → Flight) : (s.modFlight id g).capmesh = s.capmesh := rfl
@[simp] theorem State.modFlight_capfab (s : State) (id : Nat) (g : Flight → Flight) : (s.modFlight id g).capfab = s.capfab := rfl
@[simp] theorem State.modFlight_capmap (s : State) (id : Nat) (g : Flight → Flight) : (s.modFlight id g).capmap = s.capmap := rfl
@[simp] theorem State.modFlight_devloc (s : State) (id : Nat) (g : Flight → Flight) : (s.modFlight id g).devloc = s.devloc := rfl
@[simp] theorem State.modFlight_cycle (s : State) (id : Nat) (g : Flight → Flight) : (s.modFlight id g).cycle = s.cycle := rfl
@[simp] theorem State.modFlight_launches (s : State) (id : Nat) (g : Flight → Flight) : (s.modFlight id g).launches = s.launches := rfl
@[simp] theorem State.modFlight_flights (s : State) (id : Nat) (g : Flight → Flight) : (s.modFlight id g).flights = s.flights.map fun f => if f.id = id then g f else f := rfl
@[simp] theorem State.modFlight_deposits (s : State) (id : Nat) (g : Flight → Flight) : (s.modFlight id g).deposits = s.deposits := rfl
@[simp] theorem State.modFlight_servedAt (s : State) (id : Nat) (g : Flight → Flight) : (s.modFlight id g).servedAt = s.servedAt := rfl
@[simp] theorem State.modFlight_qfences (s : State) (id : Nat) (g : Flight → Flight) : (s.modFlight id g).qfences = s.qfences := rfl
@[simp] theorem State.modFlight_walks (s : State) (id : Nat) (g : Flight → Flight) : (s.modFlight id g).walks = s.walks := rfl
@[simp] theorem State.modFlight_answers (s : State) (id : Nat) (g : Flight → Flight) : (s.modFlight id g).answers = s.answers := rfl
@[simp] theorem State.modFlight_writes (s : State) (id : Nat) (g : Flight → Flight) : (s.modFlight id g).writes = s.writes := rfl
@[simp] theorem State.modFlight_parties (s : State) (id : Nat) (g : Flight → Flight) : (s.modFlight id g).parties = s.parties := rfl
@[simp] theorem State.modFlight_images (s : State) (id : Nat) (g : Flight → Flight) : (s.modFlight id g).images = s.images := rfl
@[simp] theorem State.modFlight_groups (s : State) (id : Nat) (g : Flight → Flight) : (s.modFlight id g).groups = s.groups := rfl
@[simp] theorem State.modFlight_routes (s : State) (id : Nat) (g : Flight → Flight) : (s.modFlight id g).routes = s.routes := rfl
@[simp] theorem State.modFlight_stitched (s : State) (id : Nat) (g : Flight → Flight) : (s.modFlight id g).stitched = s.stitched := rfl
@[simp] theorem State.modFlight_unstitch (s : State) (id : Nat) (g : Flight → Flight) : (s.modFlight id g).unstitch = s.unstitch := rfl
@[simp] theorem State.modFlight_ports (s : State) (id : Nat) (g : Flight → Flight) : (s.modFlight id g).ports = s.ports := rfl
@[simp] theorem State.modFlight_badFrames (s : State) (id : Nat) (g : Flight → Flight) : (s.modFlight id g).badFrames = s.badFrames := rfl
@[simp] theorem State.modFlight_dropped (s : State) (id : Nat) (g : Flight → Flight) : (s.modFlight id g).dropped = s.dropped := rfl
@[simp] theorem State.modFlight_mlog (s : State) (id : Nat) (g : Flight → Flight) : (s.modFlight id g).mlog = s.mlog := rfl
@[simp] theorem State.modFlight_life (s : State) (id : Nat) (g : Flight → Flight) : (s.modFlight id g).life = s.life := rfl
@[simp] theorem State.modFlight_firmware (s : State) (id : Nat) (g : Flight → Flight) : (s.modFlight id g).firmware = s.firmware := rfl
@[simp] theorem State.modFlight_boot (s : State) (id : Nat) (g : Flight → Flight) : (s.modFlight id g).boot = s.boot := rfl
@[simp] theorem State.modFlight_seats (s : State) (id : Nat) (g : Flight → Flight) : (s.modFlight id g).seats = s.seats := rfl
@[simp] theorem State.modFlight_chans (s : State) (id : Nat) (g : Flight → Flight) : (s.modFlight id g).chans = s.chans := rfl
@[simp] theorem State.modFlight_journal (s : State) (id : Nat) (g : Flight → Flight) : (s.modFlight id g).journal = s.journal := rfl
@[simp] theorem State.modFlight_spdm (s : State) (id : Nat) (g : Flight → Flight) : (s.modFlight id g).spdm = s.spdm := rfl
@[simp] theorem State.modFlight_pwrcap (s : State) (id : Nat) (g : Flight → Flight) : (s.modFlight id g).pwrcap = s.pwrcap := rfl
@[simp] theorem State.modFlight_mbox (s : State) (id : Nat) (g : Flight → Flight) : (s.modFlight id g).mbox = s.mbox := rfl
@[simp] theorem State.modFlight_mboxFree (s : State) (id : Nat) (g : Flight → Flight) : (s.modFlight id g).mboxFree = s.mboxFree := rfl
@[simp] theorem State.modFlight_stopArea (s : State) (id : Nat) (g : Flight → Flight) : (s.modFlight id g).stopArea = s.stopArea := rfl
@[simp] theorem State.modFlight_reports (s : State) (id : Nat) (g : Flight → Flight) : (s.modFlight id g).reports = s.reports := rfl
@[simp] theorem State.modFlight_out (s : State) (id : Nat) (g : Flight → Flight) : (s.modFlight id g).out = s.out := rfl
@[simp] theorem State.modFlight_lastVf (s : State) (id : Nat) (g : Flight → Flight) : (s.modFlight id g).lastVf = s.lastVf := rfl
@[simp] theorem State.modFlight_accepted (s : State) (id : Nat) (g : Flight → Flight) : (s.modFlight id g).accepted = s.accepted := rfl
@[simp] theorem State.modFlight_recovery (s : State) (id : Nat) (g : Flight → Flight) : (s.modFlight id g).recovery = s.recovery := rfl
@[simp] theorem State.modFlight_agenda (s : State) (id : Nat) (g : Flight → Flight) : (s.modFlight id g).agenda = s.agenda := rfl
@[simp] theorem State.modFlight_rota (s : State) (id : Nat) (g : Flight → Flight) : (s.modFlight id g).rota = s.rota := rfl
@[simp] theorem State.modFlight_view (s : State) (id : Nat) (g : Flight → Flight) : (s.modFlight id g).view = s.view := rfl
@[simp] theorem State.modFlight_part (s : State) (id : Nat) (g : Flight → Flight) : (s.modFlight id g).part = s.part := rfl
@[simp] theorem State.modFlight_cur (s : State) (id : Nat) (g : Flight → Flight) : (s.modFlight id g).cur = s.cur := rfl
@[simp] theorem State.modFlight_ir (s : State) (id : Nat) (g : Flight → Flight) : (s.modFlight id g).ir = s.ir := rfl
@[simp] theorem State.modFlight_fresh (s : State) (id : Nat) (g : Flight → Flight) : (s.modFlight id g).fresh = s.fresh := rfl

/-! ## wipe -/

@[simp] theorem State.wipe_mem (s : State) (lo hi : Nat) : (s.wipe lo hi).mem = s.mem.clear lo hi := rfl
@[simp] theorem State.wipe_keyTags (s : State) (lo hi : Nat) : (s.wipe lo hi).keyTags = s.keyTags := rfl
@[simp] theorem State.wipe_cores (s : State) (lo hi : Nat) : (s.wipe lo hi).cores = s.cores := rfl
@[simp] theorem State.wipe_clusters (s : State) (lo hi : Nat) : (s.wipe lo hi).clusters = s.clusters := rfl
@[simp] theorem State.wipe_tenants (s : State) (lo hi : Nat) : (s.wipe lo hi).tenants = s.tenants := rfl
@[simp] theorem State.wipe_keys (s : State) (lo hi : Nat) : (s.wipe lo hi).keys = s.keys := rfl
@[simp] theorem State.wipe_capunits (s : State) (lo hi : Nat) : (s.wipe lo hi).capunits = s.capunits := rfl
@[simp] theorem State.wipe_capmesh (s : State) (lo hi : Nat) : (s.wipe lo hi).capmesh = s.capmesh := rfl
@[simp] theorem State.wipe_capfab (s : State) (lo hi : Nat) : (s.wipe lo hi).capfab = s.capfab := rfl
@[simp] theorem State.wipe_capmap (s : State) (lo hi : Nat) : (s.wipe lo hi).capmap = s.capmap := rfl
@[simp] theorem State.wipe_devloc (s : State) (lo hi : Nat) : (s.wipe lo hi).devloc = s.devloc := rfl
@[simp] theorem State.wipe_cycle (s : State) (lo hi : Nat) : (s.wipe lo hi).cycle = s.cycle := rfl
@[simp] theorem State.wipe_launches (s : State) (lo hi : Nat) : (s.wipe lo hi).launches = s.launches := rfl
@[simp] theorem State.wipe_flights (s : State) (lo hi : Nat) : (s.wipe lo hi).flights = s.flights := rfl
@[simp] theorem State.wipe_deposits (s : State) (lo hi : Nat) : (s.wipe lo hi).deposits = s.deposits := rfl
@[simp] theorem State.wipe_servedAt (s : State) (lo hi : Nat) : (s.wipe lo hi).servedAt = s.servedAt := rfl
@[simp] theorem State.wipe_qfences (s : State) (lo hi : Nat) : (s.wipe lo hi).qfences = s.qfences := rfl
@[simp] theorem State.wipe_walks (s : State) (lo hi : Nat) : (s.wipe lo hi).walks = s.walks := rfl
@[simp] theorem State.wipe_answers (s : State) (lo hi : Nat) : (s.wipe lo hi).answers = s.answers := rfl
@[simp] theorem State.wipe_parties (s : State) (lo hi : Nat) : (s.wipe lo hi).parties = s.parties := rfl
@[simp] theorem State.wipe_images (s : State) (lo hi : Nat) : (s.wipe lo hi).images = s.images := rfl
@[simp] theorem State.wipe_groups (s : State) (lo hi : Nat) : (s.wipe lo hi).groups = s.groups := rfl
@[simp] theorem State.wipe_routes (s : State) (lo hi : Nat) : (s.wipe lo hi).routes = s.routes := rfl
@[simp] theorem State.wipe_stitched (s : State) (lo hi : Nat) : (s.wipe lo hi).stitched = s.stitched := rfl
@[simp] theorem State.wipe_unstitch (s : State) (lo hi : Nat) : (s.wipe lo hi).unstitch = s.unstitch := rfl
@[simp] theorem State.wipe_ports (s : State) (lo hi : Nat) : (s.wipe lo hi).ports = s.ports := rfl
@[simp] theorem State.wipe_badFrames (s : State) (lo hi : Nat) : (s.wipe lo hi).badFrames = s.badFrames := rfl
@[simp] theorem State.wipe_dropped (s : State) (lo hi : Nat) : (s.wipe lo hi).dropped = s.dropped := rfl
@[simp] theorem State.wipe_mlog (s : State) (lo hi : Nat) : (s.wipe lo hi).mlog = s.mlog := rfl
@[simp] theorem State.wipe_life (s : State) (lo hi : Nat) : (s.wipe lo hi).life = s.life := rfl
@[simp] theorem State.wipe_firmware (s : State) (lo hi : Nat) : (s.wipe lo hi).firmware = s.firmware := rfl
@[simp] theorem State.wipe_boot (s : State) (lo hi : Nat) : (s.wipe lo hi).boot = s.boot := rfl
@[simp] theorem State.wipe_seats (s : State) (lo hi : Nat) : (s.wipe lo hi).seats = s.seats := rfl
@[simp] theorem State.wipe_chans (s : State) (lo hi : Nat) : (s.wipe lo hi).chans = s.chans := rfl
@[simp] theorem State.wipe_journal (s : State) (lo hi : Nat) : (s.wipe lo hi).journal = s.journal := rfl
@[simp] theorem State.wipe_spdm (s : State) (lo hi : Nat) : (s.wipe lo hi).spdm = s.spdm := rfl
@[simp] theorem State.wipe_pwrcap (s : State) (lo hi : Nat) : (s.wipe lo hi).pwrcap = s.pwrcap := rfl
@[simp] theorem State.wipe_mbox (s : State) (lo hi : Nat) : (s.wipe lo hi).mbox = s.mbox := rfl
@[simp] theorem State.wipe_mboxFree (s : State) (lo hi : Nat) : (s.wipe lo hi).mboxFree = s.mboxFree := rfl
@[simp] theorem State.wipe_stopArea (s : State) (lo hi : Nat) : (s.wipe lo hi).stopArea = s.stopArea := rfl
@[simp] theorem State.wipe_reports (s : State) (lo hi : Nat) : (s.wipe lo hi).reports = s.reports := rfl
@[simp] theorem State.wipe_out (s : State) (lo hi : Nat) : (s.wipe lo hi).out = s.out := rfl
@[simp] theorem State.wipe_lastVf (s : State) (lo hi : Nat) : (s.wipe lo hi).lastVf = s.lastVf := rfl
@[simp] theorem State.wipe_accepted (s : State) (lo hi : Nat) : (s.wipe lo hi).accepted = s.accepted := rfl
@[simp] theorem State.wipe_recovery (s : State) (lo hi : Nat) : (s.wipe lo hi).recovery = s.recovery := rfl
@[simp] theorem State.wipe_agenda (s : State) (lo hi : Nat) : (s.wipe lo hi).agenda = s.agenda := rfl
@[simp] theorem State.wipe_rota (s : State) (lo hi : Nat) : (s.wipe lo hi).rota = s.rota := rfl
@[simp] theorem State.wipe_view (s : State) (lo hi : Nat) : (s.wipe lo hi).view = s.view := rfl
@[simp] theorem State.wipe_part (s : State) (lo hi : Nat) : (s.wipe lo hi).part = s.part := rfl
@[simp] theorem State.wipe_cur (s : State) (lo hi : Nat) : (s.wipe lo hi).cur = s.cur := rfl
@[simp] theorem State.wipe_ir (s : State) (lo hi : Nat) : (s.wipe lo hi).ir = s.ir := rfl
@[simp] theorem State.wipe_fresh (s : State) (lo hi : Nat) : (s.wipe lo hi).fresh = s.fresh := rfl

/-! ## countPkt -/

@[simp] theorem State.countPkt_mem (s : State) (core cls : Nat) (b : Bool) : (s.countPkt core cls b).mem = s.mem := by unfold State.countPkt; split <;> rfl
@[simp] theorem State.countPkt_poison (s : State) (core cls : Nat) (b : Bool) : (s.countPkt core cls b).poison = s.poison := by unfold State.countPkt; split <;> rfl
@[simp] theorem State.countPkt_keyTags (s : State) (core cls : Nat) (b : Bool) : (s.countPkt core cls b).keyTags = s.keyTags := by unfold State.countPkt; split <;> rfl
@[simp] theorem State.countPkt_clusters (s : State) (core cls : Nat) (b : Bool) : (s.countPkt core cls b).clusters = s.clusters := by unfold State.countPkt; split <;> rfl
@[simp] theorem State.countPkt_tenants (s : State) (core cls : Nat) (b : Bool) : (s.countPkt core cls b).tenants = s.tenants := by unfold State.countPkt; split <;> rfl
@[simp] theorem State.countPkt_keys (s : State) (core cls : Nat) (b : Bool) : (s.countPkt core cls b).keys = s.keys := by unfold State.countPkt; split <;> rfl
@[simp] theorem State.countPkt_capunits (s : State) (core cls : Nat) (b : Bool) : (s.countPkt core cls b).capunits = s.capunits := by unfold State.countPkt; split <;> rfl
@[simp] theorem State.countPkt_capmesh (s : State) (core cls : Nat) (b : Bool) : (s.countPkt core cls b).capmesh = s.capmesh := by unfold State.countPkt; split <;> rfl
@[simp] theorem State.countPkt_capfab (s : State) (core cls : Nat) (b : Bool) : (s.countPkt core cls b).capfab = s.capfab := by unfold State.countPkt; split <;> rfl
@[simp] theorem State.countPkt_capmap (s : State) (core cls : Nat) (b : Bool) : (s.countPkt core cls b).capmap = s.capmap := by unfold State.countPkt; split <;> rfl
@[simp] theorem State.countPkt_devloc (s : State) (core cls : Nat) (b : Bool) : (s.countPkt core cls b).devloc = s.devloc := by unfold State.countPkt; split <;> rfl
@[simp] theorem State.countPkt_cycle (s : State) (core cls : Nat) (b : Bool) : (s.countPkt core cls b).cycle = s.cycle := by unfold State.countPkt; split <;> rfl
@[simp] theorem State.countPkt_launches (s : State) (core cls : Nat) (b : Bool) : (s.countPkt core cls b).launches = s.launches := by unfold State.countPkt; split <;> rfl
@[simp] theorem State.countPkt_flights (s : State) (core cls : Nat) (b : Bool) : (s.countPkt core cls b).flights = s.flights := by unfold State.countPkt; split <;> rfl
@[simp] theorem State.countPkt_deposits (s : State) (core cls : Nat) (b : Bool) : (s.countPkt core cls b).deposits = s.deposits := by unfold State.countPkt; split <;> rfl
@[simp] theorem State.countPkt_servedAt (s : State) (core cls : Nat) (b : Bool) : (s.countPkt core cls b).servedAt = s.servedAt := by unfold State.countPkt; split <;> rfl
@[simp] theorem State.countPkt_qfences (s : State) (core cls : Nat) (b : Bool) : (s.countPkt core cls b).qfences = s.qfences := by unfold State.countPkt; split <;> rfl
@[simp] theorem State.countPkt_walks (s : State) (core cls : Nat) (b : Bool) : (s.countPkt core cls b).walks = s.walks := by unfold State.countPkt; split <;> rfl
@[simp] theorem State.countPkt_answers (s : State) (core cls : Nat) (b : Bool) : (s.countPkt core cls b).answers = s.answers := by unfold State.countPkt; split <;> rfl
@[simp] theorem State.countPkt_writes (s : State) (core cls : Nat) (b : Bool) : (s.countPkt core cls b).writes = s.writes := by unfold State.countPkt; split <;> rfl
@[simp] theorem State.countPkt_parties (s : State) (core cls : Nat) (b : Bool) : (s.countPkt core cls b).parties = s.parties := by unfold State.countPkt; split <;> rfl
@[simp] theorem State.countPkt_images (s : State) (core cls : Nat) (b : Bool) : (s.countPkt core cls b).images = s.images := by unfold State.countPkt; split <;> rfl
@[simp] theorem State.countPkt_groups (s : State) (core cls : Nat) (b : Bool) : (s.countPkt core cls b).groups = s.groups := by unfold State.countPkt; split <;> rfl
@[simp] theorem State.countPkt_routes (s : State) (core cls : Nat) (b : Bool) : (s.countPkt core cls b).routes = s.routes := by unfold State.countPkt; split <;> rfl
@[simp] theorem State.countPkt_stitched (s : State) (core cls : Nat) (b : Bool) : (s.countPkt core cls b).stitched = s.stitched := by unfold State.countPkt; split <;> rfl
@[simp] theorem State.countPkt_unstitch (s : State) (core cls : Nat) (b : Bool) : (s.countPkt core cls b).unstitch = s.unstitch := by unfold State.countPkt; split <;> rfl
@[simp] theorem State.countPkt_ports (s : State) (core cls : Nat) (b : Bool) : (s.countPkt core cls b).ports = s.ports := by unfold State.countPkt; split <;> rfl
@[simp] theorem State.countPkt_badFrames (s : State) (core cls : Nat) (b : Bool) : (s.countPkt core cls b).badFrames = s.badFrames := by unfold State.countPkt; split <;> rfl
@[simp] theorem State.countPkt_dropped (s : State) (core cls : Nat) (b : Bool) : (s.countPkt core cls b).dropped = s.dropped := by unfold State.countPkt; split <;> rfl
@[simp] theorem State.countPkt_mlog (s : State) (core cls : Nat) (b : Bool) : (s.countPkt core cls b).mlog = s.mlog := by unfold State.countPkt; split <;> rfl
@[simp] theorem State.countPkt_life (s : State) (core cls : Nat) (b : Bool) : (s.countPkt core cls b).life = s.life := by unfold State.countPkt; split <;> rfl
@[simp] theorem State.countPkt_firmware (s : State) (core cls : Nat) (b : Bool) : (s.countPkt core cls b).firmware = s.firmware := by unfold State.countPkt; split <;> rfl
@[simp] theorem State.countPkt_boot (s : State) (core cls : Nat) (b : Bool) : (s.countPkt core cls b).boot = s.boot := by unfold State.countPkt; split <;> rfl
@[simp] theorem State.countPkt_seats (s : State) (core cls : Nat) (b : Bool) : (s.countPkt core cls b).seats = s.seats := by unfold State.countPkt; split <;> rfl
@[simp] theorem State.countPkt_chans (s : State) (core cls : Nat) (b : Bool) : (s.countPkt core cls b).chans = s.chans := by unfold State.countPkt; split <;> rfl
@[simp] theorem State.countPkt_journal (s : State) (core cls : Nat) (b : Bool) : (s.countPkt core cls b).journal = s.journal := by unfold State.countPkt; split <;> rfl
@[simp] theorem State.countPkt_spdm (s : State) (core cls : Nat) (b : Bool) : (s.countPkt core cls b).spdm = s.spdm := by unfold State.countPkt; split <;> rfl
@[simp] theorem State.countPkt_pwrcap (s : State) (core cls : Nat) (b : Bool) : (s.countPkt core cls b).pwrcap = s.pwrcap := by unfold State.countPkt; split <;> rfl
@[simp] theorem State.countPkt_mbox (s : State) (core cls : Nat) (b : Bool) : (s.countPkt core cls b).mbox = s.mbox := by unfold State.countPkt; split <;> rfl
@[simp] theorem State.countPkt_mboxFree (s : State) (core cls : Nat) (b : Bool) : (s.countPkt core cls b).mboxFree = s.mboxFree := by unfold State.countPkt; split <;> rfl
@[simp] theorem State.countPkt_stopArea (s : State) (core cls : Nat) (b : Bool) : (s.countPkt core cls b).stopArea = s.stopArea := by unfold State.countPkt; split <;> rfl
@[simp] theorem State.countPkt_reports (s : State) (core cls : Nat) (b : Bool) : (s.countPkt core cls b).reports = s.reports := by unfold State.countPkt; split <;> rfl
@[simp] theorem State.countPkt_out (s : State) (core cls : Nat) (b : Bool) : (s.countPkt core cls b).out = s.out := by unfold State.countPkt; split <;> rfl
@[simp] theorem State.countPkt_lastVf (s : State) (core cls : Nat) (b : Bool) : (s.countPkt core cls b).lastVf = s.lastVf := by unfold State.countPkt; split <;> rfl
@[simp] theorem State.countPkt_accepted (s : State) (core cls : Nat) (b : Bool) : (s.countPkt core cls b).accepted = s.accepted := by unfold State.countPkt; split <;> rfl
@[simp] theorem State.countPkt_recovery (s : State) (core cls : Nat) (b : Bool) : (s.countPkt core cls b).recovery = s.recovery := by unfold State.countPkt; split <;> rfl
@[simp] theorem State.countPkt_agenda (s : State) (core cls : Nat) (b : Bool) : (s.countPkt core cls b).agenda = s.agenda := by unfold State.countPkt; split <;> rfl
@[simp] theorem State.countPkt_rota (s : State) (core cls : Nat) (b : Bool) : (s.countPkt core cls b).rota = s.rota := by unfold State.countPkt; split <;> rfl
@[simp] theorem State.countPkt_view (s : State) (core cls : Nat) (b : Bool) : (s.countPkt core cls b).view = s.view := by unfold State.countPkt; split <;> rfl
@[simp] theorem State.countPkt_part (s : State) (core cls : Nat) (b : Bool) : (s.countPkt core cls b).part = s.part := by unfold State.countPkt; split <;> rfl
@[simp] theorem State.countPkt_cur (s : State) (core cls : Nat) (b : Bool) : (s.countPkt core cls b).cur = s.cur := by unfold State.countPkt; split <;> rfl
@[simp] theorem State.countPkt_ir (s : State) (core cls : Nat) (b : Bool) : (s.countPkt core cls b).ir = s.ir := by unfold State.countPkt; split <;> rfl
@[simp] theorem State.countPkt_fresh (s : State) (core cls : Nat) (b : Bool) : (s.countPkt core cls b).fresh = s.fresh := by unfold State.countPkt; split <;> rfl

/-! ## acquire -/

@[simp] theorem State.acquire_mem (s : State) (q scope : Nat) (l : List (Nat × List Nat)) : (s.acquire q scope l).mem = s.mem := rfl
@[simp] theorem State.acquire_poison (s : State) (q scope : Nat) (l : List (Nat × List Nat)) : (s.acquire q scope l).poison = s.poison := rfl
@[simp] theorem State.acquire_keyTags (s : State) (q scope : Nat) (l : List (Nat × List Nat)) : (s.acquire q scope l).keyTags = s.keyTags := rfl
@[simp] theorem State.acquire_cores (s : State) (q scope : Nat) (l : List (Nat × List Nat)) : (s.acquire q scope l).cores = s.cores := rfl
@[simp] theorem State.acquire_clusters (s : State) (q scope : Nat) (l : List (Nat × List Nat)) : (s.acquire q scope l).clusters = s.clusters := rfl
@[simp] theorem State.acquire_tenants (s : State) (q scope : Nat) (l : List (Nat × List Nat)) : (s.acquire q scope l).tenants = s.tenants := rfl
@[simp] theorem State.acquire_keys (s : State) (q scope : Nat) (l : List (Nat × List Nat)) : (s.acquire q scope l).keys = s.keys := rfl
@[simp] theorem State.acquire_capunits (s : State) (q scope : Nat) (l : List (Nat × List Nat)) : (s.acquire q scope l).capunits = s.capunits := rfl
@[simp] theorem State.acquire_capmesh (s : State) (q scope : Nat) (l : List (Nat × List Nat)) : (s.acquire q scope l).capmesh = s.capmesh := rfl
@[simp] theorem State.acquire_capfab (s : State) (q scope : Nat) (l : List (Nat × List Nat)) : (s.acquire q scope l).capfab = s.capfab := rfl
@[simp] theorem State.acquire_capmap (s : State) (q scope : Nat) (l : List (Nat × List Nat)) : (s.acquire q scope l).capmap = s.capmap := rfl
@[simp] theorem State.acquire_devloc (s : State) (q scope : Nat) (l : List (Nat × List Nat)) : (s.acquire q scope l).devloc = s.devloc := rfl
@[simp] theorem State.acquire_cycle (s : State) (q scope : Nat) (l : List (Nat × List Nat)) : (s.acquire q scope l).cycle = s.cycle := rfl
@[simp] theorem State.acquire_launches (s : State) (q scope : Nat) (l : List (Nat × List Nat)) : (s.acquire q scope l).launches = s.launches := rfl
@[simp] theorem State.acquire_flights (s : State) (q scope : Nat) (l : List (Nat × List Nat)) : (s.acquire q scope l).flights = s.flights := rfl
@[simp] theorem State.acquire_deposits (s : State) (q scope : Nat) (l : List (Nat × List Nat)) : (s.acquire q scope l).deposits = s.deposits := rfl
@[simp] theorem State.acquire_servedAt (s : State) (q scope : Nat) (l : List (Nat × List Nat)) : (s.acquire q scope l).servedAt = s.servedAt := rfl
@[simp] theorem State.acquire_qfences (s : State) (q scope : Nat) (l : List (Nat × List Nat)) : (s.acquire q scope l).qfences = s.qfences := rfl
@[simp] theorem State.acquire_walks (s : State) (q scope : Nat) (l : List (Nat × List Nat)) : (s.acquire q scope l).walks = s.walks := rfl
@[simp] theorem State.acquire_answers (s : State) (q scope : Nat) (l : List (Nat × List Nat)) : (s.acquire q scope l).answers = s.answers := rfl
@[simp] theorem State.acquire_writes (s : State) (q scope : Nat) (l : List (Nat × List Nat)) : (s.acquire q scope l).writes = s.writes := rfl
@[simp] theorem State.acquire_images (s : State) (q scope : Nat) (l : List (Nat × List Nat)) : (s.acquire q scope l).images = s.images := rfl
@[simp] theorem State.acquire_groups (s : State) (q scope : Nat) (l : List (Nat × List Nat)) : (s.acquire q scope l).groups = s.groups := rfl
@[simp] theorem State.acquire_routes (s : State) (q scope : Nat) (l : List (Nat × List Nat)) : (s.acquire q scope l).routes = s.routes := rfl
@[simp] theorem State.acquire_stitched (s : State) (q scope : Nat) (l : List (Nat × List Nat)) : (s.acquire q scope l).stitched = s.stitched := rfl
@[simp] theorem State.acquire_unstitch (s : State) (q scope : Nat) (l : List (Nat × List Nat)) : (s.acquire q scope l).unstitch = s.unstitch := rfl
@[simp] theorem State.acquire_ports (s : State) (q scope : Nat) (l : List (Nat × List Nat)) : (s.acquire q scope l).ports = s.ports := rfl
@[simp] theorem State.acquire_badFrames (s : State) (q scope : Nat) (l : List (Nat × List Nat)) : (s.acquire q scope l).badFrames = s.badFrames := rfl
@[simp] theorem State.acquire_dropped (s : State) (q scope : Nat) (l : List (Nat × List Nat)) : (s.acquire q scope l).dropped = s.dropped := rfl
@[simp] theorem State.acquire_mlog (s : State) (q scope : Nat) (l : List (Nat × List Nat)) : (s.acquire q scope l).mlog = s.mlog := rfl
@[simp] theorem State.acquire_life (s : State) (q scope : Nat) (l : List (Nat × List Nat)) : (s.acquire q scope l).life = s.life := rfl
@[simp] theorem State.acquire_firmware (s : State) (q scope : Nat) (l : List (Nat × List Nat)) : (s.acquire q scope l).firmware = s.firmware := rfl
@[simp] theorem State.acquire_boot (s : State) (q scope : Nat) (l : List (Nat × List Nat)) : (s.acquire q scope l).boot = s.boot := rfl
@[simp] theorem State.acquire_seats (s : State) (q scope : Nat) (l : List (Nat × List Nat)) : (s.acquire q scope l).seats = s.seats := rfl
@[simp] theorem State.acquire_chans (s : State) (q scope : Nat) (l : List (Nat × List Nat)) : (s.acquire q scope l).chans = s.chans := rfl
@[simp] theorem State.acquire_journal (s : State) (q scope : Nat) (l : List (Nat × List Nat)) : (s.acquire q scope l).journal = s.journal := rfl
@[simp] theorem State.acquire_spdm (s : State) (q scope : Nat) (l : List (Nat × List Nat)) : (s.acquire q scope l).spdm = s.spdm := rfl
@[simp] theorem State.acquire_pwrcap (s : State) (q scope : Nat) (l : List (Nat × List Nat)) : (s.acquire q scope l).pwrcap = s.pwrcap := rfl
@[simp] theorem State.acquire_mbox (s : State) (q scope : Nat) (l : List (Nat × List Nat)) : (s.acquire q scope l).mbox = s.mbox := rfl
@[simp] theorem State.acquire_mboxFree (s : State) (q scope : Nat) (l : List (Nat × List Nat)) : (s.acquire q scope l).mboxFree = s.mboxFree := rfl
@[simp] theorem State.acquire_stopArea (s : State) (q scope : Nat) (l : List (Nat × List Nat)) : (s.acquire q scope l).stopArea = s.stopArea := rfl
@[simp] theorem State.acquire_reports (s : State) (q scope : Nat) (l : List (Nat × List Nat)) : (s.acquire q scope l).reports = s.reports := rfl
@[simp] theorem State.acquire_out (s : State) (q scope : Nat) (l : List (Nat × List Nat)) : (s.acquire q scope l).out = s.out := rfl
@[simp] theorem State.acquire_lastVf (s : State) (q scope : Nat) (l : List (Nat × List Nat)) : (s.acquire q scope l).lastVf = s.lastVf := rfl
@[simp] theorem State.acquire_accepted (s : State) (q scope : Nat) (l : List (Nat × List Nat)) : (s.acquire q scope l).accepted = s.accepted := rfl
@[simp] theorem State.acquire_recovery (s : State) (q scope : Nat) (l : List (Nat × List Nat)) : (s.acquire q scope l).recovery = s.recovery := rfl
@[simp] theorem State.acquire_agenda (s : State) (q scope : Nat) (l : List (Nat × List Nat)) : (s.acquire q scope l).agenda = s.agenda := rfl
@[simp] theorem State.acquire_rota (s : State) (q scope : Nat) (l : List (Nat × List Nat)) : (s.acquire q scope l).rota = s.rota := rfl
@[simp] theorem State.acquire_view (s : State) (q scope : Nat) (l : List (Nat × List Nat)) : (s.acquire q scope l).view = s.view := rfl
@[simp] theorem State.acquire_part (s : State) (q scope : Nat) (l : List (Nat × List Nat)) : (s.acquire q scope l).part = s.part := rfl
@[simp] theorem State.acquire_cur (s : State) (q scope : Nat) (l : List (Nat × List Nat)) : (s.acquire q scope l).cur = s.cur := rfl
@[simp] theorem State.acquire_ir (s : State) (q scope : Nat) (l : List (Nat × List Nat)) : (s.acquire q scope l).ir = s.ir := rfl
@[simp] theorem State.acquire_fresh (s : State) (q scope : Nat) (l : List (Nat × List Nat)) : (s.acquire q scope l).fresh = s.fresh := rfl

/-! ## acquireIds -/

@[simp] theorem State.acquireIds_mem (s : State) (q : Nat) (l : List Nat) : (s.acquireIds q l).mem = s.mem := rfl
@[simp] theorem State.acquireIds_poison (s : State) (q : Nat) (l : List Nat) : (s.acquireIds q l).poison = s.poison := rfl
@[simp] theorem State.acquireIds_keyTags (s : State) (q : Nat) (l : List Nat) : (s.acquireIds q l).keyTags = s.keyTags := rfl
@[simp] theorem State.acquireIds_cores (s : State) (q : Nat) (l : List Nat) : (s.acquireIds q l).cores = s.cores := rfl
@[simp] theorem State.acquireIds_clusters (s : State) (q : Nat) (l : List Nat) : (s.acquireIds q l).clusters = s.clusters := rfl
@[simp] theorem State.acquireIds_tenants (s : State) (q : Nat) (l : List Nat) : (s.acquireIds q l).tenants = s.tenants := rfl
@[simp] theorem State.acquireIds_keys (s : State) (q : Nat) (l : List Nat) : (s.acquireIds q l).keys = s.keys := rfl
@[simp] theorem State.acquireIds_capunits (s : State) (q : Nat) (l : List Nat) : (s.acquireIds q l).capunits = s.capunits := rfl
@[simp] theorem State.acquireIds_capmesh (s : State) (q : Nat) (l : List Nat) : (s.acquireIds q l).capmesh = s.capmesh := rfl
@[simp] theorem State.acquireIds_capfab (s : State) (q : Nat) (l : List Nat) : (s.acquireIds q l).capfab = s.capfab := rfl
@[simp] theorem State.acquireIds_capmap (s : State) (q : Nat) (l : List Nat) : (s.acquireIds q l).capmap = s.capmap := rfl
@[simp] theorem State.acquireIds_devloc (s : State) (q : Nat) (l : List Nat) : (s.acquireIds q l).devloc = s.devloc := rfl
@[simp] theorem State.acquireIds_cycle (s : State) (q : Nat) (l : List Nat) : (s.acquireIds q l).cycle = s.cycle := rfl
@[simp] theorem State.acquireIds_launches (s : State) (q : Nat) (l : List Nat) : (s.acquireIds q l).launches = s.launches := rfl
@[simp] theorem State.acquireIds_flights (s : State) (q : Nat) (l : List Nat) : (s.acquireIds q l).flights = s.flights := rfl
@[simp] theorem State.acquireIds_deposits (s : State) (q : Nat) (l : List Nat) : (s.acquireIds q l).deposits = s.deposits := rfl
@[simp] theorem State.acquireIds_servedAt (s : State) (q : Nat) (l : List Nat) : (s.acquireIds q l).servedAt = s.servedAt := rfl
@[simp] theorem State.acquireIds_qfences (s : State) (q : Nat) (l : List Nat) : (s.acquireIds q l).qfences = s.qfences := rfl
@[simp] theorem State.acquireIds_walks (s : State) (q : Nat) (l : List Nat) : (s.acquireIds q l).walks = s.walks := rfl
@[simp] theorem State.acquireIds_answers (s : State) (q : Nat) (l : List Nat) : (s.acquireIds q l).answers = s.answers := rfl
@[simp] theorem State.acquireIds_writes (s : State) (q : Nat) (l : List Nat) : (s.acquireIds q l).writes = s.writes := rfl
@[simp] theorem State.acquireIds_images (s : State) (q : Nat) (l : List Nat) : (s.acquireIds q l).images = s.images := rfl
@[simp] theorem State.acquireIds_groups (s : State) (q : Nat) (l : List Nat) : (s.acquireIds q l).groups = s.groups := rfl
@[simp] theorem State.acquireIds_routes (s : State) (q : Nat) (l : List Nat) : (s.acquireIds q l).routes = s.routes := rfl
@[simp] theorem State.acquireIds_stitched (s : State) (q : Nat) (l : List Nat) : (s.acquireIds q l).stitched = s.stitched := rfl
@[simp] theorem State.acquireIds_unstitch (s : State) (q : Nat) (l : List Nat) : (s.acquireIds q l).unstitch = s.unstitch := rfl
@[simp] theorem State.acquireIds_ports (s : State) (q : Nat) (l : List Nat) : (s.acquireIds q l).ports = s.ports := rfl
@[simp] theorem State.acquireIds_badFrames (s : State) (q : Nat) (l : List Nat) : (s.acquireIds q l).badFrames = s.badFrames := rfl
@[simp] theorem State.acquireIds_dropped (s : State) (q : Nat) (l : List Nat) : (s.acquireIds q l).dropped = s.dropped := rfl
@[simp] theorem State.acquireIds_mlog (s : State) (q : Nat) (l : List Nat) : (s.acquireIds q l).mlog = s.mlog := rfl
@[simp] theorem State.acquireIds_life (s : State) (q : Nat) (l : List Nat) : (s.acquireIds q l).life = s.life := rfl
@[simp] theorem State.acquireIds_firmware (s : State) (q : Nat) (l : List Nat) : (s.acquireIds q l).firmware = s.firmware := rfl
@[simp] theorem State.acquireIds_boot (s : State) (q : Nat) (l : List Nat) : (s.acquireIds q l).boot = s.boot := rfl
@[simp] theorem State.acquireIds_seats (s : State) (q : Nat) (l : List Nat) : (s.acquireIds q l).seats = s.seats := rfl
@[simp] theorem State.acquireIds_chans (s : State) (q : Nat) (l : List Nat) : (s.acquireIds q l).chans = s.chans := rfl
@[simp] theorem State.acquireIds_journal (s : State) (q : Nat) (l : List Nat) : (s.acquireIds q l).journal = s.journal := rfl
@[simp] theorem State.acquireIds_spdm (s : State) (q : Nat) (l : List Nat) : (s.acquireIds q l).spdm = s.spdm := rfl
@[simp] theorem State.acquireIds_pwrcap (s : State) (q : Nat) (l : List Nat) : (s.acquireIds q l).pwrcap = s.pwrcap := rfl
@[simp] theorem State.acquireIds_mbox (s : State) (q : Nat) (l : List Nat) : (s.acquireIds q l).mbox = s.mbox := rfl
@[simp] theorem State.acquireIds_mboxFree (s : State) (q : Nat) (l : List Nat) : (s.acquireIds q l).mboxFree = s.mboxFree := rfl
@[simp] theorem State.acquireIds_stopArea (s : State) (q : Nat) (l : List Nat) : (s.acquireIds q l).stopArea = s.stopArea := rfl
@[simp] theorem State.acquireIds_reports (s : State) (q : Nat) (l : List Nat) : (s.acquireIds q l).reports = s.reports := rfl
@[simp] theorem State.acquireIds_out (s : State) (q : Nat) (l : List Nat) : (s.acquireIds q l).out = s.out := rfl
@[simp] theorem State.acquireIds_lastVf (s : State) (q : Nat) (l : List Nat) : (s.acquireIds q l).lastVf = s.lastVf := rfl
@[simp] theorem State.acquireIds_accepted (s : State) (q : Nat) (l : List Nat) : (s.acquireIds q l).accepted = s.accepted := rfl
@[simp] theorem State.acquireIds_recovery (s : State) (q : Nat) (l : List Nat) : (s.acquireIds q l).recovery = s.recovery := rfl
@[simp] theorem State.acquireIds_agenda (s : State) (q : Nat) (l : List Nat) : (s.acquireIds q l).agenda = s.agenda := rfl
@[simp] theorem State.acquireIds_rota (s : State) (q : Nat) (l : List Nat) : (s.acquireIds q l).rota = s.rota := rfl
@[simp] theorem State.acquireIds_view (s : State) (q : Nat) (l : List Nat) : (s.acquireIds q l).view = s.view := rfl
@[simp] theorem State.acquireIds_part (s : State) (q : Nat) (l : List Nat) : (s.acquireIds q l).part = s.part := rfl
@[simp] theorem State.acquireIds_cur (s : State) (q : Nat) (l : List Nat) : (s.acquireIds q l).cur = s.cur := rfl
@[simp] theorem State.acquireIds_ir (s : State) (q : Nat) (l : List Nat) : (s.acquireIds q l).ir = s.ir := rfl
@[simp] theorem State.acquireIds_fresh (s : State) (q : Nat) (l : List Nat) : (s.acquireIds q l).fresh = s.fresh := rfl

/-! ## done -/

@[simp] theorem State.done_mem (s : State) (f : Slot → Slot) : (s.done f).mem = s.mem := rfl
@[simp] theorem State.done_poison (s : State) (f : Slot → Slot) : (s.done f).poison = s.poison := rfl
@[simp] theorem State.done_keyTags (s : State) (f : Slot → Slot) : (s.done f).keyTags = s.keyTags := rfl
@[simp] theorem State.done_clusters (s : State) (f : Slot → Slot) : (s.done f).clusters = s.clusters := rfl
@[simp] theorem State.done_tenants (s : State) (f : Slot → Slot) : (s.done f).tenants = s.tenants := rfl
@[simp] theorem State.done_keys (s : State) (f : Slot → Slot) : (s.done f).keys = s.keys := rfl
@[simp] theorem State.done_capunits (s : State) (f : Slot → Slot) : (s.done f).capunits = s.capunits := rfl
@[simp] theorem State.done_capmesh (s : State) (f : Slot → Slot) : (s.done f).capmesh = s.capmesh := rfl
@[simp] theorem State.done_capfab (s : State) (f : Slot → Slot) : (s.done f).capfab = s.capfab := rfl
@[simp] theorem State.done_capmap (s : State) (f : Slot → Slot) : (s.done f).capmap = s.capmap := rfl
@[simp] theorem State.done_devloc (s : State) (f : Slot → Slot) : (s.done f).devloc = s.devloc := rfl
@[simp] theorem State.done_cycle (s : State) (f : Slot → Slot) : (s.done f).cycle = s.cycle := rfl
@[simp] theorem State.done_launches (s : State) (f : Slot → Slot) : (s.done f).launches = s.launches := rfl
@[simp] theorem State.done_flights (s : State) (f : Slot → Slot) : (s.done f).flights = s.flights := rfl
@[simp] theorem State.done_deposits (s : State) (f : Slot → Slot) : (s.done f).deposits = s.deposits := rfl
@[simp] theorem State.done_servedAt (s : State) (f : Slot → Slot) : (s.done f).servedAt = s.servedAt := rfl
@[simp] theorem State.done_qfences (s : State) (f : Slot → Slot) : (s.done f).qfences = s.qfences := rfl
@[simp] theorem State.done_walks (s : State) (f : Slot → Slot) : (s.done f).walks = s.walks := rfl
@[simp] theorem State.done_answers (s : State) (f : Slot → Slot) : (s.done f).answers = s.answers := rfl
@[simp] theorem State.done_writes (s : State) (f : Slot → Slot) : (s.done f).writes = s.writes := rfl
@[simp] theorem State.done_parties (s : State) (f : Slot → Slot) : (s.done f).parties = s.parties := rfl
@[simp] theorem State.done_images (s : State) (f : Slot → Slot) : (s.done f).images = s.images := rfl
@[simp] theorem State.done_groups (s : State) (f : Slot → Slot) : (s.done f).groups = s.groups := rfl
@[simp] theorem State.done_routes (s : State) (f : Slot → Slot) : (s.done f).routes = s.routes := rfl
@[simp] theorem State.done_stitched (s : State) (f : Slot → Slot) : (s.done f).stitched = s.stitched := rfl
@[simp] theorem State.done_unstitch (s : State) (f : Slot → Slot) : (s.done f).unstitch = s.unstitch := rfl
@[simp] theorem State.done_ports (s : State) (f : Slot → Slot) : (s.done f).ports = s.ports := rfl
@[simp] theorem State.done_badFrames (s : State) (f : Slot → Slot) : (s.done f).badFrames = s.badFrames := rfl
@[simp] theorem State.done_dropped (s : State) (f : Slot → Slot) : (s.done f).dropped = s.dropped := rfl
@[simp] theorem State.done_mlog (s : State) (f : Slot → Slot) : (s.done f).mlog = s.mlog := rfl
@[simp] theorem State.done_life (s : State) (f : Slot → Slot) : (s.done f).life = s.life := rfl
@[simp] theorem State.done_firmware (s : State) (f : Slot → Slot) : (s.done f).firmware = s.firmware := rfl
@[simp] theorem State.done_boot (s : State) (f : Slot → Slot) : (s.done f).boot = s.boot := rfl
@[simp] theorem State.done_seats (s : State) (f : Slot → Slot) : (s.done f).seats = s.seats := rfl
@[simp] theorem State.done_chans (s : State) (f : Slot → Slot) : (s.done f).chans = s.chans := rfl
@[simp] theorem State.done_journal (s : State) (f : Slot → Slot) : (s.done f).journal = s.journal := rfl
@[simp] theorem State.done_spdm (s : State) (f : Slot → Slot) : (s.done f).spdm = s.spdm := rfl
@[simp] theorem State.done_pwrcap (s : State) (f : Slot → Slot) : (s.done f).pwrcap = s.pwrcap := rfl
@[simp] theorem State.done_mbox (s : State) (f : Slot → Slot) : (s.done f).mbox = s.mbox := rfl
@[simp] theorem State.done_mboxFree (s : State) (f : Slot → Slot) : (s.done f).mboxFree = s.mboxFree := rfl
@[simp] theorem State.done_stopArea (s : State) (f : Slot → Slot) : (s.done f).stopArea = s.stopArea := rfl
@[simp] theorem State.done_reports (s : State) (f : Slot → Slot) : (s.done f).reports = s.reports := rfl
@[simp] theorem State.done_out (s : State) (f : Slot → Slot) : (s.done f).out = s.out := rfl
@[simp] theorem State.done_lastVf (s : State) (f : Slot → Slot) : (s.done f).lastVf = s.lastVf := rfl
@[simp] theorem State.done_accepted (s : State) (f : Slot → Slot) : (s.done f).accepted = s.accepted := rfl
@[simp] theorem State.done_recovery (s : State) (f : Slot → Slot) : (s.done f).recovery = s.recovery := rfl
@[simp] theorem State.done_agenda (s : State) (f : Slot → Slot) : (s.done f).agenda = s.agenda := rfl
@[simp] theorem State.done_rota (s : State) (f : Slot → Slot) : (s.done f).rota = s.rota := rfl
@[simp] theorem State.done_view (s : State) (f : Slot → Slot) : (s.done f).view = s.view := rfl
@[simp] theorem State.done_part (s : State) (f : Slot → Slot) : (s.done f).part = s.part := rfl
@[simp] theorem State.done_cur (s : State) (f : Slot → Slot) : (s.done f).cur = s.cur := rfl
@[simp] theorem State.done_ir (s : State) (f : Slot → Slot) : (s.done f).ir = s.ir := rfl
@[simp] theorem State.done_fresh (s : State) (f : Slot → Slot) : (s.done f).fresh = s.fresh := rfl

/-! ## setD -/

@[simp] theorem State.setD_mem (s : State) (d : Reg) (v : Word) : (s.setD d v).mem = s.mem := rfl
@[simp] theorem State.setD_poison (s : State) (d : Reg) (v : Word) : (s.setD d v).poison = s.poison := rfl
@[simp] theorem State.setD_keyTags (s : State) (d : Reg) (v : Word) : (s.setD d v).keyTags = s.keyTags := rfl
@[simp] theorem State.setD_clusters (s : State) (d : Reg) (v : Word) : (s.setD d v).clusters = s.clusters := rfl
@[simp] theorem State.setD_tenants (s : State) (d : Reg) (v : Word) : (s.setD d v).tenants = s.tenants := rfl
@[simp] theorem State.setD_keys (s : State) (d : Reg) (v : Word) : (s.setD d v).keys = s.keys := rfl
@[simp] theorem State.setD_capunits (s : State) (d : Reg) (v : Word) : (s.setD d v).capunits = s.capunits := rfl
@[simp] theorem State.setD_capmesh (s : State) (d : Reg) (v : Word) : (s.setD d v).capmesh = s.capmesh := rfl
@[simp] theorem State.setD_capfab (s : State) (d : Reg) (v : Word) : (s.setD d v).capfab = s.capfab := rfl
@[simp] theorem State.setD_capmap (s : State) (d : Reg) (v : Word) : (s.setD d v).capmap = s.capmap := rfl
@[simp] theorem State.setD_devloc (s : State) (d : Reg) (v : Word) : (s.setD d v).devloc = s.devloc := rfl
@[simp] theorem State.setD_cycle (s : State) (d : Reg) (v : Word) : (s.setD d v).cycle = s.cycle := rfl
@[simp] theorem State.setD_launches (s : State) (d : Reg) (v : Word) : (s.setD d v).launches = s.launches := rfl
@[simp] theorem State.setD_flights (s : State) (d : Reg) (v : Word) : (s.setD d v).flights = s.flights := rfl
@[simp] theorem State.setD_deposits (s : State) (d : Reg) (v : Word) : (s.setD d v).deposits = s.deposits := rfl
@[simp] theorem State.setD_servedAt (s : State) (d : Reg) (v : Word) : (s.setD d v).servedAt = s.servedAt := rfl
@[simp] theorem State.setD_qfences (s : State) (d : Reg) (v : Word) : (s.setD d v).qfences = s.qfences := rfl
@[simp] theorem State.setD_walks (s : State) (d : Reg) (v : Word) : (s.setD d v).walks = s.walks := rfl
@[simp] theorem State.setD_answers (s : State) (d : Reg) (v : Word) : (s.setD d v).answers = s.answers := rfl
@[simp] theorem State.setD_writes (s : State) (d : Reg) (v : Word) : (s.setD d v).writes = s.writes := rfl
@[simp] theorem State.setD_parties (s : State) (d : Reg) (v : Word) : (s.setD d v).parties = s.parties := rfl
@[simp] theorem State.setD_images (s : State) (d : Reg) (v : Word) : (s.setD d v).images = s.images := rfl
@[simp] theorem State.setD_groups (s : State) (d : Reg) (v : Word) : (s.setD d v).groups = s.groups := rfl
@[simp] theorem State.setD_routes (s : State) (d : Reg) (v : Word) : (s.setD d v).routes = s.routes := rfl
@[simp] theorem State.setD_stitched (s : State) (d : Reg) (v : Word) : (s.setD d v).stitched = s.stitched := rfl
@[simp] theorem State.setD_unstitch (s : State) (d : Reg) (v : Word) : (s.setD d v).unstitch = s.unstitch := rfl
@[simp] theorem State.setD_ports (s : State) (d : Reg) (v : Word) : (s.setD d v).ports = s.ports := rfl
@[simp] theorem State.setD_badFrames (s : State) (d : Reg) (v : Word) : (s.setD d v).badFrames = s.badFrames := rfl
@[simp] theorem State.setD_dropped (s : State) (d : Reg) (v : Word) : (s.setD d v).dropped = s.dropped := rfl
@[simp] theorem State.setD_mlog (s : State) (d : Reg) (v : Word) : (s.setD d v).mlog = s.mlog := rfl
@[simp] theorem State.setD_life (s : State) (d : Reg) (v : Word) : (s.setD d v).life = s.life := rfl
@[simp] theorem State.setD_firmware (s : State) (d : Reg) (v : Word) : (s.setD d v).firmware = s.firmware := rfl
@[simp] theorem State.setD_boot (s : State) (d : Reg) (v : Word) : (s.setD d v).boot = s.boot := rfl
@[simp] theorem State.setD_seats (s : State) (d : Reg) (v : Word) : (s.setD d v).seats = s.seats := rfl
@[simp] theorem State.setD_chans (s : State) (d : Reg) (v : Word) : (s.setD d v).chans = s.chans := rfl
@[simp] theorem State.setD_journal (s : State) (d : Reg) (v : Word) : (s.setD d v).journal = s.journal := rfl
@[simp] theorem State.setD_spdm (s : State) (d : Reg) (v : Word) : (s.setD d v).spdm = s.spdm := rfl
@[simp] theorem State.setD_pwrcap (s : State) (d : Reg) (v : Word) : (s.setD d v).pwrcap = s.pwrcap := rfl
@[simp] theorem State.setD_mbox (s : State) (d : Reg) (v : Word) : (s.setD d v).mbox = s.mbox := rfl
@[simp] theorem State.setD_mboxFree (s : State) (d : Reg) (v : Word) : (s.setD d v).mboxFree = s.mboxFree := rfl
@[simp] theorem State.setD_stopArea (s : State) (d : Reg) (v : Word) : (s.setD d v).stopArea = s.stopArea := rfl
@[simp] theorem State.setD_reports (s : State) (d : Reg) (v : Word) : (s.setD d v).reports = s.reports := rfl
@[simp] theorem State.setD_out (s : State) (d : Reg) (v : Word) : (s.setD d v).out = s.out := rfl
@[simp] theorem State.setD_lastVf (s : State) (d : Reg) (v : Word) : (s.setD d v).lastVf = s.lastVf := rfl
@[simp] theorem State.setD_accepted (s : State) (d : Reg) (v : Word) : (s.setD d v).accepted = s.accepted := rfl
@[simp] theorem State.setD_recovery (s : State) (d : Reg) (v : Word) : (s.setD d v).recovery = s.recovery := rfl
@[simp] theorem State.setD_agenda (s : State) (d : Reg) (v : Word) : (s.setD d v).agenda = s.agenda := rfl
@[simp] theorem State.setD_rota (s : State) (d : Reg) (v : Word) : (s.setD d v).rota = s.rota := rfl
@[simp] theorem State.setD_view (s : State) (d : Reg) (v : Word) : (s.setD d v).view = s.view := rfl
@[simp] theorem State.setD_part (s : State) (d : Reg) (v : Word) : (s.setD d v).part = s.part := rfl
@[simp] theorem State.setD_cur (s : State) (d : Reg) (v : Word) : (s.setD d v).cur = s.cur := rfl
@[simp] theorem State.setD_ir (s : State) (d : Reg) (v : Word) : (s.setD d v).ir = s.ir := rfl
@[simp] theorem State.setD_fresh (s : State) (d : Reg) (v : Word) : (s.setD d v).fresh = s.fresh := rfl

end Sys2Proof.Machine
end

