-- ==== Sys2Proof/Laws/Tables.lean ====
section
/-! SUPPORT. Sparse tables: what a put leaves at each key. -/

namespace Sys2Proof.Machine

variable {α : Type}

@[simp] theorem AMap.get_nil (d : α) (a : Nat) : AMap.get d [] a = d := rfl

/-- A key reads what was put at it. -/
@[simp] theorem AMap.get_put_same (d v : α) (m : AMap α) (a : Nat) : AMap.get d (m.put a v) a = v := by
  induction m with
  | nil => simp [AMap.put, AMap.get]
  | cons e m ih =>
    obtain ⟨k, w⟩ := e
    simp only [AMap.put]
    split
    · simp [AMap.get]
    · split
      · simp [AMap.get]
      · next h1 h2 => simp [AMap.get, ih, show ¬ k = a by omega]

/-- Any other key reads what it read. -/
theorem AMap.get_put_ne (d v : α) (m : AMap α) {a b : Nat} (h : b ≠ a) : AMap.get d (m.put a v) b = AMap.get d m b := by
  induction m with
  | nil => simp [AMap.put, AMap.get, Ne.symm h]
  | cons e m ih =>
    obtain ⟨k, w⟩ := e
    simp only [AMap.put]
    split
    · simp [AMap.get, Ne.symm h]
    · split
      · next h2 => subst h2; simp [AMap.get, Ne.symm h]
      · simp [AMap.get, ih]

/-- The later of two puts at a key stands. -/
@[simp] theorem AMap.put_put (v w : α) (m : AMap α) (a : Nat) : AMap.put (AMap.put m a v) a w = AMap.put m a w := by
  induction m with
  | nil => simp [AMap.put]
  | cons e m ih =>
    obtain ⟨k, x⟩ := e
    by_cases h1 : a < k
    · simp [AMap.put, h1]
    · by_cases h2 : a = k
      · simp [AMap.put, h2]
      · simp [AMap.put, h1, h2, ih]

end Sys2Proof.Machine
end

