-- ==== Sys2Proof/Laws/Slots.lean ====
section
/-! SUPPORT. Cores, slots and scalar registers: what an update of one leaves of each. -/

namespace Sys2Proof.Machine

@[simp] theorem State.core_setCore_same (s : State) (k : Nat) (c : Core) : (s.setCore k c).core k = c := by
  simp [State.core]

theorem State.core_setCore_ne (s : State) {k j : Nat} (c : Core) (h : j ≠ k) : (s.setCore k c).core j = s.core j := by
  simp [State.core, AMap.get_put_ne _ _ _ h]

@[simp] theorem State.setCore_setCore (s : State) (k : Nat) (c d : Core) : (s.setCore k c).setCore k d = s.setCore k d := by
  simp [State.setCore]

/-- A slot reads what was set. -/
theorem Core.slot_setSlot_same (c : Core) (x : Slot) {n : Nat} (h : n < 4) : (c.setSlot n x).slot n = x := by
  simp [Core.slot, Core.setSlot, Vector.toList, h]

/-- Any other slot reads what it read. -/
theorem Core.slot_setSlot_ne (c : Core) (x : Slot) {n m : Nat} (h : m ≠ n) : (c.setSlot n x).slot m = c.slot m := by
  simp [Core.slot, Core.setSlot, Vector.toList, Ne.symm h]

@[simp] theorem Core.setSlot_setSlot (c : Core) (n : Nat) (x y : Slot) : (c.setSlot n x).setSlot n y = c.setSlot n y := by
  simp [Core.setSlot, Vector.setIfInBounds]

/-- A slot reads what was set. -/
theorem State.slot_setSlot_same (s : State) (r : SlotRef) (x : Slot) (h : r.slot < 4) : (s.setSlot r x).slot r = x := by
  simp [State.slot, State.setSlot, Core.slot_setSlot_same _ _ h]

/-- Any other slot reads what it read. -/
theorem State.slot_setSlot_ne (s : State) {r q : SlotRef} (x : Slot) (h : q ≠ r) : (s.setSlot r x).slot q = s.slot q := by
  by_cases hc : q.core = r.core
  · have hn : q.slot ≠ r.slot := fun e => h (by cases q; cases r; simp_all)
    simp [State.slot, State.setSlot, hc, Core.slot_setSlot_ne _ _ hn]
  · simp [State.slot, State.setSlot, State.core_setCore_ne _ _ hc]

@[simp] theorem State.setSlot_setSlot (s : State) (r : SlotRef) (x y : Slot) : (s.setSlot r x).setSlot r y = s.setSlot r y := by
  simp only [State.setSlot, State.core_setCore_same, Core.setSlot_setSlot, State.setCore_setCore]

/-! ## Scalar registers (R219, R220) -/

/-- s0 reads 0. -/
@[simp] theorem Slot.rd_zero (x : Slot) : x.rd 0#5 = 0#64 := by simp [Slot.rd]

/-- s0 is full. -/
@[simp] theorem Slot.isFull_zero (x : Slot) : x.isFull 0#5 = true := by simp [Slot.isFull]

/-- A register reads what was written; s0 keeps reading 0. -/
theorem Slot.rd_wr_same (x : Slot) (r : Reg) (v : Word) : (x.wr r v).rd r = if r = 0#5 then 0#64 else v := by
  by_cases h : r = 0#5
  · simp [Slot.rd, h]
  · simp [Slot.rd, Slot.wr, h, Vector.toList, show r.toNat < 32 from r.isLt]

/-- Any other register reads what it read. -/
theorem Slot.rd_wr_ne (x : Slot) {r q : Reg} (v : Word) (h : q ≠ r) : (x.wr r v).rd q = x.rd q := by
  by_cases hr : r = 0#5
  · simp [Slot.wr, hr]
  · have hn : r.toNat ≠ q.toNat := fun e => h (BitVec.eq_of_toNat_eq e.symm)
    by_cases hq : q = 0#5
    · simp [Slot.rd, hq]
    · simp [Slot.rd, Slot.wr, hr, hq, Vector.toList, hn]

@[simp] theorem Slot.rd_setFull (x : Slot) (r q : Reg) (b : Bool) : (x.setFull r b).rd q = x.rd q := by
  unfold Slot.setFull; split
  · rfl
  · split <;> rfl

@[simp] theorem Slot.isFull_wr (x : Slot) (r q : Reg) (v : Word) : (x.wr r v).isFull q = x.isFull q := by
  unfold Slot.wr; split <;> rfl

/-- The full bit that was set or cleared; that of s0 stays set. -/
theorem Slot.isFull_setFull_same (x : Slot) (r : Reg) (b : Bool) : (x.setFull r b).isFull r = (r == 0#5 || b) := by
  by_cases h : r = 0#5
  · simp [Slot.isFull, h]
  · cases b <;> simp [Slot.isFull, Slot.setFull, h, show r.toNat < 32 from r.isLt]

/-- Any other full bit stands. -/
theorem Slot.isFull_setFull_ne (x : Slot) {r q : Reg} (b : Bool) (h : q ≠ r) : (x.setFull r b).isFull q = x.isFull q := by
  have hn : ¬ q.toNat = r.toNat := fun e => h (BitVec.eq_of_toNat_eq e)
  by_cases hr : r = 0#5
  · simp [Slot.setFull, hr]
  · cases b <;> simp [Slot.isFull, Slot.setFull, hr, hn, show q.toNat < 32 from q.isLt]

/-- A result that lands is read back; s0 keeps reading 0. -/
theorem Slot.rd_setS_same (x : Slot) (r : Reg) (v : Word) : (x.setS r v).rd r = if r = 0#5 then 0#64 else v := by
  simp [Slot.setS, Slot.rd_wr_same]

theorem Slot.rd_setS_ne (x : Slot) {r q : Reg} (v : Word) (h : q ≠ r) : (x.setS r v).rd q = x.rd q := by
  simp [Slot.setS, Slot.rd_wr_ne _ _ h]

@[simp] theorem Slot.isFull_setS_same (x : Slot) (r : Reg) (v : Word) : (x.setS r v).isFull r = true := by
  simp [Slot.setS, Slot.isFull_setFull_same]

theorem Slot.isFull_setS_ne (x : Slot) {r q : Reg} (v : Word) (h : q ≠ r) : (x.setS r v).isFull q = x.isFull q := by
  simp [Slot.setS, Slot.isFull_setFull_ne _ _ h]

end Sys2Proof.Machine
end

