-- ==== Sys2Proof/Laws/Issue.lean ====
section
/-! SUPPORT. Issue: what an instruction whose sources are full does, and what retiring leaves. -/

namespace Sys2Proof.Machine

/-- Full sources let the instruction go. -/
theorem Slot.sources_go (x : Slot) (src : List (Reg × Bool)) (h : ∀ p ∈ src, x.isFull p.1 = true) : x.sources src = .go := by
  induction src with
  | nil => rfl
  | cons p src ih =>
    obtain ⟨r, t⟩ := p
    have hr := h (r, t) (by simp)
    simp only [Slot.sources, hr, if_true]
    exact ih fun p hp => h p (by simp [hp])

/-- An instruction that is ready goes on with its values consumed, or without them when it does not go on (R345). -/
theorem State.issue_ready (s : State) (src : List (Reg × Bool)) (dst : List Reg) (k : State → State)
    (h : s.Ready (src.map (·.1)) dst) :
    s.issue src dst k = if s.sl.goneOn (k (s.consume src)).sl then k (s.consume src) else k s := by
  have hs : s.sl.sources src = .go := Slot.sources_go _ _ fun p hp => h.full p.1 (List.mem_map_of_mem hp)
  have hd : dst.any (s.producing s.cur) = false := by
    simpa using h.free
  simp [State.issue, hs, hd]

/-- An instruction that is ready and retires has consumed its values. -/
theorem State.issue_retires (s : State) (src : List (Reg × Bool)) (dst : List Reg) (k : State → State)
    (h : s.Ready (src.map (·.1)) dst) (hr : (k (s.consume src)).sl.retired = s.sl.retired + 1#64) :
    s.issue src dst k = k (s.consume src) := by
  simp [s.issue_ready src dst k h, Slot.goneOn, hr]

/-- An empty source in trap mode traps with 0x04 and its number (R348). -/
theorem State.issue_empty (s : State) (src : List (Reg × Bool)) (dst : List Reg) (k : State → State) (r : Reg)
    (h : s.sl.sources src = .empty r) : s.issue src dst k = s.trap 4 (wd r.toNat) := by
  simp [State.issue, h]

/-! ## Consuming -/

/-- A fold of acquires changes parties only. -/
theorem State.foldl_acquire (l : List (Nat × List (Nat × List Nat))) (p : Nat) (s : State) :
    ∃ ps, l.foldl (fun t g => t.acquire p g.1 g.2) s = { s with parties := ps } := by
  induction l generalizing s with
  | nil => exact ⟨s.parties, rfl⟩
  | cons g l ih =>
    obtain ⟨ps, h⟩ := ih (s.acquire p g.1 g.2)
    exact ⟨ps, h.trans rfl⟩

/-- Consuming changes parties, and the marks of what was waited for. -/
theorem State.consume_cases (s : State) (src : List (Reg × Bool)) :
    s.consume src = s ∨ ∃ ps, s.consume src = { s.setSlot s.cur { s.sl with waits := 0#32 } with parties := ps } := by
  by_cases hw : s.sl.waits = 0#32
  · left; simp [State.consume, hw]
  · obtain ⟨ps, h⟩ := State.foldl_acquire (src.filterMap fun a =>
      if s.sl.waits.getLsbD a.1.toNat then (s.sl.regRel.find? fun e => e.1 == a.1.toNat).map (·.2) else none) s.sl.party s
    right
    refine ⟨ps, ?_⟩
    simp only [State.consume, hw, if_false, h]
    rfl

@[simp] theorem State.consume_cur (s : State) (src : List (Reg × Bool)) : (s.consume src).cur = s.cur := by
  rcases s.consume_cases src with h | ⟨ps, h⟩ <;> rw [h] <;> rfl

/-- A slot set after consuming is a slot set on the machine before, but for parties. -/
theorem State.consume_setSlot (s : State) (src : List (Reg × Bool)) (x : Slot) :
    ∃ ps, (s.consume src).setSlot s.cur x = { s.setSlot s.cur x with parties := ps } := by
  rcases s.consume_cases src with h | ⟨ps, h⟩
  · exact ⟨s.parties, by rw [h]; rfl⟩
  · refine ⟨ps, ?_⟩
    rw [h]
    have := State.setSlot_setSlot s s.cur { s.sl with waits := 0#32 } x
    calc _ = { (s.setSlot s.cur { s.sl with waits := 0#32 }).setSlot s.cur x with parties := ps } := rfl
      _ = _ := by rw [this]

/-- The issuing slot after consuming, but for the marks. -/
theorem State.consume_sl (s : State) (src : List (Reg × Bool)) (h4 : s.cur.slot < 4) :
    (s.consume src).sl = s.sl ∨ (s.consume src).sl = { s.sl with waits := 0#32 } := by
  rcases s.consume_cases src with h | ⟨ps, h⟩
  · exact .inl (by rw [h])
  · right
    rw [h]
    exact State.slot_setSlot_same s s.cur _ h4

/-- Registers read the same after consuming. -/
theorem State.consume_rd (s : State) (src : List (Reg × Bool)) (h4 : s.cur.slot < 4) (r : Reg) :
    (s.consume src).sl.rd r = s.sl.rd r := by
  rcases s.consume_sl src h4 with h | h <;> rw [h] <;> rfl

/-- The PC reads the same after consuming. -/
theorem State.consume_pc (s : State) (src : List (Reg × Bool)) (h4 : s.cur.slot < 4) : (s.consume src).sl.pc = s.sl.pc := by
  rcases s.consume_sl src h4 with h | h <;> rw [h]

/-- What is left of the slot after consuming, whatever is then made of it by an update that clears the marks. -/
theorem State.consume_upd (s : State) (src : List (Reg × Bool)) (h4 : s.cur.slot < 4) (g : Slot → Slot)
    (hg : ∀ x w, g { x with waits := w } = g x) : g (s.consume src).sl = g s.sl := by
  rcases s.consume_sl src h4 with h | h <;> rw [h]
  exact hg _ _

/-! ## Retiring -/

/-- An update of the issuing slot that clears the marks, after consuming: the slot is updated, and but for parties nothing else. -/
theorem State.consume_modSl (s : State) (src : List (Reg × Bool)) (h4 : s.cur.slot < 4) (g : Slot → Slot)
    (hg : ∀ x w, g { x with waits := w } = g x) :
    ∃ ps, (s.consume src).modSl g = { s.setSlot s.cur (g s.sl) with parties := ps } := by
  have hx := s.consume_upd src h4 g hg
  obtain ⟨ps, h⟩ := s.consume_setSlot src (g s.sl)
  refine ⟨ps, ?_⟩
  have : (s.consume src).modSl g = (s.consume src).setSlot (s.consume src).cur (g (s.consume src).sl) := rfl
  rw [this, hx, State.consume_cur, h]

/-- The marks of what was waited for play no part in a register write. -/
theorem Slot.setS_waits (x : Slot) (d : Reg) (v : Word) (w : BitVec 32) : ({ x with waits := w } : Slot).setS d v = { x.setS d v with waits := w } := by
  unfold Slot.setS Slot.wr Slot.setFull
  by_cases h : d = 0#5 <;> simp [h]

/-- A one-cycle result: the instruction computes `v` into `d`. -/
theorem State.computes_setD (s : State) (src : List (Reg × Bool)) (h4 : s.cur.slot < 4) (d : Reg) (v : Word) :
    s.Computes ((s.consume src).setD d v) [d] s.sl.after ∧ ((s.consume src).setD d v).sl.Holds d v := by
  have hg : ∀ (x : Slot) w, (({ x with waits := w } : Slot).setS d v).next = (x.setS d v).next := by
    intro x w; rw [Slot.setS_waits]; rfl
  obtain ⟨ps, h⟩ := s.consume_modSl src h4 (fun x => (x.setS d v).next) hg
  have hsl : ((s.consume src).setD d v).sl = (s.sl.setS d v).next := by
    rw [show (s.consume src).setD d v = (s.consume src).modSl (fun x => (x.setS d v).next) from rfl, h]
    exact State.slot_setSlot_same s s.cur _ h4
  refine ⟨⟨?_, ?_, ps, ?_⟩, ?_⟩
  · rw [hsl]
    refine ⟨?_, ?_, ?_, ?_, ?_⟩
    · show (s.sl.setS d v).pc + 4#64 = _
      congr 1
      unfold Slot.setS Slot.wr Slot.setFull
      by_cases hd : d = 0#5 <;> simp [hd]
    · show (s.sl.setS d v).retired + 1#64 = _
      congr 1
      unfold Slot.setS Slot.wr Slot.setFull
      by_cases hd : d = 0#5 <;> simp [hd]
    · intro r hr
      have hn : r ≠ d := by simpa using hr
      exact ⟨Slot.rd_setS_ne s.sl v hn, Slot.isFull_setS_ne s.sl v hn⟩
    · unfold Slot.next Slot.retire Slot.setS Slot.wr Slot.setFull
      by_cases hd : d = 0#5 <;> simp [hd]
    · unfold Slot.next Slot.retire Slot.setS Slot.wr Slot.setFull
      by_cases hd : d = 0#5 <;> simp [hd]
  · intro a
    rw [show (s.consume src).setD d v = (s.consume src).modSl (fun x => (x.setS d v).next) from rfl, h]
    rfl
  · rw [hsl]; exact h
  · rw [hsl]
    exact ⟨Slot.rd_setS_same s.sl d v, Slot.isFull_setS_same s.sl d v⟩

end Sys2Proof.Machine
end

