-- ==== Sys2Proof/Laws/Memory.lean ====
section
/-! SUPPORT. Memory: a read after a write, and every memory operation keeps the canonical form. -/

namespace Sys2Proof.Machine

/-! ## Reading what was written -/

/-- Nothing below the least listed address is listed. -/
theorem Memory.get_above (m : Memory) (n a : Nat) (h : m.above n = true) (ha : a < n) : m.get a = Memory.unlisted := by
  induction m generalizing n with
  | nil => rfl
  | cons e m ih =>
    obtain ⟨k, v⟩ := e
    simp only [Memory.above, Bool.and_eq_true, decide_eq_true_eq] at h
    obtain ⟨⟨hk, hv⟩, hm⟩ := h
    simp only [Memory.get, show ¬ k = a by omega, if_false]
    exact ih (k + 1) hm (by omega)

/-- A byte reads what was written to it, in a memory of canonical form. -/
theorem Memory.get_set_same (m : Memory) (n a : Nat) (b : Byte) (h : m.above n = true) : (m.set a b).get a = b := by
  induction m generalizing n with
  | nil => by_cases hb : b = Memory.unlisted <;> simp [Memory.set, Memory.get, hb]
  | cons e m ih =>
    obtain ⟨k, v⟩ := e
    simp only [Memory.above, Bool.and_eq_true, decide_eq_true_eq] at h
    obtain ⟨⟨hk, hv⟩, hm⟩ := h
    simp only [Memory.set]
    split
    · next h1 =>
      split
      · next hb =>
        simp only [Memory.get, show ¬ k = a by omega, if_false, hb]
        exact Memory.get_above m (k + 1) a hm (by omega)
      · simp [Memory.get]
    · split
      · next h1 h2 =>
        subst h2
        split
        · next hb => rw [hb]; exact Memory.get_above m (a + 1) a hm (by omega)
        · simp [Memory.get]
      · next h1 h2 =>
        simp only [Memory.get, show ¬ k = a by omega, if_false]
        exact ih (k + 1) hm

/-- Every other byte reads what it read. -/
theorem Memory.get_set_ne (m : Memory) {a c : Nat} (b : Byte) (h : c ≠ a) : (m.set a b).get c = m.get c := by
  induction m with
  | nil => by_cases hb : b = Memory.unlisted <;> simp [Memory.set, Memory.get, hb, Ne.symm h]
  | cons e m ih =>
    obtain ⟨k, v⟩ := e
    simp only [Memory.set]
    split
    · split
      · rfl
      · simp [Memory.get, Ne.symm h]
    · split
      · next h2 => subst h2; split <;> simp [Memory.get, Ne.symm h]
      · simp [Memory.get, ih]

/-! ## The canonical form -/

theorem Memory.above_mono (m : Memory) {n k : Nat} (h : m.above n = true) (hk : k ≤ n) : m.above k = true := by
  cases m with
  | nil => rfl
  | cons e m =>
    obtain ⟨a, v⟩ := e
    simp only [Memory.above, Bool.and_eq_true, decide_eq_true_eq] at h ⊢
    exact ⟨⟨by omega, h.1.2⟩, h.2⟩

/-- A write keeps the canonical form. -/
theorem Memory.above_set (m : Memory) (n a : Nat) (b : Byte) (h : m.above n = true) (ha : n ≤ a) : (m.set a b).above n = true := by
  induction m generalizing n with
  | nil => by_cases hb : b = Memory.unlisted <;> simp [Memory.set, Memory.above, hb, ha]
  | cons e m ih =>
    obtain ⟨k, v⟩ := e
    have h' := h
    simp only [Memory.above, Bool.and_eq_true, decide_eq_true_eq] at h
    obtain ⟨⟨hk, hv⟩, hm⟩ := h
    simp only [Memory.set]
    split
    · split
      · exact h'
      · next h1 hb =>
        simp only [Memory.above, Bool.and_eq_true, decide_eq_true_eq]
        exact ⟨⟨ha, hb⟩, ⟨by omega, hv⟩, hm⟩
    · split
      · next h1 h2 =>
        subst h2
        split
        · exact Memory.above_mono m hm (by omega)
        · next hb =>
          simp only [Memory.above, Bool.and_eq_true, decide_eq_true_eq]
          exact ⟨⟨ha, hb⟩, hm⟩
      · next h1 h2 =>
        simp only [Memory.above, Bool.and_eq_true, decide_eq_true_eq]
        exact ⟨⟨hk, hv⟩, ih (k + 1) hm (by omega)⟩

/-- A write keeps memory well formed. -/
theorem Memory.wf_set (m : Memory) (a : Nat) (b : Byte) (h : m.wf = true) : (m.set a b).wf = true :=
  Memory.above_set m 0 a b h (Nat.zero_le a)

/-- A store of bytes keeps memory well formed. -/
theorem Memory.wf_setBytes (m : Memory) (a : Nat) (bs : List Byte) (h : m.wf = true) : (m.setBytes a bs).wf = true := by
  induction bs generalizing m a with
  | nil => exact h
  | cons b bs ih => exact ih (m.set a b) (a + 1) (Memory.wf_set m a b h)

theorem Memory.above_filter (m : Memory) (p : Host.Cell → Bool) (n : Nat) (h : m.above n = true) : Memory.above (m.filter p) n = true := by
  induction m generalizing n with
  | nil => rfl
  | cons e m ih =>
    obtain ⟨k, v⟩ := e
    simp only [Memory.above, Bool.and_eq_true, decide_eq_true_eq] at h
    obtain ⟨⟨hk, hv⟩, hm⟩ := h
    simp only [List.filter_cons]
    split
    · simp only [Memory.above, Bool.and_eq_true, decide_eq_true_eq]
      exact ⟨⟨hk, hv⟩, ih (k + 1) hm⟩
    · exact Memory.above_mono _ (ih (k + 1) hm) (by omega)

/-- Dropping entries keeps memory well formed. -/
theorem Memory.wf_filter (m : Memory) (p : Host.Cell → Bool) (h : m.wf = true) : Memory.wf (m.filter p) = true :=
  Memory.above_filter m p 0 h

/-- Forgetting a range keeps memory well formed. -/
theorem Memory.wf_clear (m : Memory) (lo hi : Nat) (h : m.wf = true) : (m.clear lo hi).wf = true :=
  Memory.above_filter m _ 0 h

/-- Writes one after another keep memory well formed. -/
theorem Memory.wf_foldl_set {β : Type} (l : List β) (f : Memory → β → Memory) (hf : ∀ m x, m.wf = true → (f m x).wf = true) (m : Memory)
    (h : m.wf = true) : (l.foldl f m).wf = true := by
  induction l generalizing m with
  | nil => exact h
  | cons x l ih => exact ih (f m x) (hf m x h)

/-! ## Ranges of bytes -/

/-- A byte outside a store reads what it read. -/
theorem Memory.get_setBytes_out (m : Memory) (a c : Nat) (bs : List Byte) (h : c < a ∨ a + bs.length ≤ c) :
    (m.setBytes a bs).get c = m.get c := by
  induction bs generalizing m a with
  | nil => rfl
  | cons b bs ih =>
    simp only [List.length_cons] at h
    rw [Memory.setBytes, ih _ _ (by omega), Memory.get_set_ne _ _ (by omega)]

/-- A byte inside a store reads the byte stored. -/
theorem Memory.get_setBytes_in (m : Memory) (a i : Nat) (bs : List Byte) (hm : m.wf = true) (h : i < bs.length) :
    (m.setBytes a bs).get (a + i) = bs.getD i 0#8 := by
  induction bs generalizing m a i with
  | nil => simp at h
  | cons b bs ih =>
    rw [Memory.setBytes]
    cases i with
    | zero =>
      rw [Memory.get_setBytes_out _ _ _ _ (by omega)]
      simpa using Memory.get_set_same m 0 a b hm
    | succ i =>
      have := ih (m.set a b) (a + 1) i (Memory.wf_set m a b hm) (by simpa using h)
      rw [show a + (i + 1) = a + 1 + i by omega, this]
      simp

end Sys2Proof.Machine
end

