-- ==== Sys2Proof/Laws/PerInstr.lean ====
section
/-! SUPPORT. Every instruction that a word names is read back from its word (LAWS.json: RoundTrip). -/

namespace Sys2Proof.Laws.RoundTrip

open Sys2Proof BitVec

/-- A well-formed instruction that has a word is what the decoder reads from that word. -/
def Statement (i : Instr) : Prop := i.wf = true → ∀ w, encode i = some w → decode w = some i

theorem add (d a b : Reg) (wa wb w : Bool) : Statement (.add d a b wa wb w) := by
  intro _ x h
  cases h
  rw [decode_S3 _ (by rfl)]
  cases w <;> rfl

theorem sub (d a b : Reg) (wa wb w : Bool) : Statement (.sub d a b wa wb w) := by
  intro _ x h
  cases h
  rw [decode_S3 _ (by rfl)]
  cases w <;> rfl

theorem mul (d a b : Reg) (wa wb w : Bool) : Statement (.mul d a b wa wb w) := by
  intro _ x h
  cases h
  rw [decode_S3 _ (by rfl)]
  cases w <;> rfl

theorem mulh (d a b : Reg) (wa wb : Bool) : Statement (.mulh d a b wa wb) := by
  intro _ x h
  cases h
  rw [decode_S3 _ (by rfl)]
  rfl

theorem mulhu (d a b : Reg) (wa wb : Bool) : Statement (.mulhu d a b wa wb) := by
  intro _ x h
  cases h
  rw [decode_S3 _ (by rfl)]
  rfl

theorem div (d a b : Reg) (wa wb w : Bool) : Statement (.div d a b wa wb w) := by
  intro _ x h
  cases h
  rw [decode_S3 _ (by rfl)]
  cases w <;> rfl

theorem divu (d a b : Reg) (wa wb w : Bool) : Statement (.divu d a b wa wb w) := by
  intro _ x h
  cases h
  rw [decode_S3 _ (by rfl)]
  cases w <;> rfl

theorem rem (d a b : Reg) (wa wb w : Bool) : Statement (.rem d a b wa wb w) := by
  intro _ x h
  cases h
  rw [decode_S3 _ (by rfl)]
  cases w <;> rfl

theorem remu (d a b : Reg) (wa wb w : Bool) : Statement (.remu d a b wa wb w) := by
  intro _ x h
  cases h
  rw [decode_S3 _ (by rfl)]
  cases w <;> rfl

theorem and (d a b : Reg) (wa wb : Bool) : Statement (.and d a b wa wb) := by
  intro _ x h
  cases h
  rw [decode_S3 _ (by rfl)]
  rfl

theorem or (d a b : Reg) (wa wb : Bool) : Statement (.or d a b wa wb) := by
  intro _ x h
  cases h
  rw [decode_S3 _ (by rfl)]
  rfl

theorem xor (d a b : Reg) (wa wb : Bool) : Statement (.xor d a b wa wb) := by
  intro _ x h
  cases h
  rw [decode_S3 _ (by rfl)]
  rfl

theorem andn (d a b : Reg) (wa wb : Bool) : Statement (.andn d a b wa wb) := by
  intro _ x h
  cases h
  rw [decode_S3 _ (by rfl)]
  rfl

theorem orn (d a b : Reg) (wa wb : Bool) : Statement (.orn d a b wa wb) := by
  intro _ x h
  cases h
  rw [decode_S3 _ (by rfl)]
  rfl

theorem sll (d a b : Reg) (wa wb w : Bool) : Statement (.sll d a b wa wb w) := by
  intro _ x h
  cases h
  rw [decode_S3 _ (by rfl)]
  cases w <;> rfl

theorem srl (d a b : Reg) (wa wb w : Bool) : Statement (.srl d a b wa wb w) := by
  intro _ x h
  cases h
  rw [decode_S3 _ (by rfl)]
  cases w <;> rfl

theorem sra (d a b : Reg) (wa wb w : Bool) : Statement (.sra d a b wa wb w) := by
  intro _ x h
  cases h
  rw [decode_S3 _ (by rfl)]
  cases w <;> rfl

theorem rol (d a b : Reg) (wa wb w : Bool) : Statement (.rol d a b wa wb w) := by
  intro _ x h
  cases h
  rw [decode_S3 _ (by rfl)]
  cases w <;> rfl

theorem ror (d a b : Reg) (wa wb w : Bool) : Statement (.ror d a b wa wb w) := by
  intro _ x h
  cases h
  rw [decode_S3 _ (by rfl)]
  cases w <;> rfl

theorem slt (d a b : Reg) (wa wb : Bool) : Statement (.slt d a b wa wb) := by
  intro _ x h
  cases h
  rw [decode_S3 _ (by rfl)]
  rfl

theorem sltu (d a b : Reg) (wa wb : Bool) : Statement (.sltu d a b wa wb) := by
  intro _ x h
  cases h
  rw [decode_S3 _ (by rfl)]
  rfl

theorem min (d a b : Reg) (wa wb : Bool) : Statement (.min d a b wa wb) := by
  intro _ x h
  cases h
  rw [decode_S3 _ (by rfl)]
  rfl

theorem max (d a b : Reg) (wa wb : Bool) : Statement (.max d a b wa wb) := by
  intro _ x h
  cases h
  rw [decode_S3 _ (by rfl)]
  rfl

theorem minu (d a b : Reg) (wa wb : Bool) : Statement (.minu d a b wa wb) := by
  intro _ x h
  cases h
  rw [decode_S3 _ (by rfl)]
  rfl

theorem maxu (d a b : Reg) (wa wb : Bool) : Statement (.maxu d a b wa wb) := by
  intro _ x h
  cases h
  rw [decode_S3 _ (by rfl)]
  rfl

theorem clz (d a : Reg) (wa w : Bool) : Statement (.clz d a wa w) := by
  intro _ x h
  cases h
  rw [decode_S3 _ (by rfl)]
  cases w <;> rfl

theorem ctz (d a : Reg) (wa w : Bool) : Statement (.ctz d a wa w) := by
  intro _ x h
  cases h
  rw [decode_S3 _ (by rfl)]
  cases w <;> rfl

theorem popc (d a : Reg) (wa w : Bool) : Statement (.popc d a wa w) := by
  intro _ x h
  cases h
  rw [decode_S3 _ (by rfl)]
  cases w <;> rfl

theorem sext (d a b : Reg) (wa wb : Bool) : Statement (.sext d a b wa wb) := by
  intro _ x h
  cases h
  rw [decode_S3 _ (by rfl)]
  rfl

theorem bext (d a b : Reg) (wa wb : Bool) : Statement (.bext d a b wa wb) := by
  intro _ x h
  cases h
  rw [decode_S3 _ (by rfl)]
  rfl

theorem bins (d a b : Reg) (wa wb : Bool) : Statement (.bins d a b wa wb) := by
  intro _ x h
  cases h
  rw [decode_S3 _ (by rfl)]
  rfl

theorem addi (d a : Reg) (i : BitVec 16) : Statement (.addi d a i) := by
  intro _ x h
  cases h
  rw [decode_SI _ (by rfl)]
  rfl

theorem andi (d a : Reg) (i : BitVec 16) : Statement (.andi d a i) := by
  intro _ x h
  cases h
  rw [decode_SI _ (by rfl)]
  rfl

theorem ori (d a : Reg) (i : BitVec 16) : Statement (.ori d a i) := by
  intro _ x h
  cases h
  rw [decode_SI _ (by rfl)]
  rfl

theorem xori (d a : Reg) (i : BitVec 16) : Statement (.xori d a i) := by
  intro _ x h
  cases h
  rw [decode_SI _ (by rfl)]
  rfl

theorem slti (d a : Reg) (i : BitVec 16) : Statement (.slti d a i) := by
  intro _ x h
  cases h
  rw [decode_SI _ (by rfl)]
  rfl

theorem sltiu (d a : Reg) (i : BitVec 16) : Statement (.sltiu d a i) := by
  intro _ x h
  cases h
  rw [decode_SI _ (by rfl)]
  rfl

theorem lui (d : Reg) (i : BitVec 21) : Statement (.lui d i) := by
  intro _ x h
  cases h
  rw [decode_SU _ (by rfl)]
  rfl

theorem luh (d : Reg) (i : BitVec 21) : Statement (.luh d i) := by
  intro _ x h
  cases h
  rw [decode_SU _ (by rfl)]
  rfl

theorem adpc (d : Reg) (i : BitVec 21) : Statement (.adpc d i) := by
  intro _ x h
  cases h
  rw [decode_SU _ (by rfl)]
  rfl

theorem beq (a b : Reg) (i : BitVec 16) : Statement (.beq a b i) := by
  intro _ x h
  cases h
  rw [decode_SI _ (by rfl)]
  rfl

theorem bne (a b : Reg) (i : BitVec 16) : Statement (.bne a b i) := by
  intro _ x h
  cases h
  rw [decode_SI _ (by rfl)]
  rfl

theorem blt (a b : Reg) (i : BitVec 16) : Statement (.blt a b i) := by
  intro _ x h
  cases h
  rw [decode_SI _ (by rfl)]
  rfl

theorem bge (a b : Reg) (i : BitVec 16) : Statement (.bge a b i) := by
  intro _ x h
  cases h
  rw [decode_SI _ (by rfl)]
  rfl

theorem bltu (a b : Reg) (i : BitVec 16) : Statement (.bltu a b i) := by
  intro _ x h
  cases h
  rw [decode_SI _ (by rfl)]
  rfl

theorem bgeu (a b : Reg) (i : BitVec 16) : Statement (.bgeu a b i) := by
  intro _ x h
  cases h
  rw [decode_SI _ (by rfl)]
  rfl

theorem j (i : BitVec 26) : Statement (.j i) := by
  intro _ x h
  cases h
  rw [decode_J _ (by rfl)]
  rfl

theorem jal (i : BitVec 26) : Statement (.jal i) := by
  intro _ x h
  cases h
  rw [decode_J _ (by rfl)]
  rfl

theorem ld (d a : Reg) (z : LdSize) (h : Hint) (o : Ordering2) (i : BitVec 9) : Statement (.ld d a z h o i) := by
  intro _ x h
  cases h
  rw [decode_M _ (by rfl)]
  cases z <;> cases h <;> cases o <;> rfl

theorem st (d a : Reg) (z : StSize) (h : Hint) (o : Ordering2) (i : BitVec 9) : Statement (.st d a z h o i) := by
  intro _ x h
  cases h
  rw [decode_M _ (by rfl)]
  cases z <;> cases h <;> cases o <;> rfl

theorem rld (r : RowName) (a : Reg) (h : Hint) (i : BitVec 11) : Statement (.rld r a h i) := by
  intro _ x h
  cases h
  rw [decode_ROW _ (by rfl)]
  cases h <;> rfl

theorem rst (r : RowName) (a : Reg) (h : Hint) (i : BitVec 11) : Statement (.rst r a h i) := by
  intro _ x h
  cases h
  rw [decode_ROW _ (by rfl)]
  cases h <;> rfl

theorem aadd (d a b : Reg) (wa wb : Bool) (o : Ordering2) (dbl : Bool) : Statement (.aadd d a b wa wb o dbl) := by
  intro _ x h
  cases h
  rw [decode_S3 _ (by rfl)]
  cases o <;> cases dbl <;> rfl

theorem aand (d a b : Reg) (wa wb : Bool) (o : Ordering2) (dbl : Bool) : Statement (.aand d a b wa wb o dbl) := by
  intro _ x h
  cases h
  rw [decode_S3 _ (by rfl)]
  cases o <;> cases dbl <;> rfl

theorem aor (d a b : Reg) (wa wb : Bool) (o : Ordering2) (dbl : Bool) : Statement (.aor d a b wa wb o dbl) := by
  intro _ x h
  cases h
  rw [decode_S3 _ (by rfl)]
  cases o <;> cases dbl <;> rfl

theorem axor (d a b : Reg) (wa wb : Bool) (o : Ordering2) (dbl : Bool) : Statement (.axor d a b wa wb o dbl) := by
  intro _ x h
  cases h
  rw [decode_S3 _ (by rfl)]
  cases o <;> cases dbl <;> rfl

theorem amin (d a b : Reg) (wa wb : Bool) (o : Ordering2) (dbl : Bool) : Statement (.amin d a b wa wb o dbl) := by
  intro _ x h
  cases h
  rw [decode_S3 _ (by rfl)]
  cases o <;> cases dbl <;> rfl

theorem amax (d a b : Reg) (wa wb : Bool) (o : Ordering2) (dbl : Bool) : Statement (.amax d a b wa wb o dbl) := by
  intro _ x h
  cases h
  rw [decode_S3 _ (by rfl)]
  cases o <;> cases dbl <;> rfl

theorem aminu (d a b : Reg) (wa wb : Bool) (o : Ordering2) (dbl : Bool) : Statement (.aminu d a b wa wb o dbl) := by
  intro _ x h
  cases h
  rw [decode_S3 _ (by rfl)]
  cases o <;> cases dbl <;> rfl

theorem amaxu (d a b : Reg) (wa wb : Bool) (o : Ordering2) (dbl : Bool) : Statement (.amaxu d a b wa wb o dbl) := by
  intro _ x h
  cases h
  rw [decode_S3 _ (by rfl)]
  cases o <;> cases dbl <;> rfl

theorem aswp (d a b : Reg) (wa wb : Bool) (o : Ordering2) (dbl : Bool) : Statement (.aswp d a b wa wb o dbl) := by
  intro _ x h
  cases h
  rw [decode_S3 _ (by rfl)]
  cases o <;> cases dbl <;> rfl

theorem acas (d a b : Reg) (wa wb : Bool) (o : Ordering2) (dbl : Bool) : Statement (.acas d a b wa wb o dbl) := by
  intro _ x h
  cases h
  rw [decode_S3 _ (by rfl)]
  cases o <;> cases dbl <;> rfl

theorem afadd (d a b : Reg) (wa wb : Bool) (o : Ordering2) : Statement (.afadd d a b wa wb o) := by
  intro _ x h
  cases h
  rw [decode_S3 _ (by rfl)]
  cases o <;> rfl

theorem fence (sc : Scope) : Statement (.fence sc) := by
  intro _ x h
  cases h
  rw [decode_S3 _ (by rfl)]
  cases sc <;> rfl

theorem cbar (d a b : Reg) (wa wb : Bool) : Statement (.cbar d a b wa wb) := by
  intro _ x h
  cases h
  rw [decode_S3 _ (by rfl)]
  rfl

theorem waitfe (a : Reg) : Statement (.waitfe a) := by
  intro _ x h
  cases h
  rw [decode_S3 _ (by rfl)]
  rfl

theorem sete (a : Reg) : Statement (.sete a) := by
  intro _ x h
  cases h
  rw [decode_S3 _ (by rfl)]
  rfl

theorem send (d : Reg) : Statement (.send d) := by
  intro _ x h
  cases h
  rw [decode_S3 _ (by rfl)]
  rfl

theorem mcst (d : Reg) : Statement (.mcst d) := by
  intro _ x h
  cases h
  rw [decode_S3 _ (by rfl)]
  rfl

theorem mseq (d a : Reg) (wa : Bool) : Statement (.mseq d a wa) := by
  intro _ x h
  cases h
  rw [decode_S3 _ (by rfl)]
  rfl

theorem frel : Statement (.frel) := by
  intro _ x h
  cases h
  rw [decode_S3 _ (by rfl)]
  rfl

theorem ewr (e : EngCode) (a b : Reg) : Statement (.ewr e a b) := by
  intro _ x h
  cases h
  rw [decode_E _ (by rfl)]
  cases e <;> rfl

theorem erd (e : EngCode) (b d : Reg) : Statement (.erd e b d) := by
  intro _ x h
  cases h
  rw [decode_E _ (by rfl)]
  cases e <;> rfl

theorem erdAct (e : EngCode) (b d : Reg) : Statement (.erdAct e b d) := by
  intro _ x h
  cases h
  rw [decode_E _ (by rfl)]
  cases e <;> rfl

theorem ewait (e : EngCode) (a : Reg) : Statement (.ewait e a) := by
  intro _ x h
  cases h
  rw [decode_E _ (by rfl)]
  cases e <;> rfl

theorem estat (e : EngCode) (a d : Reg) : Statement (.estat e a d) := by
  intro _ x h
  cases h
  rw [decode_E _ (by rfl)]
  cases e <;> rfl

theorem ttq (a d : Reg) : Statement (.ttq a d) := by
  intro _ x h
  cases h
  rw [decode_E _ (by rfl)]
  rfl

theorem spawn (a : Reg) (wa : Bool) : Statement (.spawn a wa) := by
  intro _ x h
  cases h
  rw [decode_S3 _ (by rfl)]
  rfl

theorem susp (rt : Bool) : Statement (.susp rt) := by
  intro _ x h
  cases h
  rw [decode_S3 _ (by rfl)]
  cases rt <;> rfl

theorem await (a : Reg) (wa rt : Bool) : Statement (.await a wa rt) := by
  intro _ x h
  cases h
  rw [decode_S3 _ (by rfl)]
  cases rt <;> rfl

theorem decr (d a b : Reg) (wa wb : Bool) : Statement (.decr d a b wa wb) := by
  intro _ x h
  cases h
  rw [decode_S3 _ (by rfl)]
  rfl

theorem halt : Statement (.halt) := by
  intro _ x h
  cases h
  rw [decode_S3 _ (by rfl)]
  rfl

theorem haltRt (a : Reg) (wa : Bool) : Statement (.haltRt a wa) := by
  intro _ x h
  cases h
  rw [decode_S3 _ (by rfl)]
  rfl

theorem taskq (a : Reg) (wa : Bool) : Statement (.taskq a wa) := by
  intro _ x h
  cases h
  rw [decode_S3 _ (by rfl)]
  rfl

theorem lnch (d a : Reg) (wa : Bool) : Statement (.lnch d a wa) := by
  intro _ x h
  cases h
  rw [decode_S3 _ (by rfl)]
  rfl

theorem wid (d a b : Reg) (wa wb : Bool) : Statement (.wid d a b wa wb) := by
  intro _ x h
  cases h
  rw [decode_S3 _ (by rfl)]
  rfl

theorem csrr (d : Reg) (c : BitVec 12) : Statement (.csrr d c) := by
  intro _ x h
  cases h
  rw [decode_C _ (by rfl)]
  rfl

theorem csrw (d a : Reg) (c : BitVec 12) : Statement (.csrw d a c) := by
  intro _ x h
  cases h
  rw [decode_C _ (by rfl)]
  rfl

theorem csrs (d a : Reg) (c : BitVec 12) : Statement (.csrs d a c) := by
  intro _ x h
  cases h
  rw [decode_C _ (by rfl)]
  rfl

theorem csrc (d a : Reg) (c : BitVec 12) : Statement (.csrc d a c) := by
  intro _ x h
  cases h
  rw [decode_C _ (by rfl)]
  rfl

theorem ptrootWrite (ten : Nat) (v : Word) : Statement (.ptrootWrite ten v) := fun _ _ h => nomatch h

theorem tvecWrite (ten : Nat) (v : Word) : Statement (.tvecWrite ten v) := fun _ _ h => nomatch h

theorem vaddF (t : FTy) (d a b : RowName) (l : Bool) : Statement (.vaddF t d a b l) := by
  intro _ x h
  cases h
  rw [decode_V _ (by cases t <;> rfl)]
  cases t <;> rfl

theorem vsubF (t : FTy) (d a b : RowName) (l : Bool) : Statement (.vsubF t d a b l) := by
  intro _ x h
  cases h
  rw [decode_V _ (by cases t <;> rfl)]
  cases t <;> rfl

theorem vmulF (t : FTy) (d a b : RowName) (l : Bool) : Statement (.vmulF t d a b l) := by
  intro _ x h
  cases h
  rw [decode_V _ (by cases t <;> rfl)]
  cases t <;> rfl

theorem vdiv (t : FTy) (d a b : RowName) (l : Bool) : Statement (.vdiv t d a b l) := by
  intro _ x h
  cases h
  rw [decode_V _ (by cases t <;> rfl)]
  cases t <;> rfl

theorem vfma (t : FTy) (d a b : RowName) (l : Bool) : Statement (.vfma t d a b l) := by
  intro _ x h
  cases h
  rw [decode_V _ (by cases t <;> rfl)]
  cases t <;> rfl

theorem vfms (t : FTy) (d a b : RowName) (l : Bool) : Statement (.vfms t d a b l) := by
  intro _ x h
  cases h
  rw [decode_V _ (by cases t <;> rfl)]
  cases t <;> rfl

theorem vminF (t : FTy) (d a b : RowName) (l : Bool) : Statement (.vminF t d a b l) := by
  intro _ x h
  cases h
  rw [decode_V _ (by cases t <;> rfl)]
  cases t <;> rfl

theorem vmaxF (t : FTy) (d a b : RowName) (l : Bool) : Statement (.vmaxF t d a b l) := by
  intro _ x h
  cases h
  rw [decode_V _ (by cases t <;> rfl)]
  cases t <;> rfl

theorem vabsF (t : FTy) (d a : RowName) (l : Bool) : Statement (.vabsF t d a l) := by
  intro _ x h
  cases h
  rw [decode_V _ (by cases t <;> rfl)]
  cases t <;> rfl

theorem vnegF (t : FTy) (d a : RowName) (l : Bool) : Statement (.vnegF t d a l) := by
  intro _ x h
  cases h
  rw [decode_V _ (by cases t <;> rfl)]
  cases t <;> rfl

theorem vsqrt (t : FTy) (d a : RowName) (l : Bool) : Statement (.vsqrt t d a l) := by
  intro _ x h
  cases h
  rw [decode_V _ (by cases t <;> rfl)]
  cases t <;> rfl

theorem vscl (t : FTy) (d a b : RowName) (l : Bool) : Statement (.vscl t d a b l) := by
  intro _ x h
  cases h
  rw [decode_V _ (by cases t <;> rfl)]
  cases t <;> rfl

theorem vcpys (t : FTy) (d a b : RowName) (l : Bool) : Statement (.vcpys t d a b l) := by
  intro _ x h
  cases h
  rw [decode_V _ (by cases t <;> rfl)]
  cases t <;> rfl

theorem vceqF (t : FTy) (d a b : RowName) (l : Bool) : Statement (.vceqF t d a b l) := by
  intro _ x h
  cases h
  rw [decode_V _ (by cases t <;> rfl)]
  cases t <;> rfl

theorem vcltF (t : FTy) (d a b : RowName) (l : Bool) : Statement (.vcltF t d a b l) := by
  intro _ x h
  cases h
  rw [decode_V _ (by cases t <;> rfl)]
  cases t <;> rfl

theorem vcle (t : FTy) (d a b : RowName) (l : Bool) : Statement (.vcle t d a b l) := by
  intro _ x h
  cases h
  rw [decode_V _ (by cases t <;> rfl)]
  cases t <;> rfl

theorem vaddI (t : ITy) (d a b : RowName) (l : Bool) : Statement (.vaddI t d a b l) := by
  intro _ x h
  cases h
  rw [decode_V _ (by cases t <;> rfl)]
  cases t <;> rfl

theorem vsubI (t : ITy) (d a b : RowName) (l : Bool) : Statement (.vsubI t d a b l) := by
  intro _ x h
  cases h
  rw [decode_V _ (by cases t <;> rfl)]
  cases t <;> rfl

theorem vmulI (t : ITy) (d a b : RowName) (l : Bool) : Statement (.vmulI t d a b l) := by
  intro _ x h
  cases h
  rw [decode_V _ (by cases t <;> rfl)]
  cases t <;> rfl

theorem vmulh (t : ITy) (d a b : RowName) (l : Bool) : Statement (.vmulh t d a b l) := by
  intro _ x h
  cases h
  rw [decode_V _ (by cases t <;> rfl)]
  cases t <;> rfl

theorem vadds (t : ITy) (d a b : RowName) (l : Bool) : Statement (.vadds t d a b l) := by
  intro _ x h
  cases h
  rw [decode_V _ (by cases t <;> rfl)]
  cases t <;> rfl

theorem vsubs (t : ITy) (d a b : RowName) (l : Bool) : Statement (.vsubs t d a b l) := by
  intro _ x h
  cases h
  rw [decode_V _ (by cases t <;> rfl)]
  cases t <;> rfl

theorem vminI (t : ITy) (d a b : RowName) (l : Bool) : Statement (.vminI t d a b l) := by
  intro _ x h
  cases h
  rw [decode_V _ (by cases t <;> rfl)]
  cases t <;> rfl

theorem vmaxI (t : ITy) (d a b : RowName) (l : Bool) : Statement (.vmaxI t d a b l) := by
  intro _ x h
  cases h
  rw [decode_V _ (by cases t <;> rfl)]
  cases t <;> rfl

theorem vminu (t : ITy) (d a b : RowName) (l : Bool) : Statement (.vminu t d a b l) := by
  intro _ x h
  cases h
  rw [decode_V _ (by cases t <;> rfl)]
  cases t <;> rfl

theorem vmaxu (t : ITy) (d a b : RowName) (l : Bool) : Statement (.vmaxu t d a b l) := by
  intro _ x h
  cases h
  rw [decode_V _ (by cases t <;> rfl)]
  cases t <;> rfl

theorem vceqI (t : ITy) (d a b : RowName) (l : Bool) : Statement (.vceqI t d a b l) := by
  intro _ x h
  cases h
  rw [decode_V _ (by cases t <;> rfl)]
  cases t <;> rfl

theorem vcltI (t : ITy) (d a b : RowName) (l : Bool) : Statement (.vcltI t d a b l) := by
  intro _ x h
  cases h
  rw [decode_V _ (by cases t <;> rfl)]
  cases t <;> rfl

theorem vcltu (t : ITy) (d a b : RowName) (l : Bool) : Statement (.vcltu t d a b l) := by
  intro _ x h
  cases h
  rw [decode_V _ (by cases t <;> rfl)]
  cases t <;> rfl

theorem vabsI (t : ITy) (d a : RowName) (l : Bool) : Statement (.vabsI t d a l) := by
  intro _ x h
  cases h
  rw [decode_V _ (by cases t <;> rfl)]
  cases t <;> rfl

theorem vnegI (t : ITy) (d a : RowName) (l : Bool) : Statement (.vnegI t d a l) := by
  intro _ x h
  cases h
  rw [decode_V _ (by cases t <;> rfl)]
  cases t <;> rfl

theorem vand (d a b : RowName) (l : Bool) : Statement (.vand d a b l) := by
  intro _ x h
  cases h
  rw [decode_V _ (by rfl)]
  rfl

theorem vor (d a b : RowName) (l : Bool) : Statement (.vor d a b l) := by
  intro _ x h
  cases h
  rw [decode_V _ (by rfl)]
  rfl

theorem vxor (d a b : RowName) (l : Bool) : Statement (.vxor d a b l) := by
  intro _ x h
  cases h
  rw [decode_V _ (by rfl)]
  rfl

theorem vsel (d a b : RowName) (l : Bool) : Statement (.vsel d a b l) := by
  intro _ x h
  cases h
  rw [decode_V _ (by rfl)]
  rfl

theorem vperm (d a b : RowName) (l : Bool) : Statement (.vperm d a b l) := by
  intro _ x h
  cases h
  rw [decode_V _ (by rfl)]
  rfl

theorem vrev (d a : RowName) (w : LaneW) (l : Bool) : Statement (.vrev d a w l) := by
  intro _ x h
  cases h
  rw [decode_V _ (by rfl)]
  cases w <;> rfl

theorem vzipH (d a b : RowName) (l : Bool) : Statement (.vzipH d a b l) := by
  intro _ x h
  cases h
  rw [decode_V _ (by rfl)]
  rfl

theorem vzipW (d a b : RowName) (l : Bool) : Statement (.vzipW d a b l) := by
  intro _ x h
  cases h
  rw [decode_V _ (by rfl)]
  rfl

theorem vuzpH (d a b : RowName) (l : Bool) : Statement (.vuzpH d a b l) := by
  intro _ x h
  cases h
  rw [decode_V _ (by rfl)]
  rfl

theorem vuzpW (d a b : RowName) (l : Bool) : Statement (.vuzpW d a b l) := by
  intro _ x h
  cases h
  rw [decode_V _ (by rfl)]
  rfl

theorem vpark (a : RowName) (p : BitVec 7) (l : Bool) : Statement (.vpark a p l) := by
  intro _ x h
  cases h
  rw [decode_V _ (by rfl)]
  rfl

theorem vunpk (d : RowName) (p : BitVec 7) : Statement (.vunpk d p) := by
  intro _ x h
  cases h
  rw [decode_V _ (by rfl)]
  rfl

theorem vcvtef (d a e : RowName) (l f16 : Bool) : Statement (.vcvtef d a e l f16) := by
  intro _ x h
  cases h
  rw [decode_V _ (by rfl)]
  cases f16 <;> rfl

theorem vrsum (d a : RowName) (t : RedTy) (l : Bool) : Statement (.vrsum d a t l) := by
  intro _ x h
  cases h
  rw [decode_V _ (by rfl)]
  cases t <;> rfl

theorem vrmax (d a : RowName) (t : RedTy) (l : Bool) : Statement (.vrmax d a t l) := by
  intro _ x h
  cases h
  rw [decode_V _ (by rfl)]
  cases t <;> rfl

theorem vrmin (d a : RowName) (t : RedTy) (l : Bool) : Statement (.vrmin d a t l) := by
  intro _ x h
  cases h
  rw [decode_V _ (by rfl)]
  cases t <;> rfl

theorem vdotF32 (d a b : RowName) (l : Bool) : Statement (.vdotF32 d a b l) := by
  intro _ x h
  cases h
  rw [decode_V _ (by rfl)]
  rfl

theorem vdotBf16 (d a b : RowName) (l : Bool) : Statement (.vdotBf16 d a b l) := by
  intro _ x h
  cases h
  rw [decode_V _ (by rfl)]
  rfl

theorem vdotF16 (d a b : RowName) (l : Bool) : Statement (.vdotF16 d a b l) := by
  intro _ x h
  cases h
  rw [decode_V _ (by rfl)]
  rfl

theorem vdotI16 (d a b : RowName) (l : Bool) : Statement (.vdotI16 d a b l) := by
  intro _ x h
  cases h
  rw [decode_V _ (by rfl)]
  rfl

theorem vdotI8 (d a b : RowName) (l : Bool) : Statement (.vdotI8 d a b l) := by
  intro _ x h
  cases h
  rw [decode_V _ (by rfl)]
  rfl

theorem vdotwBf16 (d a b : RowName) (l : Bool) : Statement (.vdotwBf16 d a b l) := by
  intro _ x h
  cases h
  rw [decode_V _ (by rfl)]
  rfl

theorem vdotwF16 (d a b : RowName) (l : Bool) : Statement (.vdotwF16 d a b l) := by
  intro _ x h
  cases h
  rw [decode_V _ (by rfl)]
  rfl

theorem vdotwI16 (d a b : RowName) (l : Bool) : Statement (.vdotwI16 d a b l) := by
  intro _ x h
  cases h
  rw [decode_V _ (by rfl)]
  rfl

theorem vdotwI8 (d a b : RowName) (l : Bool) : Statement (.vdotwI8 d a b l) := by
  intro _ x h
  cases h
  rw [decode_V _ (by rfl)]
  rfl

theorem nop : Statement (.nop) := by
  intro _ x h
  cases h
  rfl

theorem pref (a : Reg) (i : BitVec 16) : Statement (.pref a i) := by
  intro _ x h
  cases h
  rw [decode_H _ (by rfl)]
  rfl

theorem bhint (x : Bool) : Statement (.bhint x) := by
  intro _ x h
  cases h
  rw [decode_H _ (by rfl)]
  rfl

theorem yield : Statement (.yield) := by
  intro _ x h
  cases h
  rw [decode_H _ (by rfl)]
  rfl

theorem tret : Statement (.tret) := by
  intro _ x h
  cases h
  rw [decode_S3 _ (by rfl)]
  rfl

theorem ctxsave (d a b : Reg) (wa wb : Bool) : Statement (.ctxsave d a b wa wb) := by
  intro _ x h
  cases h
  rw [decode_S3 _ (by rfl)]
  rfl

theorem ctxload (d a : Reg) (wa : Bool) : Statement (.ctxload d a wa) := by
  intro _ x h
  cases h
  rw [decode_S3 _ (by rfl)]
  rfl

theorem migr (d a b : Reg) (wa wb : Bool) : Statement (.migr d a b wa wb) := by
  intro _ x h
  cases h
  rw [decode_S3 _ (by rfl)]
  rfl

theorem gstop (d a b : Reg) (wa wb : Bool) : Statement (.gstop d a b wa wb) := by
  intro _ x h
  cases h
  rw [decode_S3 _ (by rfl)]
  rfl

theorem tlbinv (a b : Reg) (wa wb : Bool) : Statement (.tlbinv a b wa wb) := by
  intro _ x h
  cases h
  rw [decode_S3 _ (by rfl)]
  rfl

theorem tlbinva (b : Reg) (wb : Bool) : Statement (.tlbinva b wb) := by
  intro _ x h
  cases h
  rw [decode_S3 _ (by rfl)]
  rfl

theorem kzero (a : Reg) (wa : Bool) : Statement (.kzero a wa) := by
  intro _ x h
  cases h
  rw [decode_S3 _ (by rfl)]
  rfl

theorem kload (d a : Reg) (wa : Bool) : Statement (.kload d a wa) := by
  intro _ x h
  cases h
  rw [decode_S3 _ (by rfl)]
  rfl

theorem scrub (d a : Reg) (wa : Bool) : Statement (.scrub d a wa) := by
  intro _ x h
  cases h
  rw [decode_S3 _ (by rfl)]
  rfl

theorem tnassign (d a : Reg) (wa : Bool) : Statement (.tnassign d a wa) := by
  intro _ x h
  cases h
  rw [decode_S3 _ (by rfl)]
  rfl

theorem tnfree (d a : Reg) (wa : Bool) : Statement (.tnfree d a wa) := by
  intro _ x h
  cases h
  rw [decode_S3 _ (by rfl)]
  rfl

theorem tnstat (d a : Reg) (wa : Bool) : Statement (.tnstat d a wa) := by
  intro _ x h
  cases h
  rw [decode_S3 _ (by rfl)]
  rfl

theorem resultLands (id : Nat) : Statement (.resultLands id) := fun _ _ h => nomatch h

theorem sequencerExecute (core : Nat) (view : List Nat) : Statement (.sequencerExecute core view) := fun _ _ h => nomatch h

theorem strandDrainEnd (core slot : Nat) : Statement (.strandDrainEnd core slot) := fun _ _ h => nomatch h

theorem bankWakeComplete (core : Nat) (wake : WakeEnd) : Statement (.bankWakeComplete core wake) := fun _ _ h => nomatch h

theorem deposit (id : Nat) : Statement (.deposit id) := fun _ _ h => nomatch h

theorem remoteAccess (id : Nat) (view : List Nat) : Statement (.remoteAccess id view) := fun _ _ h => nomatch h

theorem atomicPerform (id : Nat) : Statement (.atomicPerform id) := fun _ _ h => nomatch h

theorem cellDecr (id : Nat) : Statement (.cellDecr id) := fun _ _ h => nomatch h

theorem cellTaskq (id : Nat) : Statement (.cellTaskq id) := fun _ _ h => nomatch h

theorem cellAwait (id : Nat) : Statement (.cellAwait id) := fun _ _ h => nomatch h

theorem haltRtBind (id : Nat) : Statement (.haltRtBind id) := fun _ _ h => nomatch h

theorem cbarArrival (id : Nat) : Statement (.cbarArrival id) := fun _ _ h => nomatch h

theorem enqueueArrival (id : Nat) : Statement (.enqueueArrival id) := fun _ _ h => nomatch h

theorem taskPrefetch (core : Nat) (handle : Word) : Statement (.taskPrefetch core handle) := fun _ _ h => nomatch h

theorem queueDoorbell (vf q : Nat) (v : Word) : Statement (.queueDoorbell vf q v) := fun _ _ h => nomatch h

theorem headerFetch (vf q : Nat) : Statement (.headerFetch vf q) := fun _ _ h => nomatch h

theorem launchAccept : Statement (.launchAccept) := fun _ _ h => nomatch h

theorem lnchHeaderRead (id : Nat) : Statement (.lnchHeaderRead id) := fun _ _ h => nomatch h

theorem launchDeal (launch target : Nat) : Statement (.launchDeal launch target) := fun _ _ h => nomatch h

theorem persistAdmit (launch : Nat) : Statement (.persistAdmit launch) := fun _ _ h => nomatch h

theorem runListPop (cluster : Nat) : Statement (.runListPop cluster) := fun _ _ h => nomatch h

theorem memoryCorePop (core : Nat) : Statement (.memoryCorePop core) := fun _ _ h => nomatch h

theorem agePromotion (core : Nat) : Statement (.agePromotion core) := fun _ _ h => nomatch h

theorem launchComplete (launch : Nat) : Statement (.launchComplete launch) := fun _ _ h => nomatch h

theorem foldOffer (cluster dom : Nat) : Statement (.foldOffer cluster dom) := fun _ _ h => nomatch h

theorem foldClaim (cluster : Nat) : Statement (.foldClaim cluster) := fun _ _ h => nomatch h

theorem foldPost (id : Nat) : Statement (.foldPost id) := fun _ _ h => nomatch h

theorem logRefill (cluster dom : Nat) : Statement (.logRefill cluster dom) := fun _ _ h => nomatch h

theorem foldCommitTake (cluster : Nat) : Statement (.foldCommitTake cluster) := fun _ _ h => nomatch h

theorem foldCompletionAction (ten dom : Nat) : Statement (.foldCompletionAction ten dom) := fun _ _ h => nomatch h

theorem adaptChange (ten dom shift : Nat) : Statement (.adaptChange ten dom shift) := fun _ _ h => nomatch h

theorem engineOpStart (q : EngQueue) : Statement (.engineOpStart q) := fun _ _ h => nomatch h

theorem tileTaskDispatch (cluster : Nat) : Statement (.tileTaskDispatch cluster) := fun _ _ h => nomatch h

theorem matrixUnitComplete (cluster array : Nat) : Statement (.matrixUnitComplete cluster array) := fun _ _ h => nomatch h

theorem matrixOpComplete (cluster array : Nat) : Statement (.matrixOpComplete cluster array) := fun _ _ h => nomatch h

theorem copyComplete (core : Nat) : Statement (.copyComplete core) := fun _ _ h => nomatch h

theorem streamComplete (core : Nat) : Statement (.streamComplete core) := fun _ _ h => nomatch h

theorem taskEngineComplete (cluster : Nat) : Statement (.taskEngineComplete cluster) := fun _ _ h => nomatch h

theorem walkComplete (id : Nat) : Statement (.walkComplete id) := fun _ _ h => nomatch h

theorem hostRequestFail (id : Nat) : Statement (.hostRequestFail id) := fun _ _ h => nomatch h

theorem asyncTrap (core slot : Nat) : Statement (.asyncTrap core slot) := fun _ _ h => nomatch h

theorem watchdogPre (vf q : Nat) : Statement (.watchdogPre vf q) := fun _ _ h => nomatch h

theorem watchdogKill (vf q : Nat) : Statement (.watchdogKill vf q) := fun _ _ h => nomatch h

theorem watchdogFence (vf q : Nat) : Statement (.watchdogFence vf q) := fun _ _ h => nomatch h

theorem sliceSwitch (cluster : Nat) : Statement (.sliceSwitch cluster) := fun _ _ h => nomatch h

theorem clusterIdle (cluster : Nat) : Statement (.clusterIdle cluster) := fun _ _ h => nomatch h

theorem stealRequest (cluster : Nat) : Statement (.stealRequest cluster) := fun _ _ h => nomatch h

theorem stealAnswer (cluster : Nat) : Statement (.stealAnswer cluster) := fun _ _ h => nomatch h

theorem stealBackoffExpiry (cluster : Nat) : Statement (.stealBackoffExpiry cluster) := fun _ _ h => nomatch h

theorem seepLineLand (core line : Nat) : Statement (.seepLineLand core line) := fun _ _ h => nomatch h

theorem ctxsaveComplete (save : SaveEnd) : Statement (.ctxsaveComplete save) := fun _ _ h => nomatch h

theorem migrationRestore (id : Nat) : Statement (.migrationRestore id) := fun _ _ h => nomatch h

theorem forwardRetire (core entry : Nat) : Statement (.forwardRetire core entry) := fun _ _ h => nomatch h

theorem coreStop (id core : Nat) : Statement (.coreStop id core) := fun _ _ h => nomatch h

theorem gstopComplete (id : Nat) : Statement (.gstopComplete id) := fun _ _ h => nomatch h

theorem handlerMessageArrival (id : Nat) : Statement (.handlerMessageArrival id) := fun _ _ h => nomatch h

theorem builtinStore (id : Nat) : Statement (.builtinStore id) := fun _ _ h => nomatch h

theorem builtinLoad (id : Nat) : Statement (.builtinLoad id) := fun _ _ h => nomatch h

theorem builtinAtomic (id : Nat) : Statement (.builtinAtomic id) := fun _ _ h => nomatch h

theorem builtinPost (id : Nat) : Statement (.builtinPost id) := fun _ _ h => nomatch h

theorem builtinDecr (id : Nat) : Statement (.builtinDecr id) := fun _ _ h => nomatch h

theorem sendAck (id : Nat) : Statement (.sendAck id) := fun _ _ h => nomatch h

theorem mcstStamp (id : Nat) : Statement (.mcstStamp id) := fun _ _ h => nomatch h

theorem mcstStampReturn (id : Nat) : Statement (.mcstStampReturn id) := fun _ _ h => nomatch h

theorem multicastStoreArrival (id : Nat) : Statement (.multicastStoreArrival id) := fun _ _ h => nomatch h

theorem gapplyReport (group member gapply : Nat) : Statement (.gapplyReport group member gapply) := fun _ _ h => nomatch h

theorem sluiceGReport (group : Nat) : Statement (.sluiceGReport group) := fun _ _ h => nomatch h

theorem resendRequest (group : Nat) : Statement (.resendRequest group) := fun _ _ h => nomatch h

theorem memberLoss (group member : Nat) : Statement (.memberLoss group member) := fun _ _ h => nomatch h

theorem sequencerFailover (group first : Nat) (others : List Nat) : Statement (.sequencerFailover group first others) := fun _ _ h => nomatch h

theorem operationTimeout (id : Nat) : Statement (.operationTimeout id) := fun _ _ h => nomatch h

theorem meshFlitResend (position port resends : Nat) : Statement (.meshFlitResend position port resends) := fun _ _ h => nomatch h

theorem delmelFrameReceive (port vc : Nat) (crcOk : Bool) (packets : List Packet) : Statement (.delmelFrameReceive port vc crcOk packets) := fun _ _ h => nomatch h

theorem portRetrain (port healthyLanes : Nat) (reserve : Bool) : Statement (.portRetrain port healthyLanes reserve) := fun _ _ h => nomatch h

theorem regionRestitch (region : Region) (linksUp : Bool) : Statement (.regionRestitch region linksUp) := fun _ _ h => nomatch h

theorem qstatusWrite (vf q : Nat) (v : Word) : Statement (.qstatusWrite vf q v) := fun _ _ h => nomatch h

theorem tsliceWrite (vf : Nat) (v : Word) : Statement (.tsliceWrite vf v) := fun _ _ h => nomatch h

theorem pwrcapWrite (v : Word) : Statement (.pwrcapWrite v) := fun _ _ h => nomatch h

theorem pwgtWrite (vf hi : Nat) (v : Word) : Statement (.pwgtWrite vf hi v) := fun _ _ h => nomatch h

theorem registerWrite (fn off : Nat) (v : Word) : Statement (.registerWrite fn off v) := fun _ _ h => nomatch h

theorem mboxAssign (desc : Word) : Statement (.mboxAssign desc) := fun _ _ h => nomatch h

theorem mboxFree (vf : Nat) : Statement (.mboxFree vf) := fun _ _ h => nomatch h

theorem mboxShare (cluster : Nat) (vfs : List Nat) : Statement (.mboxShare cluster vfs) := fun _ _ h => nomatch h

theorem mboxPart (p : PartWrite) : Statement (.mboxPart p) := fun _ _ h => nomatch h

theorem mboxLife (first : Nat) : Statement (.mboxLife first) := fun _ _ h => nomatch h

theorem configWrite (vf : Nat) (changesVf : Bool) : Statement (.configWrite vf changesVf) := fun _ _ h => nomatch h

theorem bar2UnprotectedRequest (vf : Nat) (isWrite : Bool) : Statement (.bar2UnprotectedRequest vf isWrite) := fun _ _ h => nomatch h

theorem getVersion (fn : Nat) : Statement (.getVersion fn) := fun _ _ h => nomatch h

theorem getCapabilities (fn : Nat) : Statement (.getCapabilities fn) := fun _ _ h => nomatch h

theorem negotiateAlgorithms (fn : Nat) (supported : Bool) : Statement (.negotiateAlgorithms fn supported) := fun _ _ h => nomatch h

theorem getDigests (fn : Nat) : Statement (.getDigests fn) := fun _ _ h => nomatch h

theorem getCertificate (fn : Nat) : Statement (.getCertificate fn) := fun _ _ h => nomatch h

theorem challenge (fn : Nat) : Statement (.challenge fn) := fun _ _ h => nomatch h

theorem getMeasurements (fn index : Nat) : Statement (.getMeasurements fn index) := fun _ _ h => nomatch h

theorem keyExchange (fn : Nat) (unsupported : Bool) : Statement (.keyExchange fn unsupported) := fun _ _ h => nomatch h

theorem finish (fn : Nat) : Statement (.finish fn) := fun _ _ h => nomatch h

theorem keyUpdate (fn : Nat) : Statement (.keyUpdate fn) := fun _ _ h => nomatch h

theorem endSession (fn : Nat) : Statement (.endSession fn) := fun _ _ h => nomatch h

theorem vendorDefinedRequest (asked : Asked) (nonce : BitVec 256) (base len : Word) : Statement (.vendorDefinedRequest asked nonce base len) := fun _ _ h => nomatch h

theorem securedMessage (fn : Nat) (authentic : Bool) : Statement (.securedMessage fn authentic) := fun _ _ h => nomatch h

theorem lockInterface (vf : Nat) : Statement (.lockInterface vf) := fun _ _ h => nomatch h

theorem ideKm (vf : Nat) (session : Nat) : Statement (.ideKm vf session) := fun _ _ h => nomatch h

theorem coldReset (b : BootReport) : Statement (.coldReset b) := fun _ _ h => nomatch h

theorem warmReset (b : BootReport) : Statement (.warmReset b) := fun _ _ h => nomatch h

theorem recoveryImagePush (img : FirmwareImage) : Statement (.recoveryImagePush img) := fun _ _ h => nomatch h

theorem scrubChunkComplete : Statement (.scrubChunkComplete) := fun _ _ h => nomatch h

theorem patrolRead (addr : Nat) (found : Ecc) : Statement (.patrolRead addr found) := fun _ _ h => nomatch h

theorem keyIntegrityCheck (slot : Nat) (fails : Bool) : Statement (.keyIntegrityCheck slot fails) := fun _ _ h => nomatch h

theorem lifetimeHourTick (celsius watts : Nat) : Statement (.lifetimeHourTick celsius watts) := fun _ _ h => nomatch h

theorem illegalInstruction (w : BitVec 32) : Statement (.illegalInstruction w) := fun _ _ h => nomatch h

theorem fetchFault (code : Nat) (tval : Word) : Statement (.fetchFault code tval) := fun _ _ h => nomatch h

theorem tdispStartInterface (vf : Nat) : Statement (.tdispStartInterface vf) := fun _ _ h => nomatch h

theorem slli (d a : Reg) (w : Bool) (n : BitVec 6) : Statement (.slli d a w n) := by
  intro hw x h
  cases h
  rw [decode_SI _ (by rfl)]
  have hs : (w && n.getLsbD 5) = false := by cases w <;> simpa [Instr.wf] using hw
  change decShi d a _ = _
  simp only [decShi, shi_w, shi_n, shi_k, hs]
  rfl

theorem srli (d a : Reg) (w : Bool) (n : BitVec 6) : Statement (.srli d a w n) := by
  intro hw x h
  cases h
  rw [decode_SI _ (by rfl)]
  have hs : (w && n.getLsbD 5) = false := by cases w <;> simpa [Instr.wf] using hw
  change decShi d a _ = _
  simp only [decShi, shi_w, shi_n, shi_k, hs]
  rfl

theorem srai (d a : Reg) (w : Bool) (n : BitVec 6) : Statement (.srai d a w n) := by
  intro hw x h
  cases h
  rw [decode_SI _ (by rfl)]
  have hs : (w && n.getLsbD 5) = false := by cases w <;> simpa [Instr.wf] using hw
  change decShi d a _ = _
  simp only [decShi, shi_w, shi_n, shi_k, hs]
  rfl

theorem rori (d a : Reg) (w : Bool) (n : BitVec 6) : Statement (.rori d a w n) := by
  intro hw x h
  cases h
  rw [decode_SI _ (by rfl)]
  have hs : (w && n.getLsbD 5) = false := by cases w <;> simpa [Instr.wf] using hw
  change decShi d a _ = _
  simp only [decShi, shi_w, shi_n, shi_k, hs]
  rfl

theorem jr (a : Reg) (o : BitVec 14) : Statement (.jr a o) := by
  intro _ x h
  cases h
  rw [decode_SI _ (by rfl)]
  change decJreg _ a _ = _
  simp only [decJreg, jreg_k, jreg_o]
  rfl

theorem jalr (d a : Reg) (o : BitVec 14) : Statement (.jalr d a o) := by
  intro _ x h
  cases h
  rw [decode_SI _ (by rfl)]
  change decJreg _ a _ = _
  simp only [decJreg, jreg_k, jreg_o]
  rfl

theorem qfence (m : BitVec 5) : Statement (.qfence m) := by
  intro _ x h
  cases h
  rw [decode_S3 _ (by rfl)]
  change decSync _ _ _ _ _ _ = _
  simp only [decSync, five4_hi, five4_lo]
  rfl

theorem gbar (l : BitVec 3) : Statement (.gbar l) := by
  intro hw x h
  cases h
  rw [decode_S3 _ (by rfl)]
  have h7 : ¬ l.toNat = 7 := by
    have : l.toNat < 7 := by simpa [Instr.wf] using hw
    omega
  change decSync _ _ _ _ _ _ = _
  simp only [decSync, sync_l, sync_k]
  change (if l.toNat = 7 then none else some (Instr.gbar l)) = _
  rw [if_neg h7]

theorem mbw (a : Reg) (k : BitVec 3) (wa : Bool) : Statement (.mbw a k wa) := by
  intro hw x h
  cases h
  rw [decode_S3 _ (by rfl)]
  have h6 : ¬ 6 ≤ (0#2 ++ k).toNat := mb_lt k (by simpa [Instr.wf] using hw)
  change (if 6 ≤ (0#2 ++ k).toNat then none else _) = _
  rw [if_neg h6, mb_k]

theorem mbr (d : Reg) (k : BitVec 3) : Statement (.mbr d k) := by
  intro hw x h
  cases h
  rw [decode_S3 _ (by rfl)]
  have h6 : ¬ 6 ≤ (0#2 ++ k).toNat := mb_lt k (by simpa [Instr.wf] using hw)
  change (if 6 ≤ (0#2 ++ k).toNat then none else _) = _
  rw [if_neg h6, mb_k]

theorem post (d a b : Reg) (wa wb : Bool) (m : BitVec 4) : Statement (.post d a b wa wb m) := by
  intro _ x h
  cases h
  rw [decode_S3 _ (by rfl)]
  change decFold _ _ _ _ _ _ = _
  simp only [decFold, fold_m, fold_k]
  rfl

theorem fdstat (d : Reg) (m : BitVec 4) : Statement (.fdstat d m) := by
  intro _ x h
  cases h
  rw [decode_S3 _ (by rfl)]
  change decFold _ _ _ _ _ _ = _
  simp only [decFold, fold_m, fold_k]
  rfl

theorem ego (e : EngCode) (a : Reg) : Statement (.ego e a) := by
  intro hw x h
  cases h
  rw [decode_E _ (by rfl)]
  cases e <;> first | rfl | (exact absurd hw (by simp [Instr.wf]))

theorem bank (st : BankReq) (n : BitVec 6) : Statement (.bank st n) := by
  intro _ x h
  cases h
  rw [decode_S3 _ (by rfl)]
  change decBank _ _ = _
  simp only [decBank, bank_8, bank_c, bank_n, bankReq_code]
  rfl

theorem bstat (d : Reg) (n : BitVec 6) : Statement (.bstat d n) := by
  intro _ x h
  cases h
  rw [decode_S3 _ (by rfl)]
  change decBank _ _ = _
  simp only [decBank, bank_8, bank_n]
  rfl

theorem vshl (t : ITy) (d a : RowName) (n : BitVec 5) (l : Bool) : Statement (.vshl t d a n l) := by
  intro hw x h
  cases h
  have hn : ¬ t.width ≤ n.toNat := by simpa [Instr.wf] using hw
  cases t <;>
    (rw [decode_V _ (by rfl)]
     change decVI _ d a _ l 13#4 = _
     simp only [decVI, two5_lo, two5_hi]
     change (if _ then none else _) = _
     rw [if_neg hn]
     rfl)

theorem vshr (t : ITy) (d a : RowName) (n : BitVec 5) (l : Bool) : Statement (.vshr t d a n l) := by
  intro hw x h
  cases h
  have hn : ¬ t.width ≤ n.toNat := by simpa [Instr.wf] using hw
  cases t <;>
    (rw [decode_V _ (by rfl)]
     change decVI _ d a _ l 13#4 = _
     simp only [decVI, two5_lo, two5_hi]
     change (if _ then none else _) = _
     rw [if_neg hn]
     rfl)

theorem vsra (t : ITy) (d a : RowName) (n : BitVec 5) (l : Bool) : Statement (.vsra t d a n l) := by
  intro hw x h
  cases h
  have hn : ¬ t.width ≤ n.toNat := by simpa [Instr.wf] using hw
  cases t <;>
    (rw [decode_V _ (by rfl)]
     change decVI _ d a _ l 13#4 = _
     simp only [decVI, two5_lo, two5_hi]
     change (if _ then none else _) = _
     rw [if_neg hn]
     rfl)

theorem vbcst (d : RowName) (a : Reg) (w : LaneW) : Statement (.vbcst d a w) := by
  intro _ x h
  cases h
  rw [decode_V _ (by rfl)]
  change decMov d (0#2 ++ a) (w.code ++ 0#5) false 5#4 = _
  simp only [decMov, two5_lo, two5_hi, laneW_code]
  rfl

theorem vins (d : RowName) (a : Reg) (w : LaneW) (n : BitVec 5) : Statement (.vins d a w n) := by
  intro hw x h
  cases h
  rw [decode_V _ (by rfl)]
  have hn : ¬ w.lanes ≤ n.toNat := by simpa [Instr.wf] using hw
  change decMov d (0#2 ++ a) (w.code ++ n) false 6#4 = _
  simp only [decMov, two5_lo, two5_hi, laneW_code]
  change (if _ then none else _) = _
  rw [if_neg hn]

theorem vext (d : Reg) (a : RowName) (w : LaneW) (n : BitVec 5) (l : Bool) : Statement (.vext d a w n l) := by
  intro hw x h
  cases h
  rw [decode_V _ (by rfl)]
  have hn : ¬ w.lanes ≤ n.toNat := by simpa [Instr.wf] using hw
  change decMov (0#2 ++ d) a (w.code ++ n) l 7#4 = _
  simp only [decMov, two5_lo, two5_hi, laneW_code]
  change (if _ then none else _) = _
  rw [if_neg hn]

theorem vrep (a : Reg) (n : BitVec 4) (b : Reg) : Statement (.vrep a n b) := by
  intro _ x h
  cases h
  rw [decode_V _ (by rfl)]
  change decMov (0#2 ++ a) (0#3 ++ n) (0#2 ++ b) false 15#4 = _
  simp only [decMov, two5_lo, three4_lo]
  rfl

theorem vcvt (d a : RowName) (rm : RMode) (sat amx : Bool) (tp : BitVec 4) (l : Bool) : Statement (.vcvt d a rm sat amx tp l) := by
  intro _ x h
  cases h
  rw [decode_V _ (by rfl)]
  change decCvt _ _ _ _ _ = _
  simp only [decCvt, cvt_sat, cvt_amx, cvt_t, cvt_r, two2_lo, two2_hi, tp_split, rmode_code]
  rfl

theorem vpack (d a : RowName) (rm : RMode) (sat amx : Bool) (tp : BitVec 4) (l : Bool) : Statement (.vpack d a rm sat amx tp l) := by
  intro hw x h
  cases h
  rw [decode_V _ (by rfl)]
  have ht : packable tp = true := hw
  change decCvt _ _ _ _ _ = _
  simp only [decCvt, cvt_sat, cvt_amx, cvt_t, cvt_r, two2_lo, two2_hi, tp_split, rmode_code, ht]
  rfl

theorem vwiden (d a : RowName) (rm : RMode) (sat amx : Bool) (tp : BitVec 4) (l : Bool) : Statement (.vwiden d a rm sat amx tp l) := by
  intro hw x h
  cases h
  rw [decode_V _ (by rfl)]
  have ht : widenable tp = true := hw
  change decCvt _ _ _ _ _ = _
  simp only [decCvt, cvt_sat, cvt_amx, cvt_t, cvt_r, two2_lo, two2_hi, tp_split, rmode_code, ht]
  rfl

theorem vcvtB (d a : RowName) (rm : RMode) (sat amx : Bool) (tb : BitVec 3) (l : Bool) : Statement (.vcvtB d a rm sat amx tb l) := by
  intro _ x h
  cases h
  rw [decode_V _ (by rfl)]
  change decCvt _ _ _ _ _ = _
  simp only [decCvt, cvt_sat, cvt_amx, cvt_t, cvt_r, b_lo, b_hi, b_1, tb_split, rmode_code]
  rfl

theorem vsprs (d a : RowName) (m : Reg) (l : Bool) : Statement (.vsprs d a m l) := by
  intro _ x h
  cases h
  rw [decode_V _ (by rfl)]
  change decSpr d a (0#2 ++ m) l 0#4 = _
  simp only [decSpr, two5_lo]
  rfl

theorem vsexp (d a : RowName) (m : Reg) (l : Bool) : Statement (.vsexp d a m l) := by
  intro _ x h
  cases h
  rw [decode_V _ (by rfl)]
  change decSpr d a (0#2 ++ m) l 1#4 = _
  simp only [decSpr, two5_lo]
  rfl

theorem vsdot (d : Reg) (a b : RowName) (l : Bool) : Statement (.vsdot d a b l) := by
  intro hw x h
  cases h
  rw [decode_V _ (by rfl)]
  have h0 : d.getLsbD 0 = false := by simpa [Instr.wf] using hw
  change decSpr (0#2 ++ d) a b l 2#4 = _
  simp only [decSpr, two5_lo, two5_bit, h0]
  rfl

theorem trap (c : BitVec 20) : Statement (.trap c) := by
  intro _ x h
  cases h
  rw [decode_SU _ (by rfl)]
  change (if _ then _ else _) = _
  simp only [su_k, su_c]
  rfl

theorem brk (c : BitVec 20) : Statement (.brk c) := by
  intro _ x h
  cases h
  rw [decode_SU _ (by rfl)]
  change (if _ then _ else _) = _
  simp only [su_k, su_c]
  rfl


end Sys2Proof.Laws.RoundTrip
end

