-- ==== Sys2Proof/Tests/Slice0.lean ====
section
/-! SUPPORT. Tests: words of every instruction that has one, the refusals of WellFormed, single instructions of the manual's examples, and for
each statement of the certificate a machine and operands that meet its hypotheses, clause by clause. -/

namespace Sys2Proof.Tests

open Sys2Proof Sys2Proof.Machine

/- One theorem after another: many kernel evaluations at once need more memory than a check has. -/
set_option Elab.async false

/-! ## Small machines -/

/-- A tenant that owns cluster 0, its scratch banks, matrix engine and fold store, 2 MiB of stack memory and 2 MiB of channel 0. -/
def ten1 : Tenant :=
  { st := .run, tdi := .run, pairs := 0xFF#512, scr := [(0, BitVec.allOnes 48), (1, BitVec.allOnes 48)], matrix := 1#64, fold := 1#64,
    mwin := [0x7#64, 0x80_0000_0007#64, 0x8000_0000_0007#64, 0#64, 0#64, 0#64, 0#64, 0#64], kslot := 16, tvec := 0x8000#64,
    queues := [(0, { cfg := 0x8000_0000_0000_0004#64, base := 0x3000#64, wp := 1 })], nq := 1, pwgt0 := 1#64, credit := [(0, 1)],
    ptroot := 0x10_0000#64 }

/-- Translations of tenant 1 at every place that the tests use. -/
def tlb1 : List TlbEntry :=
  [⟨1, 0, 21, 0, true, true, true, true⟩, ⟨1, 0x20_0000, 21, 0x80_0000_0000, true, true, true, true⟩,
   ⟨1, 0x40_0000, 21, 0x8000_0000_0000, true, true, true, true⟩, ⟨0, 0, 21, 0, true, true, true, true⟩]

/-- A core with a slot in place 0 and every bank Full. -/
def coreOf (x : Slot) : Core :=
  { slots := (Vector.replicate 4 {}).set 0 x, b0 := 0xAAAA_AAAA_AAAA_AAAA#64, b1 := 0xAAAA_AAAA_AAAA_AAAA#64 }

/-- A strand of tenant 1 with three tiles and three scratch banks. -/
def run1 : Slot := { occ := .running, ten := 1, pc := 0x1000#64, tiles := [0, 1, 2], sb := 7#48, party := 1 }

/-- A slot with registers written. -/
def regs (x : Slot) (l : List (Nat × Nat)) : Slot := l.foldl (fun y p => y.wr (BitVec.ofNat 5 p.1) (wd p.2)) x

/-- A machine whose core `k` has the slot in place 0, which issues. -/
def at_ (k : Nat) (x : Slot) : State :=
  { cores := [(k, coreOf x)], clusters := [(0, { tlb := tlb1 }), (1, { tlb := tlb1 })], tenants := [(1, ten1)], keys := [(16, { st := .loaded, gen := 1 })],
    cur := ⟨k, 0⟩, fresh := 100 }

/-- Core 0 with registers written. -/
def mach (l : List (Nat × Nat)) : State := at_ 0 (regs run1 l)

/-- A monitor core at level M with registers written. -/
def moni (l : List (Nat × Nat)) : State := at_ 2048 (regs { occ := .running, level := .m, pc := 0x1000#64, party := 1 } l)

/-- Words stored at an address. -/
def stored (s : State) (k : Nat) (ws : List Nat) : State := { s with mem := Memory.setBytes s.mem k (ws.flatMap fun w => leBytes 8 w) }

/-- An address in the scratch of core 0. -/
def scr0 : Nat := 0x100_0000_0000_0000

/-- Ready as a check. -/
theorem ready_iff (s : State) (src dst : List Reg) : s.Ready src dst ↔
    (decide (s.cur.slot < 4) && src.all s.sl.isFull && dst.all fun d => !s.producing s.cur d) = true := by
  simp only [Bool.and_eq_true, decide_eq_true_eq, List.all_eq_true, Bool.not_eq_true']
  exact ⟨fun h => ⟨⟨h.1, h.2⟩, h.3⟩, fun h => ⟨h.1.1, h.1.2, h.2⟩⟩

/-- A machine with nothing under way holds back no release of any instruction: LNCH, SPAWN, POST, FREL, SEND and MCST of the witnesses (R85). -/
theorem witness_quietFor {s : State} (h : s.flights = []) (a : Act) : s.quietFor a = true := by
  simp [State.quietFor, State.flightsOf, h]

/-- A flight of the strand in slot 0 of a core. -/
def fl (core : Nat) (a : Act) : Flight := { id := 7, who := ⟨core, 0⟩, party := 1, ten := 1, level := .u, queue := 0, born := 0, act := a }

/-! ## Words -/

/-- Words of the ALU, field by field from the encoding tables. -/
theorem test_decode_Alu : ∀ p ∈ ([
    (0b000001_10010_01010_10101_1_0_1_00000000#32, .add 18#5 10#5 21#5 true false true),
    (0b000001_10010_01010_10101_1_0_1_00000001#32, .sub 18#5 10#5 21#5 true false true),
    (0b000001_10010_01010_10101_1_0_1_00000010#32, .mul 18#5 10#5 21#5 true false true),
    (0b000001_10010_01010_10101_1_0_000000011#32, .mulh 18#5 10#5 21#5 true false),
    (0b000001_10010_01010_10101_1_0_000000100#32, .mulhu 18#5 10#5 21#5 true false),
    (0b000001_10010_01010_10101_1_0_1_00000101#32, .div 18#5 10#5 21#5 true false true),
    (0b000001_10010_01010_10101_1_0_1_00000110#32, .divu 18#5 10#5 21#5 true false true),
    (0b000001_10010_01010_10101_1_0_1_00000111#32, .rem 18#5 10#5 21#5 true false true),
    (0b000001_10010_01010_10101_1_0_1_00001000#32, .remu 18#5 10#5 21#5 true false true),
    (0b000001_10010_01010_10101_1_0_000010000#32, .and 18#5 10#5 21#5 true false),
    (0b000001_10010_01010_10101_1_0_000010001#32, .or 18#5 10#5 21#5 true false),
    (0b000001_10010_01010_10101_1_0_000010010#32, .xor 18#5 10#5 21#5 true false),
    (0b000001_10010_01010_10101_1_0_000010011#32, .andn 18#5 10#5 21#5 true false),
    (0b000001_10010_01010_10101_1_0_000010100#32, .orn 18#5 10#5 21#5 true false),
    (0b000001_10010_01010_10101_1_0_1_00100000#32, .sll 18#5 10#5 21#5 true false true),
    (0b000001_10010_01010_10101_1_0_1_00100001#32, .srl 18#5 10#5 21#5 true false true),
    (0b000001_10010_01010_10101_1_0_1_00100010#32, .sra 18#5 10#5 21#5 true false true),
    (0b000001_10010_01010_10101_1_0_1_00100011#32, .rol 18#5 10#5 21#5 true false true),
    (0b000001_10010_01010_10101_1_0_1_00100100#32, .ror 18#5 10#5 21#5 true false true),
    (0b000001_10010_01010_10101_1_0_000110000#32, .slt 18#5 10#5 21#5 true false),
    (0b000001_10010_01010_10101_1_0_000110001#32, .sltu 18#5 10#5 21#5 true false),
    (0b000001_10010_01010_10101_1_0_000110010#32, .min 18#5 10#5 21#5 true false),
    (0b000001_10010_01010_10101_1_0_000110011#32, .max 18#5 10#5 21#5 true false),
    (0b000001_10010_01010_10101_1_0_000110100#32, .minu 18#5 10#5 21#5 true false),
    (0b000001_10010_01010_10101_1_0_000110101#32, .maxu 18#5 10#5 21#5 true false),
    (0b000001_10010_01010_00000_1_0_1_01000000#32, .clz 18#5 10#5 true true),
    (0b000001_10010_01010_00000_1_0_1_01000001#32, .ctz 18#5 10#5 true true),
    (0b000001_10010_01010_00000_1_0_1_01000010#32, .popc 18#5 10#5 true true),
    (0b000001_10010_01010_10101_1_0_001000011#32, .sext 18#5 10#5 21#5 true false),
    (0b000001_10010_01010_10101_1_0_001000100#32, .bext 18#5 10#5 21#5 true false),
    (0b000001_10010_01010_10101_1_0_001000101#32, .bins 18#5 10#5 21#5 true false)] : List (BitVec 32 × Instr)), decode p.1 = some p.2 ∧ encode p.2 = some p.1 := by decide +kernel

/-- Words of immediates and shifts, field by field from the encoding tables. -/
theorem test_decode_Immediates : ∀ p ∈ ([
    (0b000010_10010_01010_0001111000011111#32, .addi 18#5 10#5 7711#16),
    (0b000011_10010_01010_0001111000011111#32, .andi 18#5 10#5 7711#16),
    (0b000100_10010_01010_0001111000011111#32, .ori 18#5 10#5 7711#16),
    (0b000101_10010_01010_0001111000011111#32, .xori 18#5 10#5 7711#16),
    (0b000110_10010_01010_0001111000011111#32, .slti 18#5 10#5 7711#16),
    (0b000111_10010_01010_0001111000011111#32, .sltiu 18#5 10#5 7711#16),
    (0b001000_10010_01010_00_1_0000000_000011#32, .slli 18#5 10#5 true 3#6),
    (0b001000_10010_01010_01_1_0000000_000011#32, .srli 18#5 10#5 true 3#6),
    (0b001000_10010_01010_10_1_0000000_000011#32, .srai 18#5 10#5 true 3#6),
    (0b001000_10010_01010_11_1_0000000_000011#32, .rori 18#5 10#5 true 3#6),
    (0b001001_10010_001110001111000011111#32, .lui 18#5 466463#21),
    (0b001010_10010_001110001111000011111#32, .luh 18#5 466463#21),
    (0b001011_10010_001110001111000011111#32, .adpc 18#5 466463#21)] : List (BitVec 32 × Instr)), decode p.1 = some p.2 ∧ encode p.2 = some p.1 := by decide +kernel

/-- Words of branches and jumps, field by field from the encoding tables. -/
theorem test_decode_Branches : ∀ p ∈ ([
    (0b001100_01010_10101_0001111000011111#32, .beq 10#5 21#5 7711#16),
    (0b001101_01010_10101_0001111000011111#32, .bne 10#5 21#5 7711#16),
    (0b001110_01010_10101_0001111000011111#32, .blt 10#5 21#5 7711#16),
    (0b001111_01010_10101_0001111000011111#32, .bge 10#5 21#5 7711#16),
    (0b010000_01010_10101_0001111000011111#32, .bltu 10#5 21#5 7711#16),
    (0b010001_01010_10101_0001111000011111#32, .bgeu 10#5 21#5 7711#16),
    (0b010010_01011001110001111000011111#32, .j 23535135#26),
    (0b010011_01011001110001111000011111#32, .jal 23535135#26),
    (0b01010000000_01010_00_10110011100011#32, .jr 10#5 11491#14),
    (0b010100_10010_01010_01_10110011100011#32, .jalr 18#5 10#5 11491#14)] : List (BitVec 32 × Instr)), decode p.1 = some p.2 ∧ encode p.2 = some p.1 := by decide +kernel

/-- Words of accesses, field by field from the encoding tables. -/
theorem test_decode_Accesses : ∀ p ∈ ([
    (0b010101_10010_01010_101_10_01_000011111#32, .ld 18#5 10#5 .hu .dd .acq 31#9),
    (0b010110_10010_01010_010_10_10_000011111#32, .st 18#5 10#5 .w .dd .rel 31#9),
    (0b010111_1100010_01010_0_10_11000011111#32, .rld 98#7 10#5 .dd 1567#11),
    (0b010111_1100010_01010_1_10_11000011111#32, .rst 98#7 10#5 .dd 1567#11),
    (0b00000000000000000000000000000001#32, .tret),
    (0b000000_10010_01010_10101_1_0_000000010#32, .ctxsave 18#5 10#5 21#5 true false),
    (0b000000_10010_01010_00000_1_0000000011#32, .ctxload 18#5 10#5 true),
    (0b000000_10010_01010_10101_1_0_000000100#32, .migr 18#5 10#5 21#5 true false),
    (0b000000_10010_01010_10101_1_0_000000101#32, .gstop 18#5 10#5 21#5 true false),
    (0b00000000000_01010_10101_1_0_000000110#32, .tlbinv 10#5 21#5 true false),
    (0b0000000000000000_10101_0_1_000000111#32, .tlbinva 21#5 true)] : List (BitVec 32 × Instr)), decode p.1 = some p.2 ∧ encode p.2 = some p.1 := by decide +kernel

/-- Words of atomics, field by field from the encoding tables. -/
theorem test_decode_Atomics : ∀ p ∈ ([
    (0b011000_10010_01010_10101_1_0_10_1_000000#32, .aadd 18#5 10#5 21#5 true false .rel true),
    (0b011000_10010_01010_10101_1_0_10_1_000001#32, .aand 18#5 10#5 21#5 true false .rel true),
    (0b011000_10010_01010_10101_1_0_10_1_000010#32, .aor 18#5 10#5 21#5 true false .rel true),
    (0b011000_10010_01010_10101_1_0_10_1_000011#32, .axor 18#5 10#5 21#5 true false .rel true),
    (0b011000_10010_01010_10101_1_0_10_1_000100#32, .amin 18#5 10#5 21#5 true false .rel true),
    (0b011000_10010_01010_10101_1_0_10_1_000101#32, .amax 18#5 10#5 21#5 true false .rel true),
    (0b011000_10010_01010_10101_1_0_10_1_000110#32, .aminu 18#5 10#5 21#5 true false .rel true),
    (0b011000_10010_01010_10101_1_0_10_1_000111#32, .amaxu 18#5 10#5 21#5 true false .rel true),
    (0b011000_10010_01010_10101_1_0_10_1_001000#32, .aswp 18#5 10#5 21#5 true false .rel true),
    (0b011000_10010_01010_10101_1_0_10_1_001001#32, .acas 18#5 10#5 21#5 true false .rel true),
    (0b011000_10010_01010_10101_1_0_10_0001010#32, .afadd 18#5 10#5 21#5 true false .rel)] : List (BitVec 32 × Instr)), decode p.1 = some p.2 ∧ encode p.2 = some p.1 := by decide +kernel

/-- Words of synchronisation, messages and folds, field by field from the encoding tables. -/
theorem test_decode_SyncMessagesFolds : ∀ p ∈ ([
    (0b0110010000000000000000000_011_0000#32, .fence .device),
    (0b01100100000000000000000_01001_0001#32, .qfence 9#5),
    (0b011001_10010_01010_10101_1_0_000000010#32, .cbar 18#5 10#5 21#5 true false),
    (0b0110010000000000000000000_101_0011#32, .gbar 5#3),
    (0b01100100000_01010_00000_0_0000000100#32, .waitfe 10#5),
    (0b01100100000_01010_00000_0_0000000101#32, .sete 10#5),
    (0b01101000000_01010_00100_1_0000000000#32, .mbw 10#5 4#3 true),
    (0b011010_10010_00000_00100_00000000001#32, .mbr 18#5 4#3),
    (0b011010_10010_000000000000000000010#32, .send 18#5),
    (0b011010_10010_000000000000000000011#32, .mcst 18#5),
    (0b011010_10010_01010_00000_1_0000000100#32, .mseq 18#5 10#5 true),
    (0b011011_10010_01010_10101_1_0_0_1001_0000#32, .post 18#5 10#5 21#5 true false 9#4),
    (0b01101100000000000000000000000001#32, .frel),
    (0b011011_10010_0000000000000_1001_0010#32, .fdstat 18#5 9#4)] : List (BitVec 32 × Instr)), decode p.1 = some p.2 ∧ encode p.2 = some p.1 := by decide +kernel

/-- Words of engines, strands, banks and CSRs, field by field from the encoding tables. -/
theorem test_decode_EnginesStrandsBanksCsrs : ∀ p ∈ ([
    (0b011100_0010_000000_01010_10101_000000#32, .ewr .fold 10#5 21#5),
    (0b011100_0010_00000100000_10101_10010_0#32, .erd .fold 21#5 18#5),
    (0b011100_0010_00000100000_10101_10010_1#32, .erdAct .fold 21#5 18#5),
    (0b011100_0010_000010_01010_00000000000#32, .ego .fold 10#5),
    (0b011100_0010_000011_01010_00000000000#32, .ewait .fold 10#5),
    (0b011100_0010_000100_01010_00000_10010_0#32, .estat .fold 10#5 18#5),
    (0b0111000001000101_01010_00000_10010_0#32, .ttq 10#5 18#5),
    (0b01110100000_01010_00000_1_0000000000#32, .spawn 10#5 true),
    (0b01110100000000000000000_1_00000001#32, .susp true),
    (0b01110100000_01010_00000_1_0_1_00000010#32, .await 10#5 true true),
    (0b011101_10010_01010_10101_1_0_000000011#32, .decr 18#5 10#5 21#5 true false),
    (0b01110100000000000000000000000100#32, .halt),
    (0b01110100000_01010_00000_1_0100000100#32, .haltRt 10#5 true),
    (0b01110100000_01010_00000_1_0000000101#32, .taskq 10#5 true),
    (0b011101_10010_01010_00000_1_0000000110#32, .lnch 18#5 10#5 true),
    (0b011101_10010_01010_10101_1_0_000000111#32, .wid 18#5 10#5 21#5 true false),
    (0b011110000000000000000000_01_000011#32, .bank .retain 3#6),
    (0b011110_10010_000000000000100_000011#32, .bstat 18#5 3#6),
    (0b011111_10010_0000000_000000100010_00#32, .csrr 18#5 34#12),
    (0b011111_10010_01010_01_000000100010_00#32, .csrw 18#5 10#5 34#12),
    (0b011111_10010_01010_10_000000100010_00#32, .csrs 18#5 10#5 34#12),
    (0b011111_10010_01010_11_000000100010_00#32, .csrc 18#5 10#5 34#12)] : List (BitVec 32 × Instr)), decode p.1 = some p.2 ∧ encode p.2 = some p.1 := by decide +kernel

/-- Words of float lanes, field by field from the encoding tables. -/
theorem test_decode_FloatRows : ∀ p ∈ ([
    (0b1000_01_1100010_0011000_1000101_1_0000#32, .vaddF .bf16 98#7 24#7 69#7 true),
    (0b1000_01_1100010_0011000_1000101_1_0001#32, .vsubF .bf16 98#7 24#7 69#7 true),
    (0b1000_01_1100010_0011000_1000101_1_0010#32, .vmulF .bf16 98#7 24#7 69#7 true),
    (0b1000_01_1100010_0011000_1000101_1_0011#32, .vdiv .bf16 98#7 24#7 69#7 true),
    (0b1000_01_1100010_0011000_1000101_1_0100#32, .vfma .bf16 98#7 24#7 69#7 true),
    (0b1000_01_1100010_0011000_1000101_1_0101#32, .vfms .bf16 98#7 24#7 69#7 true),
    (0b1000_01_1100010_0011000_1000101_1_0110#32, .vminF .bf16 98#7 24#7 69#7 true),
    (0b1000_01_1100010_0011000_1000101_1_0111#32, .vmaxF .bf16 98#7 24#7 69#7 true),
    (0b1000_01_1100010_0011000_0000000_1_1000#32, .vabsF .bf16 98#7 24#7 true),
    (0b1000_01_1100010_0011000_0000000_1_1001#32, .vnegF .bf16 98#7 24#7 true),
    (0b1000_01_1100010_0011000_0000000_1_1010#32, .vsqrt .bf16 98#7 24#7 true),
    (0b1000_01_1100010_0011000_1000101_1_1011#32, .vscl .bf16 98#7 24#7 69#7 true),
    (0b1000_01_1100010_0011000_1000101_1_1100#32, .vcpys .bf16 98#7 24#7 69#7 true),
    (0b1000_01_1100010_0011000_1000101_1_1101#32, .vceqF .bf16 98#7 24#7 69#7 true),
    (0b1000_01_1100010_0011000_1000101_1_1110#32, .vcltF .bf16 98#7 24#7 69#7 true),
    (0b1000_01_1100010_0011000_1000101_1_1111#32, .vcle .bf16 98#7 24#7 69#7 true)] : List (BitVec 32 × Instr)), decode p.1 = some p.2 ∧ encode p.2 = some p.1 := by decide +kernel

/-- Words of integer lanes, field by field from the encoding tables. -/
theorem test_decode_IntegerRows : ∀ p ∈ ([
    (0b10_0100_1100010_0011000_1000101_1_0000#32, .vaddI .i16 98#7 24#7 69#7 true),
    (0b10_0100_1100010_0011000_1000101_1_0001#32, .vsubI .i16 98#7 24#7 69#7 true),
    (0b10_0100_1100010_0011000_1000101_1_0010#32, .vmulI .i16 98#7 24#7 69#7 true),
    (0b10_0100_1100010_0011000_1000101_1_0011#32, .vmulh .i16 98#7 24#7 69#7 true),
    (0b10_0100_1100010_0011000_1000101_1_0100#32, .vadds .i16 98#7 24#7 69#7 true),
    (0b10_0100_1100010_0011000_1000101_1_0101#32, .vsubs .i16 98#7 24#7 69#7 true),
    (0b10_0100_1100010_0011000_1000101_1_0110#32, .vminI .i16 98#7 24#7 69#7 true),
    (0b10_0100_1100010_0011000_1000101_1_0111#32, .vmaxI .i16 98#7 24#7 69#7 true),
    (0b10_0100_1100010_0011000_1000101_1_1000#32, .vminu .i16 98#7 24#7 69#7 true),
    (0b10_0100_1100010_0011000_1000101_1_1001#32, .vmaxu .i16 98#7 24#7 69#7 true),
    (0b10_0100_1100010_0011000_1000101_1_1010#32, .vceqI .i16 98#7 24#7 69#7 true),
    (0b10_0100_1100010_0011000_1000101_1_1011#32, .vcltI .i16 98#7 24#7 69#7 true),
    (0b10_0100_1100010_0011000_1000101_1_1100#32, .vcltu .i16 98#7 24#7 69#7 true),
    (0b10_0100_1100010_0011000_00_00011_1_1101#32, .vshl .i16 98#7 24#7 3#5 true),
    (0b10_0100_1100010_0011000_01_00011_1_1101#32, .vshr .i16 98#7 24#7 3#5 true),
    (0b10_0100_1100010_0011000_10_00011_1_1101#32, .vsra .i16 98#7 24#7 3#5 true),
    (0b10_0100_1100010_0011000_0000000_1_1110#32, .vabsI .i16 98#7 24#7 true),
    (0b10_0100_1100010_0011000_0000000_1_1111#32, .vnegI .i16 98#7 24#7 true)] : List (BitVec 32 × Instr)), decode p.1 = some p.2 ∧ encode p.2 = some p.1 := by decide +kernel

/-- Words of moves and VREP, field by field from the encoding tables. -/
theorem test_decode_Moves : ∀ p ∈ ([
    (0b100110_1100010_0011000_1000101_1_0000#32, .vand 98#7 24#7 69#7 true),
    (0b100110_1100010_0011000_1000101_1_0001#32, .vor 98#7 24#7 69#7 true),
    (0b100110_1100010_0011000_1000101_1_0010#32, .vxor 98#7 24#7 69#7 true),
    (0b100110_1100010_0011000_1000101_1_0011#32, .vsel 98#7 24#7 69#7 true),
    (0b100110_1100010_0011000_1000101_1_0100#32, .vperm 98#7 24#7 69#7 true),
    (0b100110_1100010_00_01010_01_0000000101#32, .vbcst 98#7 10#5 .h),
    (0b100110_1100010_00_01010_01_00011_00110#32, .vins 98#7 10#5 .h 3#5),
    (0b10011000_10010_0011000_01_00011_1_0111#32, .vext 18#5 24#7 .h 3#5 true),
    (0b100110_1100010_0011000_01_00000_1_1000#32, .vrev 98#7 24#7 .h true),
    (0b100110_1100010_0011000_1000101_1_1001#32, .vzipH 98#7 24#7 69#7 true),
    (0b100110_1100010_0011000_1000101_1_1010#32, .vzipW 98#7 24#7 69#7 true),
    (0b100110_1100010_0011000_1000101_1_1011#32, .vuzpH 98#7 24#7 69#7 true),
    (0b100110_1100010_0011000_1000101_1_1100#32, .vuzpW 98#7 24#7 69#7 true),
    (0b1001100000000_0011000_0101101_1_1101#32, .vpark 24#7 45#7 true),
    (0b100110_1100010_0000000_0101101_01110#32, .vunpk 98#7 45#7),
    (0b10011000_01010_000_0011_00_10101_01111#32, .vrep 10#5 3#4 21#5)] : List (BitVec 32 × Instr)), decode p.1 = some p.2 ∧ encode p.2 = some p.1 := by decide +kernel

/-- Words of conversions, field by field from the encoding tables. -/
theorem test_decode_Conversions : ∀ p ∈ ([
    (0b100111_1100010_0011000_010_1_0_01_1_00_10#32, .vcvt 98#7 24#7 .rdn true false 9#4 true),
    (0b100111_1100010_0011000_010_1_0_10_1_01_11#32, .vpack 98#7 24#7 .rdn true false 14#4 true),
    (0b100111_1100010_0011000_010_1_0_11_1_10_10#32, .vwiden 98#7 24#7 .rdn true false 11#4 true),
    (0b100111_1100010_0011000_010_1_0_10_1_110_1#32, .vcvtB 98#7 24#7 .rdn true false 6#3 true),
    (0b100111_1100010_0011000_0100101_1_111_1#32, .vcvtef 98#7 24#7 37#7 true true)] : List (BitVec 32 × Instr)), decode p.1 = some p.2 ∧ encode p.2 = some p.1 := by decide +kernel

/-- Words of reductions and dot products, field by field from the encoding tables. -/
theorem test_decode_Reductions : ∀ p ∈ ([
    (0b101000_1100010_0011000_0000_100_1_0000#32, .vrsum 98#7 24#7 .i16 true),
    (0b101000_1100010_0011000_0000_100_1_0001#32, .vrmax 98#7 24#7 .i16 true),
    (0b101000_1100010_0011000_0000_100_1_0010#32, .vrmin 98#7 24#7 .i16 true),
    (0b101000_1100010_0011000_1000101_1_0011#32, .vdotF32 98#7 24#7 69#7 true),
    (0b101000_1100010_0011000_1000101_1_0100#32, .vdotBf16 98#7 24#7 69#7 true),
    (0b101000_1100010_0011000_1000101_1_0101#32, .vdotF16 98#7 24#7 69#7 true),
    (0b101000_1100010_0011000_1000101_1_0110#32, .vdotI16 98#7 24#7 69#7 true),
    (0b101000_1100010_0011000_1000101_1_0111#32, .vdotI8 98#7 24#7 69#7 true),
    (0b101000_1100010_0011000_1000101_1_1000#32, .vdotwBf16 98#7 24#7 69#7 true),
    (0b101000_1100010_0011000_1000101_1_1001#32, .vdotwF16 98#7 24#7 69#7 true),
    (0b101000_1100010_0011000_1000101_1_1010#32, .vdotwI16 98#7 24#7 69#7 true),
    (0b101000_1100010_0011000_1000101_1_1011#32, .vdotwI8 98#7 24#7 69#7 true)] : List (BitVec 32 × Instr)), decode p.1 = some p.2 ∧ encode p.2 = some p.1 := by decide +kernel

/-- Words of sparsity, field by field from the encoding tables. -/
theorem test_decode_Sparse : ∀ p ∈ ([
    (0b101001_1100010_0011000_00_00111_1_0000#32, .vsprs 98#7 24#7 7#5 true),
    (0b101001_1100010_0011000_00_00111_1_0001#32, .vsexp 98#7 24#7 7#5 true),
    (0b10100100_10010_0011000_1000101_1_0010#32, .vsdot 18#5 24#7 69#7 true)] : List (BitVec 32 × Instr)), decode p.1 = some p.2 ∧ encode p.2 = some p.1 := by decide +kernel

/-- Words of traps, hints and the system classes, field by field from the encoding tables. -/
theorem test_decode_TrapsHintsSystem : ∀ p ∈ ([
    (0b110000000000_10110011100011110000#32, .trap 735472#20),
    (0b110000000001_10110011100011110000#32, .brk 735472#20),
    (0b11110000000000000000000000000000#32, .nop),
    (0b1111000001_0_01010_0001111000011111#32, .pref 10#5 7711#16),
    (0b1111000010_1_000000000000000000000#32, .bhint true),
    (0b11110000110000000000000000000000#32, .yield),
    (0b11000100000_01010_00000_1_0000000001#32, .kzero 10#5 true),
    (0b110001_10010_01010_00000_1_0000000010#32, .kload 18#5 10#5 true),
    (0b110001_10010_01010_00000_1_0000000011#32, .scrub 18#5 10#5 true),
    (0b110001_10010_01010_00000_1_0000000100#32, .tnassign 18#5 10#5 true),
    (0b110001_10010_01010_00000_1_0000000101#32, .tnfree 18#5 10#5 true),
    (0b110001_10010_01010_00000_1_0000000110#32, .tnstat 18#5 10#5 true)] : List (BitVec 32 × Instr)), decode p.1 = some p.2 ∧ encode p.2 = some p.1 := by decide +kernel

/-- Words that the manual writes out in its examples and entries, beside those of the statement WrittenWordsDecode. -/
theorem test_decode_examples : ∀ p ∈ ([
    (0x501F0000#32, .jr 31#5 0#14), (0xC0000042#32, .trap 0x42#20), (0x74000101#32, .susp true), (0x740D0003#32, .decr 0#5 13#5 0#5 false false),
    (0x9800206D#32, .vpark 2#7 3#7 false), (0x9880006E#32, .vunpk 16#7 3#7), (0x9850016F#32, .vrep 10#5 0#4 11#5), (0x5C832000#32, .rst 16#7 12#5 .none 0#11),
    (0x64000030#32, .fence .device), (0x64000020#32, .fence .cluster), (0x64000031#32, .qfence 3#5), (0x658D7002#32, .cbar 12#5 13#5 14#5 false false),
    (0x64000023#32, .gbar 2#3), (0x640C0004#32, .waitfe 12#5), (0x69200002#32, .send 9#5), (0x68E00003#32, .mcst 7#5), (0x69070004#32, .mseq 8#5 7#5 false),
    (0x6C000001#32, .frel), (0x6D200032#32, .fdstat 9#5 3#4), (0x700028C0#32, .ewr .copy 5#5 3#5), (0x70020000#32, .ego .copy 0#5),
    (0x70030000#32, .ewait .copy 0#5), (0x79200112#32, .bstat 9#5 18#6), (0x11294020#32, .ori 9#5 9#5 0x4020#16), (0x29280000#32, .luh 9#5 0x80000#21),
    (0xA4800120#32, .vsprs 16#7 0#7 9#5 false), (0xA4410402#32, .vsdot 8#5 16#7 32#7 false)] : List (BitVec 32 × Instr)),
    decode p.1 = some p.2 := by decide +kernel

/-- WellFormed refuses an ill-formed term for each of its checks. -/
theorem test_wf_refuses : ∀ i ∈ [Instr.slli 1#5 2#5 true 32#6, .srli 1#5 2#5 true 32#6, .srai 1#5 2#5 true 32#6, .rori 1#5 2#5 true 32#6, .gbar 7#3,
    .mbw 1#5 6#3 false, .mbr 1#5 7#3, .ego .scrub 1#5, .vshl .i8 0#7 1#7 8#5 false, .vshr .i16 0#7 1#7 16#5 false, .vsra .i8 0#7 1#7 31#5 false,
    .vins 0#7 1#5 .d 4#5, .vext 1#5 0#7 .w 8#5 false, .vpack 0#7 1#7 .rne false false 4#4 false, .vwiden 0#7 1#7 .rne false false 0#4 false,
    .vsdot 9#5 0#7 1#7 false], i.wf = false := by decide

/-- WellFormed accepts the greatest values that the same checks allow. -/
theorem test_wf_accepts : ∀ i ∈ [Instr.slli 1#5 2#5 true 31#6, .slli 1#5 2#5 false 63#6, .gbar 6#3, .mbw 1#5 5#3 false, .mbr 1#5 5#3, .ego .stream 1#5,
    .vshl .i8 0#7 1#7 7#5 false, .vsra .i32 0#7 1#7 31#5 false, .vins 0#7 1#5 .b 31#5, .vext 1#5 0#7 .d 3#5 false,
    .vpack 0#7 1#7 .rne false false 14#4 false, .vwiden 0#7 1#7 .rne false false 15#4 false, .vsdot 8#5 0#7 1#7 false], i.wf = true := by decide

/-! ## Single instructions, by the manual's examples -/

/-- The machine after an answer. -/
def nx (o : Host.Outcome State Fault Refusal) : State :=
  match o with
  | .next t => t
  | _ => State.reset

/-- Row of 32 bytes. -/
def rw32 (l : List Nat) : Row := rowOf (l.map (BitVec.ofNat 8))

/-- R236: `bext s7, s5, s6` with s6 = 0x304 writes bits 7:4 of s5. -/
theorem test_bext : ((nx (exec (.bext 7#5 5#5 6#5 false false) (mach [(5, 0xABCD), (6, 0x304)]))).sl.rd 7#5) = 0xC#64 := by decide +kernel

/-- R257: `wid s7, s20, s21` of work ID 0x67 with widths 0x0003_0000_0003_0204 and field 1 gives 2. -/
theorem test_wid : let s := at_ 0 (regs { run1 with workid := 0x67#64 } [(20, 0x0003_0000_0003_0204), (21, 1)])
    (nx (exec (.wid 7#5 20#5 21#5 false false) s)).sl.rd 7#5 = 2#64 := by decide +kernel

/-- VSPRS of one group with ties (R279): 128 is kept, and of four 7s the three at the lowest places. -/
theorem test_vsprs : let x : RowIn := { a := [rw32 [3, 249, 7, 0, 128, 5, 7, 249]], b := 0#256, d := 0#256, sc := [], rm := .rne, amax := 0 }
    let y := rowCompute (.vsprs 16#7 0#7 9#5 false) x
    y.s = some 0x0000_6886_8868_8D11#64 ∧ y.d = [rw32 [0xF9, 0x07, 0x80, 0x07]] := by decide +kernel

/-- VSDOT of the same group (R281) gives −584. -/
theorem test_vsdot :
    let x : RowIn := { a := [rw32 [0xF9, 0x07, 0x80, 0x07]], b := rw32 ([1, 2, 3, 4, 5, 6, 7, 8] ++ List.replicate 24 1), d := 0#256,
                       sc := [0#64, 0x0000_6886_8868_8D11#64], rm := .rne, amax := 0 }
    (rowCompute (.vsdot 8#5 16#7 32#7 false) x).s = some 0xFFFF_FFFF_FFFF_FDB8#64 := by decide +kernel

/-- VPACK of four FP32 rows into FP8E4 (R122, R126, R128): 470.0 saturates to 448, a quiet NaN gives 0x7F, AMAX becomes 470.0. -/
theorem test_vpack : let one := [0x00, 0x00, 0x80, 0x3F]
    let r (n : Nat) (v : List Nat) : Row := rw32 ((List.range 8).flatMap fun i => if i = n then v else one)
    let x : RowIn := { a := [r 8 [], r 3 [0x00, 0x00, 0xEB, 0x43], r 5 [0x00, 0x00, 0xC0, 0x7F], r 8 []], b := 0#256, d := 0#256, sc := [], rm := .rne,
                       amax := 0x43C8_0000 }
    let y := rowCompute (.vpack 32#7 0#7 .rne true true 2#4 false) x
    (∀ i < 32, lane (y.d.headD 0#256) 8 i = if i = 11 then 0x7E else if i = 21 then 0x7F else 0x38) ∧ y.amax = 0x43EB_0000 := by decide +kernel

/-- LUI shifts by 16 and LUH puts its value above bit 36 (R239): the constant 0x0100_0000_A300_4020. -/
theorem test_lui_luh : (nx (exec (.lui 9#5 0xA300#21) (mach []))).sl.rd 9#5 = 0xA300_0000#64 ∧
    (nx (exec (.luh 9#5 0x80000#21) (mach [(9, 0xA300_4020)]))).sl.rd 9#5 = 0x0100_0000_A300_4020#64 := by decide +kernel

/-- R246, R336: TRAP with code 0x42 enters the handler at TVEC with the PC saved and the level S. -/
theorem test_trap : let t := nx (exec (.trap 0x42#20) (mach []))
    t.sl.pc = 0x8000#64 ∧ t.sl.trap.tpc = 0x1000#64 ∧ t.sl.level = .s := by decide +kernel

/-- The first step of the machine after reset runs the word that stands at its PC: `addi s7, s0, 16`. -/
theorem test_first_step : let t := nx (step (State.reset.withFetchWord 32 0x08E00010))
    (t.slot ⟨2048, 0⟩).rd 7#5 = 16#64 ∧ (t.slot ⟨2048, 0⟩).pc = resetPc + 4#64 := by decide +kernel

/-- A word that is no instruction (R215, R347) changes no scalar register. -/
theorem test_first_step_illegal : ∀ r ∈ [1#5, 7#5, 31#5],
    ((nx (step (State.reset.withFetchWord 32 0))).slot ⟨2048, 0⟩).rd r = 0#64 := by decide +kernel

/-! ## Witnesses: a machine and operands that meet the hypotheses of each statement, clause by clause -/

/-- ArithmeticAndBitCounts, LogicAndOrder, ShiftsFieldsAndConstants, ResultsAreProducedAndLand: operands full, no result outstanding. -/
theorem witness_scalar : let s := mach [(1, 5), (2, 7), (3, 9)]
    s.Ready [1#5, 2#5] [3#5] ∧ s.Ready [1#5] [3#5] ∧ s.Ready [1#5, 2#5, 3#5] [3#5] ∧ s.Ready [3#5] [3#5] ∧ s.Ready [] [3#5] ∧
      coreKind s.cur.core ≠ .monitor := by
  simp only [ready_iff]; decide +kernel

/-- BranchesAndJumps: sources full; a target that is aligned and one that is not. -/
theorem witness_BranchesAndJumps : let s := mach [(1, 0x2000), (2, 0x2002)]
    s.Ready [1#5, 2#5] [] ∧ s.Ready [] [31#5] ∧ s.Ready [1#5] [] ∧ s.Ready [1#5] [3#5] ∧ s.Ready [2#5] [3#5] ∧
      (s.sl.rd 1#5 + BitVec.ofInt 64 (4 * (1#14).toInt)).toNat % 4 = 0 ∧ (s.sl.rd 2#5 + BitVec.ofInt 64 (4 * (1#14).toInt)).toNat % 4 ≠ 0 ∧
      s.sl.waits = 0#32 ∧ s.cur.slot < 4 := by
  simp only [ready_iff]; decide +kernel

/-- ResultsAreProducedAndLand: a result whose strand is there, and one whose strand has gone. -/
theorem witness_ResultsAreProducedAndLand : let f := fl 0 (.result (.reg 3#5) 5#256 none [])
    let s : State := { mach [] with flights := [f] }
    let u : State := { at_ 0 { run1 with party := 2 } with flights := [f] }
    s.flight? f.id = some f ∧ u.flight? f.id = some f ∧ f.seep = none ∧ f.hop = none ∧ f.who.slot < 4 ∧ s.holds f.who f.party = true ∧
      u.holds f.who f.party = false := by decide +kernel

/-- TrapEntrySavesAndRedirects, TrapsOfWordsEnterTheHandler: no trap is being handled and there is a handler; a word for each clause. -/
theorem witness_traps : let s := mach []
    s.cur.slot < 4 ∧ bit s.sl.trap.tstat 4 = false ∧ fld (s.tvecOf s.cur) 56 2 ≠ 0 ∧ s.sl.level = .u ∧ s.sl.level ≠ .m ∧
      coreKind s.cur.core = .compute ∧ coreKind (1024 : Nat) ≠ .compute ∧ (0xA8000000#32).toNat / 2 ^ 26 = 0x2A ∧
      (0xEC000000#32).toNat / 2 ^ 26 = 0x3B ∧ (0xC4000000#32).toNat / 2 ^ 26 = 49 ∧ (0x00000800#32).toNat / 2 ^ 26 = 0 ∧
      (0xA4000000#32).toNat / 2 ^ 26 = 0x29 ∧ (let m := at_ 1024 run1; fld (m.tvecOf m.cur) 56 2 ≠ 0) := by decide +kernel

/-- TretRestoresTheInterruptedContext and ForbiddenInstructionsTrap: a handler at S, a strand at U, and PLEVEL = 3. -/
theorem witness_tret : let h := at_ 0 { run1 with level := .s, trap := { tstat := 0x31#64, tpc := 0x2000#64 } }
    let i := at_ 0 { run1 with level := .s }
    let p := at_ 0 { run1 with level := .s, trap := { tstat := 0x13#64 } }
    h.cur.slot < 4 ∧ h.sl.level ≠ .u ∧ bit h.sl.trap.tstat 4 = true ∧ fld h.sl.trap.tstat 1 0 ≠ 3 ∧ bit i.sl.trap.tstat 4 = false ∧
      fld p.sl.trap.tstat 1 0 = 3 ∧ (mach []).sl.level = .u ∧ coreKind (moni []).cur.core ≠ .compute ∧
      (rowShape (.vand 0#7 0#7 0#7 false)).fields ≠ [] ∧ (encode (.vand 0#7 0#7 0#7 false)).isSome = true := by decide +kernel

/-- A flight of a row word that has started in slot 0 of core 0. -/
def rowFl (w : RowWrites) : Flight := fl 0 (.rows w)

/-- CsrReadsReturnTheRegister, CsrWritesAndRights: a strand at U, one at S and one with a row word under way and room in the sequencer. -/
theorem witness_csr : let s := mach [(1, 5)]
    let p := at_ 0 { run1 with level := .s }
    let q : State := { mach [(1, 5)] with flights := [rowFl { fl := 1#7 }] }
    s.Ready [] [3#5] ∧ s.Ready [1#5] [3#5] ∧ p.Ready [1#5] [3#5] ∧ q.Ready [] [3#5] ∧ q.Ready [1#5] [3#5] ∧ s.rowsUnderWay s.cur = false ∧
      p.rowsUnderWay p.cur = false ∧ q.rowsUnderWay q.cur = true ∧ (q.core q.cur.core).seqLen < 16 ∧ s.sl.level = .u ∧ p.sl.level = .s := by
  simp only [ready_iff]; decide +kernel

/-- LoadsAndStoresAreSentOnTheirWay: an address in stack memory and one in the strand's scratch. -/
theorem witness_LoadsAndStoresAreSentOnTheirWay : let s := mach [(1, 0x2000), (2, scr0 + 0x100)]
    let s1 := s.consume [(1#5, s.wmode)]
    let s2 := s.consume [(2#5, s.wmode), (3#5, s.wmode)]
    s.Ready [1#5] [3#5] ∧ s.Ready [2#5, 3#5] [] ∧
      s1.check s1.cur .load (s.sl.rd 1#5 + BitVec.ofInt 64 ((1#9).toInt * 8)) 8 8 = .ok 0x2008 ∧ s1.placeLS 0x2008 = true ∧ s1.deadOwn 0x2008 = none ∧
      s1.quiet = true ∧ s2.check s2.cur .store (s.sl.rd 2#5 + BitVec.ofInt 64 ((0#9).toInt * 8)) 8 8 = .ok (scr0 + 0x100) ∧
      s2.placeLS (scr0 + 0x100) = true := by
  simp only [ready_iff]; decide +kernel

/-- AtomicsAndRowAccessesAreSent: an atomic on stack memory; rows in the strand's scratch, with SQ empty and with one row in it. -/
theorem witness_AtomicsAndRowAccessesAreSent : let s := mach [(1, 0x2000), (2, 3), (4, scr0 + 0x100)]
    let s1 := s.consume [(1#5, false), (2#5, false)]
    let s4 := s.consume [(4#5, s.wmode)]
    let q := at_ 0 { s.sl with sq := [{}] }
    s.Ready [1#5, 2#5] [3#5] ∧ s.Ready [1#5, 2#5, 3#5] [3#5] ∧ s.Ready [4#5] [] ∧ q.Ready [4#5] [] ∧
      s1.check s1.cur .atomic (s.sl.rd 1#5) 8 8 = .ok 0x2000 ∧ s1.check s1.cur .atomic (s.sl.rd 1#5) 4 4 = .ok 0x2000 ∧
      s1.placeAtomic 0x2000 = true ∧ s1.deadOwn 0x2000 = none ∧ coreKind s.cur.core = .compute ∧ s4.placeRow (scr0 + 0x120) = true ∧
      s4.check s4.cur .load (s.sl.rd 4#5 + BitVec.ofInt 64 (32 * (1#11).toInt)) 32 32 = .ok (scr0 + 0x120) ∧ s4.deadOwn (scr0 + 0x120) = none ∧
      s4.check s4.cur .store (s.sl.rd 4#5 + BitVec.ofInt 64 (32 * (1#11).toInt)) 32 32 = .ok (scr0 + 0x120) ∧ s.sl.lq.length < 16 ∧
      (47#7).toNat < 16 * s.sl.tiles.length ∧ (s.core s.cur.core).seqLen < 16 ∧ s.sl.sq = [] ∧ s.sl.sa.length < 16 ∧ q.sl.sq ≠ [] ∧
      s4.bankSoon s4.cur (s.sl.tileBank (47#7).toNat) ≠ 0 := by
  simp only [ready_iff]; decide +kernel

/-- EmptySourcesWaitAndMisalignedAccessesTrap: one source empty, the other, both; a result outstanding; addresses that are not aligned. -/
theorem witness_EmptySourcesWaitAndMisalignedAccessesTrap : let s := at_ 0 { run1 with full := 0xFFFF_FFFC#32 }
    let p : State := { mach [] with flights := [fl 0 (.result (.reg 3#5) 0#256 none [])] }
    let m := mach [(1, 0x2001), (4, scr0 + 8)]
    s.cur.slot < 4 ∧ s.sl.isFull 1#5 = false ∧ s.sl.isFull 2#5 = true ∧ p.producing p.cur 3#5 = true ∧ m.Ready [1#5] [3#5] ∧
      m.Ready [1#5, 3#5] [] ∧ m.Ready [1#5, 2#5] [3#5] ∧ m.Ready [1#5] [] ∧ m.sl.waits = 0#32 ∧
      ¬ 2 ∣ (m.sl.rd 1#5 + BitVec.ofInt 64 ((2#9).toInt * 2)).toNat ∧ ¬ 8 ∣ (m.sl.rd 1#5 + BitVec.ofInt 64 ((2#9).toInt * 8)).toNat ∧
      ¬ 4 ∣ (m.sl.rd 1#5).toNat ∧ ¬ 16 ∣ (m.sl.rd 1#5).toNat ∧ ¬ 32 ∣ (m.sl.rd 4#5 + BitVec.ofInt 64 (32 * (0#11).toInt)).toNat := by
  simp only [ready_iff]; decide +kernel

/-- LoadsReadAndStoresChangeTheirBytes: operations on stack memory that are due. -/
theorem witness_accesses : let a := fl 0 (.load (.reg 3#5) 0x2000#64 0x2000 8 false false .none)
    let b := fl 0 (.store 0x2000#64 0x2000 [1#8, 2#8] .plain .none)
    ∀ f ∈ [a, b], let s : State := { mach [] with flights := [f] }
      s.flight? f.id = some f ∧ s.performable f = true ∧ s.poison = [] ∧ (∀ w ∈ s.writes, w.id ≠ 0) ∧ Memory.wf s.mem = true ∧
        0x2000 + 8 ≤ stackEnd := by decide +kernel

/-- AtomicsReplaceAndReturnTheOldValue: an atomic that has not reached its unit, one that waits for an earlier one, and one whose turn has come. -/
theorem witness_atomics : let a := Act.atomic (.reg 3#5) 4 true 0x2000#64 0x2000 5#64 0#64 .plain
    let f := fl 0 a
    let g : Flight := { f with reached := some (0, 200) }
    let e : Flight := { fl 0 a with id := 3, party := 2, reached := some (0, 100) }
    let on (l : List Flight) : State := { mach [] with flights := l, cycle := 5 }
    (∀ p ∈ [(on [f], f), (on [g], g), (on [e, g], g)], p.1.flight? p.2.id = some p.2 ∧ p.1.performable p.2 = true ∧ p.1.poison = [] ∧
        Memory.wf p.1.mem = true) ∧ 0x2000 + 8 ≤ stackEnd ∧ f.reached = none ∧ g.reached.isSome = true ∧ (on [g]).itsTurn g (0x2000, 8) = true ∧
      (on [e, g]).itsTurn g (0x2000, 8) = false := by decide +kernel

/-- A word as it is encoded. -/
def enc (i : Instr) : BitVec 32 := (encode i).getD 0#32

/-- RowWordsEnterTheSequencer: a word of two rows, one with a scalar source and one with a scalar destination; a body with count 2 and with count 0. -/
theorem witness_RowWordsEnterTheSequencer : let s := mach [(1, 5), (4, 2), (5, 0)]
    let i := Instr.vand 32#7 0#7 16#7 false
    let j := Instr.vbcst 32#7 1#5 .w
    let k := Instr.vext 3#5 0#7 .w 0#5 false
    let r := stored s 0x1000 [(enc i).toNat * 2 ^ 32]
    let z := stored (mach []) 0x1000 [(enc i).toNat * 2 ^ 32]
    let s1 (i : Instr) : State := s.consume ((rowSources i).map fun a => (a, s.wmode))
    (∀ h ∈ [i, j, k], (rowShape h).fields ≠ [] ∧ (s1 h).rowFault (s1 h).cur ((s1 h).owedEffects (s1 h).cur) h ((rowSources h).map s.sl.rd) = none ∧
      ((s1 h).core (s1 h).cur.core).seqLen < 16) ∧
    (rowSources i = [] ∧ seqDest i = none) ∧ (rowSources j = [1#5] ∧ seqDest j = none) ∧ (rowSources k = [] ∧ seqDest k = some 3#5) ∧
    s.Ready [] [] ∧ s.Ready [1#5] [] ∧ s.Ready [] [3#5] ∧ coreKind s.cur.core = .compute ∧ r.Ready [4#5, 5#5] [] ∧ r.sl.waits = 0#32 ∧
    (r.fetchBody (r.sl.pc + 4#64) 1).toOption.map (·.1) = some [enc i] ∧ [enc i].map decode = [i].map some ∧ isBodyWord (enc i) i = true ∧
    r.bodyFault ([i].map fun i => (i, (rowSources i).map r.sl.rd)) 0 0 0 (List.range 2) (r.owedEffects r.cur) = none ∧
    (r.core r.cur.core).seqLen + 1 ≤ 16 ∧ (r.sl.rd 4#5).toNat % 65536 = 2 ∧
    (z.fetchBody (z.sl.pc + 4#64) 1).toOption.map (·.1) = some [enc i] ∧ (z.sl.rd 4#5).toNat % 65536 = 0 ∧
    z.bodyFault ([i].map fun i => (i, (rowSources i).map z.sl.rd)) 0 0 0 (List.range 1) (z.owedEffects z.cur) = none := by
  simp only [ready_iff]; decide +kernel

/-- SequencerPerformsARowWord: a word at the head of the sequencer with L = 0 and with L = 1, its rows in three Full banks or in one; such an entry
on its way. -/
theorem witness_SequencerPerformsARowWord :
    (∀ p ∈ [(false, 32#7), (true, 32#7), (true, 1#7)],
      let e : SeqEntry := { slot := 0, party := 1, instr := .vand p.2 0#7 16#7 p.1 }
      let s : State := { mach [] with cores := [(0, { coreOf run1 with seq := [.one e] })] }
      (s.core 0).seq = [.one e] ∧ e.last = true ∧ e.body = none ∧ (s.core 0).ran ≠ some s.cycle ∧ (s.core 0).stopped = false ∧
        (s.core 0).fenced = false ∧ rowShape e.instr = ⟨some ⟨p.2, .dst, 1⟩, some ⟨0#7, .src, 1⟩, some ⟨16#7, .src, 1⟩, p.1⟩ ∧
        (∀ n ∈ [p.2.toNat, 0, 16], (s.slot ⟨0, e.slot⟩).tileBank n < 16 ∧ (s.core 0).bank ((s.slot ⟨0, e.slot⟩).tileBank n) = 2) ∧
        s.entryReady ⟨0, e.slot⟩ (e.ea.elim e.id fun p => p.2) e.instr = true ∧ s.poison = [] ∧ ∀ w ∈ s.writes, w.id ≠ 0) ∧
    (let w : RowWrites := { rows := [(tileKey 0 2 0, 5#256)], fl := 1#7, amax := 7 }
     let f := rowFl w
     let s : State := { mach [] with flights := [f] }
     s.flight? f.id = some f ∧ f.seep = none ∧ f.hop = none ∧ s.holds f.who f.party = true ∧
       w.rows = [(tileKey 0 ((s.slot f.who).tileBank (32#7).toNat) ((32#7).toNat % 16), 5#256)] ∧ w.sq = [] ∧ w.reg = none ∧ w.pk = none ∧ w.offs = [] ∧
       (s.slot f.who).tileBank (32#7).toNat < 16 ∧ (s.core 0).bank ((s.slot f.who).tileBank (32#7).toNat) = 2 ∧ Memory.wf s.mem = true) := by
  decide +kernel

/-- IntegerLanesFollowTheirTable, MovesPlaceBitsAndLanes: the widest and the narrowest lanes. -/
theorem witness_lanes : (31 < 256 / ITy.i8.width ∧ (7#5).toNat < ITy.i8.width) ∧ (7 < 256 / ITy.i32.width ∧ (31#5).toNat < ITy.i32.width) ∧
    (31#5).toNat < LaneW.b.lanes ∧ (3#5).toNat < LaneW.d.lanes := by decide

/-- FloatLanesAreRoundedOnce: 1.0 + 2.0, whose exact sum, product and quotient are in range. -/
theorem witness_FloatLanesAreRoundedOnce : let f := fmtOf .f32
    let p : Row := rowOf ((List.replicate 8 [0x00#8, 0x00#8, 0x80#8, 0x3F#8]).flatten)
    let q : Row := rowOf ((List.replicate 8 [0x00#8, 0x00#8, 0x00#8, 0x40#8]).flatten)
    let X := fun i => f.units (lane p 32 i)
    let Y := fun i => f.units (lane q 32 i)
    let one : Nat := 2 ^ (f.bias + f.fw - 1)
    let most := f.ulps f.maxCode
    (∀ i < 8, lane p f.width i % f.signBit < f.infCode ∧ lane q f.width i % f.signBit < f.infCode ∧ X i + Y i ≠ 0 ∧
      (X i + Y i).natAbs ≤ most ∧ X i * Y i ≠ 0 ∧ (X i * Y i).natAbs ≤ most * one ∧ X i * one * (Y i).sign ≠ 0 ∧
      (X i * one * (Y i).sign).natAbs ≤ most * (Y i).natAbs ∧ 0 < X i) ∧ 256 / f.width = 8 := by decide +kernel

/-- ConversionsReductionsAndSparseRows: finite lanes in range, and a metadata word that names distinct lanes. -/
theorem witness_ConversionsReductionsAndSparseRows : let p : Row := rowOf ((List.replicate 8 [0x00#8, 0x00#8, 0x80#8, 0x3F#8]).flatten)
    let q : Row := rowOf ((List.replicate 16 [0x80#8, 0x3F#8]).flatten)
    (∀ i < 8, lane p 32 i % 2 ^ 31 < fp32.infCode ∧ fp32.units (lane p 32 i) ≠ 0 ∧
      (fp32.units (lane p 32 i)).natAbs ≤ bf16.ulps bf16.maxCode * 2 ^ 16 ∧ (fp32.units (lane p 32 i)).natAbs < 2 ^ 31 * 2 ^ 149) ∧
      (∀ i < 16, lane q 16 i % 2 ^ 15 < bf16.infCode) ∧ metaOk 0x0000_6886_8868_8D11#64 = true := by decide +kernel

/-- HintsFencesAndMessageRegisters: sources full, and an entry of the strand that is not performed, and none. -/
theorem witness_HintsFencesAndMessageRegisters : let s := mach [(1, 5)]
    let p : State := { s with flights := [fl 0 (.store 0x2000#64 0x2000 [1#8] .plain .none)] }
    s.cur.slot < 4 ∧ s.Ready [1#5] [] ∧ s.Ready [] [1#5] ∧ s.Ready [] [0#5] ∧ s.quiet = true ∧ p.quiet = false := by
  simp only [ready_iff]; decide +kernel

/-- BankRequestsChangeTheBankState: a bank of the strand in each state, one that an access needs and one that is not the strand's; a request that is
taken at the end of the cycle in each state. -/
theorem witness_BankRequestsChangeTheBankState :
    (∀ st < 4, let s : State := { mach [] with cores := [(0, { coreOf run1 with b0 := wd st })] }
      coreKind s.cur.core = .compute ∧ s.Ready [] [3#5] ∧ s.cur.slot < 4 ∧ s.sl.hasBank 0 = true ∧ s.bankBusy s.cur 0 = false ∧
        (s.core s.cur.core).bank 0 = st ∧ s.sl.hasBank 9 = false) ∧
    (let k := tileKey 0 0 0
     let s : State := { mach [] with flights := [fl 0 (.load .none (wd k) k 8 false false .none)] }
     s.sl.hasBank 0 = true ∧ s.bankBusy s.cur 0 = true) ∧
    (∀ st < 4, ∀ c ≤ 2, let s : State := { mach [] with cores := [(0, { coreOf run1 with b0 := wd st, due := [(0, c)] })] }
      (s.core 0).due = [(0, c)] ∧ (s.core 0).bank 0 = st) := by
  simp only [ready_iff]; decide +kernel

/-- CellOperationsTileTasksAndSpawns: a cell in the strand's scratch, a header in one page and one in two, and a record in stack memory; a tile-task
list that is full; a record of a memory core. -/
theorem witness_CellOperationsTileTasksAndSpawns : let s := mach [(1, scr0 + 0x200), (2, 3), (4, 0x2000), (5, 0x2FC0)]
    let s2 := s.consume [(1#5, false), (2#5, false)]
    let s1 := s.consume [(1#5, false)]
    let s4 := s.consume [(4#5, false)]
    let sp := s.consume [(5#5, false)]
    let s5 := s.consume [(4#5, s.wmode)]
    let k : TileTask := { addr := 0#64, who := ⟨0, 1⟩, party := 2, ten := 1, level := .u, queue := 0 }
    let u : State := { s with clusters := [(0, { tlb := tlb1, tileTasks := List.replicate 64 k })] }
    let u5 := u.consume [(4#5, u.wmode)]
    let m := at_ 1024 (regs { run1 with tiles := [], sb := 0#48 } [(4, 0x2000)])
    let m4 := m.consume [(4#5, false)]
    let isVal (a : ReadAns) : Bool := match a with | .val _ none _ _ => true | _ => false
    s.Ready [1#5, 2#5] [3#5] ∧ s.Ready [1#5] [] ∧ s.Ready [4#5] [3#5] ∧ s.Ready [5#5] [3#5] ∧ u.Ready [4#5] [3#5] ∧ s.Ready [4#5] [] ∧ m.Ready [4#5] [] ∧
      coreKind s.cur.core = .compute ∧ coreKind m.cur.core = .memory ∧
      s2.cellBad s2.sl (s.sl.rd 1#5) = none ∧ s1.cellBad s1.sl (s.sl.rd 1#5) = none ∧
      (s.sl.rd 4#5).toNat % 4096 ≠ 0xFC0 ∧ (s.sl.rd 4#5).toNat % 64 = 0 ∧ s4.check s4.cur .load (s.sl.rd 4#5) 128 1 = .ok 0x2000 ∧
      s4.place 0x2000 = .stack ∧ s4.deadOwn 0x2000 = none ∧ s4.deadOwn (0x2000 + 128 - 1) = none ∧
      isVal (State.readParts s4.sl.party s4.sl.ten ([(0x2000, 128)].flatMap fun p => groups32 5 p.1 p.2) (s4.released s4.sl.party)) = true ∧
      (s.sl.rd 5#5).toNat % 4096 = 0xFC0 ∧ (s.sl.rd 5#5).toNat % 64 = 0 ∧ sp.check sp.cur .load (s.sl.rd 5#5) 64 1 = .ok 0x2FC0 ∧
      sp.check sp.cur .load (s.sl.rd 5#5 + 64#64) 64 1 = .ok 0x3000 ∧ sp.place 0x2FC0 = .stack ∧ sp.place 0x3000 = .stack ∧
      sp.deadOwn 0x2FC0 = none ∧ sp.deadOwn (0x2FC0 + 64 - 1) = none ∧ sp.deadOwn 0x3000 = none ∧ sp.deadOwn (0x3000 + 64 - 1) = none ∧
      isVal (State.readParts sp.sl.party sp.sl.ten ([(0x2FC0, 64), (0x3000, 64)].flatMap fun p => groups32 5 p.1 p.2) (sp.released sp.sl.party)) = true ∧
      s2.check s2.cur .atomic (s.sl.rd 1#5) 8 16 = .ok (scr0 + 0x200) ∧ inScr (scr0 + 0x200) = true ∧
      (chipOf (scr0 + 0x200)).cluster = s2.clusterOf s2.cur.core ∧ s2.deadOwn (scr0 + 0x200) = none ∧
      s5.engOwned .matrix true = true ∧ s5.check s5.cur .load (s.sl.rd 4#5) 64 64 = .ok 0x2000 ∧ s5.quiet = true ∧
      (s.cluster 0).tileTasks.length < 64 ∧ 64 ≤ (u.cluster 0).tileTasks.length ∧ u5.engOwned .matrix true = true ∧
      u5.check u5.cur .load (u.sl.rd 4#5) 64 64 = .ok 0x2000 ∧ u5.quiet = true ∧ s4.flights = [] ∧ sp.flights = [] ∧ m4.flights = [] ∧
      ∀ p ∈ [(s, s4), (m, m4)], Memory.wf p.1.mem = true ∧ p.2.check p.2.cur .atomic (p.1.sl.rd 4#5) 64 64 = .ok 0x2000 ∧ 0x2000 + 64 ≤ stackEnd ∧
        p.1.poison = [] ∧ (∀ c ∈ p.1.cores, c.2.retained = []) ∧
        (let st := wd (leNat (p.2.read p.2.sl.party p.2.sl.ten (0x2000 + 48) 8 (p.2.turnView (0x2000 + 48) 8)).1)
         fld st 63 58 < 48 ∧ fld st 44 39 = 0 ∧ fld st 47 45 = 0) := by
  simp only [ready_iff]; decide +kernel

/-- StrandEndsBeginWithADrain: a strand of a record that holds banks, and a strand without. -/
theorem witness_StrandEndsBeginWithADrain : let s := at_ 0 { run1 with origin := .record }
    let t := at_ 0 { run1 with tiles := [], sb := 0#48 }
    s.cur.slot < 4 ∧ coreKind s.cur.core ≠ .monitor ∧ s.sl.origin.noRecord = false ∧ s.Ready [1#5] [] ∧ s.sl.tiles ≠ [] ∧
      t.sl.tiles = [] ∧ t.sl.sb = 0#48 := by
  simp only [ready_iff]; decide +kernel

/-- EngineRegistersAreReadAndWritten: a register that the engine has and one that it does not have; COPY, which reads no source, and the matrix engine,
which reads one; a status that reports DONE with an entry of the strand under way and with none, and one that does not. -/
theorem witness_EngineRegistersAreReadAndWritten : let s := mach [(1, 0), (2, 1), (4, 63)]
    let b : State := { s with flights := [fl 0 (.store 0x2000#64 0x2000 [1#8] .plain .none)] }
    let op : EngOp := { id := 3, who := ⟨0, 0⟩, party := 1, ten := 1, level := .u, queue := 0, eps := [] }
    let n : State := { s with cores := [(0, { s.core 0 with queue := [op] })] }
    let src (e : EngCode) := s.engSource e false 1#5
    let w (e : EngCode) (t : State) : Word := let t1 := t.consume (src e); t1.estat e (t1.engQueue e (t.sl.rd 1#5))
    engPresent (coreKind s.cur.core) .copy = true ∧ engPresent (coreKind s.cur.core) .matrix = true ∧ s.Ready [1#5, 2#5] [] ∧ s.Ready [2#5] [3#5] ∧
      s.Ready [1#5, 4#5] [3#5] ∧ (s.sl.rd 2#5).toNat % 64 < engRegs .copy ∧ engRegs .copy ≤ (s.sl.rd 4#5).toNat % 64 ∧ s.sl.waits = 0#32 ∧
      src .copy = [] ∧ src .matrix = [(1#5, s.wmode)] ∧ s.Ready [] [3#5] ∧ s.Ready [1#5] [3#5] ∧
      (∀ e ∈ [EngCode.copy, .matrix], (s.consume (src e)).engOwned e false = true) ∧ bit (w .copy s) 63 = true ∧
      (s.consume []).quiet = true ∧ b.Ready [] [3#5] ∧ bit (w .copy b) 63 = true ∧ (b.consume []).quiet = false ∧ (b.consume []).engOwned .copy false = true ∧
      n.Ready [] [3#5] ∧ (n.consume []).engOwned .copy false = true ∧ bit (w .copy n) 63 = false ∧ fld (w .matrix s) 63 62 = 0 := by
  simp only [ready_iff]; decide +kernel

/-- EngineOperationsAndMarkersAreEntered: COPY with a lawful set of 64 bytes, and the matrix engine, which reads its source; a strand with an operation in
its queue, one with an entry under way and one with neither; SCRUB on a monitor core; masks; a marker that arrives. -/
theorem witness_EngineOperationsAndMarkersAreEntered :
    let sh : EpSet := [(0, 0x2000#64), (1, wd (scr0 + 0x100)), (2, 0x40_0000_0001#64), (3, 64#64), (4, 64#64)]
    let s : State := { mach [(1, 0)] with cores := [(0, { coreOf (regs run1 [(1, 0)]) with shadow := sh })] }
    let s1 := s.consume []
    let q := s1.engQueue .copy (s.sl.rd 1#5)
    let op : EngOp := { id := 3, who := ⟨0, 0⟩, party := 1, ten := 1, level := .u, queue := 0, eps := [] }
    let u : State := { s with cores := [(0, { s.core 0 with queue := [op] })] }
    let u1 := u.consume []
    let b : State := { s with flights := [fl 0 (.store 0x2000#64 0x2000 [1#8] .plain .none)] }
    let x := s.consume [(1#5, s.wmode)]
    let m := moni []
    let k : State := { mach [] with flights := [fl 0 (.marker (.copy 0) 90)] }
    engPresent (coreKind s.cur.core) .copy = true ∧ s.Ready [] [] ∧ s1.engOwned .copy true = true ∧
      egoFault .copy (s.sl.rd 1#5) (s1.takeSet .copy (s.sl.rd 1#5)) = none ∧ s1.streamSides .copy (s1.takeSet .copy (s.sl.rd 1#5)) = false ∧
      s1.queueFull q = false ∧ s1.engOwned .copy false = true ∧ s1.ownOps q = [] ∧ s1.quiet = true ∧
      u.Ready [] [] ∧ u1.engOwned .copy false = true ∧ u1.ownOps (u1.engQueue .copy 0#64) ≠ [] ∧ b.Ready [] [] ∧
      (b.consume []).engOwned .copy false = true ∧ (b.consume []).quiet = false ∧ s.Ready [1#5] [] ∧ x.engOwned .matrix true = true ∧
      x.engOwned .matrix false = true ∧ x.queueFull (x.engQueue .matrix 0#64) = false ∧ x.ownOps (x.engQueue .matrix 0#64) = [] ∧
      coreKind m.cur.core = .monitor ∧ m.sl.level = .m ∧ m.cur.slot < 4 ∧ m.journal.run = false ∧
      qfenceAbsent (coreKind s.cur.core) 15#5 = none ∧ qfenceAbsent (coreKind s.cur.core) 0#5 = none ∧ (qfenceAbsent .monitor 2#5).isSome = true ∧
      k.flight? 7 = some (fl 0 (.marker (.copy 0) 90)) ∧ k.performable (fl 0 (.marker (.copy 0) 90)) = true := by
  simp only [ready_iff]; decide +kernel

/-- A slot with words in its message build registers. -/
def built (x : Slot) (ws : List Nat) : Slot := 
  { x with mb := #v[wd (ws.getD 0 0), wd (ws.getD 1 0), wd (ws.getD 2 0), wd (ws.getD 3 0), wd (ws.getD 4 0), wd (ws.getD 5 0)] }

/-- FoldInstructionsAreIssued: an owned fold store, none, a handler that holds its key, and a strand that is no handler. -/
theorem witness_FoldInstructionsAreIssued : let s := mach [(1, 5), (2, 7)]
    let s1 := s.consume [(1#5, false), (2#5, false)]
    let n : State := { s with tenants := [(1, { ten1 with fold := 0#64 })] }
    let h := at_ 0 { run1 with origin := .fold 0 19 5#64 true }
    coreKind s.cur.core ≠ .monitor ∧ s.Ready [1#5, 2#5] [3#5] ∧ s.Ready [] [3#5] ∧ n.Ready [1#5, 2#5] [3#5] ∧ (s.tenant s.sl.ten).fold ≠ 0#64 ∧
      s1.flights = [] ∧ (n.tenant n.sl.ten).fold = 0#64 ∧ n.sl.waits = 0#32 ∧ s.cur.slot < 4 ∧ s.sl.origin = .firmware ∧ h.cur.slot < 4 ∧
      h.sl.origin = .fold 0 19 5#64 true ∧ h.flights = [] := by
  simp only [ready_iff]; decide +kernel

/-- SendsAndMulticastsAreIssued: room in the window, and none; a device that cannot be reached; a group that this device sequences and of which it is a
member, and a group that is not the tenant's. -/
theorem witness_SendsAndMulticastsAreIssued : let x := built (regs run1 [(4, 2)]) [0x2000, 2 * 2 ^ 50 + 1]
    let s := at_ 0 x
    let f := at_ 0 { x with unacc := 16 }
    let r := at_ 0 (built run1 [0x2000, 9 * 2 ^ 52 + 2 * 2 ^ 50 + 1])
    let g : GroupEntry := { valid := true, ten := 1, seqdev := 0, members := [0, 1], wbase := 0x2000#64, wsize := 4096 }
    let m : State := { at_ 0 (built (regs run1 [(4, 2)]) [0x1F02, 0x100, 1, 2, 3, 4]) with groups := [(2, { entry := g })] }
    let ws := m.sl.mb.toList
    s.Ready [] [3#5] ∧ f.Ready [] [3#5] ∧ m.Ready [] [3#5] ∧ m.Ready [4#5] [3#5] ∧ s.sendFault s.sl.mb.toList = none ∧ s.sl.unacc < s.sl.limit ∧
      s.flights = [] ∧ s.sl.waits = 0#32 ∧ s.reaches (msgDev s.sl.mb.toList) = true ∧ f.sl.limit ≤ f.sl.unacc ∧ f.sendFault f.sl.mb.toList = none ∧
      r.Ready [] [3#5] ∧ r.sendFault r.sl.mb.toList = none ∧ r.sl.unacc < r.sl.limit ∧ r.flights = [] ∧ r.sl.waits = 0#32 ∧
      r.reaches (msgDev r.sl.mb.toList) = false ∧ r.sl.occ ≠ .free ∧ r.sl.frozen = false ∧
      m.sl.waits = 0#32 ∧ fld (wordAt ws 0) 7 0 = 2 ∧ fld (wordAt ws 0) 13 8 + 1 = 32 ∧ fld (wordAt ws 1) 29 0 = 0x100 ∧ m.unstamped < 8 ∧ m.flights = [] ∧
      m.groupOf 2 m.sl.ten = true ∧ 0x100 + 32 ≤ g.wsize ∧ m.reaches g.seqdev = true ∧ fld (m.sl.rd 4#5) 7 0 = 2 ∧ m.memberOf 2 = true ∧ m.quiet = true ∧
      (m.groups.get {} 2).entry = g ∧
      (let n : State := { m with groups := [] }
       n.Ready [] [3#5] ∧ n.groupOf 2 n.sl.ten = false ∧ n.unstamped < 8 ∧ n.sl.occ ≠ .free ∧ n.sl.frozen = false ∧ n.sl.waits = 0#32) := by
  simp only [ready_iff]; decide +kernel

/-- AreaOk as a check. -/
def areaOk (s : State) (acc : Acc) : Nat → Word → Nat → Bool
  | 0, _, _ => true
  | f + 1, va, n =>
    let m := if bit va 56 then Nat.min n (8192 - va.toNat % 8192) else Nat.min n (4096 - va.toNat % 4096)
    n == 0 || (match s.check s.cur acc va m 1 with
      | .ok key => (inScr key || s.place key == .stack) && areaOk s acc f (va + wd m) (n - m)
      | _ => false)

/-- What the check of an area shows. -/
theorem area_of (s : State) (acc : Acc) (f : Nat) : ∀ (va : Word) (n : Nat), areaOk s acc f va n = true → s.AreaOk acc f va n := by
  induction f with
  | zero => intro va n _; simp [State.AreaOk]
  | succ f ih =>
    intro va n h
    simp only [areaOk, Bool.or_eq_true, beq_iff_eq] at h
    simp only [State.AreaOk]
    rcases h with h | h
    · exact .inl h
    · refine .inr ?_
      split at h
      · rename_i key hk
        simp only [Bool.and_eq_true, Bool.or_eq_true, beq_iff_eq] at h
        exact ⟨key, hk, h.1, ih _ _ h.2⟩
      · exact absurd h (by simp)

/-- SavesLoadsMigrationsAndStops: a strand at S beside another and beside a free slot; the monitor, for a strand that runs, a free slot, a core that the
part does not have, and a core with eight forwarding entries; a stop without and with RESUME. -/
theorem witness_SavesLoadsMigrationsAndStops : let x := regs { run1 with level := .s } [(1, 0x4000), (2, 1), (4, 0x4000), (5, 2)]
    let o : Slot := { occ := .running, ten := 1, pc := 0x1100#64, party := 2 }
    let s : State := { at_ 0 x with cores := [(0, { slots := ((Vector.replicate 4 {}).set 0 x).set 1 o })] }
    let s1 := s.consume [(1#5, false), (2#5, false)]
    let s2 := s.consume [(1#5, false), (5#5, false)]
    let r := slotSpec (s.sl.rd 2#5)
    let f := slotSpec (s.sl.rd 5#5)
    let m := moni [(1, 1 * 256), (2, 0x2000), (3, 1 * 256 + 1), (4, 0), (5, 1), (6, 1), (7, 0xFFC)]
    let n : State := { m with cores := [(0, { slots := (Vector.replicate 4 {}).set 0 o })] ++ m.cores }
    let fw : Forward := { oldSlot := 1, newCore := 1, newSlot := 0, sb := 0#48, moved := 0, used := 0, sent := 0 }
    let e : State := { n with cores := [(0, { n.core 0 with forwards := List.replicate 8 fw })] ++ m.cores }
    let g : State := { n with capunits := 2#64 }
    s.Ready [1#5, 2#5] [3#5] ∧ s.Ready [1#5, 5#5] [3#5] ∧ m.Ready [1#5, 2#5] [3#5] ∧ m.Ready [3#5, 2#5] [3#5] ∧ n.Ready [4#5, 5#5] [3#5] ∧
      n.Ready [6#5, 5#5] [3#5] ∧ e.Ready [4#5, 5#5] [3#5] ∧ g.Ready [7#5, 5#5] [3#5] ∧
      s.sl.level ≠ .u ∧ r = ⟨0, 1⟩ ∧ r ≠ s.cur ∧ s.coreOf s.sl.ten r.core = true ∧ (s.slot r).ten = s.sl.ten ∧ (s.slot r).occ ≠ .free ∧
      r.core < 16 * s.nclusters ∧ (s.sl.rd 1#5).toNat % 64 = 0 ∧ areaOk s1 .store 128 (s.sl.rd 1#5) (s1.imageLen r) = true ∧
      f ≠ s.cur ∧ s.coreOf s.sl.ten f.core = true ∧ (s.slot f).occ = .free ∧ areaOk s2 .store 128 (s.sl.rd 1#5) (s2.imageLen f) = true ∧
      m.sl.level = .m ∧ fld (m.sl.rd 1#5) 14 8 = 1 ∧ bit (m.sl.rd 3#5) 0 = true ∧
      (let m1 := m.consume [(1#5, false), (2#5, false)]
       (m.sl.rd 2#5).toNat % 64 = 0 ∧ m1.check m1.cur .store (m.sl.rd 2#5) 64 64 = .ok 0x2000 ∧ m1.place 0x2000 = .stack) ∧
      (slotSpec (n.sl.rd 4#5) = ⟨0, 0⟩ ∧ n.cur ≠ ⟨0, 0⟩ ∧ 0 < 16 * n.nclusters ∧ (n.slot ⟨0, 0⟩).occ ≠ .free ∧ (n.core 0).liveForwards < 8) ∧
      (slotSpec (n.sl.rd 6#5) = ⟨0, 1⟩ ∧ (n.slot ⟨0, 1⟩).occ = .free) ∧
      (slotSpec (e.sl.rd 4#5) = ⟨0, 0⟩ ∧ 0 < 16 * e.nclusters ∧ (e.slot ⟨0, 0⟩).occ ≠ .free ∧ 8 ≤ (e.core 0).liveForwards) ∧
      16 * g.nclusters ≤ (slotSpec (g.sl.rd 7#5)).core := by
  simp only [ready_iff]; decide +kernel

/-- SavesLoadsMigrationsAndStops, CTXLOAD: an area of zeros is no image; one with the header of a strand that holds no bank is an image, which fits, and
does not fit where the core has no free slot. -/
theorem witness_CtxloadOfAnArea : let x := regs { run1 with level := .s } [(4, 0x4000)]
    let s := at_ 0 x
    let i := stored s 0x4000 [0x0100_0000_0000_2000]
    let b : State := { i with cores := [(0, { i.core 0 with slots := Vector.replicate 4 x })] }
    let read (t : State) := (State.readArea t.cur.core t.sl.party t.sl.ten t.sl.level 128 0 (t.sl.rd 4#5) t).toOption
    let im (t : State) (q : List Byte × List Nat × List (Nat × List Nat) × State) : Image :=
      { bytes := q.1, poison := q.2.1, tag := t.tagOf (leNat ((q.1.drop 2688).take 8)) }
    (∀ t ∈ [s, i, b], t.Ready [4#5] [3#5] ∧ t.sl.level ≠ .u ∧ t.sl.waits = 0#32 ∧ (t.sl.rd 4#5).toNat % 64 = 0 ∧ t.sl.occ ≠ .free ∧
      areaOk t .load 128 (t.sl.rd 4#5) 8192 = true ∧ t.areaWakes (t.sl.rd 4#5) 8192 = none) ∧
    (read s).any (fun q => !imgOk (wd (leNat (q.1.take 8)))) = true ∧
    (read i).any (fun q => imgOk (wd (leNat (q.1.take 8))) && fld (wd (leNat (q.1.take 8))) 31 0 == 8192 && (i.placeImage (im i q) 0).toBool) = true ∧
    (read b).any (fun q => imgOk (wd (leNat (q.1.take 8))) && !(b.placeImage (im b q) 0).toBool) = true := by
  simp only [ready_iff]; decide +kernel

/-- KeysTenantStateAndTranslations: a key slot that is zero, one that is loaded; a tenant; entries of a TLB that go and that stay. -/
theorem witness_KeysTenantStateAndTranslations : let s := moni [(1, 16), (2, 17), (4, 1)]
    let t := at_ 0 (regs { run1 with level := .s } [(1, 0x1000)])
    coreKind s.cur.core = .monitor ∧ s.sl.level = .m ∧ s.Ready [1#5] [3#5] ∧ s.Ready [2#5] [3#5] ∧ s.Ready [4#5] [3#5] ∧ s.Ready [1#5, 4#5] [] ∧
      t.Ready [1#5, 0#5] [] ∧ (s.sl.rd 1#5).toNat % 128 = 16 ∧ (s.consume [(1#5, false)]).underKey 16 = false ∧ (s.keys.get {} 16).st ≠ .zero ∧
      (s.sl.rd 2#5).toNat % 128 = 17 ∧ (s.keys.get {} 17).st = .zero ∧ (s.sl.rd 4#5).toNat % 128 = 1 ∧ t.sl.level ≠ .u ∧ t.sl.level ≠ .m ∧
      s.clusters.map (·.1) = [0, 1] := by
  simp only [ready_iff]; decide +kernel

/-- TenantsAreAssignedFreedAndScrubbed: a lawful descriptor and one of zeros; a tenant whose cores run, one whose cores are stopped, none; a list. -/
theorem witness_TenantsAreAssignedFreedAndScrubbed : let s := moni [(1, 0x2000), (2, 1), (4, 2)]
    let d := stored s 0x2000 [0x1102]
    let st (t : State) : Option Nat :=
      match t.stackWords (fun x => t.check t.cur .load x 8 8) 0x2000#64 32 with
      | .ok ws =>
        let words := maskDescr (ws.map (·.1))
        match t.stackWords (fun x => t.check t.cur .load x 8 8) (wd (fld (wordAt words 20) 56 3 * 8)) (Nat.min 1024 (wordAt words 21).toNat) with
        | .ok l => some (t.assignStatus ⟨words, l.map (·.1)⟩ true)
        | .error _ => none
      | .error _ => none
    let z : State := { s with cores := s.cores ++ (List.range 1040).map fun c => (c, { stopped := true }) }
    let q : State := { s with
      cores := [(2048, { s.core 2048 with shadow := [(0, wd scr0), (1, 0x2000_0000_0000_0001#64)] })]
      tenants := [(1, { ten1 with st := .scrub, quar := [.scratch 0 1#48] })] }
    let r : State := { s with journal := { run := true } }
    coreKind s.cur.core = .monitor ∧ s.sl.level = .m ∧ s.Ready [1#5] [3#5] ∧ d.Ready [1#5] [3#5] ∧ s.Ready [2#5] [3#5] ∧ s.Ready [4#5] [3#5] ∧
      z.Ready [2#5] [3#5] ∧ q.Ready [2#5] [3#5] ∧ r.Ready [2#5] [3#5] ∧ s.sl.waits = 0#32 ∧ s.poison = [] ∧ st d = some 0 ∧ (s.sl.rd 1#5).toNat % 64 = 0 ∧ (s.sl.rd 2#5).toNat % 128 = 1 ∧ (s.sl.rd 4#5).toNat % 128 = 2 ∧ st s = some 2 ∧
      s.stopping = false ∧ (s.tenant 1).st ≠ .free ∧ (s.tenant 2).st = .free ∧ (0 ∈ s.gangCores 1 ∧ (s.core 0).stopped = false) ∧
      z.stopping = false ∧ (∀ c ∈ z.gangCores 1, (z.core c).stopped = true) ∧ z.sl.ten ≠ 1 ∧ q.journal.run = false ∧
      (∀ j ∈ scrubList (q.core q.cur.core).shadow, q.jobBad j = false ∧ (q.tenant 1).holdsJob j = true) ∧
      nextJob (scrubList (q.core q.cur.core).shadow) 0 = some 0 ∧ r.journal.run = true := by
  simp only [ready_iff]; decide +kernel

/-- AtCell as a check. -/
theorem atCell_of {s : State} {f : Flight} {c : Word}
    (h : Memory.wf s.mem = true ∧ s.flight? f.id = some f ∧ s.performable f = true ∧ f.reached.isSome = true ∧
      (s.locationOf f).all (fun l => s.itsTurn f l) = true ∧ s.cellFault f.ten c = none ∧
      (∀ n ∈ [f.who.core, f.from?], s.barredAt n c.toNat = false ∧ s.forwardOf n c.toNat = none) ∧
      (s.core (chipOf c.toNat).core).bank (16 + (chipOf c.toNat).off / 0x2000) = 2 ∧ s.poison = []) : s.AtCell f c := by
  obtain ⟨a, b, c, d, e, f, g, h, i⟩ := h
  refine ⟨a, b, c, ⟨d, fun l hl => ?_⟩, f, g, h, i⟩
  rw [hl] at e
  exact e

/-- The cell of the tests. -/
def cell1 : Word := wd (scr0 + 0x200)
/-- A handle of the tests. -/
def hand1 : Word := wd (scr0 + 0x400)

/-- A flight that has reached its unit in an earlier cycle. -/
def cellFl (a : Act) : Flight := { fl 0 a with reached := some (0, 90) }
/-- A machine with an operation at its unit, and words in the cell. -/
def cellMach (a : Act) (ws : List Nat) : State := stored { mach [] with flights := [cellFl a], cycle := 5 } cell1.toNat ws

/-- CellsCountWaitAndFire: a cell of 2 for each operation; one of 1 with a waiting task; a handle with banks bound; one of 0. -/
theorem witness_CellsCountWaitAndFire :
    (∀ a ∈ [Act.decr (.reg 3#5) cell1 1#64, .taskq cell1, .await cell1 0x2000#64 ⟨.record 0x2000#64, 0, 0, 1, 0, none, [], 0#64, false⟩,
        .bind cell1 hand1, .cbar (.reg 3#5) cell1 3, .cbar .none cell1 4],
      (cellMach a [2, 0]).AtCell (cellFl a) cell1 ∧ wd ((cellMach a [2, 0]).num cell1.toNat 8) = 2#64 ∧
        ∀ e ∈ ((cellMach a [2, 0]).core 0).retained, ¬ (e.handle = cell1 ∧ e.ten = 1)) ∧
    (let a := Act.decr .none cell1 5#64
     (cellMach a [0, 0]).AtCell (cellFl a) cell1 ∧ wd ((cellMach a [0, 0]).num cell1.toNat 8) = 0#64 ∧
       (cellMach a [2, 0]).AtCell (cellFl a) cell1 ∧ fld (wd ((cellMach a [2, 0]).num (cell1.toNat + 8) 8)) 63 62 = 0) ∧
    (let a := Act.decr .none cell1 1#64
     let s0 := cellMach a [1, 2 ^ 62 + hand1.toNat]
     let t : ShadowTask := { handle := hand1, words := [4#64] }
     let s : State := { s0 with cores := [(0, { coreOf run1 with tasks := [t] })] }
     s.AtCell (cellFl a) cell1 ∧ wd (s.num cell1.toNat 8) = 1#64 ∧ fld (wd (s.num (cell1.toNat + 8) 8)) 63 62 = 1 ∧
       wd (fld (wd (s.num (cell1.toNat + 8) 8)) 56 0) = hand1 ∧ s.cellFault 1 hand1 = none ∧ (chipOf hand1.toNat).core = 0 ∧
       (s.core 0).tasks.find? (fun t => t.handle == hand1) = some t ∧ (∀ e ∈ (s.core 0).tasks, e.bad = false) ∧ headerBad (wordAt t.words 0) = false ∧
       (s.cluster (0 / 16)).banks.length = 8) := by
  refine ⟨?_, ⟨atCell_of ?_, ?_, atCell_of ?_, ?_⟩, atCell_of ?_, ?_⟩
  · intro a h
    refine ⟨atCell_of ?_, ?_⟩ <;> revert a <;> decide +kernel
  all_goals decide +kernel

/-- DepositsWakesWalksAndArrivals: a deposit in s3, one that lands, and two that land together; a bank that wakes with no hint, with Retain and with
Off, and one with a load held at it; a walk that ends in a leaf and one that fails; requests to the host; entries on their way. -/
theorem witness_DepositsWakesWalksAndArrivals : let k := chipAddr 0 0 2 0x18
    let f := fl 1 (.store (wd k) k (leBytes 8 5) .plain .none)
    let d (n rank : Nat) : Deposit := { op := n, party := 1, ten := 1, rank := rank, key := k, data := leBytes 8 n }
    let s : State := { mach [] with flights := [f] }
    let la : State := { s with deposits := [d 7 3] }
    let two : State := { mach [] with deposits := [d 8 4, d 9 3] }
    let w : Walk := { id := 9, cluster := 0, ten := 1, level := .u, page := 5, root := 0x10_0000#64, waiters := [⟨0, 0⟩], kind := 0 }
    let v : State := { mach [] with walks := [w] }
    let y := stored (stored (stored v 0x10_0000 [0x10_1001]) 0x10_1000 [0x10_2001]) 0x10_2000 [0x3F]
    let hk := 0x8000_0000_0000
    let h (a : Act) : State := { mach [] with flights := [fl 0 a] }
    let e : RunEntry := ⟨.record 0x2000#64, 0, 0, 1, 0, none, [], 0#64, false⟩
    let op : EngOp := { id := 3, who := ⟨0, 0⟩, party := 1, ten := 1, level := .u, queue := 0, eps := [] }
    (s.flight? f.id = some f ∧ s.performable f = true ∧ s.barredAt f.who.core k = false ∧ s.forwardOf f.who.core k = none ∧ chipBit ≤ k ∧
      (chipOf k).unit < 16 ∧ (chipOf k).region = 2 ∧ (chipOf k).off < 0x400 ∧ (chipOf k).off % 8 = 0 ∧ (leBytes 8 5).length = 8 ∧
      la.flight? f.id = some f ∧ la.deposits = [d 7 3] ∧ (d 7 3).op = f.id ∧ two.deposits = [d 8 4, d 9 3] ∧ two.flight? 8 = none ∧
      two.flight? 9 = none) ∧
    (∀ hs ∈ [[], [(0, 1)], [(0, 0)]], let b : State := { mach [] with cores := [(0, { coreOf run1 with b0 := 3#64, hints := hs })] }
      (b.core 0).bank 0 = 3 ∧ (b.core 0).hints.filter (fun h => h.1 == 0) = hs ∧ b.groups = [] ∧ (b.core 0).kept.getLsbD 0 = false ∧
        ∀ f ∈ b.flights, b.heldAt 0 0 f = false) ∧
    (let g : Flight := { fl 0 (.load (.reg 3#5) (wd (scr0 + 0x100)) (scr0 + 0x100) 8 false false .none) with reached := some (0, 90) }
     let b : State := { mach [] with cores := [(0, { coreOf run1 with b0 := 3#64 * 2#64 ^ 32 })], flights := [g] }
     (b.core 0).bank 16 = 3 ∧ b.groups = [] ∧ b.flight? g.id = some g ∧ b.heldAt 0 16 g = true ∧ (∀ x ∈ b.flights, x ≠ g → b.heldAt 0 16 x = false) ∧
       b.barredAt 0 (scr0 + 0x100) = false ∧ b.forwardOf 0 (scr0 + 0x100) = none ∧ b.writes = [] ∧ b.poison = [] ∧ (b.core 0).hints = []) ∧
    (v.walks.find? (fun x => x.id == w.id) = some w ∧ w.dead = false ∧ v.walkRuns w = true ∧ y.walkRuns w = true ∧
      (∀ r ∈ w.waiters, v.storesOwed r = false ∧ r.slot < 4) ∧ w.pref = false ∧
      (v.walk w.ten w.level w.root (w.page * 4096)).toBool = false ∧ (y.walk w.ten w.level w.root (w.page * 4096)).toBool = true ∧
      y.walks.find? (fun x => x.id == w.id) = some w ∧ ∀ r ∈ w.waiters, y.storesOwed r = false) ∧
    (∀ a ∈ [Act.load (.reg 3#5) 0x40_0000#64 hk 8 false false .none, .store 0x40_0000#64 hk [1#8] .plain .none],
      (h a).flight? 7 = some (fl 0 a) ∧ (h a).place hk = .host ∧ (h a).holds ⟨0, 0⟩ 1 = true ∧ ((h a).slot ⟨0, 0⟩).frozen = false ∧
        (fl 0 a).own = false ∧ (fl 0 a).pkt = none ∧ (fl 0 a).outlived = false) ∧
    (∀ a ∈ [Act.enqueue e 0, .enqueue e 1024, .engine (.copy 0) op], (h a).flight? 7 = some (fl 0 a) ∧ (h a).performable (fl 0 a) = true ∧
      ((h a).cluster 0).banks.length = 8) := by decide +kernel

/-- DepositsWakesWalksAndArrivals, a wake from Retain, which may fail its retention check. -/
theorem witness_WakesFromRetain : let b : State := { mach [] with cores := [(0, { coreOf run1 with b0 := 3#64, kept := 1#64 })] }
    (b.core 0).bank 0 = 3 ∧ (b.core 0).hints = [] ∧ b.groups = [] ∧ b.flights = [] ∧ (b.core 0).kept.getLsbD 0 = true := by decide +kernel

/-- DepositsWakesWalksAndArrivals, the host request of a copy: one whose source lies in host space. -/
theorem witness_CopiesFromTheHost :
    let cp : EngOp := { id := 3, who := ⟨0, 0⟩, party := 1, ten := 1, level := .u, queue := 0, started := true
                        eps := [(0, 0x40_0000#64), (1, 0x2100#64), (2, 0x20_0000_0001#64)] }
    let c : State := { mach [] with cores := [(0, { coreOf run1 with queue := [cp] })] }
    c.flight? cp.id = none ∧ c.hostPiece cp.id = some ⟨0, cp, 0x40_0000#64, some 0x2100, 0⟩ ∧ c.place 0x2100 = .stack ∧ Memory.wf c.mem = true ∧ c.holds cp.who cp.party = true ∧ (c.slot cp.who).frozen = false ∧
      cp.who.slot < 4 := by decide +kernel

/-- DrainedStrandsEndSuspendOrGoOn: a strand of a record that halts with banks and successors, one that suspends without banks, one at a GBAR with a
store address that has no row. -/
theorem witness_DrainedStrandsEndSuspendOrGoOn : let h := at_ 0 { run1 with origin := .record, drain := some .halt, succs := [cell1], succ := hand1 }
    let x := regs { run1 with origin := .record, drain := some (.susp false), tiles := [], sb := 0#48, full := 0xFFFF_FFFF#32 } [(6, 0x2000)]
    let u := at_ 0 x
    let q : Flight := { fl 0 (.store 0x2000#64 0x2000 (rowBytes 0#256) .plain .none) with ready := false }
    let g : State := { at_ 0 { run1 with drain := some (.gbar 2#3), lq := [⟨3, none⟩], sq := [{}], sa := [⟨0x2000#64, 0x2000, 7⟩] } with flights := [q] }
    let r : SlotRef := ⟨0, 0⟩
    (∀ s ∈ [h, u, g], s.mayRun r = true ∧ s.drained r = true ∧ s.boundaryDue r = false ∧ (s.slot r).pend = [] ∧ Memory.wf s.mem = true ∧
      ({ s with cur := r } : State).quietDrain = true ∧ (s.cluster 0).banks.length = 8) ∧
    ((h.slot r).drain = some .halt ∧ (h.slot r).origin = .record) ∧
    ((u.slot r).drain = some (.susp false) ∧ (u.slot r).origin = .record ∧ (u.slot r).occ = .running ∧ (u.slot r).tiles = [] ∧ (u.slot r).sb = 0#48 ∧
      u.check r .store ((u.slot r).rd 6#5) 64 64 = .ok 0x2000 ∧ u.place 0x2000 = .stack) ∧
    ((g.slot r).drain = some (.gbar 2#3) ∧ (g.slot r).origin = .firmware) := by decide +kernel

/-- A strand of firmware is none of a launch. -/
theorem witness_firmware {x : Slot} (h : x.origin = .firmware) : (∀ id n, x.origin ≠ .launch id n) ∧ ∀ cl dk key, x.origin ≠ .fold cl dk key true := by
  rw [h]; exact ⟨fun _ _ => Origin.noConfusion, fun _ _ _ => Origin.noConfusion⟩

/-- A header of one target, cluster 0, and two strands. -/
def head2 (place state : Nat) : List Word :=
  [0x4000#64, 11#64, 12#64, 13#64, 14#64, 0x1_0000_0000_0008#64, 1#64, 0#64, 0#64, 0#64, 0#64, 0#64, wd state, 0x5000#64, wd place, 0#64]

/-- A launch of the tests with number 50. -/
def la2 (place state : Nat) : Launch := launchOf (head2 place state) 50 1 (some 0) 0 0 []
/-- A launch entry. -/
def le2 (prio : Nat) (home : Option Nat) : RunEntry := ⟨.launch 50 0 2, prio, 0, 1, 0, home, [], 0#64, false⟩

/-- PopsAdmissionsAndPrefetches, the pops: a cluster with a launch entry, a memory core with one, one with an entry that cannot be read, and a memory
core with a message. -/
theorem witness_Pops : let e := le2 3 (some 0)
    let s : State := { mach [] with
      cores := [(0, { b0 := 0#64 })], clusters := [(0, { tlb := tlb1, banks := [[], [e], [], [], [], [], [], []], count := 1 })]
      launches := [la2 0 (3 * 2 ^ 58 + 1 * 2 ^ 45)] }
    let cores := (List.range 16).map ((16 * 0) + ·)
    let s0 := (s.makeOffers 0).refreshTasks 0
    let m : State := { mach [] with cores := [(1024, { runList := [le2 3 (some 0)] })], launches := [la2 0x20_0000 (3 * 2 ^ 58)] }
    let pe : RunEntry := ⟨.record 0x2000#64, 3, 0, 1, 0, none, [], 0x400_0000#64, true⟩
    let pm : State := { mach [] with cores := [(1024, { runList := [pe] })] }
    let h : HMsg := { ten := 1, prio := 2, stamp := 0, pc := 0x6000#64, src := 7#64, args := [1#64, 2#64, 3#64, 4#64], queue := 0 }
    let i : State := { mach [] with cores := [(1024, { inbound := [h] })] }
    (s.cluster 0).popped ≠ some s.cycle ∧ (∀ c ∈ cores, s.nextSpilled c = none) ∧
      cores.find? (fun c => s0.coreOpen c && (s0.pickFor c).1.isSome) = some 0 ∧ (s0.pickFor 0).1 = some (.entry e) ∧
      s0.launch? 50 = some (la2 0 (3 * 2 ^ 58 + 1 * 2 ^ 45)) ∧ (s0.grantFor e 0).isSome = true ∧
      coreKind 1024 = .memory ∧ m.coreOpen 1024 = true ∧ (m.core 1024).popped ≠ some m.cycle ∧ m.nextSpilled 1024 = none ∧
      m.candidates 1024 ((m.core 1024).runList.take 64) = [e] ∧ m.messageFor 1024 = none ∧ m.launch? 50 = some (la2 0x20_0000 (3 * 2 ^ 58)) ∧
      m.grantFor e 1024 = some (0, [], 0#48) ∧ e.poison = false ∧ pm.coreOpen 1024 = true ∧ (pm.core 1024).popped ≠ some pm.cycle ∧
      pm.nextSpilled 1024 = none ∧ pm.candidates 1024 ((pm.core 1024).runList.take 64) = [pe] ∧ pm.messageFor 1024 = none ∧ pe.poison = true ∧
      pm.launches = [] ∧ fld (pm.tenant pe.ten).flog 7 0 = 0 ∧ i.coreOpen 1024 = true ∧ (i.core 1024).popped ≠ some i.cycle ∧ i.nextSpilled 1024 = none ∧
      i.candidates 1024 ((i.core 1024).runList.take 64) = [] ∧
      i.freeSlotOf 1024 = some 0 ∧ (i.core 1024).aged = none ∧ (i.core 1024).inbound = [h] := by
  decide +kernel

/-- PopsAdmissionsAndPrefetches, the rest: an entry that has waited for long; a PERSIST launch of one strand; a task whose count has fallen to 1, with a
lawful header and with a bad one. -/
theorem witness_AdmissionsAndPrefetches : let e : RunEntry := ⟨.record 0x2000#64, 3, 0, 1, 0, none, [], 0#64, false⟩
    let s : State := { mach [] with
      cores := [(0, {})], clusters := [(0, { banks := [[], [e], [], [], [], [], [], []], count := 1 })], cycle := 70000 }
    let la : Launch := { la2 0 (2 ^ 38) with total := 1, words := (head2 0 (2 ^ 38)).set 6 0#64 }
    let p : State := { mach [] with cores := [(0, {})], launches := [la] }
    let c (w : Nat) : State := stored { mach [] with cores := [(0, { coreOf run1 with falls := [(hand1, 1)] })] } hand1.toNat [1, 0, w, 0xAA, 0xBB]
    ((s.core 0).aged = none ∧ s.coreOpen 0 = true ∧ e ∈ (s.cluster (0 / 16)).entries ∧ 65536 < s.cycle - e.stamp ∧ s.mayStart e 0 = true ∧
      s.couldGrant e 0 = true ∧ ∀ i < 16, (s.core (0 / 16 * 16 + i)).aged.any e.same = false) ∧
    (p.launch? la.id = some la ∧ la.admitted = false ∧ p.admitBehind la = false ∧
      la.targets = 1 ∧ la.shareOf 0 = 1 ∧ (p.pinSlot la 0 0).isSome = true) ∧
    (∀ p ∈ [(4, false), (2 ^ 38, true)], let c := c p.1
      (c.core 0).falls.find? (fun e => e.1 == hand1) = some (hand1, 1) ∧ c.poison = [] ∧ c.writes = [] ∧
        headerBad (wd (c.num (hand1.toNat + 16) 8)) = p.2 ∧ hand1.toNat + 16 < 2 ^ 57 ∧ (p.2 = false → fld (wd (c.num (hand1.toNat + 16) 8)) 5 0 = 4) ∧
        ∀ j < 2, let k := hand1.toNat + 16 + 8 * j
          c.checkNow (0 / 16) 1 (c.devLevel 1) .load false (wd k) 8 = .ok k ∧ inScr k = true ∧ c.goneAt 4096 k = false ∧ c.forwardOf 4096 k = none ∧
            (c.core (chipOf k).core).bank (16 + (chipOf k).off / 0x2000) = 2) ∧ ∀ q, e.work ≠ .resume q := by
  refine ⟨?_, ?_, ?_, fun q h => Work.noConfusion h⟩ <;> decide +kernel

/-- BoundaryEventsEnterTheHandler: a completed single step, a fault that waits, the watchdog's request, and a fault of a handler's own access. -/
theorem witness_BoundaryEventsEnterTheHandler : let r : SlotRef := ⟨0, 0⟩
    let a := at_ 0 { run1 with stepDue := true }
    let b := at_ 0 { run1 with pend := [⟨6, 0x77#64, false, none, 0⟩] }
    let c := at_ 0 { run1 with pre := true }
    let d := at_ 0 { run1 with level := .s, trap := { tstat := 0x11#64 }, pend := [⟨6, 0x77#64, true, none, 0⟩] }
    (∀ s ∈ [a, b, c, d], s.mayAct r = true) ∧
    (∀ s ∈ [a, b, c], bit (s.slot r).trap.tstat 4 = false ∧ fld (s.tvecOf r) 56 2 ≠ 0) ∧
    (a.stepTrap r = true) ∧ ((b.slot r).stepDue = false ∧ (b.slot r).pend ≠ []) ∧
    ((c.slot r).stepDue = false ∧ (c.slot r).pend = [] ∧ (c.slot r).pre = true) ∧
    (bit (d.slot r).trap.tstat 4 = true ∧ (d.slot r).pend = [⟨6, 0x77#64, true, none, 0⟩] ∧ coreKind r.core ≠ .monitor) := by decide +kernel

/-- HeadersAreFetchedAndAccepted: a queue with a header in its ring; a lawful header and one that fails, chosen by the arbiter and read by LNCH; an LNCH
whose read failed. -/
theorem witness_HeadersAreFetchedAndAccepted : let s := mach []
    let h := (s.tenant 1).queues.get {} 0
    let good := head2 0 (3 * 2 ^ 58)
    let bad := (head2 0 (3 * 2 ^ 58)).set 0 1#64
    let a (ws : List Word) : State := { s with tenants := [(1, { ten1 with hbuf := [⟨0, ws, 3⟩] })] }
    let f (ws : List Word) (b : Option (Nat × Word)) := fl 0 (.lnch (.reg 3#5) 0x4000#64 ws b)
    let l (ws : List Word) (b : Option (Nat × Word)) : State := { s with flights := [f ws b] }
    (0 < (s.tenant 1).nq ∧ bit h.cfg 63 = true ∧ h.wp ≠ h.rp ∧ (s.tenant 1).hbuf.length < 8 ∧ (s.tenant 1).served = true ∧ s.poison = [] ∧ s.writes = [] ∧
      s.checkNow 0 1 .s .load false (wd (fld h.base 56 12 * 0x1000 + 128 * (h.rp % 2 ^ fld h.cfg 4 0))) 128 = .ok 0x3000 ∧ s.place 0x3000 = .stack) ∧
    (∀ ws ∈ [good, bad], let s := a ws
      s.accepted ≠ some s.cycle ∧ ((s.tenants.filter fun t => !t.2.pendingQueues.isEmpty).map (·.1)) = [1] ∧ (s.tenant 1).choose.any (fun c => c.1 == 0 &&
        (takeHeader 0 c.2.hbuf == some (⟨0, ws, 3⟩, []))) = true ∧
        s.headerFault (launchOf ws s.fresh 1 (some 0) 3 s.cycle []) = (if ws = good then none else some 0) ∧ wordAt ws 15 = 0#64) ∧
    (∀ p ∈ [(good, none), (bad, none), (good, some (0x14, 0x4000#64))], let s := l p.1 p.2
      s.flight? 7 = some (f p.1 p.2) ∧ (f p.1 p.2).own = false ∧ (f p.1 p.2).pkt = none ∧ (f p.1 p.2).outlived = false ∧
        s.headerFault (launchOf p.1 s.fresh 1 none 7 s.cycle []) = (if p.1 = good then none else some 0) ∧ wordAt p.1 15 = 0#64 ∧
        s.holds ⟨0, 0⟩ 1 = true ∧ (s.slot ⟨0, 0⟩).frozen = false) := by decide +kernel

/-- LaunchesAreDealtCompletedAndWatched: a share to deal, a launch whose strands have halted, and a queue at each step of its watchdog, a strand of a
killed launch being left at the last. -/
theorem witness_LaunchesAreDealtCompletedAndWatched : let la := la2 0 (3 * 2 ^ 58)
    let s : State := { mach [] with launches := [la] }
    let lc : Launch := { la with halted := 2, undealt := [], approx := true }
    let c : State := { mach [] with launches := [lc], tenants := [(1, { ten1 with queues := [(0, { cfg := 0xC003_0000_0000_0004#64 })] })] }
    let q (n : Nat) : State := { at_ 0 { run1 with origin := .launch 50 0 } with
      launches := if n = 2 then [] else [la], cycle := 10000
      tenants := [(1, { ten1 with queues := [(0, { wdog := 0x0000_0400_0020_0001#64, wstep := n, fences := if n = 2 then [(0, [50])] else [] })] })] }
    (s.launch? la.id = some la ∧ 0 ∈ la.undealt ∧ la.admitted = true ∧ la.memc = false ∧ la.shareOf 0 ≠ 0 ∧ fld la.place 5 0 + 0 < 1024 ∧
      (s.cluster 0).banks.length = 8) ∧
    (c.launch? lc.id = some lc ∧ lc.total ≤ lc.halted ∧ c.flights = [] ∧ lc.approx = true ∧ lc.ring = some 0 ∧
      (let cfg := ((c.tenant lc.ten).queues.get {} 0).cfg
       bit cfg 62 = true ∧ fld cfg 55 48 < msixVectors lc.ten)) ∧
    (∀ n < 3, let h := ((q n).tenant 1).queues.get {} 0
      h.wstep = n ∧ fld h.wdog 19 0 ≠ 0 ∧ h.wstart + 700 * fld h.wdog 19 0 ≤ (q n).cycle ∧
        fld h.wdog 39 20 ≠ 0 ∧ h.wstart + 700 * fld h.wdog 39 20 ≤ (q n).cycle ∧ fld h.wdog 59 40 ≠ 0 ∧
        h.wstart + 700 * fld h.wdog 59 40 ≤ (q n).cycle) ∧
    (∀ n < 2, (q n).oldestLaunch 1 0 = some la ∧ ⟨0, 0⟩ ∈ (q n).allSlots ∧ ((q n).slot ⟨0, 0⟩).occ ≠ .free ∧
      ((q n).slot ⟨0, 0⟩).origin = .launch la.id 0) ∧ (⟨0, 0⟩ ∈ (q 2).allSlots ∧ (q 2).holdsAny [50] ⟨0, 0⟩ = true) := by decide +kernel

/-- IdleClustersStealHalfOfALaunchEntry: a cluster at each stage of a steal, and a victim with a launch entry and without. -/
theorem witness_IdleClustersStealHalfOfALaunchEntry : let two : Tenant := { ten1 with pairs := 0xFFFF#512 }
    let m (st : StealState) (l : List RunEntry) : State := { mach [] with
      cores := [], clusters := [(0, { steal := st }), (1, { banks := [l, [], [], [], [], [], [], []], count := 1 })]
      tenants := [(1, two)], launches := [la2 0 (3 * 2 ^ 58)], cycle := 5000 }
    let le := le2 3 (some 1)
    let a := m { idleSince := some 100 } [le]
    let b := m { waiting := some 1, ten := 1 } [le]
    let z := m { waiting := some 1, ten := 1 } []
    let c := m { waiting := some 1, answered := true, shipped := some le } [le]
    let n := m { idleSince := some 100, waiting := some 1, answered := true, ten := 1 } []
    let d := m { waiting := some 1, answered := true, asked := 3 } [le]
    let e := m { backoff := some 4000 } [le]
    (0 < a.nclusters ∧ a.idleNow 0 = true ∧ (a.cluster 0).steal.idleSince = some 100 ∧ 100 + 64 ≤ a.cycle ∧ (a.cluster 0).steal.waiting = none ∧
      (a.cluster 0).steal.backoff = none ∧ a.tenantOn 0 = some 1 ∧ (a.neighbours 1 0).head? = some 1 ∧ (a.cluster 0).steal.asked = 0) ∧
    ((b.cluster 0).steal.waiting = some 1 ∧ (b.cluster 0).steal.answered = false ∧ b.donation 1 (b.cluster 0).steal.ten = some le ∧
      le.work = .launch 50 0 2) ∧
    ((z.cluster 0).steal.waiting = some 1 ∧ (z.cluster 0).steal.answered = false ∧ z.donation 1 (z.cluster 0).steal.ten = none) ∧
    ((c.cluster 0).steal.answered = true ∧ (c.cluster 0).steal.shipped = some le ∧ (c.cluster 0).banks.length = 8) ∧
    ((n.cluster 0).steal.answered = true ∧ (n.cluster 0).steal.shipped = none ∧ (n.cluster 0).steal.asked < 3 ∧ n.longIdle 0 = true ∧
      n.tenantOn 0 = some (n.cluster 0).steal.ten ∧ n.neighbours (n.cluster 0).steal.ten 0 ≠ []) ∧
    ((d.cluster 0).steal.answered = true ∧ (d.cluster 0).steal.shipped = none ∧ (d.cluster 0).steal.asked = 3) ∧
    ((e.cluster 0).steal.backoff = some 4000 ∧ 4000 ≤ e.cycle) := by decide +kernel

/-! ### Folds, engines, matrix arrays -/

/-- A domain of tenant 1 that adds integers, bound, with its handler's address. -/
def dom1 : FDomain := { dctl := wd (1 * 2 ^ 17 + 2 ^ 25), hpc := 0x7000#64 }
/-- An entry of domain 3 of tenant 1. -/
def ent1 : FEntry := { bank := 5, index := 0, key := 5#64, dom := 19, val := 40#128, posts := 2 }
/-- Cluster 0 with a domain and entries. -/
def foldMach (d : FDomain) (es : List FEntry) (fs : List Flight) : State :=
  { mach [] with clusters := [(0, { tlb := tlb1, doms := [(19, d)], folds := es })], flights := fs }

/-- FoldPostsOffersClaimsAndRefills: a post whose key has an entry and one whose key has none; an offer; a claim with and without EXCL; a log, and a
record that it gave back. -/
theorem witness_FoldPostsOffersClaimsAndRefills : let f := fl 0 (.post (.reg 3#5) 3 5#64 7#64 none 0)
    let s := foldMach dom1 [ent1] [f]
    let n := foldMach dom1 [] [f]
    let log : FDomain := { dom1 with log := 0x3008#64, head := 0, tail := 1 }
    let l := stored (foldMach log [] []) 0x3040 [9, 70]
    let re : Refill := { dom := 19, bank := 9, key := 9#64, val := 70#64, rel := [] }
    let r : State := { mach [] with clusters := [(0, { tlb := tlb1, doms := [(19, dom1)], refills := [re] })] }
    (∀ t ∈ [s, n], t.flight? f.id = some f ∧ t.performable f = true ∧ t.foldHome 1 19 5#64 = (0, 5) ∧ t.foldOpen 0 = true ∧ t.outOfSlice 1 0 = false ∧
      fld ((t.cluster 0).dom 19).dctl 19 17 = 1) ∧
    ((s.cluster 0).fentry 19 5#64 = some ent1 ∧ ent1.st = .waiting ∧ ent1.poison = false) ∧
    ((n.cluster 0).fentry 19 5#64 = none ∧ (n.cluster 0).freeIndex 5 = some 0) ∧
    (dom1.mayClaim = true ∧ (s.cluster 0).dom 19 = dom1 ∧ (s.cluster 0).folded ≠ some s.cycle ∧ (s.cluster 0).doms = [(19, dom1)] ∧ s.claimDue 0 = false ∧ bit dom1.dctl 22 = false ∧
      s.clusterFrozen 0 = false ∧ s.outOfSlice (19 / 16) 0 = false ∧ ent1 ∈ (s.cluster 0).folds ∧ ent1.dom = 19 ∧ dom1.offerable ent1 = true) ∧
    (∀ x ∈ [0, 1], let d : FDomain := { dom1 with dctl := wd (dom1.dctl.toNat + x * 2 ^ 24), taken := some (5#64, 0, 1), takenAt := 4 }
      let c : State := { foldMach d [ent1] [] with cycle := 5 }
      (c.cluster 0).doms.find? (fun x => x.2.taken.isSome && decide (x.2.takenAt < c.cycle)) = some (19, d) ∧ (c.cluster 0).dom 19 = d ∧
        (c.cluster 0).fentry 19 5#64 = some ent1 ∧ d.mayClaim = true ∧ d.offerable ent1 = true ∧ c.clusterFrozen 0 = false ∧
        c.coreOpen 0 = true ∧ c.inSlice 1 0 = true ∧ ((c.core 0).slot 1).occ = .free ∧ d.excl = (x == 1)) ∧
    ((l.cluster 0).dom 19 = log ∧ log.head ≠ log.tail ∧ l.outOfSlice (19 / 16) 0 = false ∧ l.poison = [] ∧ l.writes = [] ∧
      l.checkNow 0 (19 / 16) .s .load false (wd (l.logSegment (19 / 16) 0 log + 64 + 16 * (log.head % log.logCap))) 16 = .ok 0x3040 ∧
      l.place 0x3040 = .stack ∧ wd (l.num 0x3040 8) = 9#64 ∧ bit log.dctl 11 = false ∧
      (l.cluster 0).roomFor 19 (9 / Nat.max 1 (l.partition (19 / 16)).length % 16) 9#64 = true) ∧
    ((r.cluster 0).refills = [re] ∧ r.claimDue 0 = false ∧ fld ((r.cluster 0).dom 19).dctl 19 17 = 1 ∧ (r.cluster 0).fentry 19 9#64 = none ∧
      (r.cluster 0).freeIndex 9 = some 0) := by decide +kernel

/-- FoldDomainsCommitCompleteAndAdapt: a committed domain whose operator stays, and one of a busy domain with a new operator, in the last fold store of
its partition and in one of two; a quiescent domain without and with a cell and a log; adaptive and not, with a launch. -/
theorem witness_FoldDomainsCommitCompleteAndAdapt :
    let o (c : Nat) : EngOp := { id := 3, who := ⟨0, 0⟩, party := 1, ten := 1, level := .u, queue := 0, arg := 3, started := true,
                                 eps := [(0, wd c), (1, 0x7100#64), (2, 0#64), (3, 0#64)] }
    let k (o : EngOp) : Cluster := { tlb := tlb1, doms := [(19, dom1)], folds := [ent1], fqueue := [o] }
    let same := o dom1.dctl.toNat
    let new := o (dom1.dctl.toNat + 2 ^ 17)
    let c : State := { mach [] with clusters := [(0, k same)] }
    let b : State := { mach [] with clusters := [(0, k new)] }
    let w : State := { mach [] with clusters := [(0, k same), (1, {})], tenants := [(1, { ten1 with pairs := 0xFFFF#512, fold := 3#64 })] }
    let q := foldMach { dom1 with posted := true } [] []
    let e := foldMach { dom1 with posted := true, compl := cell1, log := 0x3008#64 } [] []
    let x := foldMach { dom1 with posted := true, log := 0x60_0008#64 } [] []
    let a : State := { foldMach { dom1 with dctl := wd (dom1.dctl.toNat + 2 ^ 23), launches := [50] } [] [] with launches := [la2 0 0] }
    let fired (s : State) : List Firing := (((s.latchQuiet 1 3).cluster 0).dom 19).firings
    let va (f : Firing) : Word := wd (fld f.log 56 12 * 0x1000)
    let isBad (r : Chk) : Bool := match r with | .bad _ _ => true | _ => false
    (c.commitDue 0 = some (0, same) ∧ ((c.cluster 0).dom 19).op = fld (same.eps.get 0#64 0) 19 17 ∧ (c.partition 1).all (fun c => bitOf (same.done + 2 ^ 0) c) = true) ∧
    (b.commitDue 0 = some (0, new) ∧ ((b.cluster 0).dom 19).op ≠ fld (new.eps.get 0#64 0) 19 17 ∧ new.done = 0 ∧ b.domainBusy 1 19 = true ∧
      b.holds new.who new.party = true ∧ (b.slot new.who).frozen = false) ∧
    (w.commitDue 0 = some (0, same) ∧ same ∈ (w.cluster 0).fqueue ∧ (w.partition 1).all (fun c => bitOf (same.done + 2 ^ 0) c) = false) ∧
    (∀ s ∈ [q, e, x], s.partition 1 = [0] ∧ ((s.cluster 0).dom 19).posted = true ∧ ((s.cluster 0).dom 19).failed = false ∧ s.quiescent 1 3 = true ∧
      Memory.wf s.mem = true) ∧
    (fired q).all (fun f => fld f.compl 56 4 == 0 && fld f.log 4 0 == 0) = true ∧ (fired q).length = 1 ∧
    (fired e).all (fun f => fld f.compl 56 4 != 0 && fld f.log 4 0 != 0 && (e.latchQuiet 1 3).checkNow 0 1 .s .store false (va f) 16 == .ok 0x3000) = true ∧
    (fired e).length = 1 ∧ e.place 0x3000 = .stack ∧
    (fired x).all (fun f => fld f.log 4 0 != 0 && isBad ((x.latchQuiet 1 3).checkNow 0 1 .s .store false (va f) 16)) = true ∧ (fired x).length = 1 ∧
    (foldMach dom1 [ent1] []).quiescent 1 3 = false ∧
    (a.partition 1 = [0] ∧ bit ((a.cluster 0).dom 19).dctl 23 = true ∧ ((a.cluster 0).dom 19).launches = [50] ∧ (a.launches.map (·.id)) = [50] ∧
      bit ((q.cluster 0).dom 19).dctl 23 = false) := by
  decide +kernel

/-- EngineOperationsStartAndComplete: a head that has not started, in each kind of queue; a copy, a stream, and TASK operations with a handle to send
and with none left. -/
theorem witness_EngineOperationsStartAndComplete :
    let o (eps : EpSet) (st : Bool) : EngOp := { id := 3, who := ⟨0, 0⟩, party := 1, ten := 1, level := .u, queue := 0, eps := eps, started := st }
    let n := o [(0, 0x2000#64)] false
    let a : State := { mach [] with
      cores := [(0, { coreOf run1 with queue := [n] })]
      clusters := [(0, { tlb := tlb1, tqueue := [n], arrays := Vector.replicate 2 { queue := [n] } })] }
    let cp := o [(0, 0x2000#64), (1, 0x2100#64), (2, 0x20_0000_0001#64)] true
    let st := o [(0, 0x20_0000#64), (1, wd (scr0 + 0x100)), (2, 0x20_0000_0001#64)] true
    let ta := o [(0, 0x2000#64), (1, 1#64)] true
    let td : EngOp := { ta with done := 1 }
    let c : State := { mach [] with cores := [(0, { coreOf run1 with queue := [cp] })] }
    let m : State := { mach [] with cores := [(0, coreOf run1), (1024, { queue := [st] })] }
    let t (x : EngOp) : State := stored { mach [] with clusters := [(0, { tlb := tlb1, tqueue := [x] })] } 0x2000 [cell1.toNat]
    (n.started = false ∧ n.isMarker = false ∧ (a.core 0).queue = [n] ∧ (a.core 0).freeze = false ∧ (a.cluster 0).tqueue = [n] ∧
      a.clusterFrozen 0 = false ∧ ∀ i < 2, ((a.cluster 0).array i).queue = [n] ∧ ((a.cluster 0).array i).run = none) ∧
    (∀ p ∈ [(c, 0, cp), (m, 1024, st)], Memory.wf p.1.mem = true ∧ p.1.poison = [] ∧ (p.1.core p.2.1).queue = [p.2.2] ∧ p.2.2.held = false ∧
      (p.1.core p.2.1).freeze = false ∧ (p.1.slot p.2.2.who).halted = false ∧ p.2.2.abandoned = false ∧ p.2.2.done = 0 ∧ p.2.2.parts = [] ∧
      p.1.part = 0 ∧ p.1.deposits = [] ∧ p.1.flights = [] ∧ p.1.writes = [] ∧
      fld (p.2.2.eps.get 0#64 2) 47 32 = 32 ∧ fld (p.2.2.eps.get 0#64 2) 31 0 = 1 ∧ fld (p.2.2.eps.get 0#64 5) 2 0 = 0 ∧
      fld (p.2.2.eps.get 0#64 6) 56 0 = 0) ∧
    (coreKind 0 = .compute ∧ c.checkUnit cp.id (c.clusterOf 0) 1 .u .load true 0x2000#64 32 = .ok 0x2000 ∧
      c.checkUnit cp.id (c.clusterOf 0) 1 .u .store true 0x2100#64 32 = .ok 0x2100 ∧ c.place 0x2000 = .stack ∧ c.place 0x2100 = .stack) ∧
    (coreKind 1024 = .memory ∧ m.checkUnit st.id (m.clusterOf 1024) 1 .u .load false 0x20_0000#64 32 = .ok 0x80_0000_0000 ∧
      m.checkUnit st.id (m.clusterOf 1024) 1 .u .store false (wd (scr0 + 0x100)) 32 = .ok (scr0 + 0x100) ∧ m.place 0x80_0000_0000 = .lpddr (coreNum 1024) ∧
      m.lostKey 1 0x80_0000_0000 = false ∧ inScr (scr0 + 0x100) = true ∧ m.goneAt 1024 (scr0 + 0x100) = false ∧
      m.forwardOf 1024 (scr0 + 0x100) = none ∧ (m.core 0).bank 16 = 2) ∧
    (∀ x ∈ [ta, td], Memory.wf (t x).mem = true ∧ (t x).poison = [] ∧ (t x).writes = [] ∧ ((t x).cluster 0).tqueue = [x] ∧ x.held = false ∧
      (t x).clusterFrozen 0 = false ∧ x.abandoned = false ∧ fld (x.eps.get 0#64 1) 16 0 = 1 ∧ fld (x.eps.get 0#64 2) 56 4 = 0 ∧
      (t x).checkUnit x.id 0 1 .u .load true 0x2000#64 8 = .ok 0x2000 ∧ (t x).place 0x2000 = .stack ∧ (t x).taskqUnderWay 0 = false) ∧
    ta.done = 0 ∧ td.done = 1 := by decide +kernel

/-- A record of one row, one column and one k, INT8. -/
def rec1 : List Word :=
  [0x2000#64, 32#64, 0x2100#64, 32#64, 0x2200#64, 32#64, 0x1_0001_0001#64, 0x44#64, 0#64, 0#64, 0#64, 0#64, 0#64, 0#64, 0#64, 0#64]

/-- MatrixUnitsOperationsAndTileTasks: a unit whose operands can be read, an operation whose units are done, one that failed, and a ripe record. -/
theorem witness_MatrixUnitsOperationsAndTileTasks :
    let o : EngOp := { id := 3, who := ⟨0, 0⟩, party := 1, ten := 1, level := .u, queue := 0, eps := (List.range 16).map fun i => (i, wordAt rec1 i) }
    let on (m : MatOp) : State := { mach [] with clusters := [(0, { tlb := tlb1, arrays := Vector.replicate 2 { run := some m } })] }
    let m : MatOp := { op := o, recd := none }
    let d : MatOp := { m with kprog := 1 }
    let f : MatOp := { m with failed := true }
    let tt : TileTask := { addr := 0x2400#64, who := ⟨0, 0⟩, party := 1, ten := 1, level := .u, queue := 0 }
    let t := stored { mach [] with clusters := [(0, { tlb := tlb1, tileTasks := [tt] })] } 0x2400 (rec1.map (·.toNat))
    ((((on m).cluster 0).array 0).run = some m ∧ (on m).clusterFrozen 0 = false ∧ m.failed = false ∧ m.op.held = false ∧
      m.kprog < m.op.units (on m).arows ∧ m.recd = none ∧ (State.runUnit (engPartyId (.matrix 0 0)) 0 m (on m)).toBool = true) ∧
    (∀ x ∈ [d, f], (((on x).cluster 0).array 0).run = some x ∧ (((on x).cluster 0).array 0).loaded = none ∧ (on x).clusterFrozen 0 = false ∧
      x.op.held = false ∧ (x.failed = true ∨ x.op.units (on x).arows ≤ x.kprog) ∧ x.recd = none ∧ fld (x.op.eps.get 0#64 11) 56 4 = 0) ∧
    Memory.wf t.mem = true ∧ t.clusterFrozen 0 = false ∧ (∀ a < 2, ((t.cluster 0).array a).loaded = none) ∧ ((t.cluster 0).array 0).run = none ∧
    ((t.cluster 0).array 0).queue = [] ∧
    (match State.oldestRipe 0 (t.cluster 0).tileTasks t with
      | .ok (x, .go ws _ s1) => x == tt && ws == rec1.take 15 && s1.checkNow 0 1 .u .store true (0x2400#64 + 120#64) 8 == .ok 0x2478
      | _ => false) = true ∧
    t.checkNow 0 1 .u .store true (0x2400#64 + 120#64) 8 = .ok 0x2478 ∧ t.place 0x2478 = .stack := by decide +kernel

/-! ### Messages, groups, links, switching -/

/-- The words of a message: HANDLER and PRIO, DEV, SPACE and ADDR, and four arguments. -/
def msg (h prio space addr : Nat) (l : List Nat) : List Word :=
  wd (h + prio * 2 ^ 58) :: wd (space * 2 ^ 50 + addr) :: (List.range 4).map fun i => wd (l.getD i 0)

/-- A message at its target. -/
def msgFl (ws : List Word) : Flight := cellFl (.send ws)
/-- Cluster 0 with a domain and an entry, a cell of 3 and a message at its target. -/
def msgMach (ws : List Word) : State := stored { foldMach dom1 [ent1] [] with flights := [msgFl ws], cycle := 5 } cell1.toNat [3]
/-- Has the turn of an ATOMIC or DECR come? -/
def msgTurn (ws : List Word) : Bool :=
  (msgFl ws).reached.isSome && ((msgMach ws).locationOf (msgFl ws)).all fun l => (msgMach ws).itsTurn (msgFl ws) l

/-- MessagesAreServedAndAcknowledged: a handler message for a core of the tenant and for another core; an acknowledgement. -/
theorem witness_MessagesAreServedAndAcknowledged :
    let h := msg 0x2000 2 2 1 [1, 2, 3, 4]
    let n := msg 0x2000 2 2 20 [1, 2, 3, 4]
    let k : State := { mach [] with flights := [fl 0 .ack] }
    let a := fl 0 .ack
    (∀ ws ∈ [h, n], (msgMach ws).message? 7 = some (msgFl ws, ws) ∧ (msgMach ws).holds ⟨0, 0⟩ 1 = true ∧ ((msgMach ws).slot ⟨0, 0⟩).frozen = false ∧
      (msgFl ws).own = false ∧ (msgFl ws).outlived = false ∧ (msgFl ws).pkt = none) ∧
    (msgBuiltin h = false ∧ (msgMach h).messageCore 1 (msgCore h) = (none, 1) ∧ (msgMach h).coreOf 1 1 = true ∧ ((msgMach h).core 1).fenced = false ∧
      ((msgMach h).core 1).inbound.length < 32 ∧ (msgMach h).nextSpilled 1 = none ∧ ((msgMach h).tenant 1).spill.get [] 1 = []) ∧
    (msgBuiltin n = false ∧ (msgMach n).messageCore 1 (msgCore n) = (none, 20) ∧ (msgMach n).coreOf 1 20 = false) ∧
    (k.flight? 7 = some a ∧ a.hop = none ∧ a.late = false ∧ a.outlived = false ∧ k.holds ⟨0, 0⟩ 1 = true ∧ (k.slot ⟨0, 0⟩).halted = false) := by decide +kernel

/-- MessagesAreServedAndAcknowledged: each built-in. -/
theorem witness_builtins :
    let st := msg 0x00 7 0 0x2000 [5]
    let ld := msg 0x10 7 0 0x2000 [0x2100]
    let at4 := msg 0x20 0 0 0x2000 [0x10, 9, 0, scr0 + 0x100]
    let po := msg 0x30 0 0 0 [3, 5, 7, scr0 + 0x100]
    let de := msg 0x40 0 1 (cell1.toNat % 2 ^ 35) [1]
    (∀ ws ∈ [st, ld, at4, po, de], (msgMach ws).message? 7 = some (msgFl ws, ws) ∧ Memory.wf (msgMach ws).mem = true ∧ (msgMach ws).poison = [] ∧
      ws.length = 6 ∧ (msgFl ws).gather = 0#256 ∧ (msgFl ws).pkt = none ∧ (msgMach ws).writes = []) ∧
    (msgHandler st = 0x00 ∧ msgPrio st < 32 ∧ (msgMach st).msgCheck (msgFl st) .store st = .ok 0x2000 ∧ 0x2000 % 32 + msgPrio st < 32 ∧ (msgMach st).place 0x2000 = .stack) ∧
    (msgHandler ld = 0x10 ∧ msgPrio ld < 32 ∧ (msgMach ld).msgCheck (msgFl ld) .load ld = .ok 0x2000 ∧ (msgMach ld).place 0x2000 = .stack ∧ 0x2000 % 32 + msgPrio ld < 32 ∧
      (wordAt ld 2).toNat % 32 + msgPrio ld < 32) ∧
    (msgHandler at4 = 0x20 ∧ fld (wordAt at4 2) 3 0 = 0 ∧ bit (wordAt at4 2) 4 = true ∧ (msgMach at4).msgCheck (msgFl at4) .atomic at4 = .ok 0x2000 ∧
      msgTurn at4 = true ∧ wordAt at4 5 ≠ 0#64 ∧ (wordAt at4 5).toNat % 8 = 0) ∧
    (msgHandler po = 0x30 ∧ ((msgMach po).tenant 1).fold ≠ 0#64 ∧ fld (wordAt po 2) 3 0 = 3 ∧ wordAt po 3 = 5#64 ∧
      (msgMach po).foldHome 1 19 5#64 = (0, 5) ∧ (msgMach po).foldOpen 0 = true ∧ (msgMach po).outOfSlice 1 0 = false ∧
      fld (((msgMach po).cluster 0).dom 19).dctl 19 17 = 1 ∧ ((msgMach po).cluster 0).fentry 19 5#64 = some ent1 ∧ wordAt po 5 ≠ 0#64 ∧
      (wordAt po 5).toNat % 8 = 0) ∧
    (msgHandler de = 0x40 ∧ msgVa de = cell1 ∧ (msgMach de).cellFault 1 cell1 = none ∧
      (msgMach de).barredAt 0 cell1.toNat = false ∧ (msgMach de).forwardOf 0 cell1.toNat = none ∧ msgTurn de = true ∧ ((msgMach de).core 0).bank 16 = 2 ∧
      (chipOf cell1.toNat).core = 0 ∧ (chipOf cell1.toNat).off / 0x2000 = 0 ∧ wordAt de 2 < wd ((msgMach de).num cell1.toNat 8)) := by decide +kernel

/-- Group 2 of the tests: this device and device 5, sequenced here. -/
def grp : GroupEntry := { valid := true, ten := 1, seqdev := 0, members := [0, 5], wbase := 0x2000#64, wsize := 4096 }

/-- MulticastIsStampedAppliedAndRepaired: a store to stamp and one to refuse; a number that returns; a store that is next and one that is ahead; reports;
a gap in the window that is young and one that is old; members that were heard of long ago; a way to another member. -/
theorem witness_MulticastIsStampedAppliedAndRepaired :
    let st (n : Nat) : Stamped := { n := n, off := 32, len := 2, data := [1#8, 2#8] }
    let rt : AMap Route := [(0, .torus 0 0 0 15), (5, .uplinks 4)]
    let on (g : Group) (a : Act) : State := { mach [] with groups := [(2, g)], flights := [cellFl a], cycle := 5, routes := rt }
    let m := on { entry := grp } (.mcst (.reg 3#5) 2 32 2 [1#8, 2#8])
    let z := on { entry := grp } (.mcst (.reg 3#5) 2 4095 2 [1#8, 2#8])
    let r := on { entry := grp } (.stampReturn (.reg 3#5) 2 4)
    let a := on { entry := grp } (.stamped 2 (st 1))
    let b := on { entry := grp } (.stamped 2 (st 2))
    let gap (req cyc seq : Nat) : State := { mach [] with
      groups := [(2, { entry := { grp with seqdev := seq }, window := [st 3], requests := req })], cycle := cyc, routes := rt }
    let p : Packet := { ddev := 5, dport := 4, cls := 3, ch := 1, ord := true, ten := 1, srcid := m.switchId, opw := 1#64, tgt := 2#64, payload := [0#64] }
    (∀ s ∈ [m, z], ∀ f ∈ s.flights, s.flight? 7 = some f ∧ f.pkt = none ∧ s.atSluice f = true ∧ (∀ x ∈ s.flights, s.atSluice x = true →
        x.reachedBefore f = false) ∧ s.groupHas 2 f.ten = true ∧ s.holds f.who f.party = true ∧ (s.slot f.who).frozen = false ∧ f.own = false ∧
        f.outlived = false) ∧
    ((m.flights.map (·.act)) = [.mcst (.reg 3#5) 2 32 2 [1#8, 2#8]] ∧ 32 + 2 ≤ (m.group 2).entry.wsize ∧ (m.group 2).cutting = false ∧ (m.group 2).stamp + 1 ≤ (m.group 2).g + 256 ∧
      m.servedAt.contains sluicePlace = false ∧
      m.dev ∈ (m.group 2).entry.members ∧ 5 ∈ (m.group 2).entry.members ∧ 5 ≠ m.dev ∧
      (m.delmelPort (stampedPacket 5 1 2 { st 1 with src := m.srcId ⟨0, 0⟩ }) none).isSome = true ∧ (m.delmelPort p none).isSome = true) ∧
    ((z.flights.map (·.act)) = [.mcst (.reg 3#5) 2 4095 2 [1#8, 2#8]] ∧ (z.group 2).entry.wsize < 4095 + 2) ∧
    (r.flight? 7 = some (cellFl (.stampReturn (.reg 3#5) 2 4)) ∧ r.holds ⟨0, 0⟩ 1 = true) ∧
    (∀ p ∈ [(a, 1), (b, 2)], p.1.flight? 7 = some (cellFl (.stamped 2 (st p.2))) ∧ (p.1.group 2).lost = false ∧ (p.1.group 2).entry.valid = true ∧
      (p.1.group 2).window = [] ∧ Memory.wf p.1.mem = true ∧ p.1.checkNow (msgCluster (grp.wbase + wd 32)) 1 (p.1.devLevel 1) .store false (grp.wbase + wd 32) 2 = .ok 0x2020 ∧ p.1.place 0x2020 = .stack) ∧
    (st 1).n = (a.group 2).gapply + 1 ∧ (b.group 2).gapply + 1 < (st 2).n ∧
    (∀ q ∈ [(0, 100, 0), (3, 70000, 0), (1, 70000, 5)], let s := gap q.1 q.2.1 q.2.2
      (s.group 2).entry.valid = true ∧ (s.group 2).lacks = true ∧ (s.group 2).lost = false ∧ (s.group 2).lackSince = 0 ∧ (s.group 2).requests = q.1 ∧
        (s.group 2).entry.seqdev = q.2.2) ∧
    (∀ q ∈ [0, 5], let s := gap 0 700000 q
      (s.group 2).entry.valid = true ∧ s.dev ∈ (s.group 2).entry.members ∧ (s.group 2).lost = false ∧ (s.group 2).reported + 700 ≤ s.cycle ∧
        (s.group 2).entry.seqdev = q ∧ (s.group 2).heard.get 0 5 + 700000 ≤ s.cycle ∧ (s.group 2).heard.get 0 s.dev + 700000 ≤ s.cycle ∧
        (s.group 2).heardG + 700000 ≤ s.cycle ∧ s.dev ∈ [0, 7]) := by decide +kernel

/-- MulticastIsStampedAppliedAndRepaired, a failover: survivors of which one has not said how far it holds every store, and survivors that all have. -/
theorem witness_Failovers : ∀ q ∈ [([], true), ([(7, 2)], false)],
    let x : Group := { entry := { grp with seqdev := 5, members := [0, 5, 7] }, hs := q.1 }
    0 ∈ [0, 7] ∧ x.entry.seqdev ∉ [0, 7] ∧ x.lost = false ∧ x.heardG = 0 ∧
      [0, 7].any (fun m => ((x.hs.put 0 x.held).find? fun e => e.1 == m).isNone) = q.2 := by decide +kernel

/-- A packet for this device, with its check. -/
def pack (ten : Nat) : Packet :=
  let p : Packet := { nfl := 1, ten := ten, tgt := 0x2000#64, payload := [5#64] }
  { p with hchk := packetCheck p }

/-- TimeoutsLinksAndRegions: an atomic on another cluster's scratch, a message and a multicast store that wait, young and old; flits; a good packet, a bad
one and one for another device; a port that is up; launches that run and none. -/
theorem witness_TimeoutsLinksAndRegions : let k := chipAddr 1 1 0 0x100
    let at4 := fl 0 (.atomic (.reg 3#5) 0 true (wd k) k 5#64 0#64 .plain)
    let se := fl 0 (.send (msg 0x2000 2 2 1 [1, 2, 3, 4]))
    let mc := fl 0 (.mcst (.reg 3#5) 2 32 2 [1#8, 2#8])
    let on (f : Flight) (c : Nat) : State := { mach [] with flights := [f], groups := [(2, { entry := grp })], cycle := c }
    let s : State := { mach [] with routes := [(0, .torus 0 0 0 15), (5, .uplinks 4)] }
    let far : Packet := let p : Packet := { pack 1 with ddev := 5 }; { p with hchk := packetCheck p }
    (∀ f ∈ [at4, se, mc], ∀ c ∈ [100, 70000], (on f c).flight? f.id = some f ∧ ((on f c).timed? f).any (fun v => v.2 == 70000) = true ∧ f.pkt = none ∧ f.late = false ∧
      f.reply = false ∧ f.seep = none ∧ (on f c).holds f.who f.party = true ∧ ((on f c).slot f.who).frozen = false ∧ f.own = false ∧
      f.outlived = false ∧ f.born = 0) ∧
    at4.act.dest = .reg 3#5 ∧ mc.act.dest = .reg 3#5 ∧
    ((on mc 70000).timed? { mc with act := .stampReturn (.reg 3#5) 2 4, owed := some (0, 70000) }).isSome = true ∧
    s.portUp 3 = true ∧ s.badFrames = [] ∧ ({ s with badFrames := [(3, 9)] } : State).portUp 3 = true ∧ packetBad (pack 1) 0 = none ∧ packetBad (pack 70) 0 = some 3 ∧ (pack 1).ddev = s.dev ∧ (pack 1).cls = 0 ∧
    (pack 1).opw ≠ 0x50#64 ∧ s.flights = [] ∧ packetBad far 0 = none ∧ far.ddev ≠ s.dev ∧ (s.delmelPort far (some 3)).isSome = true ∧
    s.launches = [] ∧ ({ s with launches := [la2 0 0] } : State).launches ≠ [] := by decide +kernel

/-- SlotsAreSwitchedSavedMovedAndStopped: a shared cluster whose slice is over, with and without a strand of its tenant; a saved slot that comes back; a
line that waits. -/
theorem witness_SlotsAreSwitched :
    let sw (x : Slot) : State := { at_ 0 x with clusters := [(0, { tlb := tlb1, share := [1, 2] })], cycle := 10000 }
    let e0 : SavedSlot := { at_ := ⟨0, 1⟩, bytes := leBytes 8 0x0100_0000_0000_2000 ++ leBytes 8 0x1000, tag := { ten := 1, level := .u, origin := .firmware, party := 1 } }
    let v : Slice := { ten := 1, slots := [e0] }
    let m : Image := { bytes := e0.bytes, poison := e0.poison, tag := e0.tag }
    let b : State := { mach [] with clusters := [(0, { tlb := tlb1, share := [1, 2], saved := [v] })], cycle := 10 }
    let f := fl 1 (.result (.reg 3#5) 5#256 none [])
    let li : State := { mach [] with flights := [f], cores := [(0, { coreOf run1 with seep := [(2, { v := true, flight := 7 })] })] }
    (∀ s ∈ [sw run1, sw {}], s.sliceDue 0 = true ∧ (s.cluster 0).leaving = none ∧ (s.cluster 0).share = [1, 2] ∧ (s.cluster 0).turn = 0 ∧
      (s.cluster 0).folds = []) ∧
    ((sw run1).slotsOn 0 1 = [⟨0, 0⟩] ∧ (sw {}).slotsOn 0 1 = []) ∧
    (b.sliceDue 0 = false ∧ (b.cluster 0).leaving = none ∧ (b.cluster 0).saved.find? (fun v => v.ten == 1) = some v ∧ v.slots = [e0] ∧
      (b.slot e0.at_).occ = .free ∧ b.promised 0 1 = false ∧ (b.banksFor m 0).toBool = true ∧ m.word 15 = 0#64) ∧
    (let l := (li.core 0).seep.get {} 2
     l.v = true ∧ l.landed = false ∧ li.flight? l.flight = some f ∧ f.hop = none) := by decide +kernel

/-- Two cores of tenant 1, a strand that has stopped for a save in slot 0 of core 0, or none, and an operation of the monitor. -/
def saveMach (x : Slot) (fws : List Forward) (a : Act) : State :=
  { at_ 0 x with cores := [(0, { coreOf x with forwards := fws }), (1, {})], flights := [{ fl 2048 a with ten := 0, level := .m, party := 9 }],
                 routes := [(0, .torus 0 0 0 15), (5, .uplinks 4)] }

/-- SlotsAreSwitchedSavedMovedAndStopped: a slot to save and to move, to a core with room, to one without, to a device that can be reached and to one that
cannot, and where eight entries stand; a slot whose strand is gone; cores to stop and to resume. -/
theorem witness_SlotsAreSavedMovedAndStopped :
    let x : Slot := { run1 with sb := 0#48, halted := true, saving := true }
    let fw : Forward := { oldSlot := 1, newCore := 1, newSlot := 0, sb := 0#48, moved := 0, used := 0, sent := 0 }
    let sv := Act.ctxsave (.reg 3#5) ⟨0, 0⟩ 0x4000#64
    let mi (core dev : Nat) := Act.migr (.reg 3#5) ⟨0, 0⟩ core dev
    let cs (resume : Bool) : Act := .coreStop 1 resume false 0x2000#64 [0, 1]
    let gs := Act.gstop (.reg 3#5) 2 [8, 9]
    let fo : State := { mach [] with cores := [(0, { coreOf run1 with forwards := [fw] })], cycle := 100000 }
    let img (s : State) : Image := { bytes := s.imageBytes ⟨0, 0⟩ 0, poison := s.imagePoison ⟨0, 0⟩, tag := s.imageTag ⟨0, 0⟩ }
    (∀ s ∈ [saveMach x [] sv, saveMach x [] (mi 1 0), saveMach x [] (mi 20 0), saveMach x [] (mi 1 5), saveMach x [] (mi 1 9),
        saveMach x (List.replicate 8 fw) (mi 1 0)], ∀ f ∈ s.flights,
      s.flight? f.id = some f ∧ f.who ≠ ⟨0, 0⟩ ∧ s.saveTurn f.id ⟨0, 0⟩ = true ∧ (s.slot ⟨0, 0⟩).occ ≠ .free ∧ (s.slot ⟨0, 0⟩).halted = true ∧
        (s.slot ⟨0, 0⟩).saving = true ∧ s.savable ⟨0, 0⟩ = true ∧ (s.core 0).seep = [] ∧ s.dev = 0) ∧
    ((saveMach x [] sv).core 0).liveForwards < 8 ∧ 8 ≤ ((saveMach x (List.replicate 8 fw) sv).core 0).liveForwards ∧
    (let s := saveMach x [] (mi 1 0); (s.moveTo (img s) ⟨0, 0⟩ 1).isSome = true ∧ s.moveTo (img s) ⟨0, 0⟩ 20 = none ∧ s.reaches 5 = true ∧
      s.reaches 9 = false) ∧
    (∀ a ∈ [sv, mi 1 0], ∀ f ∈ (saveMach {} [] a).flights, (saveMach {} [] a).saveTurn f.id ⟨0, 0⟩ = true ∧
      ((saveMach {} [] a).slot ⟨0, 0⟩).occ = .free ∧ (saveMach {} [] a).sliced ⟨0, 0⟩ = false) ∧
    ((fo.core 0).forwards[0]? = some fw ∧ fw.retired = false ∧ fw.used + 65536 ≤ fo.cycle ∧ fw.sent ≤ (fo.core 0).received) ∧
    (∀ b ∈ [false, true], let s := saveMach x [] (cs b)
      ∀ f ∈ s.flights, s.flight? 7 = some f ∧ f.act = cs b ∧ Memory.wf s.mem = true ∧ s.recordIndex 0 = 0 ∧
        s.checkNow (s.clusterOf 2048) 0 .m .store false (0x2000#64 + wd (64 * s.recordIndex 0)) 64 = .ok 0x2000 ∧ s.place 0x2000 = .stack) ∧
    (∀ f ∈ (saveMach x [] gs).flights, f.act = gs ∧ ∀ i ∈ [8, 9], (saveMach x [] gs).flight? i = none) := by decide +kernel

/-- SlotsAreSwitchedSavedMovedAndStopped: a forwarding entry whose places have all been granted again, and a fenced core that is resumed. -/
theorem witness_EntriesAndFencesEnd :
    let fw : Forward := { oldSlot := 1, newCore := 1, newSlot := 0, sb := 3#48, moved := 0, used := 0, sent := 0, backSb := 3#48, backSlot := true }
    let fo : State := { mach [] with cores := [(0, { coreOf run1 with forwards := [fw] })], cycle := 100000 }
    let f := fl 2048 (.coreStop 1 true false 0x2000#64 [0])
    let s : State := { mach [] with cores := [(0, { coreOf run1 with stopped := true, fenced := true })], flights := [f] }
    (fo.core 0).forwards[0]? = some fw ∧ fw.retired = false ∧ fw.used + 65536 ≤ fo.cycle ∧ fw.sent ≤ (fo.core 0).received ∧
      fw.sb &&& ~~~fw.backSb = 0#48 ∧ s.flight? f.id = some f ∧ (s.core 0).fenced = true ∧ (s.slot ⟨0, 0⟩).occ ≠ .free := by decide +kernel

/-- SlotsAreSwitchedSavedMovedAndStopped, MIGR to another device: it takes the strand or it does not. -/
theorem witness_farTakes (n : Nat) : Config.farTakes n = true ∨ Config.farTakes n = false := by
  cases Config.farTakes n <;> simp

/-- SlotsAreSwitchedSavedMovedAndStopped, CTXSAVE: an area that can be written, and one that cannot. -/
theorem witness_CtxsaveAreas : ∀ p ∈ [(0x4000, true), (0x7FFF_F000_0000, false)],
    let s := saveMach { run1 with sb := 0#48, tiles := [], halted := true, saving := true } [] (.ctxsave (.reg 3#5) ⟨0, 0⟩ (wd p.1))
    let s0 : State := { s with fresh := s.fresh + 1 }
    let x := s.slot ⟨0, 0⟩
    let bs := s0.imageBytes ⟨0, 0⟩ s.fresh
    (State.writeArea x.party 0 .m (s0.imagePoison ⟨0, 0⟩) [(x.party * 8 + 3, (s0.party x.party).floor)] (bs.length / 64) 0 (wd p.1) bs
      s0).isSome = p.2 ∧ s.savable ⟨0, 0⟩ = true ∧
      s.areaWakes (wd p.1) bs.length = none := by decide +kernel

/-! ### Host port, security, resets, turns -/

/-- HostWritesReachTheirRegisters: a queue that the tenant has; a sealed tenant, one that is not, and one that is locked. -/
theorem witness_HostWritesReachTheirRegisters : let s := mach []
    let u : State := { s with tenants := [(1, { ten1 with tdi := .unlocked })] }
    let l : State := { s with tenants := [(1, { ten1 with tdi := .locked })] }
    0 < (s.tenant 1).nq ∧ s.sealed 1 = true ∧ u.sealed 1 = false ∧ bit 0x8000_0000_0000_0000#64 63 = true ∧ bit 5#64 63 = false ∧
      fld 10#64 13 0 = 10 ∧ fld 10000#64 13 0 = 10000 ∧ fld 9#64 13 0 = 9 ∧ fld 10001#64 13 0 = 10001 ∧ (s.tenant 1).tdi = .run ∧
      (l.tenant 1).tdi = .locked := by decide +kernel

/-- A machine whose host has asked for a request: the words of the area from 0 on. -/
def asked (s : State) (ws : List Nat) : State := { s with mbox := (ws.zipIdx.map fun e => (e.2, wd e.1)) ++ [(31, 1#64)] }

/-- MailboxRequestsAreAnswered: nothing asked for, and a FREE under way; a lawful descriptor and one of zeros; a tenant that is free, one with queues; a
cluster given to a tenant that is sealed, one whose launch runs and an idle one; a lawful group and one that is not; counters. -/
theorem witness_MailboxRequestsAreAnswered :
    let ms := at_ 2048 { occ := .running, level := .m, pc := 0x1000#64, party := 1 }
    let d := asked (stored ms 0x2000 [0x1102]) [1, 2]
    let z := asked ms [1, 0]
    let st (t : State) : Option (Nat × Nat) :=
      let chk := fun a : Word => t.checkNow (t.clusterOf 2048) 0 .m .load false a 8
      match t.stackWords chk 0x2000#64 32 with
      | .ok ws =>
        let words := maskDescr (ws.map (·.1))
        match t.stackWords chk (wd (fld (wordAt words 20) 56 3 * 8)) (Nat.min 1024 (wordAt words 21).toNat) with
        | .ok l => some (t.assignStatus ⟨words, l.map (·.1)⟩ true, (⟨words, l.map (·.1)⟩ : Descr).vf)
        | .error _ => none
      | .error _ => none
    let s := mach []
    let f (v : Nat) := asked s [2, v]
    let u (ten : Tenant) (ls : List Launch) : State := asked { s with tenants := [(1, ten)], launches := ls } [3, 0, 1]
    let p := asked s [4]
    let good : List Word := [wd (2 ^ 63 + 1 * 2 ^ 56 + 7 * 2 ^ 44 + 2 * 2 ^ 32), 0x2000#64, 4096#64, 0x3000#64]
    let bad := good.set 2 5#64
    (s.mboxWord 31 ≠ 1 ∧ ({ f 1 with mboxFree := some 2 } : State).mboxFree.isSome = true) ∧
    (∀ q ∈ [(d, 1), (z, 1), (f 2, 2), (f 1, 2), (u ten1 [], 3), (p, 4), (asked s [5, 31], 5), (asked s [5, 5], 5)], q.1.mboxWord 31 = 1 ∧
      q.1.mboxFree = none ∧ q.1.mboxWord 0 = q.2) ∧
    (st d = some (0, 2) ∧ d.mboxWord 1 = 2) ∧ (st z = some (2, 0) ∧ z.mboxWord 1 = 0) ∧
    ((f 2).mboxWord 1 = 2 ∧ ((f 2).tenant 2).st = .free ∧ (f 1).mboxWord 1 = 1 ∧ ((f 1).tenant 1).st ≠ .free ∧ 0 < ((f 1).tenant 1).nq) ∧
    (∀ q ∈ [(u ten1 [], true, false), (u { ten1 with tdi := .unlocked } [], false, false), (u { ten1 with tdi := .unlocked } [la2 0 0], false, true)],
      q.1.mboxWord 1 = 0 ∧ q.1.mboxWord 2 = 1 ∧ q.1.mboxWord 3 = 0 ∧ 0 < q.1.nclusters ∧ (q.1.cluster 0).share = [] ∧ (q.1.cluster 0).leaving = none ∧
        (q.1.cluster 0).folds = [] ∧ q.1.sealed 1 = q.2.1 ∧ q.1.launching 1 = q.2.2) ∧
    (let q := asked { u { ten1 with tdi := .unlocked } [] with tenants := [(1, ten1), (2, { ten1 with tdi := .unlocked })] } [3, 0, 2]
     q.sealed 2 = false ∧ q.launching 2 = false ∧ q.tenantOn 0 = some 1 ∧ q.slotsOn 0 1 = [⟨0, 0⟩]) ∧
    (groupLawful (p.groupEntry good) = true ∧ groupLawful (p.groupEntry bad) = false) ∧
    ((asked s [5, 31]).mboxWord 1 = 31 ∧ 31 % 31 = 0 ∧ 31 + 30 ≤ 0x13F ∧ (asked s [5, 5]).mboxWord 1 = 5 ∧ 5 % 31 ≠ 0) := by decide +kernel

/-- SpdmRequestsAreServedInOrder: a function at each stage, with a session and without; a function that is not served; a report that can be made. -/
theorem witness_SpdmRequestsAreServedInOrder :
    let on (x : Spdm) (t : Tenant) (ls : List Launch) : State := { mach [] with spdm := [(1, x)], tenants := [(1, t)], launches := ls }
    (∀ n < 4, let s := on { stage := n } ten1 []
      s.serves 1 = true ∧ (s.spdmOf 1).stage = n ∧ (s.spdmOf 1).session = false) ∧
    (∀ e ∈ [false, true], let s := on { stage := 3, session := true, established := e, ide := true } ten1 []
      s.serves 1 = true ∧ (s.spdmOf 1).session = true ∧ (s.spdmOf 1).established = e ∧ (s.spdmOf 1).ide = true ∧ (s.tenant 1).tdi = .run) ∧
    (mach []).serves 2 = false ∧
    (let s := on {} { ten1 with st := .assigned, tdi := .unlocked } []
     (s.tenant 1).st = .assigned ∧ (s.tenant 1).tdi = .unlocked) ∧
    (let s := on {} { ten1 with st := .locked, tdi := .locked } []
     (s.tenant 1).tdi = .locked) ∧
    (∀ ls ∈ [[], [la2 0 0]], let s := on { stage := 3, session := true, established := true } ten1 ls
      (0x4000#64).toNat < 2 ^ 56 ∧ (0x4000#64).toNat % 4096 = 0 ∧ (32#64).toNat % 32 = 0 ∧ (32#64).toNat ≤ 2 ^ 40 ∧
        (s.digestPages 1 0x4000#64 ((32 + 4095) / 4096)).isSome = true ∧ s.launching 1 = !ls.isEmpty) := by decide +kernel

/-- ResetsRestartTheMachine: a good image in module flash and a bad one, a part with a cluster and a channel, a mesh link that fails, banks in range, a pass
that runs, and a part in recovery that is whole and one that is not. -/
theorem witness_ResetsRestartTheMachine : let s := mach []
    let b : BootReport := {}
    let bad : State := { s with firmware := { signed := false } }
    let r (ts : List Turn) (l : List (Nat × Nat)) : State := { s with recovery := true, agenda := ts, life := { retired := l } }
    let p : State := { s with journal := { run := true, vf := 1, jobs := [⟨0#64, 0x1000_0000_0001_0000#64⟩] } }
    s.imageGood s.firmware = true ∧ b.badLinks = [] ∧ s.seats ≠ [] ∧ s.chans ≠ [] ∧ (s.retire b).seated b.seats [] ≠ [] ∧ (s.retire b).trained b ≠ [] ∧
      bad.imageGood bad.firmware = false ∧ ({ b with badLinks := [9] } : BootReport).badLinks ≠ [] ∧ Memory.wf s.mem = true ∧
      (∀ c ∈ s.cores, (∀ x ∈ c.2.slots.toList, ∀ n ∈ x.tiles, n < 16) ∧ ∀ e ∈ c.2.retained, ∀ n ∈ e.tiles, n < 16) ∧
      ((s.tenant 1).st ≠ .free ∧ (s.tenant 1).kslot ≠ 0) ∧ p.journal.run = true ∧ s.recovery = false ∧
      (∀ ts ∈ [[], [Turn.issue ⟨2048, 0⟩], [.tick 5], [.event .launchAccept]], (r ts []).recovery = true ∧ (r ts []).agenda = ts) ∧
      inRecovery .launchAccept = false ∧ (r [] []).imageGood {} = true ∧
      (r [] []).life.seated (r [] []).boot.seats [] ≠ [] ∧ (r [] []).life.trained (r [] []).boot ≠ [] ∧
      (∀ e ∈ (r [] []).life.retired, e.1 ≠ 1) ∧ (1, 0) ∈ (r [] [(1, 0)]).life.retired := by decide +kernel

/-- PlatriuzScrubsPatrolsAndChecks: a chunk of memory and one of banks; an address in stack memory; a key slot that is bound and one that is not. -/
theorem witness_PlatriuzScrubsPatrolsAndChecks :
    let on (js : List ScrubJob) : State := { mach [] with journal := { run := true, vf := 1, jobs := js } }
    let a := on [⟨0#64, 0x1000_0000_0002_0000#64⟩]
    let b := on [⟨wd scr0, 0x2000_0000_0000_01FF#64⟩]
    let k : State := { mach [] with keys := [(16, { st := .loaded }), (17, { st := .loaded })] }
    a.journal.run = true ∧ a.chunkNow = some (.pa 0) ∧ a.recorded.2 = false ∧ Memory.wf a.mem = true ∧
      b.chunkNow = some (.banks 0 0xFF#48) ∧ b.recorded.2 = false ∧ b.journal.failed.contains 0 = false ∧ a.place 0x2000 = .stack ∧ a.place 0x80_0000_0000 = .lpddr 0 ∧
      a.place scr0 = .chip ∧ (chipOf scr0).unit < 16 ∧ (chipOf scr0).region < 2 ∧ a.journal.failedCh = [] ∧
      (k.keys.get {} 16).st ≠ .lost ∧ (k.keys.get {} 17).st ≠ .lost ∧ k.boundTo 17 = [] ∧ k.boundTo 16 = [1] ∧ (mach []).journal.run = false := by
  decide +kernel

/-- AStepRunsTheDecodedWord: a slot that its core does not choose, one that may not run, one with a boundary event due, one that drains, and one whose core
has issued; a word, a word that is no instruction, a fetch that fails, a miss, a store to the word under way, and code in a bank that is not Full; an event,
a tick, and a slot that waits since 12 cycles. -/
theorem witness_AStepRunsTheDecodedWord : let r : SlotRef := ⟨0, 0⟩
    let ready (u : State) := (List.range 4).filter fun n => n == r.slot || u.readySlot r.core n
    let chosen (u : State) : Bool := (u.core 0).turnOf u.cycle (ready u) == some 0
    let x (u : State) : State := u.modCore 0 fun c => c.turned u.cycle (ready u)
    let run (u : State) : Bool :=
      chosen u && (x u).mayTurn r && !(x u).boundaryDue r && ((x u).slot r).drain.isNone && !decide (((x u).core 0).issued = some u.cycle)
    let get (u : State) : Fetched := (x u).fetchWord r ((x u).slot r).pc
    let w (n : Nat) : State := stored (mach []) 0x1000 [n]
    let far := at_ 0 { run1 with pc := 0x60_0000#64 }
    let out := at_ 0 { run1 with pc := wd (2 ^ 57) }
    let own : State := { w 0x0461_1000 with flights := [fl 0 (.store 0x1000#64 0x1000 [1#8] .plain .none)] }
    let chip : State := { at_ 0 { run1 with pc := wd scr0 } with cores := [(0, { slots := (Vector.replicate 4 {}).set 0 { run1 with pc := wd scr0 }, b0 := 0x1_0000_0000#64 })] }
    let two : State := { w 0x0461_1000 with
      cores := [(0, { slots := ((Vector.replicate 4 {}).set 0 run1).set 1 { run1 with st := wd (5 * 2 ^ 58), party := 2 } })] }
    (∀ n < 4, n ≠ 0 → (w 0x0461_1000).readySlot 0 n = false) ∧ chosen two = false ∧
      (chosen (at_ 0 {}) = true ∧ (x (at_ 0 {})).mayTurn r = false) ∧
      (let p := at_ 0 { run1 with pre := true }
       chosen p = true ∧ (x p).mayTurn r = true ∧ (x p).boundaryDue r = true) ∧
      (let d := at_ 0 { run1 with drain := some .halt }
       chosen d = true ∧ (x d).mayTurn r = true ∧ (x d).boundaryDue r = false ∧ ((x d).slot r).drain ≠ none) ∧
      (let i : State := (w 0x0461_1000).modCore 0 fun c => { c with issued := some 0 }
       chosen i = true ∧ (x i).mayTurn r = true ∧ (x i).boundaryDue r = false ∧ ((x i).core 0).issued = some i.cycle) ∧
      (run (w 0x0461_1000) = true ∧ (match get (w 0x0461_1000) with | .word v _ => v == 0x04611000#32 | _ => false) = true ∧
        decode 0x04611000#32 = some (.add 3#5 1#5 2#5 false false false)) ∧
      (run (w 0) = true ∧ (match get (w 0) with | .word v _ => v == 0#32 | _ => false) = true ∧ decode 0#32 = none) ∧
      (run far = true ∧ (match get far with | .miss => true | _ => false) = true) ∧
      (run out = true ∧ (match get out with | .bad _ _ => true | _ => false) = true) ∧
      (run own = true ∧ (match get own with | .own => true | _ => false) = true) ∧
      (run chip = true ∧ (match get chip with | .wake 0 16 _ => true | _ => false) = true) ∧
      (w 0).sl.latch = [] ∧ isEvent .launchAccept = true ∧ inRecovery (.coldReset {}) = true ∧ (mach []).calm = true ∧ (mach []).overdue = none ∧
      (let late : State := { w 0x0461_1000 with cycle := 20, cores := [(0, { slots := (Vector.replicate 4 {}).set 0 run1, issuedAt := [(0, 8)] })] }
       late.overdue = some r) := by decide +kernel

/-- EncodedInstructionsDecode: a well-formed instruction that has a word. -/
theorem witness_EncodedInstructionsDecode : (Instr.add 3#5 1#5 2#5 false false false).wf = true ∧
    encode (.add 3#5 1#5 2#5 false false false) = some 0x04611000#32 := by decide +kernel

/-- EveryStepKeepsMemoryCanonical, EveryStepKeepsTheCapacities: the machine after reset steps, and meets both. -/
theorem witness_EveryStep : State.reset.memOk ∧ State.reset.Capacities ∧
    (match step State.reset with | .next _ => true | _ => false) = true :=
  ⟨by unfold State.memOk; decide +kernel, ⟨by decide +kernel, by decide +kernel⟩, by decide +kernel⟩

end Sys2Proof.Tests
end

section
/-! PROOFS. Engine registers (R301 to R303): an ESTAT that is held while its slot drains. -/

namespace Sys2Proof.Machine

/-- Consuming leaves the drain of the issuing slot as it was. -/
theorem State.consume_drain (s : State) (src : List (Reg × Bool)) (h4 : s.cur.slot < 4) : (s.consume src).sl.drain = s.sl.drain := by
  rcases s.consume_sl src h4 with h | h <;> rw [h]

/-- `Slot.goneOn` cannot tell an instruction that begins a drain from one that is held in a slot which drains already: there the held
instruction keeps what it has consumed, against R345. -/
theorem State.issue_held_of_drain (s : State) (src : List (Reg × Bool)) (dst : List Reg) (k : State → State)
    (h : s.Ready (src.map (·.1)) dst) (hk : k (s.consume src) = s.consume src) (hd : s.sl.drain.isSome = true) :
    s.issue src dst k = s.consume src := by
  have hgo : s.sl.goneOn (s.consume src).sl = true := by
    simp [Slot.goneOn, s.consume_drain src h.slot, hd]
  simp [s.issue_ready src dst k h, hk, hgo]

/-- An engine word whose engine is present, at a level that reaches it, is issued (R215, R223). -/
theorem State.onEngine_of_present (s : State) (e : EngCode) (k : State → State) (hp : engPresent (coreKind s.cur.core) e = true)
    (hl : e = .scrub → s.sl.level = .m) : s.onEngine e k = k s := by
  cases e with
  | scrub => simp [State.onEngine, State.priv, hp, hl rfl]
  | copy | matrix | fold | task | stream => simp [State.onEngine, hp]

/-- An ESTAT of COPY whose word reports DONE, with an earlier entry under way (R85), is held; in a slot that drains it answers the machine
that has consumed. -/
theorem exec_estat_copy_held_of_drain (s : State) (a d : Reg) (hp : coreKind s.cur.core = .compute) (h : s.Ready [] [d])
    (hdone : bit ((s.consume []).estat .copy (.copy s.cur.core)) 63 = true) (hbusy : (s.consume []).quiet = false)
    (hd : s.sl.drain.isSome = true) : exec (.estat .copy a d) s = .next (s.consume []) := by
  have hexec : exec (.estat .copy a d) s = execEstat .copy a d s := rfl
  have hpres : engPresent (coreKind s.cur.core) .copy = true := by simp [engPresent, hp]
  rw [hexec, execEstat, s.onEngine_of_present .copy _ hpres (by simp)]
  congr 1
  refine s.issue_held_of_drain [] [d] _ h ?_ hd
  simp [State.engOwned, State.engQueue, hdone, hbusy]

/-- A strand of core 0 whose slot drains for HALT and still carries the mark that its word has waited for s1; a store of it is under way, and
its copy queue is empty. -/
def drainingStrand : State :=
  { cores := [(0, { slots := (Vector.replicate 4 {}).set 0 { occ := .running, party := 1, drain := some .halt, waits := 2#32 } })]
    flights := [{ id := 7, who := ⟨0, 0⟩, party := 1, ten := 1, level := .u, queue := 0, born := 0
                  act := .store 0x2000#64 0x2000 [1#8] .plain .none }]
    cur := ⟨0, 0⟩ }

end Sys2Proof.Machine

open Sys2Proof Sys2Proof.Machine

/-- Refutes O25: the statement says that an ESTAT which reports DONE while an earlier entry of its strand is under way leaves the machine as it
is, of every slot, also of one that drains. There the model answers the machine whose marks of what was waited for are cleared: of
`drainingStrand`, ESTAT of COPY to s3 turns `waits` from 2 to 0. (A turn never issues a word of a slot that drains, `State.planSlot`; the clause
lacks the hypothesis `s.sl.drain = none`.) -/
theorem not_engineRegistersAreReadAndWritten : ¬ Obligations.EngineRegistersAreReadAndWritten := by
  unfold Obligations.EngineRegistersAreReadAndWritten
  intro h
  let s : State := drainingStrand
  have hready : s.Ready [] [3#5] := ⟨by decide, by simp, by decide +kernel⟩
  have hdone : bit ((s.consume []).estat .copy (.copy 0)) 63 = true := by decide +kernel
  have hbusy : (s.consume []).quiet = false := by decide +kernel
  obtain ⟨-, -, -, hestat, -⟩ := h s .copy 1#5 2#5 3#5 (by decide) (by simp)
  have heldAsIs : exec (.estat .copy 1#5 3#5) s = .next s := (hestat hready (by decide +kernel)).2 ⟨by decide, hdone⟩ hbusy
  have consumed : exec (.estat .copy 1#5 3#5) s = .next (s.consume []) :=
    exec_estat_copy_held_of_drain s 1#5 3#5 (by decide) hready hdone hbusy (by decide +kernel)
  have same : s.consume [] = s := by
    rw [consumed] at heldAsIs
    exact Host.Outcome.next.inj heldAsIs
  have marks : (s.consume []).sl.waits ≠ s.sl.waits := by decide +kernel
  exact marks (by rw [same])
end

section
/-! PROOFS. Leaving a handler (R309, R337). -/

namespace Sys2Proof.Machine

/-- A table whose every entry is changed by `f` reads the changed value at every key, also at one that is not listed when `f` keeps the default. -/
theorem AMap.get_mapSnd {α : Type} (f : α → α) (d : α) (hd : f d = d) (m : AMap α) (k : Nat) :
    AMap.get d (m.map fun e => (e.1, f e.2)) k = f (AMap.get d m k) := by
  induction m with
  | nil => exact hd.symm
  | cons e m ih =>
    by_cases h : e.1 = k
    · simp [AMap.get, h]
    · simpa [AMap.get, h] using ih

/-- Settling a held engine operation changes queues, and no slot. -/
theorem State.slot_settleHeld (s : State) (op : Nat) (resume : Bool) (r : SlotRef) : (s.settleHeld op resume).slot r = s.slot r := by
  have hcore : ∃ q, (s.settleHeld op resume).core r.core = { s.core r.core with queue := q } :=
    ⟨_, AMap.get_mapSnd (fun c : Core => { c with queue := c.queue.map _ }) {} rfl s.cores r.core⟩
  obtain ⟨q, hq⟩ := hcore
  simp [State.slot, Core.slot, hq]

/-- Above level U an operation of level S is performed (R216). -/
theorem State.priv_s (s : State) (k : State → State) (h : s.sl.level ≠ .u) : s.priv .s k = k s := by
  cases hl : s.sl.level with
  | u => exact absurd hl h
  | s => simp [State.priv, hl]
  | m => simp [State.priv, hl]

/-- Clearing TSTAT.INH leaves every other bit of TSTAT. -/
theorem bit_clearInh (w : Word) (i : Nat) : bit (setFld w 4 4 0) i = (bit w i && i != 4) := by
  have hw : w.toNat < 2 ^ 64 := w.isLt
  have hval : (setFld w 4 4 0).toNat = w.toNat - w.toNat / 16 % 2 * 16 := by
    simp only [setFld, bits, BitVec.toNat_ofNat]
    omega
  simp only [bit, bitOf, hval]
  rcases Nat.lt_trichotomy i 4 with hi | rfl | hi
  · have below : (w.toNat - w.toNat / 16 % 2 * 16) / 2 ^ i % 2 = w.toNat / 2 ^ i % 2 := by
      interval_cases i <;> omega
    simp [below, show i ≠ 4 by omega]
  · have cleared : (w.toNat - w.toNat / 16 % 2 * 16) / 16 % 2 = 0 := by omega
    simp [cleared]
  · obtain ⟨j, rfl⟩ : ∃ j, i = 5 + j := ⟨i - 5, by omega⟩
    have above : (w.toNat - w.toNat / 16 % 2 * 16) / 2 ^ 5 = w.toNat / 2 ^ 5 := by omega
    have above' : (w.toNat - w.toNat / 16 % 2 * 16) / 2 ^ (5 + j) = w.toNat / 2 ^ (5 + j) := by
      rw [Nat.pow_add, ← Nat.div_div_eq_div_mul, ← Nat.div_div_eq_div_mul, above]
    simp [above', show 5 + j ≠ 4 by omega]

/-- What TRET does in a handler whose PLEVEL the core can run: the issuing slot becomes what `Slot.tret` makes of it, on a machine with the same
slots and the same memory, in which at most a held engine operation has been settled (R374). -/
theorem exec_tret (s : State) (hl : s.sl.level ≠ .u) (hinh : bit s.sl.trap.tstat 4 = true)
    (hrun : runsLevel s.cur.core (fld s.sl.trap.tstat 1 0) = true) :
    ∃ u : State, exec .tret s = .next (u.setSlot s.cur s.sl.tret) ∧ u.cur = s.cur ∧ u.mem = s.mem ∧ ∀ r, u.slot r = s.slot r := by
  have hexec : exec .tret s = execTret s := rfl
  have hgo : (!bit s.sl.trap.tstat 4 || !runsLevel s.cur.core (fld s.sl.trap.tstat 1 0)) = false := by simp [hinh, hrun]
  rw [hexec, execTret, s.priv_s _ hl]
  simp only [hgo, Bool.false_eq_true, if_false]
  by_cases hop : s.sl.tookOp = 0
  · exact ⟨s, by simp [hop], rfl, rfl, fun _ => rfl⟩
  · exact ⟨s.settleHeld s.sl.tookOp (fld s.sl.trap.tcause 7 0 == s.sl.took), by simp [hop], rfl, rfl, s.slot_settleHeld _ _⟩

end Sys2Proof.Machine

open Sys2Proof Sys2Proof.Machine

/-- Settles O8: `exec_tret` gives the machine that TRET answers, and each clause reads a field of `Slot.tret`. -/
theorem tretRestoresTheInterruptedContext : Obligations.TretRestoresTheInterruptedContext := by
  unfold Obligations.TretRestoresTheInterruptedContext
  intro s hslot hl hinh hrun
  obtain ⟨u, hexec, hcur, hmem, hslots⟩ := exec_tret s hl hinh hrun
  have hsl : (u.setSlot s.cur s.sl.tret).sl = s.sl.tret := by
    rw [State.sl, State.setSlot_cur, hcur]
    exact u.slot_setSlot_same s.cur _ hslot
  refine ⟨_, hexec, ?_, ?_, ?_, ?_, ?_, ?_, ?_, ?_, ?_⟩
  case refine_8 => exact fun r hr => (u.slot_setSlot_ne _ hr).trans (hslots r)
  case refine_9 => exact fun a => by rw [State.setSlot_mem, hmem]
  all_goals rw [hsl]
  case refine_3 => exact (bit_clearInh s.sl.trap.tstat 4).trans (by simp)
  case refine_6 => exact fun q => ⟨rfl, rfl⟩
  case refine_7 => exact fun i hi => (bit_clearInh s.sl.trap.tstat i).trans (by simp [hi])
  all_goals rfl
end

section
/-! PROOFS. Resets (R206, R413, R414): the memory that a warm reset leaves. -/

namespace Sys2Proof.Machine

/-- The first byte of tile bank 0 of core 2^31: 2^57 + 2^20, above the on-chip map (R43). -/
def farByte : Nat := bankAddr (2 ^ 31) 0

/-- A tenant that is assigned and owns a queue, whose strand runs in slot 0 of core 2^31 and holds tile bank 0 there; the first byte of that
bank is listed. A scrub pass is under way. -/
def farCoreRunning : State :=
  { mem := [(farByte, 1#8)]
    cores := [(2 ^ 31, { slots := (Vector.replicate 4 {}).set 0 { occ := .running, ten := 1, tiles := [0] } })]
    tenants := [(1, { st := .assigned, nq := 1 })]
    journal := { run := true } }

end Sys2Proof.Machine

open Sys2Proof Sys2Proof.Machine

/-- Refutes O53: the statement says that a warm reset keeps every byte outside scratch and tiles, of every machine whose memory is canonical.
Of `farCoreRunning` it clears the byte at `farByte`: taking the tenant apart turns the tile bank of its strand Off (`State.bankOff`), and
`bankAddr` places the banks of a core numbered 2^31 above the on-chip map, where `chipOf` names no unit, so that the statement counts the byte as
other memory. (The device has no such core, R8; the clause bounds the tile numbers of each core, and lacks a bound on the core's own number.) -/
theorem not_resetsRestartTheMachine : ¬ Obligations.ResetsRestartTheMachine := by
  unfold Obligations.ResetsRestartTheMachine
  intro h
  let s : State := farCoreRunning
  let b : BootReport := {}
  obtain ⟨-, -, warm, -, -⟩ := h
  obtain ⟨t, hexec, -, hmem, -⟩ := warm s b (by unfold State.memOk; decide +kernel) (by decide +kernel) rfl (by decide +kernel)
    (by decide +kernel) (by decide +kernel)
  have cleared : ∀ u, exec (.warmReset b) s = .next u → Memory.get u.mem farByte = 0#8 := by
    intro u hu
    rw [← Host.Outcome.next.inj hu]
    decide +kernel
  have stands : Memory.get s.mem farByte = 1#8 := by decide +kernel
  have otherMemory : ¬ (chipBit ≤ farByte ∧ (chipOf farByte).unit < 16 ∧ (chipOf farByte).region < 2) := by decide +kernel
  have kept : Memory.get t.mem farByte = 1#8 := by rw [hmem farByte, if_neg otherMemory, stands]
  rw [cleared t hexec] at kept
  exact absurd kept (by decide)
end

section
/-! PROOFS. What the machine keeps: a property that the plain updates of the state keep is kept by every function of the model, one lemma for each
function. From it follow the capacities of run lists and shadow task slots (R32, R34, R157), and that only the end of a cycle moves the clock. -/

namespace Sys2Proof.Machine

/- One theorem after another: some hundreds of proofs under way at once need more threads than a check has. -/
set_option Elab.async false

/-! ## The terms -/

/-- A list of run-list banks within its size: eight banks of at most 256 entries (R34, R157). -/
def banksFit (bs : List (List RunEntry)) : Prop := bs.length = 8 ∧ ∀ b ∈ bs, b.length ≤ 256

/-- How many shadow task slots of a core are in use (R32). -/
def Core.shadows (c : Core) : Nat := c.tasks.length + c.falls.length

/-- A property of machines that updates keep: those that leave the clock, the cores and the clusters; a core of which no more shadow task slots are in
use than before or than there are; clusters whose banks stay within their size. -/
class Kept (P : State → Prop) : Prop where
  rest : ∀ {s t : State}, P s → t.cores = s.cores → t.clusters = s.clusters → t.cycle = s.cycle → P t
  core : ∀ {s : State} {k : Nat} {c : Core}, P s → c.shadows ≤ max 2 (s.core k).shadows → P (s.setCore k c)
  cluster : ∀ {s : State} {k : Nat} {f : Cluster → Cluster}, P s → (banksFit (s.cluster k).banks → banksFit (f (s.cluster k)).banks) →
    P (s.modCluster k f)
  all : ∀ {s t : State} {f : Nat × Core → Core} {g : Nat × Cluster → Cluster}, P s → t.cores = s.cores.map (fun c => (c.1, f c)) →
    t.clusters = s.clusters.map (fun c => (c.1, g c)) → t.cycle = s.cycle → (∀ c, (f c).shadows ≤ c.2.shadows) →
    (∀ c, banksFit c.2.banks → banksFit (g c).banks) → P t

/-- A property that is kept besides while time passes and through a reset, and that bounds the shadow task slots in use. -/
class Lasting (P : State → Prop) : Prop extends Kept P where
  time : ∀ {s t : State}, P s → t.cores = s.cores → t.clusters = s.clusters → P t
  room : ∀ {s : State} (k : Nat), P s → (s.core k).shadows ≤ 2
  idle : ∀ {s : State}, (∀ c ∈ s.cores, c.2.shadows = 0) → (∀ c ∈ s.clusters, banksFit c.2.banks) → P s

/-- The machine has the property. -/
def State.Holds (P : State → Prop) (s : State) : Prop := P s

/-- Of an optional answer: when it is there, it satisfies `Q`. -/
def OnSome {α : Type} (Q : α → Prop) : Option α → Prop
  | none => True
  | some a => Q a

/-- Of an answer or a reason why there is none: the answer satisfies `Q`, the reason `E`. -/
def OnExcept {ε α : Type} (E : ε → Prop) (Q : α → Prop) : Except ε α → Prop
  | .error e => E e
  | .ok a => Q a

section
variable (P : State → Prop)

/-- Of an attempt, which leaves the machine done or has to wait on a machine: both have the property. -/
def TryFits (r : Option State × State) : Prop := OnSome (State.Holds P) r.1 ∧ r.2.Holds P

/-- The machine in the answer to a read has the property. -/
def ReadAns.Fits : ReadAns → Prop
  | .held s => s.Holds P
  | .val _ _ _ s => s.Holds P
  | _ => True

/-- The machine after a fetch has the property. -/
def Fetched.Fits : Fetched → Prop
  | .word _ s => s.Holds P
  | _ => True

/-- The machine in the answer of a cell has the property. -/
def CellAns.Fits : CellAns → Prop
  | .held s => s.Holds P
  | .words _ _ _ s => s.Holds P
  | _ => True

/-- The machine after a read by the device has the property. -/
def Got.Fits : Got → Prop
  | .ok _ s => s.Holds P
  | _ => True

/-- The machine in the reason why an engine stops has the property. -/
def Stop.Fits : Stop → Prop
  | .held _ s => s.Holds P
  | .walk s => s.Holds P
  | _ => True

/-- The machine after a look at the dependencies of a tile task has the property. -/
def Deps.Fits : Deps → Prop
  | .wait s => s.Holds P
  | .held _ s => s.Holds P
  | .done _ s => s.Holds P
  | _ => True

/-- The machine after a look at a tile task has the property. -/
def Ripe.Fits : Ripe → Prop
  | .wait s => s.Holds P
  | .held _ s => s.Holds P
  | .go _ _ s => s.Holds P
  | _ => True

/-- The machine that an instruction or event leaves has the property. -/
def Out1.Fits : Out1 → Prop
  | .next s => s.Holds P
  | _ => True

end

section
variable {P : State → Prop} {ε α : Type} {E : ε → Prop} {Q : α → Prop} {s t u : State}

theorem OnSome.of_some {o : Option α} {a : α} (h : OnSome Q o) (e : o = some a) : Q a := by subst e; exact h

theorem OnExcept.of_ok {r : Except ε α} {a : α} (h : OnExcept E Q r) (e : r = .ok a) : Q a := by subst e; exact h

theorem OnExcept.of_error {r : Except ε α} {x : ε} (h : OnExcept E Q r) (e : r = .error x) : E x := by subst e; exact h

theorem TryFits.done {r : Option State × State} (h : TryFits P r) (e : r = (some t, u)) : t.Holds P := by subst e; exact h.1

theorem TryFits.wait {r : Option State × State} (h : TryFits P r) (e : r = (none, t)) : t.Holds P := by subst e; exact h.2

theorem State.Holds.of_fst {r : State × α} {a : α} (h : r.1.Holds P) (e : r = (t, a)) : t.Holds P := by subst e; exact h

theorem State.Holds.of_snd {r : α × State} {a : α} (h : r.2.Holds P) (e : r = (a, t)) : t.Holds P := by subst e; exact h

theorem Got.Fits.of_ok {g : Got} {ws : List Word} (h : g.Fits P) (e : g = .ok ws t) : t.Holds P := by subst e; exact h

theorem Fetched.Fits.of_word {f : Fetched} {w : BitVec 32} (h : f.Fits P) (e : f = .word w t) : t.Holds P := by subst e; exact h

theorem ReadAns.Fits.of_held {a : ReadAns} (h : a.Fits P) (e : a = .held t) : t.Holds P := by subst e; exact h

theorem ReadAns.Fits.of_val {a : ReadAns} {bs : List Byte} {p : Option Nat} {rels : Rels} (h : a.Fits P) (e : a = .val bs p rels t) :
    t.Holds P := by subst e; exact h

theorem CellAns.Fits.of_held {a : CellAns} (h : a.Fits P) (e : a = .held t) : t.Holds P := by subst e; exact h

theorem CellAns.Fits.of_words {a : CellAns} {c w : Word} {rels : Rels} (h : a.Fits P) (e : a = .words c w rels t) : t.Holds P := by
  subst e; exact h

theorem Deps.Fits.of_wait {d : Deps} (h : d.Fits P) (e : d = .wait t) : t.Holds P := by subst e; exact h

theorem Deps.Fits.of_held {d : Deps} {k : Nat} (h : d.Fits P) (e : d = .held k t) : t.Holds P := by subst e; exact h

theorem Deps.Fits.of_done {d : Deps} {rels : Rels} (h : d.Fits P) (e : d = .done rels t) : t.Holds P := by subst e; exact h

theorem Ripe.Fits.of_wait {r : Ripe} (h : r.Fits P) (e : r = .wait t) : t.Holds P := by subst e; exact h

theorem Ripe.Fits.of_held {r : Ripe} {k : Nat} (h : r.Fits P) (e : r = .held k t) : t.Holds P := by subst e; exact h

end

/-! ## Tables -/

/-- What is listed after a put was listed before, or is what was put. -/
theorem AMap.mem_put {α : Type} {m : AMap α} {k : Nat} {v : α} {e : Nat × α} (h : e ∈ m.put k v) : e ∈ m ∨ e = (k, v) := by
  induction m with
  | nil => exact .inr (by simpa [AMap.put] using h)
  | cons x m ih =>
    simp only [AMap.put] at h
    split at h
    · rcases List.mem_cons.mp h with h | h
      · exact .inr h
      · exact .inl h
    · split at h
      · rcases List.mem_cons.mp h with h | h
        · exact .inr h
        · exact .inl (List.mem_cons_of_mem _ h)
      · rcases List.mem_cons.mp h with h | h
        · exact .inl (by simp [h])
        · exact (ih h).imp_left (List.mem_cons_of_mem _)

/-- What a key reads is listed, or the default. -/
theorem AMap.get_cases {α : Type} (d : α) (m : AMap α) (k : Nat) : (∃ e ∈ m, e.2 = AMap.get d m k) ∨ AMap.get d m k = d := by
  induction m with
  | nil => exact .inr rfl
  | cons x m ih =>
    by_cases hk : x.1 = k
    · exact .inl ⟨x, by simp, by simp [AMap.get, hk]⟩
    · rcases ih with ⟨e, he, hv⟩ | h
      · exact .inl ⟨e, List.mem_cons_of_mem _ he, by simpa [AMap.get, hk] using hv⟩
      · exact .inr (by simpa [AMap.get, hk] using h)

/-- What holds of the values of a table and of those put into it holds of the values of the table that results. -/
theorem AMap.forall_foldl_put {α : Type} {P : α → Prop} {l m : AMap α} (hl : ∀ e ∈ l, P e.2) (hm : ∀ e ∈ m, P e.2) :
    ∀ e ∈ l.foldl (fun m e => AMap.put m e.1 e.2) m, P e.2 := by
  induction l generalizing m with
  | nil => exact hm
  | cons x l ih =>
    refine ih (fun e he => hl e (List.mem_cons_of_mem _ he)) fun e he => ?_
    rcases AMap.mem_put he with he | rfl
    · exact hm e he
    · exact hl x List.mem_cons_self

/-! ## Banks of a run list -/

/-- Entering an entry keeps a bank within its size: it enters one that is not full. -/
theorem banksFit_insert (c : Cluster) (now : Nat) (e : RunEntry) (h : banksFit c.banks) : banksFit (c.insert now e).banks := by
  unfold Cluster.insert
  split
  · next i hi =>
    split at hi
    · have room : (c.banks.getD i []).length < 256 := by simpa using List.find?_some hi
      refine ⟨by simpa using h.1, fun b hb => ?_⟩
      rcases List.mem_or_eq_of_mem_set hb with hb | rfl
      · exact h.2 b hb
      · simpa using room
    · cases hi
  · exact h

/-- So does performing the held insertions that find room. -/
theorem banksFit_settle (c : Cluster) (now : Nat) (h : banksFit c.banks) : banksFit (c.settle now).banks := by
  have held (es : List RunEntry) : ∀ d : Cluster, banksFit d.banks → banksFit (es.foldl (fun d e => d.insert now e) d).banks := by
    induction es with
    | nil => exact fun _ h => h
    | cons e es ih => exact fun d h => ih _ (banksFit_insert d now e h)
  exact held c.overflow _ h

/-- Changing or dropping entries bank by bank lengthens none. -/
theorem banksFit_map {f : List RunEntry → List RunEntry} (hf : ∀ b, (f b).length ≤ b.length) {bs : List (List RunEntry)} (h : banksFit bs) :
    banksFit (bs.map f) := by
  refine ⟨by simpa using h.1, fun b hb => ?_⟩
  obtain ⟨b', hb', rfl⟩ := List.mem_map.mp hb
  exact (hf b').trans (h.2 b' hb')

/-- Removing an entry keeps the banks within their size: the held insertions that then find room are performed. -/
theorem banksFit_remove (c : Cluster) (now : Nat) (e : RunEntry) (h : banksFit c.banks) : banksFit (c.remove now e).banks := by
  unfold Cluster.remove
  split
  · next i hi =>
    refine banksFit_settle _ now ⟨by simpa using h.1, fun b hb => ?_⟩
    rcases List.mem_or_eq_of_mem_set hb with hb | rfl
    · exact h.2 b hb
    · refine (List.length_erase_le ..).trans ?_
      rw [List.getD_eq_getElem?_getD]
      cases hg : c.banks[i]? with
      | none => exact Nat.zero_le _
      | some b => exact h.2 b (List.mem_of_getElem? hg)
  · exact h

/-- A further shadow task. -/
theorem Core.shadows_addTask (c : Core) (e : ShadowTask) : Core.shadows { c with tasks := c.tasks ++ [e] } = c.shadows + 1 := by
  simp [Core.shadows, Nat.add_right_comm]

/-! ## Cores and clusters that are not listed -/

section
variable {s : State}

/-- The banks that a cluster reads are within their size, also those of a cluster that is not listed. -/
theorem State.Capacities.cluster (h : s.Capacities) (k : Nat) : banksFit (s.cluster k).banks := by
  rcases AMap.get_cases {} s.clusters k with ⟨e, he, hv⟩ | hd
  · rw [State.cluster, ← hv]
    exact h.banks e he
  · rw [State.cluster, hd]
    exact ⟨rfl, by decide⟩

/-- The shadow task slots that a core reads are at most two. -/
theorem State.Capacities.core (h : s.Capacities) (k : Nat) : (s.core k).shadows ≤ 2 := by
  rcases AMap.get_cases {} s.cores k with ⟨e, he, hv⟩ | hd
  · rw [State.core, ← hv]
    exact h.tasks e he
  · rw [State.core, hd]
    decide

end

/-! ## Updates of the state -/

@[simp] theorem Core.shadows_setBank (c : Core) (n code : Nat) : (c.setBank n code).shadows = c.shadows := by
  unfold Core.setBank; split <;> rfl

@[simp] theorem Core.shadows_wake (c : Core) (n : Nat) : (c.wake n).shadows = c.shadows := c.shadows_setBank n 3

section
variable {P : State → Prop} {s t : State}

/-- An update of anything but the clock, cores and clusters. -/
theorem State.Holds.rest [Kept P] (h : s.Holds P) (hc : t.cores = s.cores := by rfl) (hk : t.clusters = s.clusters := by rfl)
    (ht : t.cycle = s.cycle := by rfl) : t.Holds P :=
  Kept.rest (P := P) h hc hk ht

theorem State.Holds.ite {c : Prop} {d : Decidable c} (hs : s.Holds P) (ht : t.Holds P) : (if c then s else t).Holds P := by
  split <;> assumption

theorem State.Holds.ite_snd {α : Type} {c : Prop} {d : Decidable c} {a b : α} (hs : s.Holds P) (ht : t.Holds P) :
    (if c then (a, s) else (b, t)).2.Holds P := by
  split <;> assumption

theorem State.Holds.foldl {β : Type} {l : List β} {f : State → β → State} (h : s.Holds P) (hf : ∀ t x, t.Holds P → (f t x).Holds P) :
    (l.foldl f s).Holds P := by
  induction l generalizing s with
  | nil => exact h
  | cons x l ih => exact ih (hf s x h)

/-- A core takes the place of another: its shadow task slots in use are at most two, or no more than before. -/
theorem State.Holds.setCore [Kept P] (h : s.Holds P) {k : Nat} {c : Core} (hc : c.shadows ≤ max 2 (s.core k).shadows) : (s.setCore k c).Holds P :=
  Kept.core (P := P) h hc

/-- An update of a core that takes no shadow task slot. -/
theorem State.Holds.modCore [Kept P] (h : s.Holds P) {k : Nat} {f : Core → Core} (hf : ∀ c, (f c).shadows ≤ c.shadows := by exact fun _ => le_rfl) :
    (s.modCore k f).Holds P :=
  h.setCore ((hf _).trans (le_max_right _ _))

/-- An update of a cluster that keeps the size of its banks. -/
theorem State.Holds.modCluster' [Kept P] (h : s.Holds P) {k : Nat} {f : Cluster → Cluster}
    (hf : banksFit (s.cluster k).banks → banksFit (f (s.cluster k)).banks) : (s.modCluster k f).Holds P :=
  Kept.cluster (P := P) h hf

/-- An update of a cluster that leaves its banks. -/
theorem State.Holds.modCluster [Kept P] (h : s.Holds P) {k : Nat} {f : Cluster → Cluster}
    (hf : (f (s.cluster k)).banks = (s.cluster k).banks := by rfl) : (s.modCluster k f).Holds P :=
  h.modCluster' (by rw [hf]; exact id)

/-- An update of every core and every cluster. -/
theorem State.Holds.mapAll [Kept P] (h : s.Holds P) {f : Nat × Core → Core} {g : Nat × Cluster → Cluster}
    (hc : t.cores = s.cores.map fun c => (c.1, f c)) (hk : t.clusters = s.clusters.map fun c => (c.1, g c))
    (hf : ∀ c, (f c).shadows ≤ c.2.shadows := by exact fun _ => le_rfl)
    (hg : ∀ c, banksFit c.2.banks → banksFit (g c).banks := by exact fun _ h => h) (ht : t.cycle = s.cycle := by rfl) : t.Holds P :=
  Kept.all (P := P) h hc hk ht hf hg

/-- An update of every core. -/
theorem State.Holds.mapCores [Kept P] (h : s.Holds P) {f : Nat × Core → Core} (hc : t.cores = s.cores.map fun c => (c.1, f c) := by rfl)
    (hk : t.clusters = s.clusters := by rfl) (hf : ∀ c, (f c).shadows ≤ c.2.shadows := by exact fun _ => le_rfl) (ht : t.cycle = s.cycle := by rfl) :
    t.Holds P :=
  h.mapAll hc (g := fun c => c.2) (by simpa using hk) hf (ht := ht)

/-- An update of every cluster. -/
theorem State.Holds.mapClusters [Kept P] (h : s.Holds P) {g : Nat × Cluster → Cluster}
    (hk : t.clusters = s.clusters.map fun c => (c.1, g c) := by rfl) (hc : t.cores = s.cores := by rfl)
    (hg : ∀ c, banksFit c.2.banks → banksFit (g c).banks := by exact fun _ h => h) (ht : t.cycle = s.cycle := by rfl) : t.Holds P :=
  h.mapAll (f := fun c => c.2) (by simpa using hc) hk (hg := hg) (ht := ht)

/-- An update of a slot. -/
theorem State.Holds.setSlot [Kept P] (h : s.Holds P) {r : SlotRef} {x : Slot} : (s.setSlot r x).Holds P :=
  h.setCore (le_max_right _ _)

/-- A bank that begins to wake. -/
theorem State.Holds.wake [Kept P] (h : s.Holds P) {core n : Nat} : (s.wake core n).Holds P :=
  h.modCore fun c => (c.shadows_wake n).le

end

/-! ## Properties that are kept -/

/-- The time that the clock shows is kept, until the clock moves. -/
theorem kept_cycle (n : Nat) : Kept fun s => s.cycle = n where
  rest h _ _ ht := ht.trans h
  core h _ := h
  cluster h _ := h
  all h _ _ ht _ _ := ht.trans h

/-- The capacities last. -/
theorem lasting_capacities : Lasting State.Capacities where
  rest h hc hk _ := ⟨by rw [hk]; exact h.banks, by rw [hc]; exact h.tasks⟩
  core h hc := by
    refine ⟨h.banks, fun e he => ?_⟩
    rcases AMap.mem_put he with he | rfl
    · exact h.tasks e he
    · exact hc.trans (max_le le_rfl (h.core _))
  cluster h hf := by
    refine ⟨fun e he => ?_, h.tasks⟩
    rcases AMap.mem_put he with he | rfl
    · exact h.banks e he
    · exact hf (h.cluster _)
  all h hc hk _ hf hg := by
    constructor
    · rw [hk]
      intro e he
      obtain ⟨c, hc, rfl⟩ := List.mem_map.mp he
      exact hg c (h.banks c hc)
    · rw [hc]
      intro e he
      obtain ⟨c, hc, rfl⟩ := List.mem_map.mp he
      exact (hf c).trans (h.tasks c hc)
  time h hc hk := ⟨by rw [hk]; exact h.banks, by rw [hc]; exact h.tasks⟩
  room k h := h.core k
  idle hc hk := ⟨hk, fun c hm => (hc c hm).le.trans (Nat.zero_le 2)⟩

section
variable {P : State → Prop}

/-! ## Ops -/

theorem State.Holds.modTenant [Kept P] {s : State} (h : s.Holds P) {v : Nat} {f : Tenant → Tenant} : (s.modTenant v f).Holds P := h.rest

theorem State.Holds.modSlot [Kept P] {s : State} (h : s.Holds P) {r : SlotRef} {f : Slot → Slot} : (s.modSlot r f).Holds P := h.setSlot

theorem State.Holds.modSl [Kept P] {s : State} (h : s.Holds P) {f : Slot → Slot} : (s.modSl f).Holds P := h.modSlot

theorem State.Holds.countPkt [Kept P] {s : State} (h : s.Holds P) {core cls : Nat} {sent : Bool} : (s.countPkt core cls sent).Holds P :=
  h.ite (h.modCore fun _ => by split <;> exact le_rfl)

theorem State.Holds.inject [Kept P] {s : State} (h : s.Holds P) {core : Nat} {a : Act} : (s.inject core a).Holds P := by
  unfold State.inject
  split
  · exact h.countPkt
  · exact h

theorem State.Holds.launchFlight [Kept P] {s : State} (h : s.Holds P) {r : SlotRef} {act : Act} {rel : List Nat} :
    (s.launchFlight r act rel).Holds P := by
  unfold State.launchFlight
  exact h.inject.rest

theorem State.Holds.dropFlight [Kept P] {s : State} (h : s.Holds P) {id : Nat} : (s.dropFlight id).Holds P := h.rest

theorem State.Holds.modFlight [Kept P] {s : State} (h : s.Holds P) {id : Nat} {g : Flight → Flight} : (s.modFlight id g).Holds P := h.rest

theorem State.Holds.rekey [Kept P] {s : State} (h : s.Holds P) {ten k : Nat} : (s.rekey ten k).Holds P := by
  dsimp only [State.rekey]
  split
  · exact h.ite (h.rest.ite h.rest)
  · exact h

theorem State.Holds.wrBytes [Kept P] {s : State} (h : s.Holds P) {ten k : Nat} {bs : List Byte} : (s.wrBytes ten k bs).Holds P := by
  unfold State.wrBytes
  exact h.ite h.rekey.rest

theorem State.Holds.modParty [Kept P] {s : State} (h : s.Holds P) {p : Nat} {f : Party → Party} : (s.modParty p f).Holds P := h.rest

theorem State.Holds.noteWrite [Kept P] {s : State} (h : s.Holds P) {p ten k : Nat} {bs : List Byte} {rel : Rels} :
    (s.noteWrite p ten k bs rel).Holds P := by
  unfold State.noteWrite
  exact h.rest.modParty

theorem State.Holds.hostReq [Kept P] {s : State} (h : s.Holds P) {ten : Nat} {write : Bool} {k n : Nat} : (s.hostReq ten write k n).Holds P :=
  h.rest.ite h

theorem State.Holds.write [Kept P] {s : State} (h : s.Holds P) {p ten k : Nat} {bs : List Byte} {rel : Rels} : (s.write p ten k bs rel).Holds P :=
  h.ite h.noteWrite.wrBytes.hostReq

theorem State.Holds.read [Kept P] {s : State} (h : s.Holds P) {p ten k n : Nat} {view : List Nat} : (s.read p ten k n view).2.2.Holds P := by
  unfold State.read
  exact h.modParty.hostReq

theorem State.Holds.acquire [Kept P] {s : State} (h : s.Holds P) {q scope : Nat} {sets : Rels} : (s.acquire q scope sets).Holds P := by
  unfold State.acquire
  exact h.modParty

theorem State.Holds.acquireIds [Kept P] {s : State} (h : s.Holds P) {q : Nat} {ids : List Nat} : (s.acquireIds q ids).Holds P := h.acquire

theorem State.Holds.released [Kept P] {s : State} (h : s.Holds P) {p : Nat} : (s.released p).Holds P := h.modParty

theorem State.Holds.pending [Kept P] {s : State} (h : s.Holds P) {p : Nat} {rels : Rels} : (s.pending p rels).Holds P := h.ite h.modParty

theorem State.Holds.newParty [Kept P] {s : State} (h : s.Holds P) {core slot : Nat} {rel : Rels} : (s.newParty core slot rel).2.Holds P :=
  h.rest.acquire

theorem State.Holds.wipe [Kept P] {s : State} (h : s.Holds P) {lo hi : Nat} : (s.wipe lo hi).Holds P := h.rest

theorem State.Holds.bankOff [Kept P] {s : State} (h : s.Holds P) {core n : Nat} : (s.bankOff core n).Holds P :=
  State.Holds.wipe (h.modCore fun c => by exact (c.shadows_setBank n 0).le)

theorem State.Holds.bankEvent [Kept P] {s : State} (h : s.Holds P) {core n code : Nat} : (s.bankEvent core n code).Holds P := by
  unfold State.bankEvent
  exact h.modCore.ite ((h.ite h.bankOff).ite (((h.modCore fun c => (c.shadows_setBank n 1).le).ite h).ite (h.ite h.wake)))

theorem State.Holds.hintDue [Kept P] {s : State} (h : s.Holds P) {core n code : Nat} : (s.hintDue core n code).Holds P := h.modCore

theorem State.Holds.bankRead [Kept P] {s : State} (h : s.Holds P) {core n : Nat} : (s.bankRead core n).2.Holds P := by
  unfold State.bankRead
  split
  · exact h
  · exact h
  · exact h.wake

theorem State.Holds.bankWrite [Kept P] {s : State} (h : s.Holds P) {core n : Nat} : (s.bankWrite core n).2.Holds P := by
  unfold State.bankWrite
  split
  · exact h
  · exact h.wake
  · exact h.wake

theorem State.Holds.queueLanding [Kept P] {s : State} (h : s.Holds P) {d : Deposit} : (s.queueLanding d).Holds P := h.rest

theorem State.Holds.addWalk [Kept P] {s : State} (h : s.Holds P) {cluster die ten : Nat} {lv : Level} {va : Word} {acc : Acc}
    {slots : List SlotRef} {units : List (Nat × Nat)} :
    (s.addWalk cluster die ten lv va acc slots units).Holds P := by
  unfold State.addWalk
  exact h.rest.ite h.rest

theorem State.Holds.wantWalk [Kept P] {s : State} (h : s.Holds P) {r : SlotRef} {va : Word} {acc : Acc} : (s.wantWalk r va acc).Holds P := h.addWalk

theorem State.Holds.wantUnit [Kept P] {s : State} (h : s.Holds P) {u cluster ten : Nat} {lv : Level} {va : Word} {acc : Acc} :
    (s.wantUnit u cluster ten lv va acc).Holds P :=
  h.addWalk

theorem State.Holds.install [Kept P] {s : State} (h : s.Holds P) {cluster : Nat} {e : TlbEntry} {va : Nat} : (s.install cluster e va).Holds P :=
  h.modCluster (by split <;> rfl)

theorem State.Holds.walkRequests [Kept P] {s : State} (h : s.Holds P) {ten : Nat} {lv : Level} {root : Word} {va : Nat} :
    (s.walkRequests ten lv root va).Holds P :=
  h.foldl fun _ _ h1 => h1.hostReq

theorem State.Holds.installNow [Kept P] {s : State} (h : s.Holds P) {cluster ten : Nat} {lv : Level} {va : Word} :
    (s.installNow cluster ten lv va).Holds P := by
  unfold State.installNow
  split
  · exact h
  · split
    · exact h.walkRequests.install
    · exact h.walkRequests

theorem State.Holds.deviceWrite [Kept P] {s : State} (h : s.Holds P) {p cluster ten : Nat} {lv : Level} {va : Word} {bs : List Byte} {rels : Rels} :
    (s.deviceWrite p cluster ten lv va bs rels).2.Holds P := by
  dsimp only [State.deviceWrite]
  split
  · split
    · exact h
    · refine State.Holds.write ?_
      refine State.Holds.installNow ?_
      split
      · exact h.bankWrite
      · exact h
  · exact h
  · exact h

theorem State.Holds.raiseVec [Kept P] {s : State} (h : s.Holds P) {ten q : Nat} : (s.raiseVec ten q).Holds P := by
  unfold State.raiseVec
  exact h.rest.ite h

theorem State.Holds.stopCore [Kept P] {s : State} (h : s.Holds P) {core : Nat} {freeze : Bool} : (s.stopCore core freeze).Holds P :=
  h.countPkt.modCore

theorem State.Holds.freezeTenant [Kept P] {s : State} (h : s.Holds P) {ten : Nat} : (s.freezeTenant ten).Holds P := by
  unfold State.freezeTenant
  exact (h.foldl fun _ _ h1 => h1.stopCore.rest).modTenant

theorem State.Holds.report [Kept P] {s : State} (h : s.Holds P) {r : Report} : (s.report r).Holds P := by
  unfold State.report
  exact (State.Holds.ite_snd (h.freezeTenant.ite h).modTenant (h.freezeTenant.ite h).modTenant.deviceWrite).rest.raiseVec

theorem State.Holds.banksOff [Kept P] {s : State} (h : s.Holds P) {core : Nat} {tiles : List Nat} {sb : BitVec 48} :
    (s.banksOff core tiles sb).Holds P := by
  unfold State.banksOff
  exact h.foldl fun _ _ h1 => h1.bankOff

theorem State.Holds.foldRetire [Kept P] {s : State} (h : s.Holds P) {cl dom : Nat} {key : Word} {holds : Bool} {rel : List Nat} {count : Bool} :
    (s.foldRetire cl dom key holds rel count).Holds P := by
  unfold State.foldRetire
  exact h.modCluster

theorem State.Holds.abandonHeld [Kept P] {s : State} (h : s.Holds P) {r : SlotRef} {party : Nat} : (s.abandonHeld r party).Holds P :=
  h.mapAll rfl rfl

theorem State.Holds.freeSlot [Kept P] {s : State} (h : s.Holds P) {r : SlotRef} : (s.freeSlot r).Holds P := by
  dsimp only [State.freeSlot]
  refine State.Holds.setSlot ?_
  refine State.Holds.modCore ?_
  split
  · exact h.abandonHeld.banksOff.ite h.abandonHeld.banksOff.foldRetire
  · exact h.abandonHeld.banksOff

theorem State.Holds.bumpLife [Kept P] {s : State} (h : s.Holds P) {i : Nat} : (s.bumpLife i).Holds P := by
  unfold State.bumpLife
  exact h.rest

theorem State.Holds.dropWork [Kept P] {s : State} (h : s.Holds P) {p : RunEntry → Bool} : (s.dropWork p).Holds P :=
  h.mapAll rfl rfl (fun _ => Nat.add_le_add_right (List.length_filter_le _ _) _)
    (fun _ h => banksFit_settle _ _ (banksFit_map (fun _ => List.length_filter_le _ _) h))

theorem State.Holds.dropSaved [Kept P] {s : State} (h : s.Holds P) {ten : Nat} {p : Origin → Nat → Bool} : (s.dropSaved ten p).Holds P := by
  unfold State.dropSaved
  extract_lets gone all s1
  have h1 : s1.Holds P := h.foldl fun t e ht => by
    split
    · exact ht.foldRetire
    · exact ht
  exact h1.mapClusters

theorem State.Holds.killQueue [Kept P] {s : State} (h : s.Holds P) {ten q : Nat} : (s.killQueue ten q).Holds P := by
  unfold State.killQueue
  extract_lets ids s1 s2 s2' s3 s3' s4
  have h1 : s1.Holds P := h.dropWork
  have h2 : s2.Holds P := h1.mapCores
  have h2' : s2'.Holds P := h2.modTenant
  have h3 : s3.Holds P := h2'.foldl fun _ _ ht => ht.freeSlot.ite ht
  have h3' : s3'.Holds P := h3.dropSaved
  have h4 : s4.Holds P := h3'.foldl fun t c ht => (ht.foldl fun _ _ hu => hu.banksOff).modCore
  exact h4.modTenant

theorem State.Holds.escalate [Kept P] {s : State} (h : s.Holds P) {r : SlotRef} {async : Bool} {c : Nat} {v : Word} {ocause : Nat} {also : List Nat} :
    (s.escalate r async c v ocause also).Holds P := by
  unfold State.escalate
  exact h.setSlot.abandonHeld.bumpLife.ite ((h.setSlot.abandonHeld.foldl fun _ _ h1 => h1.killQueue).report)

theorem State.Holds.takeTrap [Kept P] {s : State} (h : s.Holds P) {r : SlotRef} {async : Bool} {c : Nat} {v word : Word} {body : Option (Nat × Nat)} :
    (s.takeTrap r async c v word body).Holds P := by
  unfold State.takeTrap
  exact h.escalate.ite (h.setSlot.escalate.ite h.setSlot)

theorem State.Holds.trap [Kept P] {s : State} (h : s.Holds P) {c : Nat} {v : Word} : (s.trap c v).Holds P := h.takeTrap

theorem State.Holds.asyncFault [Kept P] {s : State} (h : s.Holds P) {r : SlotRef} {party ten q : Nat} {f : AFault} :
    (s.asyncFault r party ten q f).Holds P :=
  h.modSlot.ite h.report

theorem State.Holds.flightFault [Kept P] {s : State} (h : s.Holds P) {f : Flight} {c : Nat} {v : Word} : (s.flightFault f c v).Holds P :=
  h.report.ite (h.report.ite h.asyncFault)

theorem State.Holds.done [Kept P] {s : State} (h : s.Holds P) {f : Slot → Slot} : (s.done f).Holds P := h.modSl

theorem State.Holds.consume [Kept P] {s : State} (h : s.Holds P) {src : List (Reg × Bool)} : (s.consume src).Holds P := by
  unfold State.consume
  exact h.ite ((h.foldl fun _ _ h1 => h1.acquire).modSl)

theorem State.Holds.issue [Kept P] {s : State} (h : s.Holds P) {src : List (Reg × Bool)} {dst : List Reg} {k : State → State}
    (hk : ∀ t, t.Holds P → (k t).Holds P) :
    (s.issue src dst k).Holds P := by
  dsimp only [State.issue]
  split
  · exact h.trap
  · exact h.modSl
  · exact h.ite ((hk _ h.consume).ite (hk _ h))

theorem State.Holds.setD [Kept P] {s : State} (h : s.Holds P) {d : Reg} {v : Word} : (s.setD d v).Holds P := h.done

theorem State.Holds.produce [Kept P] {s : State} (h : s.Holds P) {d : Reg} {act : Act} {rel : List Nat} : (s.produce d act rel).Holds P :=
  h.launchFlight.done

theorem State.Holds.onAddr [Kept P] {s : State} (h : s.Holds P) {acc : Acc} {va : Word} {c : Chk} {k : Nat → State → State}
    (hk : ∀ a0 t, t.Holds P → (k a0 t).Holds P) :
    (s.onAddr acc va c k).Holds P := by
  unfold State.onAddr
  split
  · exact hk _ _ h
  · exact h.trap
  · exact h.wantWalk

theorem State.Holds.onSpan [Kept P] {s : State} (h : s.Holds P) {acc : Acc} {k : List (Nat × Nat) → State → State} {f : Nat} {va : Word} {n : Nat}
    {got : List (Nat × Nat)} (hk : ∀ a0 t, t.Holds P → (k a0 t).Holds P) : (State.onSpan acc k f va n got s).Holds P := by
  induction f generalizing s va n got with
  | zero => exact hk _ _ h
  | succ f ih =>
    unfold State.onSpan
    exact (hk _ _ h).ite (h.onAddr fun _ _ ht => ih ht)

theorem State.Holds.needs [Kept P] {s : State} (h : s.Holds P) {memoryToo : Bool} {major : Nat} {k : State → State} (hk : ∀ t, t.Holds P →
    (k t).Holds P) :
    (s.needs memoryToo major k).Holds P :=
  (hk _ h).ite h.trap

theorem State.Holds.priv [Kept P] {s : State} (h : s.Holds P) {lv : Level} {k : State → State} (hk : ∀ t, t.Holds P → (k t).Holds P) :
    (s.priv lv k).Holds P := by
  unfold State.priv
  split
  · exact hk _ h
  · exact h.trap
  · exact hk _ h
  · exact hk _ h
  · exact h.trap

/-! ## Operands -/

theorem State.Holds.pushSeq [Kept P] {s : State} (h : s.Holds P) {i : Instr} {scal : List Word} {ea : Option (Word × Nat)} {dst : List Reg} :
    (s.pushSeq i scal ea dst).Holds P := by
  unfold State.pushSeq
  exact h.ite h.rest.modCore.done

/-! ## Scalar -/

theorem State.Holds.alu2 [Kept P] {s : State} (h : s.Holds P) {d a b : Reg} {wa wb : Bool} {f : Word → Word → Word} :
    (alu2 d a b wa wb f s).Holds P :=
  h.issue (fun _ h1 => h1.setD)

theorem State.Holds.alu2p [Kept P] {s : State} (h : s.Holds P) {d a b : Reg} {wa wb : Bool} {f : Word → Word → Word} :
    (alu2p d a b wa wb f s).Holds P :=
  h.issue (fun _ h1 => h1.produce)

theorem State.Holds.alu1 [Kept P] {s : State} (h : s.Holds P) {d a : Reg} {wa : Bool} {f : Word → Word} : (alu1 d a wa f s).Holds P :=
  h.issue (fun _ h1 => h1.setD)

theorem State.Holds.aluI [Kept P] {s : State} (h : s.Holds P) {d a : Reg} {f : Word → Word} : (aluI d a f s).Holds P := h.alu1

theorem State.Holds.jump [Kept P] {s : State} (h : s.Holds P) {f : Slot → Slot} {t : Word} : (s.jump f t).Holds P := by
  unfold State.jump
  exact h.modSl

theorem State.Holds.branch [Kept P] {s : State} (h : s.Holds P) {a b : Reg} {i : BitVec 16} {c : Word → Word → Bool} : (branch a b i c s).Holds P :=
  h.issue (fun _ h1 => h1.jump.ite h1.done)

theorem State.Holds.jumpReg [Kept P] {s : State} (h : s.Holds P) {a : Reg} {o : BitVec 14} {dst : List Reg} {f : Slot → Slot} :
    (jumpReg a o dst f s).Holds P := by
  unfold Machine.jumpReg
  exact h.issue (fun _ h1 => h1.trap.ite h1.jump)

theorem State.Holds.execYield [Kept P] {s : State} (h : s.Holds P) : Out1.Fits P (execYield s) := by
  unfold Machine.execYield
  exact h.modSl

theorem State.Holds.execIllegalInstruction [Kept P] {s : State} (h : s.Holds P) {w : BitVec 32} : Out1.Fits P (execIllegalInstruction w s) := by
  unfold Machine.execIllegalInstruction
  exact h.rest.trap.ite (h.rest.trap.ite (h.rest.trap.ite h.rest.trap))

theorem State.Holds.execFetchFault [Kept P] {s : State} (h : s.Holds P) {code : Nat} {tval : Word} : Out1.Fits P (execFetchFault code tval s) := by
  unfold Machine.execFetchFault
  exact h.rest.escalate.ite h.rest.trap

/-! ## Csr -/

theorem State.Holds.setPtroot [Kept P] {s : State} (h : s.Holds P) {ten : Nat} {v : Word} : (s.setPtroot ten v).Holds P := h.modTenant

theorem State.Holds.setTvec [Kept P] {s : State} (h : s.Holds P) {r : SlotRef} {ten : Nat} {v : Word} : (s.setTvec r ten v).Holds P := by
  unfold State.setTvec
  exact h.modCore.ite h.modTenant

theorem State.Holds.writeCsr [Kept P] {s : State} (h : s.Holds P) {c : Nat} {v : Word} : (s.writeCsr c v).Holds P := by
  dsimp only [State.writeCsr]
  split
  · exact h.modSl
  · exact h.modSl
  · exact h.modSl
  · exact h.modSl
  · exact h.modSl
  · exact h.modSl.ite h
  · exact h.setPtroot
  · exact h.modTenant
  · exact h.modTenant
  · exact h.setTvec
  · exact h.modSl
  · exact h.modSl
  · exact h.modSl
  · exact h.modSl
  · exact h.modSl
  · exact h.modSl
  · exact h

theorem State.Holds.csrOp [Kept P] {s : State} (h : s.Holds P) {i : Instr} {d : Reg} {src : List (Reg × Bool)} {c : BitVec 12} {new : Option
    (Word → Word → Word)} :
    (csrOp i d src c new s).Holds P := by
  dsimp only [Machine.csrOp]
  split
  · exact h.trap
  · refine h.issue (fun _ h1 => ?_)
    split
    · exact h1.pushSeq
    · split
      · exact h1.writeCsr.setD
      · exact h1.setD

theorem State.Holds.settleHeld [Kept P] {s : State} (h : s.Holds P) {op : Nat} {resume : Bool} : (s.settleHeld op resume).Holds P :=
  h.mapAll rfl rfl

theorem State.Holds.execTret [Kept P] {s : State} (h : s.Holds P) : Out1.Fits P (execTret s) := by
  unfold Machine.execTret
  exact h.priv (fun _ h1 => h1.trap.ite ((h1.ite h1.settleHeld).setSlot))

theorem State.Holds.execAsyncTrap [Kept P] {s : State} (h : s.Holds P) {core slot : Nat} : Out1.Fits P (execAsyncTrap core slot s) := by
  dsimp only [Machine.execAsyncTrap]
  split
  · exact h
  · split
    · exact h.setSlot.takeTrap
    · split
      · exact h.setSlot.takeTrap
      · exact h.setSlot.takeTrap.ite h

/-! ## Access -/

theorem State.Holds.maccStore [Kept P] {s : State} (h : s.Holds P) {k : Nat} : (s.maccStore k).Holds P := h.ite h.modCluster

theorem State.Holds.winStore [Kept P] {s : State} (h : s.Holds P) {k : Nat} {v : Word} {rels : Rels} : (s.winStore k v rels).Holds P := by
  dsimp only [State.winStore]
  split
  · split
    · exact h.modSlot.ite h.modSlot
    · exact h.modSlot
    · exact h.modCore fun _ => by split <;> exact le_rfl
    · exact h
  · exact h.modCluster.ite h

theorem State.Holds.winStores [Kept P] {s : State} (h : s.Holds P) {k : Nat} {rels : Rels} {vs : List Word} : (s.winStores k rels vs).Holds P := by
  induction vs generalizing s k with
  | nil => exact h
  | cons v vs ih => exact ih h.winStore

theorem State.Holds.deliver [Kept P] {s : State} (h : s.Holds P) {t : Option Nat} {cls : Nat} : (s.deliver t cls).Holds P := by
  unfold State.deliver
  split
  · exact h.countPkt
  · exact h

theorem State.Holds.countResponse [Kept P] {s : State} (h : s.Holds P) {t : Option Nat} {core : Nat} : (s.countResponse t core).Holds P := by
  unfold State.countResponse
  refine State.Holds.countPkt ?_
  split
  · exact h.countPkt
  · exact h

theorem State.Holds.exchanged [Kept P] {s : State} (h : s.Holds P) {f : Flight} : (s.exchanged f).Holds P := by
  unfold State.exchanged
  split
  · exact h.deliver
  · split
    · exact h
    · exact h.deliver.ite h.deliver.countResponse

theorem State.Holds.setAct [Kept P] {s : State} (h : s.Holds P) {id : Nat} {a : Act} : (s.setAct id a).Holds P := h.modFlight

theorem State.Holds.logMgmt [Kept P] {s : State} (h : s.Holds P) {r : MgmtRec} : (s.logMgmt r).Holds P := by
  unfold State.logMgmt
  exact h.rest

theorem State.Holds.discardLate [Kept P] {s : State} (h : s.Holds P) {f : Flight} : (s.discardLate f).Holds P := h.dropFlight.logMgmt

theorem State.Holds.refuse [Kept P] {s : State} (h : s.Holds P) {f : Flight} {va : Word} : (s.refuse f va).Holds P := by
  dsimp only [State.refuse]
  refine State.Holds.flightFault ?_
  split
  · exact h.exchanged.dropFlight
  · exact h.exchanged.setAct

theorem State.Holds.redirect [Kept P] {s : State} (h : s.Holds P) {from_ k : Nat} : (s.redirect from_ k).2.Holds P := by
  unfold State.redirect
  split
  · exact h
  · next core f _ =>
    have h1 : (s.modCore core fun d => { d with forwards := d.forwards.map fun g => if g = f then { g with used := s.cycle } else g }).Holds P :=
      h.modCore
    dsimp only
    split
    · exact h1
    · exact h1.rest

theorem State.Holds.readWin [Kept P] {s : State} (h : s.Holds P) {party ten k n : Nat} : (s.readWin party ten k n).2.2.Holds P := h.read

theorem State.Holds.readAt [Kept P] {s : State} (h : s.Holds P) {party ten k n : Nat} {view : List Nat} :
    ReadAns.Fits P (s.readAt party ten k n view) := by
  dsimp only [State.readAt]
  split
  · exact h.readWin
  · split
    · split
      · split
        · next snd heq =>
            exact trivial
        · next s' heq =>
            exact h.bankRead.of_snd heq
        · next s' heq =>
            exact (h.bankRead.of_snd heq).read
      · exact h.read
    · exact h.read

theorem State.Holds.writeWin [Kept P] {s : State} (h : s.Holds P) {party ten k : Nat} {bs : List Byte} {rels : Rels} :
    (s.writeWin party ten k bs rels).Holds P :=
  h.noteWrite.winStores

theorem State.Holds.writeAt [Kept P] {s : State} (h : s.Holds P) {party ten k : Nat} {bs : List Byte} {rels : Rels} :
    TryFits P (s.writeAt party ten k bs rels) := by
  unfold State.writeAt
  split
  · exact ⟨h.writeWin, h⟩
  · split
    · split
      · split
        · next s' heq =>
            exact ⟨trivial, (h.bankWrite.of_snd heq)⟩
        · next fst s' heq =>
            exact ⟨(h.bankWrite.of_snd heq).write, (h.bankWrite.of_snd heq)⟩
      · exact ⟨h.write.maccStore, h⟩
    · exact ⟨h.write, h⟩

theorem State.Holds.writeNow [Kept P] {s : State} (h : s.Holds P) {party ten k : Nat} {bs : List Byte} {rels : Rels} :
    (s.writeNow party ten k bs rels).Holds P := by
  dsimp only [State.writeNow]
  split
  · exact h.writeWin
  · refine State.Holds.maccStore ?_
    refine State.Holds.write ?_
    split
    · split
      · exact h.ite h.wake
      · exact h
    · exact h

theorem State.Holds.readNow [Kept P] {s : State} (h : s.Holds P) {party ten k n : Nat} :
    OnSome (fun r => r.2.2.Holds P) (s.readNow party ten k n) := by
  dsimp only [State.readNow]
  split
  · exact h.readWin
  · split
    · split
      · split
        · exact trivial
        · exact (h.ite h.wake).read
      · exact h.read
    · exact h.read

theorem State.Holds.readDev [Kept P] {s : State} (h : s.Holds P) {ten k n : Nat} : OnSome (fun r => r.2.2.Holds P) (s.readDev ten k n) := by
  have hr : OnSome (fun r => r.2.2.Holds P) (({ s with view := [0] } : State).readNow 0 ten k n) := State.Holds.readNow h.rest
  unfold State.readDev
  cases hn : ({ s with view := [0] } : State).readNow 0 ten k n with
  | none => trivial
  | some r =>
    rw [hn] at hr
    exact State.Holds.rest hr

theorem State.Holds.readParts [Kept P] {s : State} (h : s.Holds P) {party ten : Nat} {l : List (Nat × Nat)} :
    ReadAns.Fits P (State.readParts party ten l s) := by
  induction l generalizing s with
  | nil => exact h
  | cons e l ih =>
    unfold State.readParts
    split
    · next heq =>
      have h1 := h.readAt.of_val heq
      split
      · next heq2 => exact (ih h1).of_val heq2
      · exact ih h1
    · exact h.readAt

theorem State.Holds.wakeFirst [Kept P] {s : State} (h : s.Holds P) {k n : Nat} : OnSome (State.Holds P) (s.wakeFirst k n) := by
  unfold State.wakeFirst
  extract_lets one
  have hone (k : Nat) : OnSome (State.Holds P) (one k) := by
    dsimp only [one]
    split
    · split
      · split
        · exact h.wake
        · trivial
      · trivial
    · trivial
  cases hk : one k with
  | none => exact hone _
  | some t => exact (hone k).of_some hk

theorem State.Holds.noteReach [Kept P] {s : State} (h : s.Holds P) {f : Flight} {view : List Nat} : (s.noteReach f view).Holds P :=
  h.ite h.rest.modFlight

theorem State.Holds.onTurn [Kept P] {s : State} (h : s.Holds P) {f : Flight} {k : State → State} (hk : ∀ t, t.Holds P → (k t).Holds P) :
    (s.onTurn f k).Holds P := by
  unfold State.onTurn
  split
  · exact h
  · split
    · exact h
    · exact (h.ite h.noteReach).ite (h.ite (hk _ h.rest))

theorem State.Holds.fence [Kept P] {s : State} (h : s.Holds P) {p scope : Nat} : (s.fence p scope).Holds P := by
  unfold State.fence
  exact h.acquire.modParty

theorem State.Holds.applyHint [Kept P] {s : State} (h : s.Holds P) {f : Flight} {k n : Nat} {store : Bool} {h' : Hint} :
    (s.applyHint f k n store h').Holds P := by
  unfold State.applyHint
  split
  · split
    · exact h.foldl fun _ _ h1 => h1.hintDue
    · exact h
  · exact h

theorem State.Holds.fetchAt [Kept P] {s : State} (h : s.Holds P) {r : SlotRef} {pc : Word} : Fetched.Fits P (s.fetchAt r pc) := by
  dsimp only [State.fetchAt]
  split
  · exact trivial
  · exact trivial
  · split
    · exact trivial
    · split
      · split
        · split
          · exact trivial
          · split
            · exact trivial
            · exact h.redirect.read.pending
          · exact trivial
        · exact trivial
      · split
        · exact trivial
        · exact h.redirect.read.pending

theorem State.Holds.holdFetch [Kept P] {s : State} (h : s.Holds P) {r : SlotRef} {pc : Word} {k : Nat} : (s.holdFetch r pc k).Holds P :=
  h.ite h.rest

theorem State.Holds.landFetch [Kept P] {s : State} (h : s.Holds P) {f : Flight} {pc : Word} : (s.landFetch f pc).Holds P := by
  dsimp only [State.landFetch]
  split
  · exact h.dropFlight
  · split
    · next w t heq =>
        exact (h.dropFlight.fetchAt.of_word heq).modSlot
    · exact h.dropFlight

theorem State.Holds.entered [Kept P] {s : State} (h : s.Holds P) {r : SlotRef} : (s.entered r).Holds P := h.modSlot.ite h

theorem State.Holds.fetchWord [Kept P] {s : State} (h : s.Holds P) {r : SlotRef} {pc : Word} : Fetched.Fits P (s.fetchWord r pc) := by
  unfold State.fetchWord
  split
  · exact h.entered
  · split
    · next heq => exact State.Holds.entered (h.fetchAt.of_word heq)
    · exact h.fetchAt

/-! ## Memory -/

theorem State.Holds.atPlace [Kept P] {s : State} (h : s.Holds P) {va : Word} {key : Nat} {okPlace : Nat → Bool} {reads : Bool}
    {k : State → State} (hk : ∀ t, t.Holds P → (k t).Holds P) :
    (s.atPlace va key okPlace reads k).Holds P := by
  unfold State.atPlace
  split
  · exact h.trap
  · split
    · split
      · exact h.trap
      · exact hk _ h
    · exact hk _ h

theorem State.Holds.atPlaces [Kept P] {s : State} (h : s.Holds P) {va : Word} {parts : List (Nat × Nat)} {okPlace : Nat → Bool}
    {k : State → State} (hk : ∀ t, t.Holds P → (k t).Holds P) :
    (s.atPlaces va parts okPlace k).Holds P := by
  unfold State.atPlaces
  split
  · exact h.trap
  · split
    · exact h.trap
    · exact hk _ h

theorem State.Holds.execLd [Kept P] {s : State} (h : s.Holds P) {d a : Reg} {z : LdSize} {h' : Hint} {o : Ordering2} {i : BitVec 9} :
    Out1.Fits P (execLd d a z h' o i s) := by
  unfold Machine.execLd
  exact h.issue (fun _ h1 => h1.onAddr (fun _ _ h2 => h2.atPlace (fun _ h3 => h3.ite ((h3.fence.ite h3).produce))))

theorem State.Holds.execSt [Kept P] {s : State} (h : s.Holds P) {d a : Reg} {z : StSize} {h' : Hint} {o : Ordering2} {i : BitVec 9} :
    Out1.Fits P (execSt d a z h' o i s) := by
  unfold Machine.execSt
  exact h.issue (fun _ h1 => h1.onAddr (fun _ _ h2 => h2.atPlace (fun _ h3 => h3.launchFlight.done)))

theorem State.Holds.rowNames [Kept P] {s : State} (h : s.Holds P) {fs : List RowField} {k : State → State} (hk : ∀ t, t.Holds P →
    (k t).Holds P) :
    (s.rowNames fs k).Holds P := by
  unfold State.rowNames
  split
  · exact h.trap
  · split
    · exact h.trap
    · exact hk _ h

theorem State.Holds.execRld [Kept P] {s : State} (h : s.Holds P) {r : RowName} {a : Reg} {h' : Hint} {i : BitVec 11} :
    Out1.Fits P (execRld r a h' i s) := by
  refine h.needs fun _ h1 => h1.issue fun _ h2 => h2.rowNames fun _ h3 => h3.trap.ite (h3.onAddr fun _ _ h4 => h4.atPlace fun _ h5 => ?_)
  exact (h5.ite h5.launchFlight.done).ite (h5.launchFlight.done.ite (h5.ite h5.launchFlight.modFlight.pushSeq))

theorem State.Holds.execRst [Kept P] {s : State} (h : s.Holds P) {r : RowName} {a : Reg} {h' : Hint} {i : BitVec 11} :
    Out1.Fits P (execRst r a h' i s) := by
  dsimp only [Machine.execRst]
  refine h.needs (fun _ h1 => ?_)
  refine h1.issue (fun _ h2 => ?_)
  refine h2.rowNames (fun _ h3 => ?_)
  split
  · exact h3.trap
  · refine h3.onAddr (fun _ _ h4 => ?_)
    refine h4.atPlace (fun _ h5 => ?_)
    split
    · split
      · exact h5.launchFlight.done
      · exact h5.ite h5.launchFlight.modFlight.done
    · exact h5.launchFlight.done.ite (h5.trap.ite (h5.ite h5.launchFlight.modFlight.pushSeq))

theorem State.Holds.atomic [Kept P] {s : State} (h : s.Holds P) {op : Nat} {d a b : Reg} {wa wb : Bool} {o : Ordering2} {dbl : Bool} :
    (atomic op d a b wa wb o dbl s).Holds P := by
  unfold Machine.atomic
  exact h.issue (fun _ h1 => h1.onAddr (fun _ _ h2 => h2.atPlace (fun _ h3 => h3.produce)))

theorem State.Holds.execQfence [Kept P] {s : State} (h : s.Holds P) {m : BitVec 5} : Out1.Fits P (execQfence m s) := by
  dsimp only [Machine.execQfence]
  split
  · exact h.trap
  · exact h.done.ite ((h.rest.foldl fun _ _ h1 => h1.launchFlight).done)

theorem State.Holds.execCbar [Kept P] {s : State} (h : s.Holds P) {d a b : Reg} {wa wb : Bool} : Out1.Fits P (execCbar d a b wa wb s) := by
  unfold Machine.execCbar
  exact h.issue (fun _ h1 => h1.onAddr (fun _ _ h2 => h2.atPlace (fun _ h3 => h3.produce)))

theorem State.Holds.execPref [Kept P] {s : State} (h : s.Holds P) {a : Reg} {i : BitVec 16} : Out1.Fits P (execPref a i s) := by
  unfold Machine.execPref
  exact h.rest.done.ite h.done

theorem State.Holds.loadPart [Kept P] {s : State} (h : s.Holds P) {f : Flight} {d : Dest} {k : Nat} {view : List Nat} :
    (s.loadPart f d k view).Holds P := by
  unfold State.loadPart
  exact h.read.pending.modFlight.ite h.read.pending.exchanged.setAct

theorem State.Holds.performLoad [Kept P] {s : State} (h : s.Holds P) {f : Flight} {view : List Nat} : (s.performLoad f view).Holds P := by
  unfold State.performLoad
  split
  · split
    · exact h.refuse
    · split
      next k s1 heq =>
      have h1 : s1.Holds P := h.redirect.of_snd heq
      split
      · exact h1.loadPart
      · split
        · next heq2 => exact State.Holds.noteReach (h1.readAt.of_held heq2)
        · exact h1.exchanged.setAct.flightFault
        · next s2 heq2 =>
          have h2 : s2.Holds P := h1.readAt.of_val heq2
          extract_lets s3 v s4
          have h3 : s3.Holds P := h2.acquire.ite h2.pending
          have h4 : s4.Holds P := h3.exchanged.setAct.applyHint
          split
          · exact h4.flightFault
          · exact h4
  · exact h

theorem State.Holds.storePart [Kept P] {s : State} (h : s.Holds P) {f : Flight} {k : Nat} {bs : List Byte} : (s.storePart f k bs).Holds P := by
  unfold State.storePart
  exact h.write.modFlight.ite h.write.exchanged.dropFlight

theorem State.Holds.performStore [Kept P] {s : State} (h : s.Holds P) {f : Flight} : (s.performStore f).Holds P := by
  unfold State.performStore
  split
  · split
    · exact h.refuse
    · split
      next k s1 heq =>
      have h1 : s1.Holds P := h.redirect.of_snd heq
      extract_lets rels
      split
      · exact h1.storePart
      · split
        · next heq2 => exact State.Holds.noteReach (h1.writeAt.wait heq2)
        · next s2 _ heq2 =>
          have h2 : s2.Holds P := h1.writeAt.done heq2
          extract_lets s3 s4
          have h3 : s3.Holds P := h2.released.ite h2
          have h4 : s4.Holds P := h3.fence.ite h3
          exact h4.exchanged.applyHint.dropFlight
  · exact h

theorem State.Holds.noteFlag [Kept P] {s : State} (h : s.Holds P) {ten n : Nat} : (s.noteFlag ten n).Holds P := h.modTenant

theorem State.Holds.performAtomic [Kept P] {s : State} (h : s.Holds P) {f : Flight} : (s.performAtomic f).Holds P := by
  unfold State.performAtomic
  split
  · split
    · exact h.refuse
    · dsimp only
      split
      · next heq => exact State.Holds.noteReach (h.redirect.readAt.of_held heq)
      · exact h.redirect.exchanged.setAct.flightFault
      · next heq => exact State.Holds.flightFault (h.redirect.readAt.of_val heq).exchanged.setAct
      · next s2 heq =>
        have h2 : s2.Holds P := h.redirect.readAt.of_val heq
        refine State.Holds.setAct (State.Holds.exchanged ?_)
        have h4 {c : Prop} {d : Decidable c} {p ten k : Nat} {bs : List Byte} {rel : Rels} : State.Holds P
            (if c then (s2.write p ten k bs rel).released f.party else s2.write p ten k bs rel) := h2.write.released.ite h2.write
        exact (h4.acquire.ite h4.pending).noteFlag.ite (h4.acquire.ite h4.pending)
  · exact h

theorem State.Holds.cellAt [Kept P] {s : State} (h : s.Holds P) {party ten k : Nat} : CellAns.Fits P (s.cellAt party ten k) := by
  unfold State.cellAt
  split
  · next s' heq =>
      exact h.readAt.of_held heq
  · exact trivial
  · next bs val rels s heq =>
      exact trivial
  · next bs rels s' heq =>
      exact h.readAt.of_val heq

theorem State.Holds.poisonedCell [Kept P] {s : State} (h : s.Holds P) {f : Flight} {cell : Word} : (s.poisonedCell f cell).Holds P := by
  dsimp only [State.poisonedCell]
  split
  · refine State.Holds.escalate ?_
    split
    · exact h
    · split
      · exact h.exchanged.dropFlight
      · exact h.exchanged.setAct
  · refine State.Holds.report ?_
    refine State.Holds.foldl ?_ fun _ _ h1 => ?_
    · split
      · exact h
      · split
        · exact h.exchanged.dropFlight
        · exact h.exchanged.setAct
    · exact h1.killQueue

theorem State.Holds.performCbar [Kept P] {s : State} (h : s.Holds P) {f : Flight} : (s.performCbar f).Holds P := by
  dsimp only [State.performCbar]
  split
  · split
    · exact h.refuse
    · split
      · next s' heq =>
          exact (h.redirect.cellAt.of_held heq).noteReach
      · exact h.redirect.exchanged.setAct.flightFault
      · exact h.redirect.poisonedCell
      · next count gen rels s1 heq =>
          exact (h.redirect.cellAt.of_words heq).write.released.exchanged.setAct
  · exact h

theorem State.Holds.execCbarArrival [Kept P] {s : State} (h : s.Holds P) {id : Nat} : Out1.Fits P (execCbarArrival id s) := by
  unfold Machine.execCbarArrival
  split
  · split
    · exact h.onTurn (fun _ h1 => h1.performCbar)
    · exact h
  · exact h

theorem State.Holds.execRemoteAccess [Kept P] {s : State} (h : s.Holds P) {id : Nat} {view : List Nat} :
    Out1.Fits P (execRemoteAccess id view s) := by
  unfold Machine.execRemoteAccess
  split
  · split
    · exact h
    · split
      · exact h.performLoad
      · exact h.ite h.performStore
      · exact h
  · exact h

theorem State.Holds.queueDeposit [Kept P] {s : State} (h : s.Holds P) {f : Flight} : (s.queueDeposit f).Holds P := by
  dsimp only [State.queueDeposit]
  split
  · split
    · exact h.refuse
    · split
      · split
        · next s' heq =>
            exact (h.redirect.bankWrite.of_snd heq).noteReach
        · exact h.redirect.modFlight.queueLanding
      · exact h.redirect.modFlight.queueLanding
  · exact h

theorem State.Holds.execDeposit [Kept P] {s : State} (h : s.Holds P) {id : Nat} : Out1.Fits P (execDeposit id s) := by
  unfold Machine.execDeposit
  split
  · split
    · exact h
    · split
      · exact h.queueDeposit.ite h
      · exact h
  · exact h

theorem State.Holds.landDeposit [Kept P] {s : State} (h : s.Holds P) {d : Deposit} : (s.landDeposit d).Holds P := by
  unfold State.landDeposit
  split
  · exact h.modFlight.performStore
  · split
    · next t snd heq =>
        exact (h.writeAt.done heq).rest
    · next t heq =>
        exact (h.writeAt.wait heq).queueLanding

theorem State.Holds.landDeposits [Kept P] {s : State} (h : s.Holds P) : (s.landDeposits).Holds P := h.rest.foldl fun _ _ h1 => h1.landDeposit

theorem State.Holds.execAtomicPerform [Kept P] {s : State} (h : s.Holds P) {id : Nat} : Out1.Fits P (execAtomicPerform id s) := by
  unfold Machine.execAtomicPerform
  split
  · split
    · exact h.onTurn (fun _ h1 => h1.performAtomic)
    · exact h
  · exact h

theorem State.Holds.landRow [Kept P] {s : State} (h : s.Holds P) {r : SlotRef} {party n : Nat} {v : Row} : TryFits P (s.landRow r party n v) := by
  unfold State.landRow
  exact h.writeAt

theorem State.Holds.landResult [Kept P] {s : State} (h : s.Holds P) {f : Flight} : (s.landResult f).Holds P := by
  dsimp only [State.landResult]
  split
  · split
    · exact h.discardLate
    · split
      · exact h.dropFlight
      · split
        · exact h.dropFlight
        · exact h.dropFlight.modSlot
        · exact h.dropFlight.modSlot
        · split
          · next t snd heq =>
              exact (h.landRow.done heq).dropFlight
          · next t heq =>
              exact (h.landRow.wait heq).noteReach
  · exact h

theorem State.Holds.landRows [Kept P] {s : State} (h : s.Holds P) {party ten : Nat} {es : List (Nat × Row)} :
    (s.landRows party ten es).2.Holds P := by
  induction es generalizing s with
  | nil => exact h
  | cons e es ih =>
    unfold State.landRows
    split
    · next t _ heq => exact ih (h.writeAt.done heq)
    · next t heq => exact h.writeAt.wait heq

theorem State.Holds.pushSq [Kept P] {s : State} (h : s.Holds P) {r : SlotRef} {v : Row} : (s.pushSq r v).Holds P := by
  unfold State.pushSq
  split
  · exact h.modSlot.modFlight
  · exact h.modSlot

theorem State.Holds.landOthers [Kept P] {s : State} (h : s.Holds P) {r : SlotRef} {o : RowWrites} : (s.landOthers r o).Holds P := by
  dsimp only [State.landOthers]
  split
  · exact (h.foldl fun _ _ h1 => h1.pushSq).modSlot.modCore
  · exact (h.foldl fun _ _ h1 => h1.pushSq).modSlot

theorem State.Holds.landEntry [Kept P] {s : State} (h : s.Holds P) {f : Flight} : (s.landEntry f).Holds P := by
  unfold State.landEntry
  split
  · refine h.dropFlight.ite (h.ite (h.ite ?_))
    split
    next left s1 heq =>
    have h1 : s1.Holds P := h.landRows.of_snd heq
    exact (h1.landOthers.foldl fun _ _ ht => ht.hintDue).dropFlight.ite h1.modFlight.noteReach
  · exact h

theorem State.Holds.modCopy [Kept P] {s : State} (h : s.Holds P) {core id : Nat} {f : EngOp → EngOp} : (s.modCopy core id f).Holds P := h.modCore

theorem State.Holds.landPiece [Kept P] {s : State} (h : s.Holds P) {core party : Nat} {o : EngOp} {k : Nat} {bs : List Byte}
    {bad parts : List Nat} {rels : Rels} :
    TryFits P (s.landPiece core party o k bs bad parts rels) := by
  dsimp only [State.landPiece]
  split
  · split
    · split
      · next s' heq =>
          exact ⟨trivial, (h.bankWrite.of_snd heq)⟩
      · exact ⟨h.queueLanding.modCopy, h⟩
    · exact ⟨h.queueLanding.modCopy, h⟩
  · split
    · next s' heq =>
        exact ⟨trivial, (h.writeAt.wait heq)⟩
    · next t snd heq =>
        exact ⟨(h.writeAt.done heq).rest.modCopy, h⟩

theorem State.Holds.landCopy [Kept P] {s : State} (h : s.Holds P) {f : Flight} : (s.landCopy f).Holds P := by
  dsimp only [State.landCopy]
  split
  · split
    · exact h.dropFlight
    · split
      · next t snd heq =>
          exact (h.landPiece.done heq).dropFlight
      · next t heq =>
          exact (h.landPiece.wait heq).noteReach
  · exact h

theorem State.Holds.execResultLands [Kept P] {s : State} (h : s.Holds P) {id : Nat} : Out1.Fits P (execResultLands id s) := by
  dsimp only [Machine.execResultLands]
  split
  · split
    · exact h
    · split
      · exact h.landResult
      · exact h.landEntry
      · exact h.landCopy
      · split
        · exact h
        · split
          · exact h.discardLate
          · split
            · exact h.dropFlight
            · split
              · exact h.dropFlight.modSlot
              · exact h.dropFlight
      · exact h
  · exact h

theorem State.Holds.answerWalk [Kept P] {s : State} (h : s.Holds P) {w : Walk} {a : WalkAnswer} : (s.answerWalk w a).Holds P := by
  unfold State.answerWalk
  exact (h.foldl fun _ _ h1 => h1.modSlot).rest

theorem State.Holds.execWalkComplete [Kept P] {s : State} (h : s.Holds P) {id : Nat} : Out1.Fits P (execWalkComplete id s) := by
  dsimp only [Machine.execWalkComplete]
  split
  · exact h
  · split
    · exact h
    · split
      · exact h.rest
      · split
        · exact h.rest.walkRequests.foldl fun _ _ h1 => h1.install
        · exact h.rest.walkRequests.answerWalk

theorem State.Holds.untranslate [Kept P] {s : State} (h : s.Holds P) {ten : Nat} {p : TlbEntry → Bool} : (s.untranslate ten p).Holds P :=
  h.mapClusters

theorem State.Holds.execTlbinv [Kept P] {s : State} (h : s.Holds P) {a b : Reg} {wa wb : Bool} : Out1.Fits P (execTlbinv a b wa wb s) := by
  dsimp only [Machine.execTlbinv]
  refine h.priv (fun _ h1 => ?_)
  refine h1.issue (fun _ h2 => ?_)
  split
  · exact h2.trap
  · exact h2.untranslate.done

theorem State.Holds.execTlbinva [Kept P] {s : State} (h : s.Holds P) {b : Reg} {wb : Bool} : Out1.Fits P (execTlbinva b wb s) := by
  unfold Machine.execTlbinva
  refine h.priv (fun _ h1 => ?_)
  split
  · exact h1.trap
  · refine h1.issue (fun _ h2 => ?_)
    split
    · exact h2.trap
    · exact h2.untranslate.done

/-! ## RunList -/

theorem State.Holds.enterRunList [Kept P] {s : State} (h : s.Holds P) {list : Nat} {e : RunEntry} : (s.enterRunList list e).Holds P :=
  (h.modCluster' (banksFit_insert _ _ _)).ite h.modCore

theorem State.Holds.fetchWords [Kept P] {s : State} (h : s.Holds P) {cluster ten n : Nat} {va : Word} :
    Got.Fits P (State.fetchWords cluster ten n va s) := by
  induction n generalizing s va with
  | zero => exact h
  | succ n ih =>
    unfold State.fetchWords
    split
    · trivial
    · trivial
    · split
      · trivial
      · dsimp only
        split
        · trivial
        · next bs _ s2 heq =>
          have h2 : s2.Holds P := h.installNow.redirect.readDev.of_some heq
          split
          · trivial
          · split
            · next ws s3 heq => exact (ih h2).of_ok heq
            · exact ih h2

theorem State.Holds.lostTask [Kept P] {s : State} (h : s.Holds P) {cluster ten : Nat} {handle : Word} {q : Option Nat} :
    (s.lostTask cluster ten handle q).Holds P := by
  unfold State.lostTask
  exact (h.foldl fun _ _ h1 => h1.killQueue).report

theorem State.Holds.refreshTasks [Kept P] {s : State} (h : s.Holds P) {cluster : Nat} : (s.refreshTasks cluster).Holds P :=
  h.modCluster' (banksFit_map fun b => (List.length_map ..).le)

theorem State.Holds.dropRetained [Kept P] {s : State} (h : s.Holds P) {ten : Nat} {handle : Word} : (s.dropRetained ten handle).Holds P := by
  unfold State.dropRetained
  exact h.foldl fun _ _ h1 => h1.ite ((h1.foldl fun _ _ h2 => h2.banksOff).modCore)

theorem State.Holds.enterTask [Kept P] {s : State} (h : s.Holds P) {ten : Nat} {p : Word} {rel : Rels} : (s.enterTask ten p rel).Holds P := by
  dsimp only [State.enterTask]
  split
  · exact h.report
  · split
    · exact (h.modCore fun _ => Nat.add_le_add_right (List.length_erase_le ..) _).dropRetained
    · exact h.enterRunList

theorem State.Holds.fireWaiter [Kept P] {s : State} (h : s.Holds P) {cluster ten kind : Nat} {addr : Word} {rel : Rels} :
    (s.fireWaiter cluster ten kind addr rel).Holds P := by
  dsimp only [State.fireWaiter]
  split
  · exact h
  · exact h.enterTask
  · split
    · exact h.enterRunList
    · split
      · exact h.report
      · exact h.lostTask
      · next ws s' heq =>
          split
          · exact (h.fetchWords.of_ok heq).report
          · exact (h.fetchWords.of_ok heq).enterRunList
  · exact h.report

theorem State.Holds.noteFall [Kept P] {s : State} (h : s.Holds P) {ten k : Nat} {count c' waiter : Word} :
    (s.noteFall ten k count c' waiter).Holds P := by
  have room (c : Core) (e : Word × Nat) (m : Nat) (hc : c.shadows ≤ m) :
      Core.shadows (if c.tasks.length + c.falls.length < 2 then { c with falls := c.falls ++ [e] } else c) ≤ max 2 m := by
    split
    · next hlt => refine le_max_of_le_left ?_; simpa [Core.shadows, ← Nat.add_assoc] using hlt
    · exact le_max_of_le_right hc
  exact (h.setCore (room _ _ _ le_rfl)).ite h

theorem State.Holds.decrCell [Kept P] {s : State} (h : s.Holds P) {party ten k : Nat} {count waiter amount : Word} {rels : Rels} :
    (s.decrCell party ten k count waiter amount rels).Holds P := by
  unfold State.decrCell
  exact (h.write.fireWaiter.ite h.write.noteFall).modCluster.ite (h.write.fireWaiter.ite h.write.noteFall)

theorem State.Holds.freshPacket [Kept P] {s : State} (h : s.Holds P) {k : Nat} : (s.freshPacket k).Holds P :=
  h.modCore fun _ => Nat.add_le_add (List.length_filter_le ..) (List.length_filter_le ..)

theorem State.Holds.waitCell [Kept P] {s : State} (h : s.Holds P) {party ten k kind : Nat} {addr count : Word} {rels : Rels} :
    (s.waitCell party ten k kind addr count rels).Holds P := by
  unfold State.waitCell
  exact (h.freshPacket.ite h).fireWaiter.ite ((h.freshPacket.ite h).write)

theorem State.Holds.finish [Kept P] {s : State} (h : s.Holds P) {f : Flight} {v : Word} : (s.finish f v).Holds P := by
  unfold State.finish
  split
  · exact h.dropFlight
  · exact h.setAct

theorem State.Holds.performCell [Kept P] {s : State} (h : s.Holds P) {f : Flight} {cell : Word} {k : Nat → Word → Word → Rels → State → State}
    (hk : ∀ a0 a1 a2 a3 t, t.Holds P → (k a0 a1 a2 a3 t).Holds P) : (s.performCell f cell k).Holds P := by
  unfold State.performCell
  split
  · exact h.refuse
  · dsimp only
    split
    · exact h.redirect.exchanged.finish
    · split
      · next s' heq => exact (h.redirect.cellAt.of_held heq).noteReach
      · exact h.redirect.exchanged.finish.flightFault
      · exact h.redirect.poisonedCell
      · next count waiter rels s2 heq => exact hk _ _ _ _ _ (h.redirect.cellAt.of_words heq).exchanged

theorem State.Holds.onCell [Kept P] {s : State} (h : s.Holds P) {f : Flight} {cell : Word} {k : Nat → Word → Word → Rels → State → State}
    (hk : ∀ a0 a1 a2 a3 t, t.Holds P → (k a0 a1 a2 a3 t).Holds P) :
    (s.onCell f cell k).Holds P := by
  unfold State.onCell
  split
  · exact h
  · split
    · exact h.finish.report
    · refine h.onTurn (fun _ h1 => ?_)
      refine h1.performCell hk

theorem State.Holds.cellOp [Kept P] {s : State} (h : s.Holds P) {f : Flight} {key : Nat} {count waiter : Word} {rels : Rels} :
    (cellOp f key count waiter rels s).Holds P := by
  unfold Machine.cellOp
  split
  · exact h.decrCell.released.finish
  · exact h.waitCell.released.finish
  · exact h.waitCell.released.finish
  · exact h

theorem State.Holds.execCellDecr [Kept P] {s : State} (h : s.Holds P) {id : Nat} : Out1.Fits P (execCellDecr id s) := by
  unfold Machine.execCellDecr
  split
  · split
    · exact h.onCell (fun _ _ _ _ _ h1 => h1.cellOp)
    · exact h
  · exact h

theorem State.Holds.execCellTaskq [Kept P] {s : State} (h : s.Holds P) {id : Nat} : Out1.Fits P (execCellTaskq id s) := by
  unfold Machine.execCellTaskq
  split
  · split
    · exact h.onCell (fun _ _ _ _ _ h1 => h1.cellOp)
    · exact h
  · exact h

theorem State.Holds.execCellAwait [Kept P] {s : State} (h : s.Holds P) {id : Nat} : Out1.Fits P (execCellAwait id s) := by
  unfold Machine.execCellAwait
  split
  · split
    · exact h.onCell (fun _ _ _ _ _ h1 => h1.cellOp)
    · exact h
  · exact h

theorem State.Holds.bindOp [Kept P] {s : State} (h : s.Holds P) {f : Flight} {h' held : Word} {key : Nat} {count waiter : Word} {rels : Rels} :
    (bindOp f h' held key count waiter rels s).Holds P := by
  unfold Machine.bindOp
  exact h.finish.ite h.write.released.modCore.finish

theorem State.Holds.bindOver [Kept P] {s : State} (h : s.Holds P) {f : Flight} {held : Word} : (s.bindOver f held).Holds P := h.ite h.dropRetained

theorem State.Holds.execHaltRtBind [Kept P] {s : State} (h : s.Holds P) {id : Nat} : Out1.Fits P (execHaltRtBind id s) := by
  unfold Machine.execHaltRtBind
  split
  · split
    · exact h.ite ((h.onCell (fun _ _ _ _ _ h1 => h1.bindOp)).bindOver)
    · exact h
  · exact h

theorem State.Holds.sendOwn [Kept P] {s : State} (h : s.Holds P) {core party ten q : Nat} {act : Act} {rel : List Nat} :
    (s.sendOwn core party ten q act rel).Holds P := by
  unfold State.sendOwn
  exact h.inject.rest

theorem State.Holds.sendDecr [Kept P] {s : State} (h : s.Holds P) {core ten q : Nat} {cell : Word} {rel : List Nat} :
    (s.sendDecr core ten q cell rel).Holds P :=
  h.ite h.sendOwn

theorem State.Holds.dropBad [Lasting P] {s : State} (h : s.Holds P) {core ten : Nat} {handle w : Word} (room : (s.core core).shadows ≤ 1) :
    (s.dropBad core ten handle w).Holds P :=
  h.dropWork.dropRetained.ite (h.setCore ((Core.shadows_addTask _ _).trans_le (le_max_of_le_left (Nat.succ_le_succ room))))

/-- Two machines with as many shadow task slots in use in each core. -/
def State.SameShadows (s t : State) : Prop := ∀ k, (t.core k).shadows = (s.core k).shadows

section
variable {s : State}

theorem State.SameShadows.refl : s.SameShadows s := fun _ => rfl

theorem State.SameShadows.trans {t u : State} (h : s.SameShadows t) (h' : t.SameShadows u) : s.SameShadows u := fun k => (h' k).trans (h k)

theorem State.SameShadows.of_cores {t : State} (h : t.cores = s.cores) : s.SameShadows t := fun k => by rw [State.core, State.core, h]

theorem State.SameShadows.of_some {α : Type} {o : Option α} {f : α → State} {a : α} (h : OnSome (fun r => s.SameShadows (f r)) o) (e : o = some a) :
    s.SameShadows (f a) := by
  subst e; exact h

theorem State.sameShadows_modCore {core : Nat} {f : Core → Core} (hf : ∀ c, (f c).shadows = c.shadows) : s.SameShadows (s.modCore core f) := by
  intro k
  by_cases hk : k = core
  · subst hk
    rw [State.modCore, State.core_setCore_same, hf]
  · rw [State.modCore, State.core_setCore_ne _ _ hk]

theorem State.cores_hostReq {ten : Nat} {write : Bool} {k n : Nat} : (s.hostReq ten write k n).cores = s.cores := by
  unfold State.hostReq
  split <;> rfl

theorem State.cores_walkRequests {ten : Nat} {lv : Level} {root : Word} {va : Nat} : (s.walkRequests ten lv root va).cores = s.cores := by
  unfold State.walkRequests
  generalize s.walkReads _ _ _ _ _ = l
  induction l generalizing s with
  | nil => rfl
  | cons pa l ih => exact ih.trans cores_hostReq

theorem State.cores_installNow {cluster ten : Nat} {lv : Level} {va : Word} : (s.installNow cluster ten lv va).cores = s.cores := by
  unfold State.installNow
  split
  · rfl
  · split
    · exact cores_walkRequests
    · exact cores_walkRequests

theorem State.sameShadows_redirect {from_ k : Nat} : s.SameShadows (s.redirect from_ k).2 := by
  unfold State.redirect
  split
  · exact .refl
  · next core f _ =>
    have h1 : s.SameShadows
        (s.modCore core fun d => { d with forwards := d.forwards.map fun g => if g = f then { g with used := s.cycle } else g }) :=
      s.sameShadows_modCore fun _ => rfl
    dsimp only
    split
    · exact h1
    · exact h1.trans (.of_cores rfl)

theorem State.sameShadows_wake {core n : Nat} : s.SameShadows (s.wake core n) := s.sameShadows_modCore fun c => c.shadows_wake n

theorem State.sameShadows_read {p ten k n : Nat} {view : List Nat} : s.SameShadows (s.read p ten k n view).2.2 := .of_cores cores_hostReq

theorem State.sameShadows_readNow {party ten k n : Nat} : OnSome (fun r => s.SameShadows r.2.2) (s.readNow party ten k n) := by
  have woken {c : Prop} {d : Decidable c} {core n : Nat} : s.SameShadows (if c then s else s.wake core n) := by
    split
    · exact .refl
    · exact sameShadows_wake
  dsimp only [State.readNow]
  split
  · exact sameShadows_read
  · split
    · split
      · split
        · exact trivial
        · exact State.SameShadows.trans woken sameShadows_read
      · exact sameShadows_read
    · exact sameShadows_read

theorem State.sameShadows_readDev {ten k n : Nat} : OnSome (fun r => s.SameShadows r.2.2) (s.readDev ten k n) := by
  have hr := ({ s with view := [0] } : State).sameShadows_readNow (party := 0) (ten := ten) (k := k) (n := n)
  unfold State.readDev
  cases hn : ({ s with view := [0] } : State).readNow 0 ten k n with
  | none => trivial
  | some r =>
    rw [hn] at hr
    exact hr

/-- The machine after a fetch has as many shadow task slots in use. -/
theorem State.sameShadows_fetchWords {cluster ten n : Nat} {va : Word} {ws : List Word} {t : State}
    (e : State.fetchWords cluster ten n va s = .ok ws t) : s.SameShadows t := by
  induction n generalizing s va ws with
  | zero => cases e; exact .refl
  | succ n ih =>
    unfold State.fetchWords at e
    split at e
    · cases e
    · cases e
    · split at e
      · cases e
      · dsimp only at e
        split at e
        · cases e
        · next bs _ s2 heq =>
          have h2 : s.SameShadows s2 :=
            ((State.SameShadows.of_cores cores_installNow).trans sameShadows_redirect).trans (.of_some sameShadows_readDev heq)
          split at e
          · cases e
          · split at e
            · next ws s3 heq3 => cases e; exact h2.trans (ih heq3)
            · exact h2.trans (ih e)

/-- A prefetched task takes a shadow task slot of a core that has one left. -/
theorem State.Holds.keepTask [Kept P] (h : s.Holds P) {core : Nat} (room : (s.core core).shadows ≤ 1) (e : ShadowTask) :
    (s.modCore core fun c => { c with tasks := c.tasks ++ [e] }).Holds P :=
  h.setCore ((Core.shadows_addTask _ _).trans_le (le_max_of_le_left (Nat.succ_le_succ room)))

end

/-- A fall takes its place of the two until it is fetched, so its task finds one left: the fetch itself takes none. -/
theorem State.Holds.execTaskPrefetch [Lasting P] {s : State} (h : s.Holds P) {core : Nat} {handle : Word} :
    Out1.Fits P (execTaskPrefetch core handle s) := by
  unfold Machine.execTaskPrefetch
  split
  · exact h
  · next fell ten heq =>
    extract_lets s0 keep
    have h0 : s0.Holds P := h.modCore fun _ => Nat.add_le_add_left (List.length_erase_le ..) _
    have room : (s0.core core).shadows ≤ 1 := by
      have mem : (fell, ten) ∈ (s.core core).falls := List.mem_of_find?_eq_some heq
      have hs : (s.core core).tasks.length + (s.core core).falls.length ≤ 2 := Lasting.room (P := P) core h
      have hl := List.length_erase_of_mem mem
      have hpos := List.length_pos_of_mem mem
      dsimp only [s0, State.modCore]
      rw [State.core_setCore_same]
      dsimp only [Core.shadows]
      omega
    split
    · exact h0
    · exact h0.keepTask room _
    · next ws s1 heq1 =>
      have h1 : s1.Holds P := h0.fetchWords.of_ok heq1
      have room1 : (s1.core core).shadows ≤ 1 := (s0.sameShadows_fetchWords heq1 core).trans_le room
      extract_lets w
      split
      · exact (h1.dropBad room1).report
      · split
        · exact h1
        · exact h1.keepTask room1 _
        · next ws2 s2 heq2 =>
          have h2 : s2.Holds P := h1.fetchWords.of_ok heq2
          exact h2.keepTask ((s1.sameShadows_fetchWords heq2 core).trans_le room1) _

/-! ## Strand -/

theorem State.Holds.regrant [Kept P] {s : State} (h : s.Holds P) {r : SlotRef} {sb : BitVec 48} : (s.regrant r sb).Holds P := h.modCore

theorem State.Holds.startStrand [Kept P] {s : State} (h : s.Holds P) {r : SlotRef} {p : StartSpec} : (s.startStrand r p).Holds P := by
  unfold State.startStrand
  exact h.regrant.newParty.setSlot

theorem State.Holds.onSlot [Kept P] {s : State} (h : s.Holds P) {r : SlotRef} {w : BitVec 32} {f : State → State} (hf : ∀ t, t.Holds P →
    (f t).Holds P) :
    (s.onSlot r w f).Holds P := by
  have h1 : (f { s with cur := r, ir := w }).Holds P := hf _ h.rest
  exact h1.rest

theorem State.Holds.discardQueues [Kept P] {s : State} (h : s.Holds P) : (s.discardQueues).Holds P := by
  unfold State.discardQueues
  exact h.rest.modSl

theorem State.Holds.modLaunch [Kept P] {s : State} (h : s.Holds P) {id : Nat} {f : Launch → Launch} : (s.modLaunch id f).Holds P := h.rest

theorem State.Holds.settleBarriers [Kept P] {s : State} (h : s.Holds P) {id : Nat} : (s.settleBarriers id).Holds P := by
  dsimp only [State.settleBarriers]
  split
  · exact h
  · exact h.modLaunch.foldl fun _ _ h1 => h1.foldl fun _ _ h2 => h2.enterRunList

theorem State.Holds.launchHalt [Kept P] {s : State} (h : s.Holds P) {id n party : Nat} : (s.launchHalt id n party).Holds P :=
  h.modLaunch.settleBarriers

theorem State.Holds.noteRecord [Kept P] {s : State} (h : s.Holds P) {x : Slot} {addr : Word} : (s.noteRecord x addr).Holds P := by
  unfold State.noteRecord
  split
  · exact h.modLaunch
  · exact h

theorem State.Holds.onRecord [Kept P] {s : State} (h : s.Holds P) {k : Nat → State → State} (hk : ∀ a0 t, t.Holds P → (k a0 t).Holds P) :
    (s.onRecord k).Holds P := by
  unfold State.onRecord
  exact h.onAddr (fun _ _ h1 => h1.trap.ite (hk _ _ h1))

theorem State.Holds.writeRecord [Kept P] {s : State} (h : s.Holds P) {key : Nat} {rt : Bool} : (s.writeRecord key rt).Holds P := by
  unfold State.writeRecord
  exact h.writeNow.released

theorem State.Holds.leaveBanks [Kept P] {s : State} (h : s.Holds P) {rt : Bool} {handle : Word} : (s.leaveBanks rt handle).Holds P := by
  unfold State.leaveBanks
  exact (h.banksOff.ite (h.ite ((h.foldl fun _ _ h1 => h1.bankEvent).modCore))).modSl

theorem State.Holds.leaveSlot [Kept P] {s : State} (h : s.Holds P) : (s.leaveSlot).Holds P := by
  unfold State.leaveSlot
  exact (h.foldl fun _ _ h1 => h1.report).modSl.freeSlot

theorem State.Holds.park [Kept P] {s : State} (h : s.Holds P) : (s.park).Holds P := by
  unfold State.park
  exact h.abandonHeld.modSl

theorem State.Holds.suspend [Kept P] {s : State} (h : s.Holds P) {rt : Bool} : (s.suspend rt).Holds P := by
  unfold State.suspend
  exact h.park.released.enterRunList.ite (h.onRecord (fun _ _ h1 => h1.writeRecord.noteRecord.leaveBanks.leaveSlot.enterRunList))

theorem State.Holds.await [Kept P] {s : State} (h : s.Holds P) {a : Reg} {rt : Bool} : (s.await a rt).Holds P := by
  dsimp only [State.await]
  split
  · exact h.trap
  · exact h.launchFlight.park.ite (h.onRecord (fun _ _ h1 => h1.writeRecord.noteRecord.leaveBanks.launchFlight.leaveSlot))

theorem State.Holds.strandOver [Kept P] {s : State} (h : s.Holds P) {party : Nat} {o : Origin} : (s.strandOver party o).Holds P := by
  unfold State.strandOver
  split
  · exact h.foldRetire
  · exact h.launchHalt
  · exact h

theorem State.Holds.settleHalts [Kept P] {s : State} (h : s.Holds P) : (s.settleHalts).Holds P := by
  unfold State.settleHalts
  refine h.foldl fun _ _ h1 => ?_
  split
  · exact h1.strandOver.dropFlight.ite h1
  · exact h1

theorem State.Holds.endStrand [Kept P] {s : State} (h : s.Holds P) : (s.endStrand).Holds P := by
  unfold State.endStrand
  extract_lets x r s1 s2 s3
  have h1 : s1.Holds P := h.foldl fun _ _ ht => ht.launchFlight.modFlight
  have h2 : s2.Holds P := h1.ite h1.launchFlight
  have h3 : s3.Holds P := h2.strandOver.ite h2.launchFlight
  exact h3.modSl.leaveSlot

theorem State.Holds.haltNow [Kept P] {s : State} (h : s.Holds P) {a : Reg} {rt : Bool} : (s.haltNow a rt).Holds P := by
  unfold State.haltNow
  exact h.endStrand.ite (h.trap.ite (h.trap.ite h.launchFlight.leaveBanks.endStrand))

theorem State.Holds.arriveAt [Kept P] {s : State} (h : s.Holds P) {id lv g k list : Nat} {e : RunEntry} : (s.arriveAt id lv g k list e).Holds P :=
  h.modLaunch.settleBarriers

theorem State.Holds.gbarNow [Kept P] {s : State} (h : s.Holds P) {lev : Nat} : (s.gbarNow lev).Holds P := by
  dsimp only [State.gbarNow]
  split
  · split
    · exact h.modSl
    · refine h.modSl.ite (h.park.modSl.released.arriveAt.ite (h.onRecord fun _ _ h1 => ?_))
      exact h1.writeRecord.noteRecord.leaveBanks.leaveSlot.arriveAt
  · exact h.modSl

theorem State.Holds.startDrain [Kept P] {s : State} (h : s.Holds P) {i : Instr} : (s.startDrain i).Holds P := h.modSl

theorem State.Holds.execStrandDrainEnd [Kept P] {s : State} (h : s.Holds P) {core slot : Nat} : Out1.Fits P (execStrandDrainEnd core slot s) := by
  dsimp only [Machine.execStrandDrainEnd]
  split
  · exact h
  · split
    · exact h
    · refine h.onSlot (fun _ h1 => ?_)
      split
      · exact h1.discardQueues.suspend.ite h1
      · exact h1.discardQueues.await.ite h1
      · exact h1.discardQueues.haltNow
      · exact h1.discardQueues.haltNow
      · exact h1.discardQueues.gbarNow.ite h1
      · exact h1

theorem State.Holds.faultHere [Kept P] {s : State} (h : s.Holds P) {c : Nat} {v : Word} : (s.faultHere c v).Holds P := h.asyncFault

theorem State.Holds.execSpawn [Kept P] {s : State} (h : s.Holds P) {a : Reg} {wa : Bool} : Out1.Fits P (execSpawn a wa s) := by
  dsimp only [Machine.execSpawn]
  refine h.needs (fun _ h1 => ?_)
  refine h1.issue (fun _ h2 => ?_)
  refine h2.onAddr (fun _ _ h3 => ?_)
  refine h3.atPlace (fun _ h4 => ?_)
  split
  · exact h4
  · split
    · exact h4.faultHere.done
    · split
      · next s' heq =>
          exact h4.redirect.readAt.of_held heq
      · exact h4.redirect.faultHere.done
      · next bs po rels s0 heq =>
          split
          · exact h4.redirect.trap
          · refine State.Holds.done ?_
            refine State.Holds.launchFlight ?_
            split
            · exact (h4.redirect.readAt.of_val heq).pending.writeNow.released.dropRetained.faultHere
            · exact (h4.redirect.readAt.of_val heq).pending.writeNow.released.dropRetained

theorem State.Holds.execDecr [Kept P] {s : State} (h : s.Holds P) {d a b : Reg} {wa wb : Bool} : Out1.Fits P (execDecr d a b wa wb s) := by
  dsimp only [Machine.execDecr]
  refine h.needs (fun _ h1 => ?_)
  refine h1.issue (fun _ h2 => ?_)
  split
  · exact h2.trap
  · exact h2.produce

theorem State.Holds.execTaskq [Kept P] {s : State} (h : s.Holds P) {a : Reg} {wa : Bool} : Out1.Fits P (execTaskq a wa s) := by
  dsimp only [Machine.execTaskq]
  refine h.needs (fun _ h1 => ?_)
  refine h1.issue (fun _ h2 => ?_)
  split
  · exact h2.trap
  · exact h2.launchFlight.done

theorem State.Holds.execLnch [Kept P] {s : State} (h : s.Holds P) {d a : Reg} {wa : Bool} : Out1.Fits P (execLnch d a wa s) := by
  refine h.needs fun _ h1 => h1.issue fun _ h2 => h2.trap.ite (h2.onSpan fun parts _ h3 => h3.atPlaces fun s h4 => h4.ite ?_)
  extract_lets s1 go
  have h5 : s1.Holds P := h4.released
  have hgo {t : State} (ht : t.Holds P) (ws : List Word) (bad : Option (Nat × Word)) : (go t ws bad).Holds P := ht.produce
  have hfold : ∀ (ps : List (Nat × Nat)) (a : List (Nat × Nat) × State), a.2.Holds P →
      (ps.foldl (fun (a : List (Nat × Nat) × State) p =>
        let (k, t) := a.2.redirect s.cur.core p.1
        (a.1 ++ [(k, p.2)], t)) a).2.Holds P := by
    intro ps
    induction ps with
    | nil => exact fun _ ha => ha
    | cons p ps ih => exact fun a ha => ih _ (State.Holds.redirect ha)
  refine (hgo h5 _ _).ite ?_
  split
  next ks s2 heq =>
  have h6 : s2.Holds P := (hfold parts ([], s1) h5).of_snd heq
  split
  · next heq2 => exact h6.readParts.of_held heq2
  · exact hgo h6 _ _
  · next heq2 => exact hgo (h6.readParts.of_val heq2) _ _
  · next heq2 => exact hgo (State.Holds.pending (h6.readParts.of_val heq2)) _ _

/-! ## Sched -/

theorem State.Holds.takeBanks [Kept P] {s : State} (h : s.Holds P) {core : Nat} {tiles : List Nat} {sb : BitVec 48} {bound : Option Retained} :
    (s.takeBanks core tiles sb bound).Holds P := by
  unfold State.takeBanks
  exact h.banksOff

theorem State.Holds.startRecord [Kept P] {s : State} (h : s.Holds P) {e : RunEntry} {addr : Word} {r : SlotRef} {tiles : List Nat} {sb : BitVec 48} :
    (s.startRecord e addr r tiles sb).Holds P := by
  dsimp only [State.startRecord]
  split
  · exact h.report
  · exact h.lostTask
  · next ws s1 heq =>
      exact h.report.ite ((h.fetchWords.of_ok heq).modCore.startStrand)

theorem State.Holds.packetWords [Kept P] {s : State} (h : s.Holds P) {e : RunEntry} {p : Word} {core : Nat} :
    Got.Fits P (s.packetWords e p core) := by
  unfold State.packetWords
  split
  · dsimp only
    split
    · exact trivial
    · exact h.modCore fun _ => Nat.add_le_add_right (List.length_erase_le ..) _
  · split
    · next heq =>
      have h1 := h.fetchWords.of_ok heq
      split
      · exact h1
      · exact State.Holds.fetchWords h1
    · exact h.fetchWords

theorem State.Holds.forgetTask [Kept P] {s : State} (h : s.Holds P) {core : Nat} {p : Word} : (s.forgetTask core p).Holds P :=
  h.modCore fun _ => Nat.add_le_add (List.length_filter_le ..) (List.length_filter_le ..)

theorem State.Holds.startTask [Kept P] {s : State} (h : s.Holds P) {e : RunEntry} {p : Word} {r : SlotRef} {tiles : List Nat} {sb : BitVec 48} :
    (s.startTask e p r tiles sb).Holds P := by
  unfold State.startTask
  extract_lets ended
  have hended {t : State} (ht : t.Holds P) : (ended t).Holds P := ht.forgetTask.dropRetained
  split
  · exact (hended h).report
  · exact (hended h).lostTask
  · next ws s1 heq =>
    have h1 : s1.Holds P := h.packetWords.of_ok heq
    exact (hended h1).report.ite h1.forgetTask.modCore.startStrand

theorem State.Holds.startEntry [Kept P] {s : State} (h : s.Holds P) {e : RunEntry} {r : SlotRef} {tiles : List Nat} {sb : BitVec 48} :
    (s.startEntry e r tiles sb).Holds P := by
  unfold State.startEntry
  split
  · exact h.startRecord
  · exact h.startTask
  · split
    · exact h.startStrand
    · exact h
  · exact h.modSlot.acquire

theorem State.Holds.refill [Kept P] {s : State} (h : s.Holds P) {core f : Nat} : (s.refill core f).Holds P := by
  induction f generalizing s with
  | zero => exact h
  | succ f ih =>
    unfold State.refill
    split
    · exact h
    · split
      · exact h
      · exact ih h.modCore.modTenant

theorem State.Holds.startMessage [Kept P] {s : State} (h : s.Holds P) {core slot : Nat} {m : HMsg} : (s.startMessage core slot m).Holds P :=
  h.modCore.refill.startStrand

theorem State.Holds.lostEntry [Kept P] {s : State} (h : s.Holds P) {core : Nat} {e : RunEntry} : (s.lostEntry core e).Holds P := by
  have ht : (s.lostTask (s.clusterOf core) e.ten 0#64 none).Holds P := h.lostTask
  exact (ht.modCluster' (banksFit_remove _ _ _)).modCore.ite ht.modCore

theorem State.Holds.takePick [Kept P] {s : State} (h : s.Holds P) {core : Nat} {q : Pick} : (s.takePick core q).Holds P := by
  have taken (e : RunEntry) : (s.modCluster (core / 16) fun c =>
        match e.after s.cycle with
        | some e' => { c with banks := c.banks.map fun b => b.map fun x => if x = e then e' else x }
        | none => c.remove s.cycle e).Holds P := by
    refine h.modCluster' ?_
    split
    · exact banksFit_map fun b => (List.length_map ..).le
    · exact banksFit_remove _ _ _
  unfold State.takePick
  split
  · split
    · exact h.startMessage
    · exact h
  · split
    · exact h.modCluster
    · exact h
  · split
    · exact h.lostEntry
    · split
      · exact ((taken _).modCore.ite (taken _).modCore.takeBanks).startEntry
      · exact h

theorem State.Holds.startWait [Kept P] {s : State} (h : s.Holds P) {p : Pick} {core : Nat} : OnSome (State.Holds P) (s.startWait p core) := by
  unfold State.startWait
  split
  · split
    · exact trivial
    · split
      · split
        · exact h.wakeFirst
        · exact trivial
      · split
        · exact trivial
        · exact h.wakeFirst
      · exact trivial
  · exact trivial

theorem State.Holds.execMemoryCorePop [Kept P] {s : State} (h : s.Holds P) {core : Nat} : Out1.Fits P (execMemoryCorePop core s) := by
  dsimp only [Machine.execMemoryCorePop]
  split
  · exact h
  · split
    · exact h.refill
    · split
      · next s' heq =>
          exact h.refill.startWait.of_some heq
      · split
        · split
          · exact h.refill.modCore.lostEntry
          · split
            · exact h.refill.modCore.modCore.startEntry
            · exact h.refill
        · split
          · exact h.refill.modCore.startMessage
          · exact h.refill
        · exact h.refill

theorem State.Holds.execAgePromotion [Kept P] {s : State} (h : s.Holds P) {core : Nat} : Out1.Fits P (execAgePromotion core s) := by
  dsimp only [Machine.execAgePromotion]
  split
  · exact h
  · split
    · exact h.modCore
    · exact h

theorem State.Holds.askNext [Kept P] {s : State} (h : s.Holds P) {cluster : Nat} : (s.askNext cluster).Holds P := by
  dsimp only [State.askNext]
  split
  · exact h
  · exact h.ite h.modCluster

theorem State.Holds.execClusterIdle [Kept P] {s : State} (h : s.Holds P) {cluster : Nat} : Out1.Fits P (execClusterIdle cluster s) := by
  dsimp only [Machine.execClusterIdle]
  split
  · exact h
  · split
    · exact h.modCluster
    · split
      · exact h.modCluster
      · exact h.ite h.askNext

theorem State.Holds.execStealRequest [Kept P] {s : State} (h : s.Holds P) {cluster : Nat} : Out1.Fits P (execStealRequest cluster s) := by
  unfold Machine.execStealRequest
  extract_lets st answer
  split
  · next v _ =>
    split
    · exact h
    · have ha (o : Option RunEntry) {t : State} (ht : t.Holds P) : (answer o t).Holds P := ht.modCluster
      split
      · split
        · exact ha _ (h.modCluster' (banksFit_map fun b => (List.length_map ..).le))
        · exact ha _ h
      · exact ha _ h
  · exact h

theorem State.Holds.execStealAnswer [Kept P] {s : State} (h : s.Holds P) {cluster : Nat} : Out1.Fits P (execStealAnswer cluster s) := by
  dsimp only [Machine.execStealAnswer]
  split
  · exact h
  · split
    · exact h.modCluster.enterRunList
    · exact h.modCluster.ite (h.modCluster.ite h.modCluster.askNext)

theorem State.Holds.execStealBackoffExpiry [Kept P] {s : State} (h : s.Holds P) {cluster : Nat} : Out1.Fits P (execStealBackoffExpiry cluster s) := by
  unfold Machine.execStealBackoffExpiry
  split
  · exact h.modCluster.ite h
  · exact h

/-! ## Launch -/

theorem State.Holds.modQueue [Kept P] {s : State} (h : s.Holds P) {ten q : Nat} {f : HQueue → HQueue} : (s.modQueue ten q f).Holds P := h.modTenant

theorem State.Holds.acceptLaunch [Kept P] {s : State} (h : s.Holds P) {l : Launch} : (s.acceptLaunch l).Holds P := by
  unfold State.acceptLaunch
  extract_lets compl
  split
  next k s0 heq =>
  have h0 : s0.Holds P := (State.Holds.ite_snd h h.redirect).of_snd heq
  extract_lets s1 s2
  have h1 : s1.Holds P := h.ite h0.writeNow
  have h2 : s2.Holds P := h1.ite h1.modQueue
  exact h2.rest

theorem State.Holds.acceptWait [Kept P] {s : State} (h : s.Holds P) {l : Launch} : OnSome (State.Holds P) (s.acceptWait l) := by
  dsimp only [State.acceptWait]
  split
  · exact trivial
  · exact h.wakeFirst

theorem State.Holds.settleStitch [Kept P] {s : State} (h : s.Holds P) : (s.settleStitch).Holds P := h.rest

theorem State.Holds.execLnchHeaderRead [Kept P] {s : State} (h : s.Holds P) {id : Nat} : Out1.Fits P (execLnchHeaderRead id s) := by
  dsimp only [Machine.execLnchHeaderRead]
  split
  · split
    · exact h.finish.flightFault
    · split
      · exact h.finish.flightFault
      · split
        · next s' heq =>
            exact h.acceptWait.of_some heq
        · exact h.settleStitch.rest.acceptLaunch.finish
    · exact h
  · exact h

theorem State.Holds.execHeaderFetch [Kept P] {s : State} (h : s.Holds P) {vf q : Nat} : Out1.Fits P (execHeaderFetch vf q s) := by
  dsimp only [Machine.execHeaderFetch]
  split
  · exact h
  · split
    · exact h.modQueue.report
    · exact h
    · split
      · exact h.modQueue.report
      · split
        · exact h
        · next bs fst s1 heq =>
            split
            · exact h.modQueue.report
            · exact (h.readDev.of_some heq).rest.modTenant.modQueue

theorem State.Holds.execLaunchAccept [Kept P] {s : State} (h : s.Holds P) : Out1.Fits P (execLaunchAccept s) := by
  dsimp only [Machine.execLaunchAccept]
  split
  · exact h.settleStitch
  · split
    · exact h.settleStitch
    · split
      · exact h.settleStitch
      · split
        · exact h.settleStitch
        · split
          · exact h.settleStitch.rest.modTenant.report
          · split
            · next s' heq =>
                exact h.settleStitch.acceptWait.of_some heq
            · exact h.settleStitch.rest.modTenant.acceptLaunch

theorem State.Holds.execLaunchDeal [Kept P] {s : State} (h : s.Holds P) {launch target : Nat} : Out1.Fits P (execLaunchDeal launch target s) := by
  dsimp only [Machine.execLaunchDeal]
  split
  · exact h
  · exact h.ite (h.modLaunch.ite h.modLaunch.enterRunList)

theorem State.Holds.pinSlot [Kept P] {s : State} (h : s.Holds P) {l : Launch} {t r : Nat} : OnSome (State.Holds P) (s.pinSlot l t r) := by
  unfold State.pinSlot
  extract_lets core
  split
  · exact trivial
  · split
    · exact trivial
    · cases s.grant l.ten core (stTiles l.state) (stSbanks l.state) (some l.pool) none with
      | none => trivial
      | some g => exact h.takeBanks.regrant.modSlot

theorem State.Holds.execPersistAdmit [Kept P] {s : State} (h : s.Holds P) {launch : Nat} : Out1.Fits P (execPersistAdmit launch s) := by
  have pinned (l : Launch) (ps : List (Nat × Nat)) : ∀ o : Option State, OnSome (State.Holds P) o →
      OnSome (State.Holds P) (ps.foldl (fun (a : Option State) p => a.bind fun u => u.pinSlot l p.1 p.2) o) := by
    induction ps with
    | nil => exact fun _ ho => ho
    | cons p ps ih =>
      intro o ho
      refine ih _ ?_
      cases o with
      | none => trivial
      | some u => exact State.Holds.pinSlot ho
  unfold Machine.execPersistAdmit
  split
  · exact h
  · split
    · exact h
    · extract_lets all
      split
      · next heq => exact State.Holds.modLaunch ((pinned _ _ (some s) h).of_some heq)
      · exact h

theorem State.Holds.noteApprox [Kept P] {s : State} (h : s.Holds P) {l : Launch} : (s.noteApprox l).Holds P := h.modQueue.noteFlag.ite h

theorem State.Holds.execLaunchComplete [Kept P] {s : State} (h : s.Holds P) {launch : Nat} : Out1.Fits P (execLaunchComplete launch s) := by
  dsimp only [Machine.execLaunchComplete]
  split
  · exact h
  · split
    · exact h
    · split
      · exact h.rest.modQueue.noteApprox.raiseVec
      · exact h.rest.modQueue.noteApprox

theorem State.Holds.execWatchdogPre [Kept P] {s : State} (h : s.Holds P) {vf q : Nat} : Out1.Fits P (execWatchdogPre vf q s) := by
  dsimp only [Machine.execWatchdogPre]
  split
  · split
    · exact h
    · refine h.modQueue.foldl fun _ _ h1 => ?_
      split
      · exact h1.modSlot.ite h1
      · exact h1
  · exact h

theorem State.Holds.execWatchdogKill [Kept P] {s : State} (h : s.Holds P) {vf q : Nat} : Out1.Fits P (execWatchdogKill vf q s) := by
  unfold Machine.execWatchdogKill
  exact h.ite h.modQueue.killQueue.report

theorem State.Holds.execWatchdogFence [Kept P] {s : State} (h : s.Holds P) {vf q : Nat} : Out1.Fits P (execWatchdogFence vf q s) := by
  dsimp only [Machine.execWatchdogFence]
  split
  · exact h
  · split
    · exact h
    · exact h.ite (h.modQueue.foldl fun _ _ h1 => h1.modCore.report)

/-! ## Engine -/

theorem State.Holds.mapQueue [Kept P] {s : State} (h : s.Holds P) {q : EngQueue} {f : List EngOp → List EngOp} : (s.mapQueue q f).Holds P := by
  unfold State.mapQueue
  split
  · exact h.modCore
  · exact h.modCore
  · exact h.modCluster
  · exact h.modCluster
  · exact h.modCluster

theorem State.Holds.released2 [Kept P] {s : State} (h : s.Holds P) {q : EngQueue} {op : EngOp} {rel : List Nat} : (s.released2 q op rel).Holds P :=
  h.rest.modParty

theorem State.Holds.completeOp [Kept P] {s : State} (h : s.Holds P) {q : EngQueue} {op : EngOp} {rel : List Nat} :
    (s.completeOp q op rel).Holds P :=
  h.mapQueue.released2

theorem State.Holds.passMarkers [Kept P] {s : State} (h : s.Holds P) {q : EngQueue} {n : Nat} : (s.passMarkers q n).Holds P := by
  induction n generalizing s with
  | zero => exact h
  | succ n ih =>
    unfold State.passMarkers
    split
    · split
      · exact ih h.mapQueue.acquireIds
      · exact h
    · exact h

theorem State.Holds.writeEp [Kept P] {s : State} (h : s.Holds P) {e : EngCode} {n : Nat} {v : Word} : (s.writeEp e n v).Holds P := by
  dsimp only [State.writeEp]
  split
  · exact h.modCluster
  · exact h.modCluster
  · exact h.modCluster
  · exact h.modCore

theorem State.Holds.onEngine [Kept P] {s : State} (h : s.Holds P) {e : EngCode} {k : State → State} (hk : ∀ t, t.Holds P → (k t).Holds P) :
    (s.onEngine e k).Holds P := by
  dsimp only [State.onEngine]
  split
  · exact h.priv (fun _ h1 => (hk _ h1).ite h1.trap)
  · exact (hk _ h).ite h.trap

theorem State.Holds.execEwr [Kept P] {s : State} (h : s.Holds P) {e : EngCode} {a b : Reg} : Out1.Fits P (execEwr e a b s) := by
  unfold Machine.execEwr
  exact h.onEngine (fun _ h1 => h1.issue (fun _ h2 => h2.trap.ite h2.writeEp.done))

theorem State.Holds.readRegister [Kept P] {s : State} (h : s.Holds P) {e : EngCode} {b d : Reg} {act : Bool} :
    (readRegister e b d act s).Holds P := by
  unfold Machine.readRegister
  exact h.onEngine (fun _ h1 => h1.issue (fun _ h2 => h2.trap.ite h2.produce))

theorem State.Holds.execEgo [Kept P] {s : State} (h : s.Holds P) {e : EngCode} {a : Reg} : Out1.Fits P (execEgo e a s) := by
  dsimp only [Machine.execEgo]
  refine h.onEngine (fun _ h1 => ?_)
  split
  · exact h1.trap
  · refine h1.issue (fun _ h2 => ?_)
    split
    · exact h2.trap
    · split
      · exact h2.trap
      · exact h2.ite h2.launchFlight.done

theorem State.Holds.acquireEng [Kept P] {s : State} (h : s.Holds P) {q : EngQueue} : (s.acquireEng q).Holds P := by
  unfold State.acquireEng
  exact h.acquireIds

theorem State.Holds.execEwait [Kept P] {s : State} (h : s.Holds P) {e : EngCode} {a : Reg} : Out1.Fits P (execEwait e a s) := by
  unfold Machine.execEwait
  exact h.onEngine (fun _ h1 => h1.issue (fun _ h2 => h2.trap.ite ((h2.ite h2.done).ite (h2.acquireEng.done.ite h2))))

theorem State.Holds.execEstat [Kept P] {s : State} (h : s.Holds P) {e : EngCode} {a d : Reg} : Out1.Fits P (execEstat e a d s) := by
  unfold Machine.execEstat
  exact h.onEngine (fun _ h1 => h1.issue (fun _ h2 => h2.trap.ite (h2.ite ((h2.acquireEng.ite h2).produce))))

theorem State.Holds.execTtq [Kept P] {s : State} (h : s.Holds P) {a d : Reg} : Out1.Fits P (execTtq a d s) := by
  refine h.onEngine fun _ h1 => h1.issue fun _ h2 => h2.trap.ite (h2.onAddr fun _ _ h3 => h3.trap.ite (h3.ite ?_))
  exact h3.released.setD.ite h3.released.modCluster.setD

theorem State.Holds.execEnqueueArrival [Kept P] {s : State} (h : s.Holds P) {id : Nat} : Out1.Fits P (execEnqueueArrival id s) := by
  have hd : (s.dropFlight id).Holds P := h.dropFlight
  unfold Machine.execEnqueueArrival
  split
  · split
    · exact h
    · split
      · exact hd.released.enterRunList
      · exact hd.released.mapQueue
      · exact State.Holds.mapQueue hd.rest
      · exact h
  · exact h

theorem State.Holds.startOp [Kept P] {s : State} (h : s.Holds P) {q : EngQueue} {o : EngOp} : (s.startOp q o).Holds P := h.acquireIds

theorem State.Holds.execEngineOpStart [Kept P] {s : State} (h : s.Holds P) {q : EngQueue} : Out1.Fits P (execEngineOpStart q s) := by
  dsimp only [Machine.execEngineOpStart]
  split
  · split
    · exact h.passMarkers.ite h.passMarkers.startOp.modCluster
    · exact h.passMarkers
  · split
    · split
      · exact h.passMarkers
      · split
        · exact h.passMarkers.startOp.mapQueue.modCore
        · exact h.passMarkers.startOp.mapQueue.modCore
        · exact h.passMarkers.startOp.mapQueue.modCluster
        · exact h.passMarkers.startOp.mapQueue
    · exact h.passMarkers

theorem State.Holds.opFault [Kept P] {s : State} (h : s.Holds P) {o : EngOp} {c : Nat} {v : Word} {holds : Bool} :
    (s.opFault o c v holds).Holds P :=
  h.asyncFault

theorem State.Holds.checked [Kept P] {s : State} (h : s.Holds P) {u cluster ten : Nat} {lv : Level} {acc : Acc} {va : Word} {c : Chk} :
    OnExcept (Stop.Fits P) (fun _ => True) (s.checked u cluster ten lv acc va c) := by
  unfold State.checked
  split
  · exact trivial
  · exact trivial
  · exact h.wantUnit

theorem State.Holds.forgetAnswer [Kept P] {s : State} (h : s.Holds P) {u : Nat} : (s.forgetAnswer u).Holds P := h.rest

theorem State.Holds.holdUnit [Kept P] {s : State} (h : s.Holds P) {q : EngQueue} {part k : Nat} : (s.holdUnit q part k).Holds P := h.ite h.rest

theorem State.Holds.pieceKeys [Kept P] {s : State} (h : s.Holds P) {core : Nat} {o : EngOp} {stream : Option Nat} {n : Nat} :
    OnExcept (Stop.Fits P) (fun r => r.2.2.Holds P) (s.pieceKeys core o stream n) := by
  dsimp only [State.pieceKeys]
  split
  · next heq => exact h.checked.of_error heq
  · split
    · next heq => exact h.checked.of_error heq
    · split
      · exact trivial
      · exact trivial
      · split
        · exact trivial
        · split
          · exact trivial
          · exact h.redirect.redirect

theorem State.Holds.countFar [Kept P] {s : State} (h : s.Holds P) {core k : Nat} {reads : Bool} : (s.countFar core k reads).Holds P := by
  unfold State.countFar
  split
  · exact h
  · exact h.countPkt.deliver.countResponse.ite h.countPkt.deliver

theorem State.Holds.movePiece [Kept P] {s : State} (h : s.Holds P) {core : Nat} {o : EngOp} {stream : Option Nat} {m : Nat} {only : Bool} :
    OnExcept (Stop.Fits P) (State.Holds P) (s.movePiece core o stream m only) := by
  unfold State.movePiece
  extract_lets p n
  split
  · next heq => exact h.pieceKeys.of_error heq
  · next sk dk s0 heq =>
    have h0 : s0.Holds P := h.pieceKeys.of_ok heq
    extract_lets host off len
    split
    · next heq => exact h0.readAt.of_held heq
    · exact trivial
    · next bs poison rels s1 heq =>
      extract_lets s2
      have h2 : s2.Holds P := (h0.readAt.of_val heq).pending.countFar.countFar
      exact State.Holds.ite h2.rest (State.Holds.landCopy h2.rest)

theorem State.Holds.tryPiece [Kept P] {s : State} (h : s.Holds P) {core : Nat} {o : EngOp} {stream : Option Nat} {m : Nat} {only : Bool} :
    (s.tryPiece core o stream m only).1.Holds P := by
  unfold State.tryPiece
  split
  · next t heq =>
      exact h.movePiece.of_ok heq
  · next k t heq =>
      exact (h.movePiece.of_error heq).holdUnit
  · next t heq =>
      exact h.movePiece.of_error heq
  · exact h

theorem State.Holds.moveAll [Kept P] {s : State} (h : s.Holds P) {core id : Nat} {stream : Option Nat} {f m : Nat} :
    (State.moveAll core id stream f m s).1.Holds P := by
  induction f generalizing s m with
  | zero => exact h
  | succ f ih =>
    unfold State.moveAll
    split
    · exact h
    · split
      · exact ih h
      · split
        · next heq => exact ih (h.tryPiece.of_fst heq)
        · next heq => exact h.tryPiece.of_fst heq

theorem State.Holds.endOp [Kept P] {s : State} (h : s.Holds P) {core : Nat} {q : EngQueue} {o : EngOp} {cell : Word} :
    (s.endOp core q o cell).Holds P := by
  unfold State.endOp
  exact h.completeOp.sendDecr

theorem State.Holds.runCopy [Kept P] {s : State} (h : s.Holds P) {core : Nat} {stream : Option Nat} {q : EngQueue} {cellOf : EngOp → Word} :
    (s.runCopy core stream q cellOf).Holds P := by
  unfold State.runCopy
  split
  · exact h
  · next o _ _ =>
    split
    · exact h
    · split
      · exact h.endOp
      · split
        next s1 e heq =>
        have h1 : s1.Holds P := by
          split at heq
          · exact h.moveAll.of_fst heq
          · dsimp only at heq
            split at heq
            · exact h.of_fst heq
            · exact h.tryPiece.of_fst heq
        split
        · split
          · exact h1.endOp.ite h1
          · exact h1
        · exact h1.forgetAnswer.mapQueue.opFault.ite h1.forgetAnswer.opFault.endOp

theorem State.Holds.execCopyComplete [Kept P] {s : State} (h : s.Holds P) {core : Nat} : Out1.Fits P (execCopyComplete core s) := h.runCopy.ite h

theorem State.Holds.hostFailed [Kept P] {s : State} (h : s.Holds P) {core : Nat} {o : EngOp} {va : Word} : (s.hostFailed core o va).Holds P :=
  h.opFault.endOp

theorem State.Holds.hostOnes [Kept P] {s : State} (h : s.Holds P) {p : HostPiece} : (s.hostOnes p).Holds P := by
  unfold State.hostOnes
  split
  · exact h
  · split
    · next t snd heq =>
        exact h.landPiece.done heq
    · next snd heq =>
        exact h.writeNow

theorem State.Holds.execStreamComplete [Kept P] {s : State} (h : s.Holds P) {core : Nat} : Out1.Fits P (execStreamComplete core s) := h.runCopy.ite h

theorem State.Holds.nextTaskq [Kept P] {s : State} (h : s.Holds P) {cl : Nat} {o : EngOp} :
    OnExcept (Stop.Fits P) (State.Holds P) (s.nextTaskq cl o) := by
  dsimp only [State.nextTaskq]
  split
  · next heq => exact h.checked.of_error heq
  · split
    · exact trivial
    · split
      · next heq => exact h.redirect.readAt.of_held heq
      · exact trivial
      · exact trivial
      · next heq => exact State.Holds.mapQueue (State.Holds.sendOwn (h.redirect.readAt.of_val heq).pending)

theorem State.Holds.bulkTaskq [Kept P] {s : State} (h : s.Holds P) {cl n : Nat} : (State.bulkTaskq cl n s).1.Holds P := by
  induction n generalizing s with
  | zero => exact h
  | succ n ih =>
    unfold State.bulkTaskq
    split
    · exact h
    · split
      · exact h
      · split
        · next heq => exact ih (h.nextTaskq.of_ok heq)
        · next heq => exact State.Holds.holdUnit (h.nextTaskq.of_error heq)
        · next heq => exact h.nextTaskq.of_error heq
        · exact h

theorem State.Holds.runTasks [Kept P] {s : State} (h : s.Holds P) {cluster : Nat} : (s.runTasks cluster).Holds P := by
  unfold State.runTasks
  split
  · exact h
  · extract_lets cell core
    split
    · exact h
    · split
      · exact h.endOp
      · split
        next s1 e heq =>
        have h1 : s1.Holds P := h.bulkTaskq.of_fst heq
        split
        · split
          · exact h1.endOp.ite h1
          · exact h1
        · exact h1.forgetAnswer.mapQueue.opFault.ite h1.forgetAnswer.opFault.endOp

theorem State.Holds.execTaskEngineComplete [Kept P] {s : State} (h : s.Holds P) {cluster : Nat} : Out1.Fits P (execTaskEngineComplete cluster s) :=
  h.runTasks

/-! ## Fold -/

theorem State.Holds.monitorReport [Kept P] {s : State} (h : s.Holds P) {r : Report} : (s.monitorReport r).Holds P := h.rest

theorem State.Holds.poisonedEntry [Kept P] {s : State} (h : s.Holds P) {ten dk cluster : Nat} {e : FEntry} :
    (s.poisonedEntry ten dk cluster e).Holds P := by
  unfold State.poisonedEntry
  exact (h.modCluster.foldl fun _ _ h1 => h1.modCluster).report

theorem State.Holds.foldFlags [Kept P] {s : State} (h : s.Holds P) {ten cluster dk : Nat} {ovr nan : Bool} :
    (s.foldFlags ten cluster dk ovr nan).Holds P := by
  unfold State.foldFlags
  exact (h.modCluster.noteFlag.ite h.modCluster).noteFlag.ite (h.modCluster.noteFlag.ite h.modCluster)

theorem State.Holds.foldInto [Kept P] {s : State} (h : s.Holds P) {ten cluster dk bank : Nat} {key x : Word} {rel : List Nat} {logged : Bool} :
    OnSome (State.Holds P) (s.foldInto ten cluster dk bank key x rel logged) := by
  dsimp only [State.foldInto]
  split
  · exact h.modCluster.foldFlags
  · cases (s.cluster cluster).freeIndex bank with
    | none => trivial
    | some i => exact h.modCluster.foldFlags

theorem State.Holds.logAppend [Kept P] {s : State} (h : s.Holds P) {ten cluster dk : Nat} {key x : Word} {rel : List Nat} :
    (s.logAppend ten cluster dk key x rel).2.Holds P := by
  dsimp only [State.logAppend]
  split
  · exact h
  · split
    · exact h.monitorReport
    · next s1 heq =>
      dsimp only
      exact (h.deviceWrite.of_snd heq).modCluster

theorem State.Holds.foldPost [Kept P] {s : State} (h : s.Holds P) {ten dom : Nat} {key x : Word} {rel : List Nat} :
    (s.foldPost ten dom key x rel).2.Holds P := by
  dsimp only [State.foldPost]
  split
  · dsimp only
    exact h.logAppend.ite h.logAppend.modCluster
  · split
    · split
      · exact h.poisonedEntry
      · split
        · next s1 heq =>
          dsimp only
          exact (h.foldInto.of_some heq).modCluster
        · exact h
    · split
      · next s1 heq =>
        dsimp only
        exact (h.foldInto.of_some heq).modCluster
      · dsimp only
        exact h.logAppend.ite h.logAppend.modCluster

theorem State.Holds.postedBy [Kept P] {s : State} (h : s.Holds P) {home dk id : Nat} : (s.postedBy home dk id).Holds P := by
  unfold State.postedBy
  extract_lets s1
  have h1 : s1.Holds P := h.modCluster
  exact State.Holds.ite h1.rest h1

theorem State.Holds.execPost [Kept P] {s : State} (h : s.Holds P) {d a b : Reg} {wa wb : Bool} {m : BitVec 4} :
    Out1.Fits P (execPost d a b wa wb m s) := by
  dsimp only [Machine.execPost]
  refine h.needs (fun _ h1 => ?_)
  refine h1.issue (fun _ h2 => ?_)
  split
  · exact h2.trap
  · split
    · exact h2
    · refine State.Holds.produce ?_
      refine State.Holds.released ?_
      split
      · exact h2.postedBy
      · exact h2

theorem State.Holds.execFrel [Kept P] {s : State} (h : s.Holds P) : Out1.Fits P (execFrel s) := by
  dsimp only [Machine.execFrel]
  refine h.needs (fun _ h1 => ?_)
  split
  · exact h1.ite h1.released.foldRetire.done
  · exact h1.done

theorem State.Holds.execFoldPost [Kept P] {s : State} (h : s.Holds P) {id : Nat} : Out1.Fits P (execFoldPost id s) := by
  dsimp only [Machine.execFoldPost]
  split
  · split
    · exact h.ite (h.foldPost.finish.flightFault.ite h.foldPost.finish)
    · exact h
  · exact h

theorem State.Holds.makeOffer [Kept P] {s : State} (h : s.Holds P) {cluster dk : Nat} : (s.makeOffer cluster dk).Holds P := by
  dsimp only [State.makeOffer]
  split
  · exact h
  · split
    · exact h.modCluster
    · exact h

theorem State.Holds.makeOffers [Kept P] {s : State} (h : s.Holds P) {cluster : Nat} : (s.makeOffers cluster).Holds P := by
  unfold State.makeOffers
  exact h.ite (h.modCluster.foldl fun _ _ h1 => h1.makeOffer)

theorem State.Holds.execFoldOffer [Kept P] {s : State} (h : s.Holds P) {cluster dom : Nat} : Out1.Fits P (execFoldOffer cluster dom s) :=
  h.ite h.makeOffers

theorem State.Holds.execRunListPop [Kept P] {s : State} (h : s.Holds P) {cluster : Nat} : Out1.Fits P (execRunListPop cluster s) := by
  unfold Machine.execRunListPop
  extract_lets o cores s0
  have h0 : s0.Holds P := h.makeOffers.refreshTasks.foldl fun _ _ ht => ht.refill.ite ht
  clear_value s0
  split
  · exact h
  · split
    · exact h0
    · split
      · exact h0
      · split
        · next heq => exact h0.startWait.of_some heq
        · exact h0.modCluster.takePick

theorem State.Holds.makeClaim [Kept P] {s : State} (h : s.Holds P) {cluster dk : Nat} {d : FDomain} {key : Word} {core slot : Nat} :
    (s.makeClaim cluster dk d key core slot).Holds P := by
  dsimp only [State.makeClaim]
  split
  · exact h.modCluster
  · exact h.modCluster.poisonedEntry.ite (h.modCluster.ite h.modCluster.modCluster.startStrand)

theorem State.Holds.claimStage [Kept P] {s : State} (h : s.Holds P) {cluster : Nat} : (s.claimStage cluster).Holds P := by
  unfold State.claimStage
  split
  · exact h
  · split
    · exact h
    · exact h.makeClaim

theorem State.Holds.endLog [Kept P] {s : State} (h : s.Holds P) {cluster dk : Nat} : (s.endLog cluster dk).Holds P := by
  unfold State.endLog
  extract_lets ten c d va pop
  have hpop {t : State} (ht : t.Holds P) : (pop t).Holds P := ht.modCluster
  split
  · exact h
  · split
    · split
      · exact h
      · next s1 heq =>
        have h1 : s1.Holds P := h.installNow.readDev.of_some heq
        exact ((hpop h1).foldl fun _ _ ht => ht.modCluster).report.ite ((hpop h1).modCluster.ite h)
    · exact h

theorem State.Holds.endLogs [Kept P] {s : State} (h : s.Holds P) {cluster : Nat} : (s.endLogs cluster).Holds P := h.foldl fun _ _ h1 => h1.endLog

theorem State.Holds.postRefill [Kept P] {s : State} (h : s.Holds P) {cluster : Nat} {r : Refill} : (s.postRefill cluster r).Holds P := by
  unfold State.postRefill
  extract_lets fold
  have hf : fold.Holds P := by
    dsimp only [fold]
    cases heq : s.foldInto (r.dom / 16) cluster r.dom r.bank r.key r.val r.rel true with
    | none => exact h
    | some t => exact h.foldInto.of_some heq
  split
  · exact h.poisonedEntry.ite hf
  · exact hf

theorem State.Holds.execLogRefill [Kept P] {s : State} (h : s.Holds P) {cluster dk : Nat} : Out1.Fits P (execLogRefill cluster dk s) := by
  unfold Machine.execLogRefill
  split
  · exact h.ite h.modCluster.postRefill
  · exact h

theorem State.Holds.bankStart [Kept P] {s : State} (h : s.Holds P) {cluster : Nat} : (s.bankStart cluster).Holds P := by
  unfold State.bankStart
  exact h.claimStage.modCluster.foldl fun _ _ h1 => h1.postRefill

theorem State.Holds.commitDomain [Kept P] {s : State} (h : s.Holds P) {cluster dk : Nat} {g : Nat → Word} :
    (s.commitDomain cluster dk g).Holds P := by
  unfold State.commitDomain
  exact h.modCluster

theorem State.Holds.execFoldCommitTake [Kept P] {s : State} (h : s.Holds P) {cluster : Nat} : Out1.Fits P (execFoldCommitTake cluster s) := by
  unfold Machine.execFoldCommitTake
  split
  · exact h
  · extract_lets g dk old changes s1 done s2 s3
    have h2 : s2.Holds P := h.commitDomain.mapQueue
    have h3 : s3.Holds P := h2.opFault.ite h2
    exact h3.completeOp.ite h3

theorem State.Holds.latchQuiet [Kept P] {s : State} (h : s.Holds P) {ten dom : Nat} : (s.latchQuiet ten dom).Holds P := by
  unfold State.latchQuiet
  exact h.ite ((h.foldl fun _ _ h1 => h1.modCluster).modCluster)

theorem State.Holds.latchAll [Kept P] {s : State} (h : s.Holds P) : (s.latchAll).Holds P :=
  h.foldl fun _ _ h1 => h1.foldl fun _ _ h2 => h2.latchQuiet

theorem State.Holds.execFoldCompletionAction [Kept P] {s : State} (h : s.Holds P) {ten dom : Nat} :
    Out1.Fits P (execFoldCompletionAction ten dom s) := by
  dsimp only [Machine.execFoldCompletionAction]
  split
  · exact h.latchQuiet
  · refine State.Holds.sendDecr ?_
    split
    · exact h.latchQuiet.modCluster
    · split
      · next c snd snd heq =>
          exact h.latchQuiet.modCluster.report
      · next t heq =>
          exact h.latchQuiet.modCluster.deviceWrite.of_snd heq

theorem State.Holds.execAdaptChange [Kept P] {s : State} (h : s.Holds P) {ten dom shift : Nat} : Out1.Fits P (execAdaptChange ten dom shift s) := by
  unfold Machine.execAdaptChange
  extract_lets dk adapts s1 ids
  have h1 : s1.Holds P := h.foldl fun t k ht => ht.modCluster (by dsimp only; split <;> rfl)
  exact State.Holds.ite h1.rest h1

/-! ## Fabric -/

theorem State.Holds.dropPacket [Kept P] {s : State} (h : s.Holds P) {cls : Nat} : (s.dropPacket cls).Holds P := h.rest

theorem State.Holds.sendOut [Kept P] {s : State} (h : s.Holds P) {p : Packet} {arrived : Option Nat} : (s.sendOut p arrived).Holds P := by
  dsimp only [State.sendOut]
  split
  · exact h.rest
  · split
    · exact h.dropPacket.logMgmt
    · exact h.dropPacket

/-! ## Message -/

theorem State.Holds.modGroup [Kept P] {s : State} (h : s.Holds P) {g : Nat} {f : Group → Group} : (s.modGroup g f).Holds P := h.rest

theorem State.Holds.noRoute [Kept P] {s : State} (h : s.Holds P) {f : Flight} : (s.noRoute f).Holds P := by
  dsimp only [State.noRoute]
  split
  · exact (h.dropFlight.modSlot.ite h.dropFlight).flightFault
  · exact h.setAct.flightFault
  · exact h.dropFlight

theorem State.Holds.depart [Kept P] {s : State} (h : s.Holds P) {id : Nat} : (s.depart id).Holds P := by
  unfold State.depart
  split
  · exact h
  · split
    · exact h
    · split
      · exact h.dropFlight.dropPacket.logMgmt
      · split
        · exact h.modFlight.sendOut.ite h.noRoute
        · split
          · exact h.noteReach
          · exact h

theorem State.Holds.execSend [Kept P] {s : State} (h : s.Holds P) {d : Reg} : Out1.Fits P (execSend d s) := by
  dsimp only [Machine.execSend]
  refine h.issue (fun _ h1 => ?_)
  split
  · exact h1.trap
  · split
    · exact h1.setD
    · split
      · exact h1
      · split
        · exact h1.released.setD.asyncFault
        · refine State.Holds.setD ?_
          refine State.Holds.depart ?_
          refine State.Holds.launchFlight ?_
          split
          · exact h1.released.modSl.postedBy.ite h1.released.modSl
          · exact h1.released.modSl

theorem State.Holds.answered [Kept P] {s : State} (h : s.Holds P) {f : Flight} {ws : List Word} {code : Nat} : (s.answered f ws code).Holds P := by
  unfold State.answered
  split
  · exact h.flightFault
  · exact h.flightFault
  · exact h.flightFault
  · exact h

theorem State.Holds.answer [Kept P] {s : State} (h : s.Holds P) {f : Flight} {ws : List Word} {code : Nat} {data : List Word} :
    (s.answer f ws code data).Holds P := by
  dsimp only [State.answer]
  split
  · refine State.Holds.setAct ?_
    refine State.Holds.answered ?_
    split
    · exact h.deliver.countPkt
    · exact h.deliver
  · refine State.Holds.sendOut ?_
    refine State.Holds.dropFlight ?_
    split
    · exact h.deliver.countPkt
    · exact h.deliver

theorem State.Holds.spill [Kept P] {s : State} (h : s.Holds P) {m : HMsg} {core : Nat} : OnSome (State.Holds P) (s.spill m core) := by
  dsimp only [State.spill]
  split
  · exact trivial
  · split
    · next val snd heq =>
        exact trivial
    · next s1 heq =>
        exact (h.deviceWrite.of_snd heq).modTenant

theorem State.Holds.sendOn [Kept P] {s : State} (h : s.Holds P) {f : Flight} {ws : List Word} {m1 : Word} : (s.sendOn f ws m1).Holds P := by
  dsimp only [State.sendOn]
  split
  · exact h.noRoute.ite h.modFlight.sendOut
  · exact h.dropFlight.sendOut

theorem State.Holds.usedBy [Kept P] {s : State} (h : s.Holds P) {ten core : Nat} {dst : Option Nat × Nat} : (s.usedBy ten core dst).Holds P :=
  h.modCore

theorem State.Holds.execHandlerMessageArrival [Kept P] {s : State} (h : s.Holds P) {id : Nat} : Out1.Fits P (execHandlerMessageArrival id s) := by
  unfold Machine.execHandlerMessageArrival
  split
  · exact h
  · extract_lets _ _ _ s0 s1
    have h1 : s1.Holds P := h.refill.ite h.refill.usedBy
    split
    · exact h
    · split
      · exact h.usedBy.sendOn
      · split
        · exact h.answer
        · split
          · exact h1.modCore.answer
          · split
            · next s2 heq => exact (h1.spill.of_some heq).answer
            · exact h1.answer

theorem State.Holds.reply [Kept P] {s : State} (h : s.Holds P) {f : Flight} {p src : Nat} {remote : Bool} {va : Word} {bs : List Byte} :
    (s.reply f p src remote va bs).Holds P := by
  unfold State.reply
  exact h.foldl fun _ _ h1 => h1.rest

theorem State.Holds.served [Kept P] {s : State} (h : s.Holds P) {f : Flight} {ws : List Word} {p : Nat} {bs : List Byte} {code : Nat} :
    (s.served f ws p bs code).Holds P := by
  dsimp only [State.served]
  split
  · refine State.Holds.reply ?_
    split
    · exact h.answer.countPkt
    · exact h.answer
  · exact h.answer

theorem State.Holds.pieceDone [Kept P] {s : State} (h : s.Holds P) {f : Flight} {i n : Nat} {last : State → State} (hlast : ∀ t, t.Holds P →
    (last t).Holds P) :
    (s.pieceDone f i n last).Holds P :=
  h.modFlight.ite (hlast _ h)

theorem State.Holds.builtin [Kept P] {s : State} (h : s.Holds P) {f : Flight} : (s.builtin f).Holds P := h.acquireIds

theorem State.Holds.msgWrite [Kept P] {s : State} (h : s.Holds P) {f : Flight} {k : Nat} {bs : List Byte} : TryFits P (s.msgWrite f k bs) := by
  dsimp only [State.msgWrite]
  split
  · split
    · split
      · next s' heq =>
          exact ⟨trivial, (h.bankWrite.of_snd heq)⟩
      · exact ⟨h.queueLanding, h⟩
    · exact ⟨h.queueLanding, h⟩
  · exact h.writeAt

theorem State.Holds.onMsg [Kept P] {s : State} (h : s.Holds P) {f : Flight} {ws : List Word} {acc : Acc} {k : Nat → State → State}
    (hk : ∀ a0 t, t.Holds P → (k a0 t).Holds P) :
    (s.onMsg f ws acc k).Holds P := by
  dsimp only [State.onMsg]
  split
  · exact h.wantUnit
  · exact h.forgetAnswer.answer
  · exact h.answer.ite (h.redirect.sendOn.ite (hk _ _ h.redirect))

theorem State.Holds.storeMsg [Kept P] {s : State} (h : s.Holds P) {f : Flight} {ws : List Word} {k : Nat} : (s.storeMsg f ws k).Holds P := by
  dsimp only [State.storeMsg]
  split
  · next s' heq =>
      exact (h.builtin.msgWrite.wait heq).noteReach
  · next t snd heq =>
      exact (h.builtin.msgWrite.done heq).pieceDone (fun _ h1 => h1.served)

theorem State.Holds.execBuiltinStore [Kept P] {s : State} (h : s.Holds P) {id : Nat} : Out1.Fits P (execBuiltinStore id s) := by
  unfold Machine.execBuiltinStore
  split
  · exact h
  · exact h.ite (h.onMsg (fun _ _ h1 => h1.storeMsg))

theorem State.Holds.loadMsg [Kept P] {s : State} (h : s.Holds P) {f : Flight} {ws : List Word} {k : Nat} : (s.loadMsg f ws k).Holds P := by
  dsimp only [State.loadMsg]
  split
  · next s' heq =>
      exact (h.builtin.readAt.of_held heq).noteReach
  · exact h.builtin.answer.flightFault
  · next bs po rels s1 heq =>
      split
      · exact ((h.builtin.readAt.of_val heq).pending.modFlight.pieceDone (fun _ h1 => h1.served)).flightFault
      · exact (h.builtin.readAt.of_val heq).pending.modFlight.pieceDone (fun _ h1 => h1.served)

theorem State.Holds.execBuiltinLoad [Kept P] {s : State} (h : s.Holds P) {id : Nat} : Out1.Fits P (execBuiltinLoad id s) := by
  unfold Machine.execBuiltinLoad
  split
  · exact h
  · exact h.ite (h.onMsg (fun _ _ h1 => h1.loadMsg))

theorem State.Holds.atomicMsg [Kept P] {s : State} (h : s.Holds P) {f : Flight} {ws : List Word} {k : Nat} : (s.atomicMsg f ws k).Holds P := by
  dsimp only [State.atomicMsg]
  split
  · next s' heq =>
      exact (h.builtin.readAt.of_held heq).noteReach
  · exact h.builtin.answer.flightFault
  · next bs g rels s1 heq =>
      exact (h.builtin.readAt.of_val heq).served.flightFault
  · next bs rels s1 heq =>
      exact ((h.builtin.readAt.of_val heq).pending.write.noteFlag.ite ((h.builtin.readAt.of_val heq).pending.write)).served

theorem State.Holds.execBuiltinAtomic [Kept P] {s : State} (h : s.Holds P) {id : Nat} : Out1.Fits P (execBuiltinAtomic id s) := by
  dsimp only [Machine.execBuiltinAtomic]
  split
  · exact h
  · exact h.ite (h.onMsg (fun _ _ h1 => h1.answer.ite (h1.onTurn (fun _ h2 => h2.atomicMsg))))

theorem State.Holds.execBuiltinPost [Kept P] {s : State} (h : s.Holds P) {id : Nat} : Out1.Fits P (execBuiltinPost id s) := by
  dsimp only [Machine.execBuiltinPost]
  split
  · exact h
  · exact h.ite (h.answer.ite (h.ite (h.builtin.foldPost.served.flightFault.ite h.builtin.foldPost.served)))

theorem State.Holds.decrMsg [Kept P] {s : State} (h : s.Holds P) {f : Flight} {ws : List Word} {k : Nat} : (s.decrMsg f ws k).Holds P := by
  dsimp only [State.decrMsg]
  split
  · next s' heq =>
      exact (h.builtin.cellAt.of_held heq).noteReach
  · exact h.builtin.answer.flightFault
  · exact h.builtin.poisonedCell.answer
  · next count waiter rels s1 heq =>
      exact (h.builtin.cellAt.of_words heq).decrCell.served

theorem State.Holds.execBuiltinDecr [Kept P] {s : State} (h : s.Holds P) {id : Nat} : Out1.Fits P (execBuiltinDecr id s) := by
  dsimp only [Machine.execBuiltinDecr]
  split
  · exact h
  · exact h.ite (h.answer.ite (h.onTurn (fun _ h1 => h1.redirect.sendOn.ite h1.redirect.decrMsg)))

theorem State.Holds.execSendAck [Kept P] {s : State} (h : s.Holds P) {id : Nat} : Out1.Fits P (execSendAck id s) := by
  dsimp only [Machine.execSendAck]
  split
  · split
    · exact h.ite (h.countPkt.discardLate.ite (h.countPkt.dropFlight.modSlot.ite h.countPkt.dropFlight))
    · exact h
  · exact h

theorem State.Holds.putGroup [Kept P] {s : State} (h : s.Holds P) {g : Nat} {ws : List Word} : OnSome (State.Holds P) (s.putGroup g ws) := by
  dsimp only [State.putGroup]
  split
  · exact trivial
  · exact h.rest

theorem State.Holds.execMcst [Kept P] {s : State} (h : s.Holds P) {d : Reg} : Out1.Fits P (execMcst d s) := by
  unfold Machine.execMcst
  exact h.issue (fun _ h1 => h1.trap.ite (h1.trap.ite (h1.ite (h1.setD.asyncFault.ite (h1.ite h1.released.produce.depart)))))

theorem State.Holds.execMseq [Kept P] {s : State} (h : s.Holds P) {d a : Reg} {wa : Bool} : Out1.Fits P (execMseq d a wa s) := by
  unfold Machine.execMseq
  exact h.issue (fun _ h1 => h1.trap.ite (h1.ite h1.acquireIds.produce))

theorem State.Holds.toMember [Kept P] {s : State} (h : s.Holds P) {g : Nat} {st : Stamped} {dev : Nat} : (s.toMember g st dev).Holds P := by
  unfold State.toMember
  exact h.rest.ite h.sendOut

theorem State.Holds.stampBack [Kept P] {s : State} (h : s.Holds P) {f : Flight} {g n : Nat} : (s.stampBack f g n).Holds P := by
  dsimp only [State.stampBack]
  split
  · exact h.setAct.flightFault.ite h.setAct
  · exact h.dropFlight.sendOut

theorem State.Holds.execMcstStamp [Kept P] {s : State} (h : s.Holds P) {id : Nat} : Out1.Fits P (execMcstStamp id s) := by
  dsimp only [Machine.execMcstStamp]
  split
  · split
    · exact h.ite (h.stampBack.ite (h.ite (h.rest.modGroup.stampBack.foldl fun _ _ h1 => h1.toMember)))
    · exact h
  · exact h

theorem State.Holds.execMcstStampReturn [Kept P] {s : State} (h : s.Holds P) {id : Nat} : Out1.Fits P (execMcstStampReturn id s) := by
  dsimp only [Machine.execMcstStampReturn]
  split
  · split
    · split
      · exact h
      · split
        · exact h.countPkt.discardLate
        · split
          · exact h.countPkt.setAct
          · split
            · exact h.countPkt.dropFlight.modSlot.ite h.countPkt.dropFlight
            · exact h.countPkt.dropFlight
    · exact h
  · exact h

theorem State.Holds.tellGroup [Kept P] {s : State} (h : s.Holds P) {g kind : Nat} {values : List Nat} {dev : Nat} :
    (s.tellGroup g kind values dev).Holds P :=
  h.ite h.sendOut

theorem State.Holds.learnG [Kept P] {s : State} (h : s.Holds P) {g n : Nat} : (s.learnG g n).Holds P := h.modGroup

theorem State.Holds.tellG [Kept P] {s : State} (h : s.Holds P) {g : Nat} : (s.tellG g).Holds P := by
  unfold State.tellG
  exact (h.learnG.ite h).modGroup.foldl fun _ _ h1 => h1.tellGroup

theorem State.Holds.takeG [Kept P] {s : State} (h : s.Holds P) {g : Nat} : (s.takeG g).Holds P := by
  unfold State.takeG
  exact h.modGroup.ite h.modGroup.tellG

theorem State.Holds.takeReport [Kept P] {s : State} (h : s.Holds P) {g member n : Nat} : (s.takeReport g member n).Holds P := h.modGroup.takeG

theorem State.Holds.reportApplied [Kept P] {s : State} (h : s.Holds P) {g : Nat} : (s.reportApplied g).Holds P := by
  unfold State.reportApplied
  exact h.modGroup.takeReport.ite h.modGroup.tellGroup

theorem State.Holds.holdStore [Kept P] {s : State} (h : s.Holds P) {g : Nat} {st : Stamped} : (s.holdStore g st).Holds P := h.ite h.rest

theorem State.Holds.applyStores [Kept P] {s : State} (h : s.Holds P) {g n : Nat} : (State.applyStores g n s).Holds P := by
  induction n generalizing s with
  | zero => exact h
  | succ n ih =>
    unfold State.applyStores
    extract_lets gr p on
    have hon {t : State} (ht : t.Holds P) : (on t).Holds P := ih (ht.reportApplied.ite ht)
    split
    · exact h
    · split
      · exact h
      · split
        extract_lets s1
        have h1 : s1.Holds P := h.modGroup.acquireIds
        split
        · split
          · exact hon h1
          · split
            · next t heq => exact (h.wakeFirst.of_some heq).holdStore
            · split
              · next t _ heq => exact hon (h1.writeAt.done heq)
              · next t heq => exact h1.writeAt.wait heq
        · exact hon h1

theorem State.Holds.applyAll [Kept P] {s : State} (h : s.Holds P) : (s.applyAll).Holds P := h.foldl fun _ _ h1 => h1.applyStores

theorem State.Holds.execMulticastStoreArrival [Kept P] {s : State} (h : s.Holds P) {id : Nat} : Out1.Fits P (execMulticastStoreArrival id s) := by
  dsimp only [Machine.execMulticastStoreArrival]
  split
  · split
    · exact h.ite (h.dropFlight.ite h.dropFlight.modGroup.applyStores.modGroup)
    · exact h
  · exact h

theorem State.Holds.execGapplyReport [Kept P] {s : State} (h : s.Holds P) {group member gapply : Nat} :
    Out1.Fits P (execGapplyReport group member gapply s) := by
  unfold Machine.execGapplyReport
  exact h.ite ((h.ite h.reportApplied).ite (h.takeReport.ite h))

theorem State.Holds.execSluiceGReport [Kept P] {s : State} (h : s.Holds P) {group : Nat} : Out1.Fits P (execSluiceGReport group s) := h.ite h.tellG

theorem State.Holds.sendAgain [Kept P] {s : State} (h : s.Holds P) {g n dev : Nat} : (s.sendAgain g n dev).Holds P := by
  unfold State.sendAgain
  split
  · exact h.toMember
  · exact h

theorem State.Holds.execResendRequest [Kept P] {s : State} (h : s.Holds P) {group : Nat} : Out1.Fits P (execResendRequest group s) := by
  unfold Machine.execResendRequest
  exact h.ite (h.modGroup.ite (h.modGroup.sendAgain.ite h.modGroup.tellGroup))

theorem State.Holds.viewChanged [Kept P] {s : State} (h : s.Holds P) {g last : Nat} : (s.viewChanged g last).Holds P := h.report.logMgmt

theorem State.Holds.tellMembers [Kept P] {s : State} (h : s.Holds P) {g last dev : Nat} : (s.tellMembers g last dev).Holds P :=
  h.foldl fun _ _ h1 => h1.tellGroup

theorem State.Holds.learnMembers [Kept P] {s : State} (h : s.Holds P) {g last : Nat} {ws : List Word} : (s.learnMembers g last ws).Holds P := by
  unfold State.learnMembers
  exact h.modGroup.viewChanged.ite h.modGroup

theorem State.Holds.removeMember [Kept P] {s : State} (h : s.Holds P) {g member : Nat} : (s.removeMember g member).Holds P := by
  unfold State.removeMember
  exact (h.modGroup.foldl fun _ _ h1 => h1.tellMembers).takeG.viewChanged

theorem State.Holds.execMemberLoss [Kept P] {s : State} (h : s.Holds P) {group member : Nat} : Out1.Fits P (execMemberLoss group member s) := by
  unfold Machine.execMemberLoss
  exact h.ite h.removeMember

theorem State.Holds.cut [Kept P] {s : State} (h : s.Holds P) {g ncut relay : Nat} : (s.cut g ncut relay).Holds P := by
  unfold State.cut
  extract_lets s1 s2 gr own s3
  have h1 : s1.Holds P := h.modGroup
  have h2 : s2.Holds P := h1.rest
  have h3 : s3.Holds P := (h2.foldl fun _ _ ht => ht.foldl fun _ _ hu => hu.toMember).ite h2
  exact (h3.modGroup.ite h3).viewChanged

theorem State.Holds.takeH [Kept P] {s : State} (h : s.Holds P) {g member h' : Nat} : (s.takeH g member h').Holds P := by
  unfold State.takeH
  exact h.modGroup.ite ((h.modGroup.foldl fun _ _ h1 => h1.tellGroup).cut)

theorem State.Holds.execSequencerFailover [Kept P] {s : State} (h : s.Holds P) {group first : Nat} {others : List Nat} :
    Out1.Fits P (execSequencerFailover group first others s) := by
  unfold Machine.execSequencerFailover
  exact h.ite (h.modGroup.takeH.ite h.modGroup.tellGroup)

theorem State.Holds.abandonFlight [Kept P] {s : State} (h : s.Holds P) {f : Flight} : (s.abandonFlight f).Holds P := h.dropFlight.ite h.modFlight

theorem State.Holds.timedResult [Kept P] {s : State} (h : s.Holds P) {f : Flight} {v : Row} : (s.timedResult f v).Holds P := h.modFlight

theorem State.Holds.execOperationTimeout [Kept P] {s : State} (h : s.Holds P) {id : Nat} : Out1.Fits P (execOperationTimeout id s) := by
  dsimp only [Machine.execOperationTimeout]
  split
  · split
    · exact h
    · split
      · exact h
      · refine State.Holds.flightFault ?_
        split
        · exact h.timedResult
        · split
          · exact h.abandonFlight
          · split
            · exact h.abandonFlight.modSlot
            · exact h.abandonFlight.modSlot
            · exact h.timedResult
            · split
              · exact h.abandonFlight.modSlot
              · exact h.abandonFlight.modSlot
              · exact h.abandonFlight
  · exact h

theorem State.Holds.enterRecovery [Kept P] {s : State} (h : s.Holds P) : (s.enterRecovery).Holds P := h.rest

theorem State.Holds.execMeshFlitResend [Kept P] {s : State} (h : s.Holds P) {position port resends : Nat} :
    Out1.Fits P (execMeshFlitResend position port resends s) := by
  unfold Machine.execMeshFlitResend
  exact h.ite h.rest.enterRecovery

theorem State.Holds.fromPacket [Kept P] {s : State} (h : s.Holds P) {p : Packet} {act : Act} : (s.fromPacket p act).Holds P := by
  unfold State.fromPacket
  exact h.rest.depart

theorem State.Holds.takeResponse [Kept P] {s : State} (h : s.Holds P) {p : Packet} {port vc : Nat} : (s.takeResponse p port vc).Holds P := by
  dsimp only [State.takeResponse]
  split
  · exact h.logMgmt
  · split
    · exact h.dropFlight.logMgmt
    · split
      · exact h.setAct.flightFault.ite h.setAct.modGroup
      · split
        · exact h.answered.setAct.ite h.answered.setAct.reply
        · exact h.answered.setAct
      · exact h

theorem State.Holds.takeGroup [Kept P] {s : State} (h : s.Holds P) {p : Packet} : (s.takeGroup p).Holds P := by
  dsimp only [State.takeGroup]
  split
  · exact h
  · split
    · exact h.takeReport.ite h
    · exact h.learnG.ite h
    · exact h.sendAgain.ite h
    · exact h.learnMembers.ite h
    · exact h.takeH
    · exact h.cut.ite h
    · exact h

theorem State.Holds.takePacket [Kept P] {s : State} (h : s.Holds P) {p : Packet} {port vc : Nat} : (s.takePacket p port vc).Holds P := by
  unfold State.takePacket
  exact h.takeResponse.ite (h.takeGroup.ite ((h.fromPacket.ite h.fromPacket).ite h.fromPacket))

theorem State.Holds.ingress [Kept P] {s : State} (h : s.Holds P) {port vc : Nat} {p : Packet} : (s.ingress port vc p).Holds P := by
  unfold State.ingress
  split
  · exact h.dropPacket.logMgmt
  · exact h.takePacket.ite h.sendOut

theorem State.Holds.bumpPort [Kept P] {s : State} (h : s.Holds P) {port : Nat} {st : PortState} : (s.bumpPort port st).Holds P := by
  unfold State.bumpPort
  exact h.rest

theorem State.Holds.execDelmelFrameReceive [Kept P] {s : State} (h : s.Holds P) {port vc : Nat} {crcOk : Bool} {packets : List Packet} :
    Out1.Fits P (execDelmelFrameReceive port vc crcOk packets s) := by
  unfold Machine.execDelmelFrameReceive
  exact h.ite ((h.rest.foldl fun _ _ h1 => h1.ingress).ite h.rest)

theorem State.Holds.replayOn [Kept P] {s : State} (h : s.Holds P) {port : Nat} : (s.replayOn port).Holds P := by
  unfold State.replayOn
  exact h.rest.ite (h.foldl fun _ _ h1 => h1.dropPacket)

theorem State.Holds.execPortRetrain [Kept P] {s : State} (h : s.Holds P) {port healthyLanes : Nat} {reserve : Bool} :
    Out1.Fits P (execPortRetrain port healthyLanes reserve s) := by
  unfold Machine.execPortRetrain
  extract_lets st _ s1
  have hb : (s.bumpPort port st).Holds P := h.bumpPort
  have h1 : s1.Holds P := State.Holds.logMgmt hb.rest
  clear_value s1 st
  split
  · exact h
  · split
    · exact h1
    · exact h1.ite h1.logMgmt
    · exact h1.replayOn.logMgmt

theorem State.Holds.hostMessage [Kept P] {s : State} (h : s.Holds P) {id : Nat} : (s.hostMessage id).Holds P := by
  unfold State.hostMessage
  split
  · exact h
  · split
    · exact h.served.ite h
    · exact h

theorem State.Holds.execHostRequestFail [Kept P] {s : State} (h : s.Holds P) {id : Nat} : Out1.Fits P (execHostRequestFail id s) := by
  unfold Machine.execHostRequestFail
  split
  · split
    · exact h.setAct.flightFault.ite h
    · exact h.dropFlight.flightFault.ite h
    · split
      · split
        · exact h.dropFlight.hostFailed
        · exact h.dropFlight
      · exact h
    · exact h.hostMessage
    · exact h
  · split
    · exact h.hostOnes.hostFailed
    · exact h

/-! ## Rows -/

theorem State.Holds.rowIssue [Kept P] {s : State} (h : s.Holds P) {major : Nat} {i : Instr} {src dst : List Reg} {_metadata : Option Nat} :
    (rowIssue major i src dst _metadata s).Holds P := by
  dsimp only [Machine.rowIssue]
  refine h.needs (fun _ h1 => ?_)
  refine h1.issue (fun _ h2 => ?_)
  split
  · exact h2.trap
  · exact h2.pushSeq

theorem State.Holds.fetchBody [Kept P] {s : State} (h : s.Holds P) {pc : Word} {n : Nat} :
    OnExcept (State.Holds P) (fun r => r.2.Holds P) (s.fetchBody pc n) := by
  induction n generalizing s pc with
  | zero => exact h
  | succ n ih =>
    unfold State.fetchBody
    split
    · next heq =>
      have h1 := h.fetchWord.of_word heq
      split
      · next ws t heq2 => exact (ih h1).of_ok (a := (ws, t)) heq2
      · next heq2 => exact (ih h1).of_error heq2
    · exact h.trap
    · exact h.wantWalk
    · exact h
    · exact h.wake.holdFetch

theorem State.Holds.capture [Kept P] {s : State} (h : s.Holds P) {c : Nat} {st : Word} {ws : List (BitVec 32)} {is : List Instr} :
    (s.capture c st ws is).Holds P := by
  dsimp only [State.capture]
  split
  · exact h.trap
  · exact h.modSl.ite (h.ite h.rest.modCore.modSl.modSl)

theorem State.Holds.execVrep [Kept P] {s : State} (h : s.Holds P) {a : Reg} {n : BitVec 4} {b : Reg} : Out1.Fits P (execVrep a n b s) := by
  dsimp only [Machine.execVrep]
  refine h.needs (fun _ h1 => ?_)
  split
  · exact h1.trap
  · exact h1.modSl
  · split
    · next t heq =>
        exact h1.fetchBody.of_error heq
    · next ws s heq =>
        exact (h1.fetchBody.of_ok heq).trap.ite ((h1.fetchBody.of_ok heq).issue (fun _ h2 => h2.capture))

theorem State.Holds.readKeyRow [Kept P] {s : State} (h : s.Holds P) {r : SlotRef} {e : SeqEntry} {key : Nat} {view : List Nat} {body : Option
    (Nat × Nat)} :
    (s.readKeyRow r e key view body).2.Holds P := by
  dsimp only [State.readKeyRow]
  split
  · next bs po rels s1 heq =>
      split
      · exact (h.readAt.of_val heq).asyncFault
      · exact h.readAt.of_val heq
  · exact h.asyncFault
  · next s1 heq =>
      exact h.readAt.of_held heq

theorem State.Holds.readRow [Kept P] {s : State} (h : s.Holds P) {r : SlotRef} {e : SeqEntry} {n : Nat} {view : List Nat}
    {body : Option (Nat × Nat)} :
    (s.readRow r e n view body).2.Holds P := by
  unfold State.readRow
  extract_lets x
  split
  · exact h.readKeyRow
  · split
    · split
      · dsimp only
        exact h.modSlot
      · exact h
    · exact h

theorem State.Holds.readRows [Kept P] {s : State} (h : s.Holds P) {r : SlotRef} {e : SeqEntry} {n : Nat} {view : List Nat} {body : Option
    (Nat × Nat)} {c : Nat} :
    (s.readRows r e n view body c).2.Holds P := by
  induction c generalizing s n with
  | zero => exact h
  | succ c ih => exact ih h.readRow

theorem State.Holds.readField [Kept P] {s : State} (h : s.Holds P) {r : SlotRef} {e : SeqEntry} {view : List Nat} {body : Option (Nat × Nat)}
    {x : Option RowField} :
    (s.readField r e view body x).2.Holds P := by
  unfold State.readField
  split
  · split
    · exact h
    · exact h.readRows
  · exact h

theorem State.Holds.startWakes [Kept P] {s : State} (h : s.Holds P) {core : Nat} {bs : List Nat} : (s.startWakes core bs).Holds P :=
  h.foldl fun _ _ h1 => h1.wake.ite h1

theorem State.Holds.csrEntry [Kept P] {s : State} (h : s.Holds P) {r : SlotRef} {i : Instr} {v : Word} : (s.csrEntry r i v).Holds P := by
  unfold State.csrEntry
  extract_lets s0 go
  have h0 : s0.Holds P := h.rest
  have hgo (d : Reg) (c : BitVec 12) (new : Option (Word → Word)) : (go d c new).Holds P := by
    dsimp only [go]
    have h1 {t : State} (ht : t.Holds P) (f : Slot → Slot) : State.Holds P { t.modSlot r f with cur := s.cur } :=
      State.Holds.rest (s := t.modSlot r f) ht.modSlot
    refine h1 ?_ _
    split
    · exact h0.writeCsr
    · exact h0
  split
  · exact hgo _ _ none
  · exact hgo _ _ (some fun _ => v)
  · next a _ => exact hgo _ _ (if a = 0#5 then none else some fun o => o ||| v)
  · next a _ => exact hgo _ _ (if a = 0#5 then none else some fun o => o &&& ~~~v)
  · exact h

theorem State.Holds.startRow [Kept P] {s : State} (h : s.Holds P) {r : SlotRef} {e : SeqEntry} {i : Instr} {final : Bool} {body : Option
    (Nat × Nat)} {offs view : List Nat} :
    (s.startRow r e i final body offs view).Holds P := by
  dsimp only [State.startRow]
  refine State.Holds.launchFlight ?_
  refine State.Holds.foldl ?_ fun _ _ h1 => ?_
  · split
    · exact h.readField.readField.readField.readKeyRow
    · exact h.readField.readField.readField
  · exact h1.hintDue

theorem State.Holds.runEntry [Kept P] {s : State} (h : s.Holds P) {core : Nat} {e : SeqEntry} {i : Instr} {final : Bool} {body : Option
    (Nat × Nat)} {offs view : List Nat} :
    (s.runEntry core e i final body offs view).2.Holds P := by
  unfold State.runEntry
  extract_lets r
  split
  · exact h.startWakes
  · split
    · dsimp only
      split
      · exact h.modFlight
      · exact h
    · split
      next v s1 heq =>
      have h1 : s1.Holds P := h.readRow.of_snd heq
      extract_lets bank same s2
      have h2 : s2.Holds P := by
        dsimp only [s2]
        split
        · exact h1.modFlight
        · exact h1
      exact h2.ite (h2.foldl fun _ _ ht => ht.hintDue)
    · split
      · exact h.csrEntry
      · exact h.startRow

theorem State.Holds.setSeqHead [Kept P] {s : State} (h : s.Holds P) {core : Nat} {h' : Option SeqItem} : (s.setSeqHead core h').Holds P := h.modCore

theorem State.Holds.started [Kept P] {s : State} (h : s.Holds P) {core : Nat} {h' : Option SeqItem} : (s.started core h').Holds P :=
  h.setSeqHead.modCore

theorem State.Holds.execSequencerExecute [Kept P] {s : State} (h : s.Holds P) {core : Nat} {view : List Nat} :
    Out1.Fits P (execSequencerExecute core view s) := by
  dsimp only [Machine.execSequencerExecute]
  split
  · exact h
  · split
    · exact h
    · split
      · exact h.runEntry.started.ite h.runEntry
      · split
        · exact h.setSeqHead
        · exact h.runEntry.ite (h.runEntry.started.ite (h.runEntry.started.ite (h.runEntry.started.modSlot.ite h.runEntry.started)))

/-! ## Switch -/

theorem State.Holds.haltSlot [Kept P] {s : State} (h : s.Holds P) {r : SlotRef} : (s.haltSlot r).Holds P := by
  unfold State.haltSlot
  exact h.ite h.modCore.modSlot

theorem State.Holds.redirectReads [Kept P] {s : State} (h : s.Holds P) {r : SlotRef} : (s.redirectReads r).Holds P := by
  unfold State.redirectReads
  refine h.foldl fun _ _ h1 => ?_
  split
  · exact h1
  · exact h1.modFlight.modCore

theorem State.Holds.beginSave [Kept P] {s : State} (h : s.Holds P) {r : SlotRef} : (s.beginSave r).Holds P := h.modSlot.redirectReads.ite h

theorem State.Holds.execSeepLineLand [Kept P] {s : State} (h : s.Holds P) {core line : Nat} : Out1.Fits P (execSeepLineLand core line s) := by
  dsimp only [Machine.execSeepLineLand]
  split
  · exact h
  · split
    · exact h
    · split
      · exact h
      · split
        · exact h.dropFlight.modCore
        · exact h.dropFlight.modCore
        · exact h.ite h.read.acquire.dropFlight.modCore
        · exact h

theorem State.Holds.vacate [Kept P] {s : State} (h : s.Holds P) {r : SlotRef} : (s.vacate r).Holds P := by
  unfold State.vacate
  extract_lets x mine s1 s2 own s3
  have h2 : s2.Holds P := h.banksOff.modCore
  have h3 : s3.Holds P := h2.rest
  exact h3.setSlot

theorem State.Holds.requeue [Kept P] {s : State} (h : s.Holds P) {r : SlotRef} {m : Image} {party : Nat} {acc : Acc} {va : Word} {act : Nat → Act} :
    (s.requeue r m party acc va act).Holds P := by
  unfold State.requeue
  extract_lets cl s1
  have h1 : s1.Holds P := h.rest
  split
  · exact h1.installNow.rest
  · exact h1.asyncFault
  · exact h1

theorem State.Holds.restoreSeq [Kept P] {s : State} (h : s.Holds P) {r : SlotRef} {m : Image} {party : Nat} : (s.restoreSeq r m party).Holds P := by
  unfold State.restoreSeq
  extract_lets n left raw step
  have hstep (a : State × List SeqItem) (ws : List Word) (ha : a.1.Holds P) : (step a ws).1.Holds P := by
    obtain ⟨t, items⟩ := a
    have ht : State.Holds P { t with fresh := t.fresh + 1 } := State.Holds.rest ha
    dsimp only [step]
    split
    · exact ha
    · split
      · split <;> exact ht
      · split
        · exact ht.requeue
        · exact ht.requeue
        · exact ht
  have hfold : ∀ (l : List (List Word)) (a : State × List SeqItem), a.1.Holds P → (l.foldl step a).1.Holds P := by
    intro l
    induction l with
    | nil => exact fun _ ha => ha
    | cons ws l ih => exact fun a ha => ih _ (hstep a ws ha)
  exact (hfold raw (s, []) h).modCore

theorem State.Holds.restoreSa [Kept P] {s : State} (h : s.Holds P) {r : SlotRef} {m : Image} {party : Nat} : (s.restoreSa r m party).Holds P := by
  unfold State.restoreSa
  exact h.foldl fun _ _ h1 => h1.requeue.modSlot

theorem State.Holds.restoreCopies [Kept P] {s : State} (h : s.Holds P) {r : SlotRef} {m : Image} {party : Nat} :
    (s.restoreCopies r m party).Holds P := by
  unfold State.restoreCopies
  exact h.foldl fun _ _ h1 => h1.rest.modCore

theorem State.Holds.seepInto [Kept P] {s : State} (h : s.Holds P) {r : SlotRef} {kind : Nat} {dest : Word} {v : Row} {po : Bool} :
    (s.seepInto r kind dest v po).Holds P := by
  unfold State.seepInto
  split
  · exact h.modSlot
  · exact h.modSlot
  · extract_lets x
    split
    next key s0 heq =>
    have h0 : s0.Holds P := (State.Holds.ite_snd h h.redirect).of_snd heq
    extract_lets s1
    have h1 : s1.Holds P := h0.writeNow
    exact h1.rest.ite h1

theorem State.Holds.restoreBanks [Kept P] {s : State} (h : s.Holds P) {core : Nat} {m : Image} {tiles : List Nat} :
    (s.restoreBanks core m tiles).Holds P := by
  unfold State.restoreBanks
  extract_lets pairs
  generalize 0x2000 = o
  clear_value pairs
  induction pairs generalizing s o with
  | nil => exact h
  | cons p ps ih =>
    rw [List.foldl_cons]
    have hw : (s.wipe (bankAddr core p.2) (bankAddr core p.2 + bankSize p.2)).Holds P := h.wipe
    dsimp only
    split
    · exact ih (hw.rest.modCore fun k => (k.shadows_setBank _ _).le) _
    · exact ih (h.modCore fun k => (k.shadows_setBank _ _).le) _

theorem State.Holds.mapOps [Kept P] {s : State} (h : s.Holds P) {f : EngOp → EngOp} {g : TileTask → TileTask} : (s.mapOps f g).Holds P :=
  h.mapAll rfl rfl

theorem State.Holds.restore [Kept P] {s : State} (h : s.Holds P) {m : Image} {r : SlotRef} {tiles : List Nat} {acq : Rels} :
    (s.restore m r tiles acq).Holds P := by
  unfold State.restore
  extract_lets old
  split
  next party s0 heq =>
  have h0 : s0.Holds P := (State.Holds.ite_snd h.regrant.newParty h.regrant.modParty.acquire).of_snd heq
  extract_lets s1 s2 s3 s4
  have h1 : s1.Holds P := h0.ite h0.mapOps
  have h3 : s3.Holds P := h1.restoreBanks.setSlot.restoreSa.restoreCopies
  have h4 : s4.Holds P := h3.foldl fun _ _ ht => ht.seepInto.ite ht
  exact h4.restoreSeq

theorem State.Holds.onArea [Kept P] {s : State} (h : s.Holds P) {acc : Acc} {k : State → State} {f : Nat} {va : Word} {n : Nat}
    (hk : ∀ t, t.Holds P → (k t).Holds P) : (State.onArea acc k f va n s).Holds P := by
  induction f generalizing s va n with
  | zero => exact hk _ h
  | succ f ih =>
    unfold State.onArea
    exact (hk _ h).ite (h.onAddr fun _ _ ht => (ih ht).ite ht.trap)

theorem State.Holds.areaWakes [Kept P] {s : State} (h : s.Holds P) {va : Word} {n : Nat} : OnSome (State.Holds P) (s.areaWakes va n) := by
  unfold State.areaWakes
  split
  · cases hf : (List.range (n / 64)).findSome? fun i => s.wakeFirst (va.toNat + 64 * i) 64 with
    | none => trivial
    | some t =>
      obtain ⟨i, -, hi⟩ := List.exists_of_findSome?_eq_some hf
      exact h.wakeFirst.of_some hi
  · exact trivial

theorem State.Holds.execCtxsave [Kept P] {s : State} (h : s.Holds P) {d a b : Reg} {wa wb : Bool} : Out1.Fits P (execCtxsave d a b wa wb s) := by
  refine h.priv fun _ h1 => h1.issue fun _ h2 => h2.trap.ite (h2.trap.ite (h2.trap.ite (h2.onArea fun _ h3 => ?_)))
  exact h3.produce.ite h3.produce.haltSlot

theorem State.Holds.writeArea [Kept P] {s : State} (h : s.Holds P) {p ten : Nat} {lv : Level} {poison : List Nat} {rels : List (Nat × List Nat)}
    {n o : Nat} {va : Word} {bs : List Byte} : OnSome (State.Holds P) (State.writeArea p ten lv poison rels n o va bs s) := by
  induction n generalizing s o va bs with
  | zero => exact h
  | succ n ih =>
    unfold State.writeArea
    split
    · split
      · trivial
      · exact ih h.writeNow.rest
    · trivial

theorem State.Holds.resumeInPlace [Kept P] {s : State} (h : s.Holds P) {r : SlotRef} : (s.resumeInPlace r).Holds P := by
  unfold State.resumeInPlace
  exact (h.foldl fun _ _ h1 => h1.seepInto).modCore.modSlot

theorem State.Holds.onSave [Kept P] {s : State} (h : s.Holds P) {id : Nat} {r : SlotRef} {gone k : State → State} (hgone : ∀ t, t.Holds P →
    (gone t).Holds P) (hk : ∀ t, t.Holds P → (k t).Holds P) :
    (s.onSave id r gone k).Holds P := by
  unfold State.onSave
  exact h.ite ((h.ite (hgone _ h)).ite ((hk _ h.beginSave).ite h.beginSave))

theorem State.Holds.execCtxsaveComplete [Kept P] {s : State} (h : s.Holds P) {save : SaveEnd} : Out1.Fits P (execCtxsaveComplete save s) := by
  unfold Machine.execCtxsaveComplete
  extract_lets id
  split
  · split
    · refine State.Holds.onSave h (fun _ h1 => ?_) (fun _ h1 => ?_)
      · exact h1.setAct
      · extract_lets x tag s0 bs
        have h0 : s0.Holds P := h1.rest
        split
        · next heq => exact h1.areaWakes.of_some heq
        · split
          · exact h1.modSlot.setAct
          · next s1 heq =>
            split at heq
            · cases heq
            · have h2 : s1.Holds P := h0.writeArea.of_some heq
              exact State.Holds.setAct (State.Holds.vacate h2.rest)
    · exact h
  · exact h

theorem State.Holds.readArea [Kept P] {s : State} (h : s.Holds P) {core p ten : Nat} {lv : Level} {n o : Nat} {va : Word} :
    OnExcept (fun _ => True) (fun r => r.2.2.2.Holds P) (State.readArea core p ten lv n o va s) := by
  induction n generalizing s o va with
  | zero => exact h
  | succ n ih =>
    unfold State.readArea
    split
    · split
      · trivial
      · next bs rels s1 heq =>
        have h1 : s1.Holds P := h.readNow.of_some heq
        have h2 := ih h1 (o := o + 64) (va := va + 64#64)
        dsimp only
        cases hr : State.readArea core p ten lv n (o + 64) (va + 64#64) s1 with
        | error e => trivial
        | ok t => exact (h2.of_ok (a := t) hr : t.2.2.2.Holds P)
    · trivial
    · trivial

theorem State.Holds.usedTag [Kept P] {s : State} (h : s.Holds P) {n : Nat} : (s.usedTag n).Holds P := by
  unfold State.usedTag
  exact h.rest

theorem State.Holds.areaFault [Kept P] {s : State} (h : s.Holds P) {d : Reg} {c : Nat} {v : Word} : (s.areaFault d c v).Holds P :=
  h.faultHere.produce.ite h.trap

theorem State.Holds.execCtxload [Kept P] {s : State} (h : s.Holds P) {d a : Reg} {wa : Bool} : Out1.Fits P (execCtxload d a wa s) := by
  dsimp only [Machine.execCtxload]
  refine h.priv (fun _ h1 => ?_)
  refine h1.issue (fun _ h2 => ?_)
  split
  · exact h2.trap
  · refine h2.onArea (fun _ h3 => ?_)
    split
    · next s' heq =>
        exact h3.areaWakes.of_some heq
    · split
      · exact h3.areaFault
      · next bs fst fst snd heq =>
          split
          · exact h3.produce
          · refine h3.onArea (fun _ h4 => ?_)
            split
            · next s' heq =>
                exact h4.areaWakes.of_some heq
            · split
              · exact h4.areaFault
              · next bs po rels s1 heq =>
                  split
                  · exact h4.produce
                  · exact (h4.readArea.of_ok heq).restore.usedTag.produce

theorem State.Holds.execMigr [Kept P] {s : State} (h : s.Holds P) {d a b : Reg} {wa wb : Bool} : Out1.Fits P (execMigr d a b wa wb s) := by
  unfold Machine.execMigr
  exact h.priv (fun _ h1 => h1.issue (fun _ h2 => h2.produce.ite (h2.produce.ite h2.produce.haltSlot)))

theorem State.Holds.move [Kept P] {s : State} (h : s.Holds P) {r : SlotRef} {core dev : Nat} : (s.move r core dev).2.Holds P := by
  dsimp only [State.move]
  split
  · exact h.resumeInPlace
  · split
    · split
      · exact h.resumeInPlace
      · dsimp only
        exact h.vacate.rest.modCore
    · split
      · exact h.resumeInPlace
      · dsimp only
        exact h.vacate.modCore.restore

theorem State.Holds.execMigrationRestore [Kept P] {s : State} (h : s.Holds P) {id : Nat} : Out1.Fits P (execMigrationRestore id s) := by
  dsimp only [Machine.execMigrationRestore]
  split
  · split
    · refine h.onSave (fun _ h1 => ?_) (fun _ h1 => h1.move.setAct)
      exact h1.setAct
    · exact h
  · exact h

theorem State.Holds.execForwardRetire [Kept P] {s : State} (h : s.Holds P) {core entry : Nat} : Out1.Fits P (execForwardRetire core entry s) := by
  dsimp only [Machine.execForwardRetire]
  split
  · exact h
  · exact h.ite h.modCore

theorem State.Holds.execGstop [Kept P] {s : State} (h : s.Holds P) {d a b : Reg} {wa wb : Bool} : Out1.Fits P (execGstop d a b wa wb s) := by
  refine h.priv fun _ h1 => h1.issue fun _ h2 => h2.trap.ite (h2.trap.ite ?_)
  exact (h2.produce.ite h2.launchFlight.produce).ite (h2.onAddr fun _ _ h3 => (h3.produce.ite h3.launchFlight.produce).ite h3.trap)

theorem State.Holds.execCoreStop [Kept P] {s : State} (h : s.Holds P) {id core : Nat} : Out1.Fits P (execCoreStop id core s) := by
  unfold Machine.execCoreStop
  split
  · split
    · extract_lets rest s1 s2 going stopped va
      have h1 : s1.Holds P := h.dropFlight.ite h.setAct
      have h2 : s2.Holds P := h1.modTenant
      have hgoing : going.Holds P := (h2.foldl fun _ _ ht => ht.freeSlot).ite h2
      have hstopped : stopped.Holds P := h2.stopCore
      split
      · exact h
      · split
        · exact hgoing.modCore
        · split
          · next heq => exact hstopped.deviceWrite.of_snd heq
          · exact hstopped.monitorReport
    · exact h
  · exact h

theorem State.Holds.execGstopComplete [Kept P] {s : State} (h : s.Holds P) {id : Nat} : Out1.Fits P (execGstopComplete id s) := by
  unfold Machine.execGstopComplete
  split
  · split
    · exact h.ite h.setAct
    · exact h
  · exact h

theorem State.Holds.modSlice [Kept P] {s : State} (h : s.Holds P) {cl ten : Nat} {f : Slice → Slice} : (s.modSlice cl ten f).Holds P :=
  h.modCluster (by split <;> rfl)

theorem State.Holds.sliceSave [Kept P] {s : State} (h : s.Holds P) {cl ten : Nat} {r : SlotRef} : (s.sliceSave cl ten r).Holds P := by
  unfold State.sliceSave
  exact h.beginSave.ite h.beginSave.modSlice.vacate

theorem State.Holds.sliceRestore [Kept P] {s : State} (h : s.Holds P) {cl ten : Nat} : (s.sliceRestore cl ten).Holds P := by
  dsimp only [State.sliceRestore]
  split
  · exact h
  · refine h.foldl fun _ _ h1 => ?_
    split
    · exact h1
    · split
      · exact h1
      · exact h1.restore.modSlice

theorem State.Holds.sliceOver [Kept P] {s : State} (h : s.Holds P) {cl ten : Nat} : (s.sliceOver cl ten).Holds P := by
  unfold State.sliceOver
  exact h.modSlice.modCluster.modSlice.sliceRestore

theorem State.Holds.sliceLeave [Kept P] {s : State} (h : s.Holds P) {cl ten : Nat} : (s.sliceLeave cl ten).Holds P := by
  unfold State.sliceLeave
  exact (h.foldl fun _ _ h1 => h1.ite h1.sliceSave).sliceOver.ite (h.foldl fun _ _ h1 => h1.ite h1.sliceSave)

theorem State.Holds.sliceEnd [Kept P] {s : State} (h : s.Holds P) {cl ten : Nat} : (s.sliceEnd cl ten).Holds P := by
  unfold State.sliceEnd
  exact ((h.foldl fun _ _ h1 => h1.poisonedEntry).foldl fun _ _ h1 => h1.haltSlot).modCluster

theorem State.Holds.execSliceSwitch [Kept P] {s : State} (h : s.Holds P) {cluster : Nat} : Out1.Fits P (execSliceSwitch cluster s) := by
  dsimp only [Machine.execSliceSwitch]
  split
  · exact h.ite h.sliceLeave
  · exact h.sliceEnd.modCluster.sliceLeave.ite h.sliceRestore

/-! ## Scrub -/

theorem State.Holds.zeroChunk [Kept P] {s : State} (h : s.Holds P) {c : Chunk} : (s.zeroChunk c).Holds P := by
  unfold State.zeroChunk
  split
  · exact h.foldl fun _ _ ht => ht.bankOff
  · exact (h.foldl fun _ _ ht => ht.bankOff).wipe.modCore
  · exact h.modCluster (by dsimp only; split <;> rfl)
  · exact h.wipe.modCluster.ite h.wipe
  · next base =>
    have h1 : (s.wipe base (base + 0x10000)).Holds P := h.wipe
    dsimp only
    split
    · exact h1.rest
    · exact h1

theorem State.Holds.releaseChunk [Kept P] {s : State} (h : s.Holds P) {c : Chunk} : (s.releaseChunk c).Holds P := by
  unfold State.releaseChunk
  exact h.rest

theorem State.Holds.settle [Kept P] {s : State} (h : s.Holds P) {v : Nat} : (s.settle v).Holds P := by
  unfold State.settle
  exact h.modTenant.ite h

theorem State.Holds.settleAll [Kept P] {s : State} (h : s.Holds P) : (s.settleAll).Holds P := h.foldl fun _ _ h1 => h1.settle

theorem State.Holds.tdiError [Kept P] {s : State} (h : s.Holds P) {v : Nat} : (s.tdiError v).Holds P := h.modTenant

theorem State.Holds.dropTenant [Kept P] {s : State} (h : s.Holds P) {v : Nat} : (s.dropTenant v).Holds P := by
  have h1 : (s.dropWork fun e => e.ten == v).Holds P := h.dropWork
  refine h1.mapAll rfl rfl fun c => Nat.add_le_add ?_ (List.length_filter_le ..)
  dsimp only
  split
  · exact Nat.zero_le _
  · exact le_rfl

theorem State.Holds.takeApart [Kept P] {s : State} (h : s.Holds P) {v : Nat} : (s.takeApart v).Holds P := by
  unfold State.takeApart
  extract_lets s1 s2 s3
  have h1 : s1.Holds P := h.foldl fun _ _ ht => ht.freeSlot.ite ht
  have h2 : s2.Holds P := h1.foldl fun _ _ ht => (ht.foldl fun _ _ hu => hu.banksOff).modCore
  exact h2.dropTenant.modTenant

theorem State.Holds.bootEnd [Kept P] {s : State} (h : s.Holds P) : (s.bootEnd).Holds P := by
  unfold State.bootEnd
  exact h.rest.settleAll

theorem State.Holds.bootStart [Kept P] {s : State} (h : s.Holds P) : (s.bootStart).Holds P := by
  dsimp only [State.bootStart]
  split
  · exact h
  · split
    · exact h.rest
    · exact h.rest.bootEnd

theorem State.Holds.passEnd [Kept P] {s : State} (h : s.Holds P) : (s.passEnd).Holds P := by
  unfold State.passEnd
  exact (h.rest.bootEnd.ite h.rest.settleAll).bootStart

theorem State.Holds.execScrubChunkComplete [Kept P] {s : State} (h : s.Holds P) : Out1.Fits P (execScrubChunkComplete s) := by
  unfold Machine.execScrubChunkComplete
  split
  · exact h
  · split
    · exact h.passEnd
    · next c _ =>
      have h2 {lost : Bool} : ((if lost then s else s.zeroChunk c).releaseChunk c).Holds P := (h.ite h.zeroChunk).releaseChunk
      exact State.Holds.ite (State.Holds.passEnd h2.rest) h2.rest

theorem State.Holds.sec [Kept P] {s : State} (h : s.Holds P) {d a : Reg} {wa : Bool} {lo hi : Nat} {k : Nat → State → State}
    (hk : ∀ a0 t, t.Holds P → (k a0 t).Holds P) :
    (s.sec d a wa lo hi k).Holds P := by
  unfold State.sec
  exact h.trap.ite (h.priv (fun _ h1 => h1.issue (fun _ h2 => h2.trap.ite (hk _ _ h2))))

theorem State.Holds.secAnswer [Kept P] {s : State} (h : s.Holds P) {d : Reg} {status : Nat} : (s.secAnswer d status).Holds P := h.produce

theorem State.Holds.zeroKey [Kept P] {s : State} (h : s.Holds P) {k : Nat} : (s.zeroKey k).Holds P := by
  unfold State.zeroKey
  exact h.rest.settleAll

theorem State.Holds.mboxAnswer [Kept P] {s : State} (h : s.Holds P) {status : Nat} {ws : List Nat} : (s.mboxAnswer status ws).Holds P := by
  unfold State.mboxAnswer
  exact h.rest

theorem State.Holds.execTnfree [Kept P] {s : State} (h : s.Holds P) {d a : Reg} {wa : Bool} : Out1.Fits P (execTnfree d a wa s) := by
  unfold Machine.execTnfree
  exact h.sec (fun _ _ h1 => h1.ite (h1.secAnswer.ite ((h1.takeApart.settle.rest.mboxAnswer.ite h1.takeApart.settle).secAnswer)))

theorem State.Holds.assign [Kept P] {s : State} (h : s.Holds P) {d : Descr} : (s.assign d).Holds P := h.modTenant

theorem State.Holds.execTnassign [Kept P] {s : State} (h : s.Holds P) {d a : Reg} {wa : Bool} : Out1.Fits P (execTnassign d a wa s) := by
  refine h.trap.ite (h.priv fun _ h1 => h1.issue fun t h2 => ?_)
  extract_lets va chk
  split
  · exact h2.trap
  · split
    · exact h2.onAddr fun _ _ h3 => h3
    · extract_lets words lva read
      have hread (d0 : Descr) (whole : Bool) : (read d0 whole).Holds P := by
        dsimp only [read]
        generalize List.find? _ _ = o
        cases o with
        | none => exact (h2.assign.ite h2).secAnswer
        | some e => exact (h2.assign.ite h2).asyncFault.secAnswer
      split
      · exact hread _ _
      · exact h2.onAddr fun _ _ h3 => h3
      · exact hread _ _

theorem State.Holds.startPass [Kept P] {s : State} (h : s.Holds P) {v : Nat} {jobs : List ScrubJob} : (s.startPass v jobs).Holds P := by
  dsimp only [State.startPass]
  split
  · exact h.rest
  · exact h.rest.passEnd

theorem State.Holds.execScrub [Kept P] {s : State} (h : s.Holds P) {d a : Reg} {wa : Bool} : Out1.Fits P (execScrub d a wa s) := by
  unfold Machine.execScrub
  exact h.sec (fun _ _ h1 => h1.secAnswer.ite (h1.secAnswer.ite h1.startPass.secAnswer))

/-! ## HostPort -/

theorem State.Holds.refuseHost [Kept P] {s : State} (h : s.Holds P) {v : Nat} : (s.refuseHost v).Holds P := h.bumpLife

theorem State.Holds.execTsliceWrite [Kept P] {s : State} (h : s.Holds P) {vf : Nat} {v : Word} : Out1.Fits P (execTsliceWrite vf v s) := by
  unfold Machine.execTsliceWrite
  exact h.ite (h.refuseHost.ite (h.ite h.modTenant))

theorem State.Holds.execPwrcapWrite [Kept P] {s : State} (h : s.Holds P) {v : Word} : Out1.Fits P (execPwrcapWrite v s) := by
  unfold Machine.execPwrcapWrite
  exact h.ite h.rest

theorem State.Holds.execRegisterWrite [Kept P] {s : State} (h : s.Holds P) {fn off : Nat} {v : Word} :
    Out1.Fits P (execRegisterWrite fn off v s) := by
  dsimp only [Machine.execRegisterWrite]
  split
  · exact h.rest.ite h
  · split
    · exact h
    · split
      · exact h.modQueue
      · exact h.modQueue
      · exact h.modQueue
      · exact h

theorem State.Holds.execBar2UnprotectedRequest [Kept P] {s : State} (h : s.Holds P) {vf : Nat} {isWrite : Bool} :
    Out1.Fits P (execBar2UnprotectedRequest vf isWrite s) := by
  have h1 : (s.refuseHost vf).Holds P := h.refuseHost
  exact State.Holds.ite h (State.Holds.ite h1 h1.rest)

theorem State.Holds.mboxAccept [Kept P] {s : State} (h : s.Holds P) {cmd : Nat} {operands : List (Nat × Nat)} {k : State → State}
    (hk : ∀ t, t.Holds P → (k t).Holds P) :
    (s.mboxAccept cmd operands k).Holds P :=
  h.ite (hk _ h.rest)

theorem State.Holds.execMboxAssign [Kept P] {s : State} (h : s.Holds P) {desc : Word} : Out1.Fits P (execMboxAssign desc s) := by
  dsimp only [Machine.execMboxAssign]
  split
  · exact h.mboxAccept (fun _ h1 => h1.mboxAnswer)
  · split
    · exact h.mboxAccept (fun _ h1 => (h1.assign.ite h1).mboxAnswer)
    · exact h.mboxAccept (fun _ h1 => (h1.assign.ite h1).mboxAnswer)

theorem State.Holds.execMboxShare [Kept P] {s : State} (h : s.Holds P) {cluster : Nat} {vfs : List Nat} :
    Out1.Fits P (execMboxShare cluster vfs s) := by
  dsimp only [Machine.execMboxShare]
  refine h.mboxAccept (fun _ h1 => ?_)
  split
  · exact h1.refuseHost.mboxAnswer
  · split
    · exact h1.mboxAnswer
    · split
      · exact h1.mboxAnswer
      · refine State.Holds.mboxAnswer ?_
        refine State.Holds.modCluster ?_
        split
        · exact h1.ite h1.sliceEnd
        · exact h1

theorem State.Holds.execMboxPart [Kept P] {s : State} (h : s.Holds P) {p : PartWrite} : Out1.Fits P (execMboxPart p s) := by
  unfold Machine.execMboxPart
  refine h.mboxAccept (fun _ h1 => ?_)
  split
  · exact h1.rest.mboxAnswer
  · exact h1.rest.mboxAnswer.ite h1.mboxAnswer
  · split
    · next t heq =>
        exact (h1.putGroup.of_some heq).mboxAnswer
    · exact h1.mboxAnswer

theorem State.Holds.modSpdm [Kept P] {s : State} (h : s.Holds P) {fn : Nat} {f : Spdm → Spdm} : (s.modSpdm fn f).Holds P := h.rest

theorem State.Holds.spdmAnswer [Kept P] {s : State} (h : s.Holds P) {fn : Nat} {e : Option Nat} : (s.spdmAnswer fn e).Holds P := h.rest

theorem State.Holds.spdmReq [Kept P] {s : State} (h : s.Holds P) {fn : Nat} {ok : Spdm → Bool} {k : State → State} (hk : ∀ t, t.Holds P →
    (k t).Holds P) :
    (s.spdmReq fn ok k).Holds P :=
  h.spdmAnswer.ite (hk _ h)

theorem State.Holds.execSecuredMessage [Kept P] {s : State} (h : s.Holds P) {fn : Nat} {authentic : Bool} :
    Out1.Fits P (execSecuredMessage fn authentic s) := by
  unfold Machine.execSecuredMessage
  exact h.ite (h.modSpdm.tdiError.ite h.modSpdm)

theorem State.Holds.execVendorDefinedRequest [Kept P] {s : State} (h : s.Holds P) {asked : Asked} {nonce : BitVec 256} {base len : Word} :
    Out1.Fits P (execVendorDefinedRequest asked nonce base len s) := by
  dsimp only [Machine.execVendorDefinedRequest]
  refine h.spdmReq (fun _ h1 => ?_)
  split
  · exact h1.spdmAnswer
  · split
    · exact h1.spdmAnswer
    · exact h1.spdmAnswer.ite h1.rest.modTenant

theorem State.Holds.logLinks [Kept P] {s : State} (h : s.Holds P) {l : Life} {b : BootReport} : (s.logLinks l b).Holds P := by
  unfold State.logLinks
  exact h.foldl fun _ _ h1 => h1.logMgmt

/-- After a reset nothing is in use. -/
theorem State.Holds.reset [Lasting P] : State.reset.Holds P := by
  refine Lasting.idle (P := P) (fun e he => ?_) fun e he => absurd he List.not_mem_nil
  obtain ⟨k, -, rfl⟩ := List.mem_map.mp he
  rfl

theorem State.Holds.bootWith [Lasting P] {s : State} {l : Life} {b : BootReport} : (s.bootWith l b).Holds P := by
  unfold State.bootWith
  extract_lets seats chans dirty _ s1 s2
  have h1 : s1.Holds P := State.Holds.reset.rest
  have h2 : s2.Holds P := h1.logLinks
  exact h2.ite h2.enterRecovery

theorem State.Holds.coldBoot [Lasting P] {s : State} {b : BootReport} : (s.coldBoot b).Holds P := State.Holds.bootWith

theorem State.Holds.warmTeardown [Kept P] {s : State} (h : s.Holds P) : (s.warmTeardown).Holds P := by
  refine h.foldl fun t v ht => ?_
  extract_lets x t1 j own t2
  have h1 : t1.Holds P := ht.ite ht.takeApart
  have h2 : t2.Holds P := h1.ite h1.rest
  exact ht.ite (h2.ite (State.Holds.modTenant h2.rest))

theorem State.Holds.execWarmReset [Lasting P] {s : State} {b : BootReport} : Out1.Fits P (execWarmReset b s) := by
  unfold Machine.execWarmReset
  extract_lets s1 kept j out lost up slow warmPort _ _ s2 s3 s4
  have hclusters : ∀ e ∈ s1.clusters.map fun c => (c.1, c.2.warm), banksFit e.2.banks := by
    intro e he
    obtain ⟨c, -, rfl⟩ := List.mem_map.mp he
    exact ⟨rfl, by simp [Cluster.warm]⟩
  have hcores : ∀ e ∈ s1.cores.map fun c => (c.1, c.2.warm), e.2.shadows = 0 := by
    intro e he
    obtain ⟨c, -, rfl⟩ := List.mem_map.mp he
    rfl
  have hmonitors : ∀ e ∈ monitorCores, e.2.shadows = 0 := by
    intro e he
    obtain ⟨k, -, rfl⟩ := List.mem_map.mp he
    rfl
  have h2 : s2.Holds P := 
    Lasting.idle (P := P) (AMap.forall_foldl_put (P := fun c : Core => c.shadows = 0) hmonitors hcores) hclusters
  have h3 : s3.Holds P := h2.settleAll
  have h4 : s4.Holds P := h3.ite h3.bootStart
  exact h4.ite h4.enterRecovery

theorem State.Holds.spoilChip [Kept P] {s : State} (h : s.Holds P) {addr : Nat} : (s.spoilChip addr).Holds P := by
  unfold State.spoilChip
  extract_lets c
  split
  · split
    · exact h.rest
    · exact h.rest
    · exact h.modCore
    · exact h
  · split
    · split
      · split
        exact h.modCluster
      · exact h.rest
    · exact h.modCluster
    · exact h

theorem State.Holds.execPatrolRead [Kept P] {s : State} (h : s.Holds P) {addr : Nat} {found : Ecc} : Out1.Fits P (execPatrolRead addr found s) := by
  dsimp only [Machine.execPatrolRead]
  split
  · exact h
  · split
    · exact h.bumpLife
    · exact h.bumpLife
    · exact h
  · split
    · exact h.rest.monitorReport
    · exact h.rest.bumpLife.monitorReport
    · exact h.spoilChip.bumpLife
    · exact h

theorem State.Holds.execKeyIntegrityCheck [Kept P] {s : State} (h : s.Holds P) {slot : Nat} {fails : Bool} :
    Out1.Fits P (execKeyIntegrityCheck slot fails s) := by
  unfold Machine.execKeyIntegrityCheck
  split
  · exact h
  · split
    · exact h.enterRecovery
    · split
      · exact h.rest
      · exact h.rest.report.tdiError

theorem State.Holds.execLifetimeHourTick [Kept P] {s : State} (h : s.Holds P) {celsius watts : Nat} :
    Out1.Fits P (execLifetimeHourTick celsius watts s) := by
  unfold Machine.execLifetimeHourTick
  exact (h.ite h.bumpLife).ite ((h.ite h.bumpLife).bumpLife)

/-! ## Matrix -/

theorem State.Holds.operandKey [Kept P] {s : State} (h : s.Holds P) {cl : Nat} {o : EngOp} {acc : Acc} {va : Word} :
    OnExcept (Stop.Fits P) (fun r => r.2.Holds P) (s.operandKey cl o acc va) := by
  unfold State.operandKey
  split
  · next heq => exact h.checked.of_error heq
  · split
    · exact h.redirect
    · exact trivial

theorem State.Holds.readPieces [Kept P] {s : State} (h : s.Holds P) {p cl : Nat} {o : EngOp} {rot i : Nat} {l : List (Word × Nat × Nat)} :
    OnExcept (Stop.Fits P) (fun r => r.2.Holds P) (State.readPieces p cl o rot i l s) := by
  induction l generalizing s with
  | nil => exact h
  | cons e l ih =>
    unfold State.readPieces
    split
    · next heq => exact h.operandKey.of_error heq
    · next heq =>
      have h0 := h.operandKey.of_ok heq
      split
      · next heq2 => exact State.Holds.readAt h0 |>.of_held heq2
      · trivial
      · trivial
      · next heq2 =>
        have h1 := (State.Holds.readAt h0).of_val heq2
        split
        · next heq3 => exact (ih (State.Holds.pending h1)).of_error heq3
        · next r s2 heq3 => exact (ih (State.Holds.pending h1)).of_ok (a := (r, s2)) heq3

theorem State.Holds.operand [Kept P] {s : State} (h : s.Holds P) {p cl : Nat} {o : EngOp} {base : Word} {rot : Nat} {d1 : Word} {i off n : Nat} :
    OnExcept (Stop.Fits P) (fun r => r.2.Holds P) (State.operand p cl o base rot d1 i off n s) :=
  h.readPieces

theorem State.Holds.weightRow [Kept P] {s : State} (h : s.Holds P) {p cl : Nat} {o : EngOp} {term j k0 k1 : Nat} :
    OnExcept (Stop.Fits P) (fun r => r.2.Holds P) (State.weightRow p cl o term j k0 k1 s) := by
  unfold State.weightRow
  extract_lets w base rot d1 soff moff scales body
  have hscales {t : State} (ht : t.Holds P) : OnExcept (Stop.Fits P) (fun r => r.2.Holds P) (scales t) := by
    dsimp only [scales]
    split
    · exact ht.operand
    · exact ht
  have hbody {t : State} (ht : t.Holds P) (lo hi : Nat) : OnExcept (Stop.Fits P) (fun r => r.2.2.Holds P) (body t lo hi) := by
    dsimp only [body]
    split
    · next heq => exact (hscales ht).of_error heq
    · next heq =>
      have h1 := (hscales ht).of_ok heq
      split
      · next heq2 => exact (State.Holds.operand h1).of_error heq2
      · next heq2 => exact (State.Holds.operand h1).of_ok heq2
  split
  · split
    · next heq => exact h.operand.of_error heq
    · next heq =>
      have h1 := h.operand.of_ok heq
      dsimp only
      split
      · exact trivial
      · split
        · next heq2 => exact (hbody h1 _ _).of_error heq2
        · next heq2 => exact (hbody h1 _ _).of_ok heq2
  · split
    · next heq => exact (hbody h _ _).of_error heq
    · next heq => exact (hbody h _ _).of_ok heq

theorem State.Holds.forRows [Kept P] {s : State} (h : s.Holds P) {α : Type} {f : Nat → State → Except Stop (α × State)} {l : List Nat}
    (hf : ∀ i t, t.Holds P → OnExcept (Stop.Fits P) (fun r => r.2.Holds P) (f i t)) :
    OnExcept (Stop.Fits P) (fun r => r.2.Holds P) (forRows f l s) := by
  induction l generalizing s with
  | nil => exact h
  | cons i l ih =>
    unfold Machine.forRows
    split
    · next heq => exact (hf i s h).of_error heq
    · next heq =>
      have h1 := (hf i s h).of_ok heq
      split
      · next heq2 => exact (ih h1).of_error heq2
      · next r s2 heq2 => exact (ih h1).of_ok (a := (r, s2)) heq2

theorem State.Holds.words32 [Kept P] {s : State} (h : s.Holds P) {p cl : Nat} {o : EngOp} {base : Word} {rot : Nat} {d1 : Word}
    {u : Unit1} {i : Nat} :
    OnExcept (Stop.Fits P) (fun r => r.2.Holds P) (State.words32 p cl o base rot d1 u i s) := by
  dsimp only [State.words32]
  split
  · next heq => exact h.operand.of_error heq
  · next heq => exact h.operand.of_ok heq

theorem State.Holds.startAcc [Kept P] {s : State} (h : s.Holds P) {p cl : Nat} {o : EngOp} {u : Unit1} :
    OnExcept (Stop.Fits P) (fun r => r.2.Holds P) (State.startAcc p cl o u s) := by
  unfold State.startAcc
  split
  · split
    · next heq => exact (h.forRows fun _ _ ht => ht.words32).of_error heq
    · next r s1 heq => exact (h.forRows fun _ _ ht => ht.words32).of_ok (a := (r, s1)) heq
  · exact h

theorem State.Holds.combUnit [Kept P] {s : State} (h : s.Holds P) {p cl : Nat} {o : EngOp} {u : Unit1} {acc : List (List (BitVec 32))} :
    OnExcept (Stop.Fits P) (fun r => r.2.Holds P) (State.combUnit p cl o u acc s) := by
  dsimp only [State.combUnit]
  split
  · next heq => exact (h.forRows fun _ _ ht => ht.forRows fun _ _ hu => hu.words32).of_error heq
  · next heq => exact (h.forRows fun _ _ ht => ht.forRows fun _ _ hu => hu.words32).of_ok heq

theorem State.Holds.macUnit [Kept P] {s : State} (h : s.Holds P) {p cl arows : Nat} {o : EngOp} {u : Unit1} {acc : List (List (BitVec 32))} :
    OnExcept (Stop.Fits P) (fun r => r.2.Holds P) (State.macUnit p cl arows o u acc s) := by
  unfold State.macUnit
  extract_lets k0 k1
  split
  split
  · next heq => exact (h.forRows fun _ _ ht => ht.weightRow).of_error heq
  · next ws s1 heq =>
    have h1 : s1.Holds P := (h.forRows fun _ _ ht => ht.weightRow).of_ok (a := (ws, s1)) heq
    split
    · next heq2 => exact (h1.forRows fun _ _ ht => ht.operand).of_error heq2
    · next as s2 heq2 => exact (h1.forRows fun _ _ ht => ht.operand).of_ok (a := (as, s2)) heq2

theorem State.Holds.cKeys [Kept P] {s : State} (h : s.Holds P) {cl : Nat} {o : EngOp} {rot i : Nat} {l : List (Word × Nat × Nat)} :
    OnExcept (Stop.Fits P) (fun r => r.2.Holds P) (State.cKeys cl o rot i l s) := by
  induction l generalizing s with
  | nil => exact h
  | cons e l ih =>
    unfold State.cKeys
    split
    · next heq => exact h.operandKey.of_error heq
    · next heq =>
      have h1 := h.operandKey.of_ok heq
      split
      · next heq2 => exact (State.Holds.wakeFirst h1).of_some heq2
      · split
        · next heq2 => exact (ih h1).of_error heq2
        · next r s2 heq2 => exact (ih h1).of_ok (a := (r, s2)) heq2

theorem State.Holds.writePieces [Kept P] {s : State} (h : s.Holds P) {p ten : Nat} {l : List (Nat × Nat)} {bs : List Byte} :
    (State.writePieces p ten l bs s).Holds P := by
  induction l generalizing s bs with
  | nil => exact h
  | cons e l ih => exact ih h.writeNow

theorem State.Holds.writeC [Kept P] {s : State} (h : s.Holds P) {p cl : Nat} {o : EngOp} {u : Unit1} {acc : List (List (BitVec 32))} {bad : List
    (Nat × Nat)} :
    OnExcept (Stop.Fits P) (State.Holds P) (State.writeC p cl o u acc bad s) := by
  dsimp only [State.writeC]
  split
  · next heq => exact (h.forRows fun _ _ ht => ht.cKeys).of_error heq
  · next keys s1 heq =>
    have h1 : s1.Holds P := (h.forRows fun _ _ ht => ht.cKeys).of_ok heq
    exact State.Holds.rest (State.Holds.foldl h1 fun _ _ ht => ht.writePieces)

theorem State.Holds.runUnit [Kept P] {s : State} (h : s.Holds P) {p cl : Nat} {m : MatOp} :
    OnExcept (Stop.Fits P) (fun r => r.2.Holds P) (State.runUnit p cl m s) := by
  unfold State.runUnit
  extract_lets o ar u first last
  have hstart : OnExcept (Stop.Fits P) (fun r => r.2.Holds P) (if first then s.startAcc p cl o u else .ok (m.acc, s)) := by
    split
    · exact h.startAcc
    · exact h
  split
  · next heq => exact hstart.of_error heq
  · next acc s1 heq =>
    have h1 : s1.Holds P := hstart.of_ok heq
    have hrun : OnExcept (Stop.Fits P) (fun r => r.2.Holds P) (if o.comb then s1.combUnit p cl o u acc else s1.macUnit p cl ar o u acc) := by
      split
      · exact h1.combUnit
      · exact h1.macUnit
    split
    · next heq2 => exact hrun.of_error heq2
    · next r s2 heq2 =>
      have h2 : s2.Holds P := hrun.of_ok heq2
      split
      · split
        · next heq3 => exact h2.writeC.of_error heq3
        · next heq3 => exact h2.writeC.of_ok heq3
      · exact h2

theorem State.Holds.statusKey [Kept P] {s : State} (h : s.Holds P) {cl : Nat} {o : EngOp} {recd : Word} :
    OnExcept (fun _ => True) (fun r => r.2.Holds P) (s.statusKey cl o recd) := by
  dsimp only [State.statusKey]
  split
  · exact trivial
  · exact trivial
  · split
    · exact trivial
    · exact h.installNow.redirect

theorem State.Holds.statusWaits [Kept P] {s : State} (h : s.Holds P) {cl : Nat} {o : EngOp} {recd : Word} :
    OnSome (State.Holds P) (s.statusWaits cl o recd) := by
  unfold State.statusWaits
  split
  · next k snd heq =>
      exact h.wakeFirst
  · exact trivial

theorem State.Holds.putStatus [Kept P] {s : State} (h : s.Holds P) {p cl : Nat} {o : EngOp} {recd v : Word} {rels : Rels} :
    (s.putStatus p cl o recd v rels).2.Holds P := by
  unfold State.putStatus
  split
  · exact h
  · next k s1 heq =>
      exact (h.statusKey.of_ok heq).writeNow

theorem State.Holds.putStatusSay [Kept P] {s : State} (h : s.Holds P) {p cl : Nat} {o : EngOp} {recd v : Word} {rels : Rels} :
    (s.putStatusSay p cl o recd v rels).Holds P := by
  unfold State.putStatusSay
  split
  · next c t s' heq =>
      exact (h.putStatus.of_snd heq).opFault
  · next s' heq =>
      exact h.putStatus.of_snd heq

theorem State.Holds.modRun [Kept P] {s : State} (h : s.Holds P) {cl a : Nat} {m : MatOp} : (s.modRun cl a m).Holds P := h.modCluster

theorem State.Holds.matParty [Kept P] {s : State} (h : s.Holds P) {cl a : Nat} {m : MatOp} : (s.matParty cl a m).2.Holds P := by
  unfold State.matParty
  split
  · exact h
  · exact h.rest

theorem State.Holds.matDone [Kept P] {s : State} (h : s.Holds P) {p : Nat} {m : MatOp} : (s.matDone p m).2.Holds P := by
  unfold State.matDone
  split
  · exact h
  · exact h.rest

theorem State.Holds.runMatrix [Kept P] {s : State} (h : s.Holds P) {cluster array : Nat} : (s.runMatrix cluster array).Holds P := by
  unfold State.runMatrix
  split
  · exact h
  · next m _ =>
    split
    · exact h
    · split
      · next s' heq =>
        obtain ⟨a, -, ha⟩ := Option.bind_eq_some_iff.mp heq
        exact h.statusWaits.of_some ha
      · split
        next p s0 heq =>
        have h0 : s0.Holds P := h.matParty.of_snd heq
        split
        · next heq2 => exact State.Holds.holdUnit (State.Holds.matDone (h0.runUnit.of_error heq2))
        · next heq2 => exact State.Holds.matDone (h0.runUnit.of_error heq2)
        · exact h.forgetAnswer.modRun.opFault
        · next r s1 heq2 =>
          have h1 : s1.Holds P := h0.runUnit.of_ok heq2
          split
          next rel s2 heq3 =>
          have h2 : s2.Holds P := h1.matDone.of_snd heq3
          extract_lets _ m1 s3 s4
          have h3 : s3.Holds P := h2.modRun
          have h4 : s4.Holds P := h3.noteFlag.ite h3
          split
          · exact h4.putStatusSay
          · exact h4

theorem State.Holds.execMatrixUnitComplete [Kept P] {s : State} (h : s.Holds P) {cluster array : Nat} :
    Out1.Fits P (execMatrixUnitComplete cluster array s) :=
  h.runMatrix

theorem State.Holds.swapIn [Kept P] {s : State} (h : s.Holds P) {cl a : Nat} : (s.swapIn cl a).Holds P := by
  dsimp only [State.swapIn]
  split
  · exact h.ite h.passMarkers.modCluster
  · exact h

theorem State.Holds.execMatrixOpComplete [Kept P] {s : State} (h : s.Holds P) {cluster array : Nat} :
    Out1.Fits P (execMatrixOpComplete cluster array s) := by
  unfold Machine.execMatrixOpComplete
  split
  · exact h
  · split
    · exact h
    · split
      · next heq =>
        obtain ⟨a, -, ha⟩ := Option.bind_eq_some_iff.mp heq
        exact h.statusWaits.of_some ha
      · extract_lets o v q s1 rel s2
        have h1 : s1.Holds P := h.modCluster
        have h2 : s2.Holds P := by
          dsimp only [s2]
          split
          · exact h1.putStatusSay
          · exact h1.completeOp
        exact h2.sendDecr.swapIn

theorem State.Holds.schRead [Kept P] {s : State} (h : s.Holds P) {cl : Nat} {t : TileTask} {l : List (Word × Nat)} :
    OnExcept (Stop.Fits P) (fun r => r.2.2.Holds P) (State.schRead cl t l s) := by
  induction l generalizing s with
  | nil => exact h
  | cons e l ih =>
    unfold State.schRead
    dsimp only
    split
    · next heq => exact h.checked.of_error heq
    · split
      · exact trivial
      · split
        · next heq => exact h.redirect.readParts.of_held heq
        · exact trivial
        · exact trivial
        · next heq =>
          have h1 := h.redirect.readParts.of_val heq
          split
          · next heq2 => exact (ih h1).of_error heq2
          · next r rels2 s2 heq2 => exact (ih h1).of_ok (a := (r, rels2, s2)) heq2

theorem State.Holds.depState [Kept P] {s : State} (h : s.Holds P) {cl : Nat} {t : TileTask} {ds : List Word} :
    Deps.Fits P (State.depState cl t ds s) := by
  induction ds generalizing s with
  | nil => exact h
  | cons d ds ih =>
    unfold State.depState
    split
    · exact ih h
    · split
      · trivial
      · next heq => exact h.schRead.of_error heq
      · next heq => exact h.schRead.of_error heq
      · next bs rels s1 heq =>
        have h1 : s1.Holds P := h.schRead.of_ok heq
        dsimp only
        split
        · trivial
        · next heq2 => exact (ih h1).of_held heq2
        · split
          · exact h1
          · trivial
        · next heq2 => exact (ih h1).of_wait heq2
        · next heq2 =>
          have h2 := (ih h1).of_done heq2
          split
          · exact h2
          · split
            · trivial
            · exact h2

theorem State.Holds.judge [Kept P] {s : State} (h : s.Holds P) {cl : Nat} {t : TileTask} : Ripe.Fits P (State.judge cl t s) := by
  unfold State.judge
  split
  · next heq => exact h.schRead.of_error heq
  · next heq => exact h.schRead.of_error heq
  · trivial
  · next bs rels s1 heq =>
    have h1 : s1.Holds P := h.schRead.of_ok heq
    dsimp only
    split
    · next heq2 => exact h1.depState.of_wait heq2
    · next heq2 => exact h1.depState.of_held heq2
    · trivial
    · trivial
    · next heq2 =>
      split
      · trivial
      · exact h1.depState.of_done heq2

theorem State.Holds.ripe [Kept P] {s : State} (h : s.Holds P) {cl : Nat} {t : TileTask} : Ripe.Fits P (State.ripe cl t s) := h.acquireIds.judge

/-- The look at the oldest ripe record of a list: a record that only waits is passed over with the machine that its look left. -/
theorem State.Holds.oldestRipe [Kept P] {s : State} (h : s.Holds P) {cl : Nat} {ts : List TileTask} :
    OnExcept (State.Holds P) (fun r => r.2.Fits P) (State.oldestRipe cl ts s) := by
  induction ts generalizing s with
  | nil => exact h
  | cons t ts ih =>
    unfold State.oldestRipe
    split
    · exact ih h
    · split
      · next heq => exact ih (h.ripe.of_wait heq)
      · exact h.ripe

theorem State.Holds.takeRecord [Kept P] {s0 : State} (h : s0.Holds P) {cluster a : Nat} {t : TileTask} {r : Ripe} (hr : r.Fits P) :
    (s0.takeRecord cluster a t r).Holds P := by
  unfold State.takeRecord
  extract_lets p o left s3
  have hl {u : State} (hu : u.Holds P) : (left u).Holds P := State.Holds.modCluster hu.rest
  split
  · exact hr
  · exact State.Holds.holdUnit hr
  · split
    · next heq => exact h.statusWaits.of_some heq
    · extract_lets s4
      have h3 : s3.Holds P := (hl h).forgetAnswer.putStatus
      have h4 : s4.Holds P := by
        dsimp only [s4]
        split
        · exact h3.opFault
        · exact h3
      exact h4.sendDecr
  · split
    · next heq => exact h.statusWaits.of_some heq
    · next s1 _ _ =>
      have h1 : s1.Holds P := hr
      exact (hl h1).putStatusSay.modCluster.swapIn

theorem State.Holds.dispatchTask [Kept P] {s : State} (h : s.Holds P) {cluster : Nat} : (s.dispatchTask cluster).Holds P := by
  unfold State.dispatchTask
  extract_lets s0
  have h0 : s0.Holds P := h.swapIn.swapIn
  split
  · exact h0
  · split
    · exact h0
    · split
      · next t r heq => exact h0.takeRecord (h0.oldestRipe.of_ok heq)
      · next heq => exact h0.oldestRipe.of_error heq

theorem State.Holds.execTileTaskDispatch [Kept P] {s : State} (h : s.Holds P) {cluster : Nat} : Out1.Fits P (execTileTaskDispatch cluster s) :=
  h.dispatchTask

/-! ## Links -/

theorem State.Holds.moveHop [Kept P] {s : State} (h : s.Holds P) {id : Nat} : (s.moveHop id).Holds P := by
  unfold State.moveHop
  split
  · exact h
  · split
    · exact h
    · exact h.ite (h.modFlight.depart.ite (h.modFlight.ite h))

theorem State.Holds.moveMesh [Kept P] {s : State} (h : s.Holds P) : (s.moveMesh).Holds P := h.foldl fun _ _ h1 => h1.moveHop

/-! ## Wake -/

theorem State.Holds.serving [Kept P] {s : State} (h : s.Holds P) {f : Flight} : (s.serving f).Holds P := by
  unfold State.serving
  split
  · exact h.rest
  · exact h

theorem State.Holds.resumeUnit [Kept P] {s : State} (h : s.Holds P) {f : Flight} {q : EngQueue} {part : Nat} : (s.resumeUnit f q part).Holds P := by
  unfold State.resumeUnit
  extract_lets _ s1 s2
  have hd : (s.dropFlight f.id).Holds P := h.dropFlight
  have h1 : s1.Holds P := hd.rest
  have h2 : s2.Holds P := by
    dsimp only [s2]
    split
    · exact h1.runCopy
    · exact h1.runCopy
    · exact h1.runTasks.ite h1.dispatchTask
    · exact h1.runMatrix
    · exact h1
  exact h2.rest

theorem State.Holds.msgRedirect [Kept P] {s : State} (h : s.Holds P) {f : Flight} {ws : List Word} : (s.msgRedirect f ws).2.Holds P := h.redirect

theorem State.Holds.performHeld [Kept P] {s : State} (h : s.Holds P) {f : Flight} : (s.performHeld f).Holds P := by
  unfold State.performHeld
  split
  · exact h.performLoad
  · exact h.performStore
  · exact h.serving.performAtomic
  · exact h.serving.performCbar
  · exact h.serving.performCell (fun _ _ _ _ _ h1 => h1.cellOp)
  · exact h.serving.performCell (fun _ _ _ _ _ h1 => h1.cellOp)
  · exact h.serving.performCell (fun _ _ _ _ _ h1 => h1.cellOp)
  · exact (h.serving.performCell (fun _ _ _ _ _ h1 => h1.bindOp)).bindOver
  · exact h.landResult
  · exact h.landCopy
  · exact h.landEntry
  · exact h.resumeUnit
  · exact h.landFetch
  · exact h.dropFlight.applyStores
  · split
    next k s1 heq =>
    have h1 : s1.Holds P := h.serving.msgRedirect.of_snd heq
    split
    · exact h1.storeMsg
    · exact h1.loadMsg
    · exact h1.atomicMsg
    · exact h1.decrMsg
    · exact h
  · exact h

theorem State.Holds.spoilBank [Kept P] {s : State} (h : s.Holds P) {core bank : Nat} : (s.spoilBank core bank).Holds P := h.rest

theorem State.Holds.execBankWakeComplete [Kept P] {s : State} (h : s.Holds P) {core : Nat} {wake : WakeEnd} :
    Out1.Fits P (execBankWakeComplete core wake s) := by
  unfold Machine.execBankWakeComplete
  extract_lets bank s0 s1 held s2 due s3
  split
  · exact h
  · have h0 : s0.Holds P := h.modCore fun c => (c.shadows_setBank bank 2).le
    have h1 : s1.Holds P := h0.spoilBank.ite h0
    have h2 : s2.Holds P := h1.foldl fun t f ht => by
      split
      · exact ht.performHeld
      · exact ht
    have h3 : s3.Holds P := h2.modCore
    exact (h3.foldl fun _ _ ht => ht.bankEvent).applyAll

/-! ## Turn -/

theorem State.Holds.issuing [Kept P] {s : State} (h : s.Holds P) {r : SlotRef} {w : BitVec 32} : (s.issuing r w).Holds P := by
  unfold State.issuing
  extract_lets p s1 s2
  have h1 : s1.Holds P := h.modCore
  have h2 : s2.Holds P := h1.modSlot.ite h1
  exact h2.rest

theorem State.Holds.planSlot [Kept P] {s : State} (h : s.Holds P) {r : SlotRef} : (s.planSlot r).2.Holds P := by
  dsimp only [State.planSlot]
  split
  · exact h
  · split
    · exact h.rest
    · split
      · exact h
      · split
        · next w t heq =>
            split
            · exact (h.fetchWord.of_word heq).issuing
            · exact (h.fetchWord.of_word heq).issuing
        · exact h.issuing
        · exact h.wantWalk
        · exact h
        · exact h.wake.holdFetch

theorem State.Holds.endHints [Kept P] {s : State} (h : s.Holds P) {core : Nat} : (s.endHints core).Holds P := by
  unfold State.endHints
  exact h.ite (h.modCore.foldl fun _ _ h1 => h1.bankEvent)

theorem State.Holds.pass [Lasting P] {s : State} (h : s.Holds P) {n : Nat} : (s.pass n).Holds P :=
  Lasting.time (P := P) (s := { s.pass n with cycle := s.cycle }) (State.Holds.mapAll h rfl rfl) rfl rfl

theorem State.Holds.cycleEnd [Kept P] {s : State} (h : s.Holds P) : (s.cycleEnd).Holds P := by
  unfold State.cycleEnd
  exact (h.landDeposits.foldl fun _ _ h1 => h1.endHints).settleHalts.latchAll.foldl fun _ _ h1 => h1.makeOffers.endLogs

theorem State.Holds.cycleOver [Lasting P] {s : State} (h : s.Holds P) : (s.cycleOver).Holds P := by
  unfold State.cycleOver
  exact (h.cycleEnd.moveMesh.pass.foldl fun _ _ h1 => h1.bankStart).applyAll

theorem State.Holds.tick [Lasting P] {s : State} (h : s.Holds P) {n : Nat} : (s.tick n).Holds P := by
  induction n generalizing s with
  | zero => exact h
  | succ n ih =>
    unfold State.tick
    exact h.pass.ite (ih h.cycleOver)

/-! ## Dispatch -/

/-- Every instruction and event keeps the capacities. -/
theorem State.Holds.exec [Lasting P] {s : State} (h : s.Holds P) {i : Instr} : Out1.Fits P (exec i s) := by
  unfold Machine.exec
  cases i with
  | add => exact h.alu2
  | sub => exact h.alu2
  | mul => exact h.alu2p
  | mulh => exact h.alu2p
  | mulhu => exact h.alu2p
  | div => exact h.alu2p
  | divu => exact h.alu2p
  | rem => exact h.alu2p
  | remu => exact h.alu2p
  | and => exact h.alu2
  | or => exact h.alu2
  | xor => exact h.alu2
  | andn => exact h.alu2
  | orn => exact h.alu2
  | sll => exact h.alu2
  | srl => exact h.alu2
  | sra => exact h.alu2
  | rol => exact h.alu2
  | ror => exact h.alu2
  | slt => exact h.alu2
  | sltu => exact h.alu2
  | min => exact h.alu2
  | max => exact h.alu2
  | minu => exact h.alu2
  | maxu => exact h.alu2
  | clz => exact h.alu1
  | ctz => exact h.alu1
  | popc => exact h.alu1
  | sext => exact h.alu2
  | bext => exact h.alu2
  | bins => exact h.issue (fun _ h1 => h1.setD)
  | addi => exact h.aluI
  | andi => exact h.aluI
  | ori => exact h.aluI
  | xori => exact h.aluI
  | slti => exact h.aluI
  | sltiu => exact h.aluI
  | slli => exact h.aluI
  | srli => exact h.aluI
  | srai => exact h.aluI
  | rori => exact h.aluI
  | lui => exact h.issue (fun _ h1 => h1.setD)
  | luh => exact h.issue (fun _ h1 => h1.setD)
  | adpc => exact h.issue (fun _ h1 => h1.setD)
  | beq => exact h.branch
  | bne => exact h.branch
  | blt => exact h.branch
  | bge => exact h.branch
  | bltu => exact h.branch
  | bgeu => exact h.branch
  | j => exact h.jump
  | jal => exact h.issue (fun _ h1 => h1.jump)
  | jr => exact h.jumpReg
  | jalr => exact h.jumpReg
  | ld => exact h.execLd
  | st => exact h.execSt
  | rld => exact h.execRld
  | rst => exact h.execRst
  | aadd => exact h.atomic
  | aand => exact h.atomic
  | aor => exact h.atomic
  | axor => exact h.atomic
  | amin => exact h.atomic
  | amax => exact h.atomic
  | aminu => exact h.atomic
  | amaxu => exact h.atomic
  | aswp => exact h.atomic
  | acas => exact h.atomic
  | afadd => exact h.atomic
  | fence => exact h.fence.done.ite h
  | qfence => exact h.execQfence
  | cbar => exact h.execCbar
  | gbar => exact h.trap.ite h.startDrain
  | waitfe => exact h.issue (fun _ h1 => h1.done)
  | sete => exact h.issue (fun _ h1 => h1.done)
  | mbw => exact h.issue (fun _ h1 => h1.done)
  | mbr => exact h.issue (fun _ h1 => h1.setD)
  | send => exact h.execSend
  | mcst => exact h.execMcst
  | mseq => exact h.execMseq
  | post => exact h.execPost
  | frel => exact h.execFrel
  | fdstat => exact h.needs (fun _ h1 => h1.issue (fun _ h2 => h2.trap.ite h2.produce))
  | ewr => exact h.execEwr
  | erd => exact h.readRegister
  | erdAct => exact h.readRegister
  | ego => exact h.execEgo
  | ewait => exact h.execEwait
  | estat => exact h.execEstat
  | ttq => exact h.execTtq
  | spawn => exact h.execSpawn
  | susp => exact h.needs (fun _ h1 => h1.trap.ite h1.startDrain)
  | await => exact h.needs (fun _ h1 => h1.trap.ite (h1.issue (fun _ h2 => h2.startDrain)))
  | decr => exact h.execDecr
  | halt => exact h.needs (fun _ h1 => h1.startDrain)
  | haltRt => exact h.needs (fun _ h1 => h1.startDrain.ite (h1.issue (fun _ h2 => h2.startDrain)))
  | taskq => exact h.execTaskq
  | lnch => exact h.execLnch
  | wid => exact h.needs (fun _ h1 => h1.issue (fun _ h2 => h2.setD))
  | bank => exact h.needs (fun _ h1 => h1.trap.ite (h1.ite h1.hintDue.done))
  | bstat => exact h.needs (fun _ h1 => h1.issue (fun _ h2 => h2.setD))
  | csrr => exact h.csrOp
  | csrw => exact h.csrOp
  | csrs => exact h.csrOp
  | csrc => exact h.csrOp
  | ptrootWrite => exact h.setPtroot
  | tvecWrite => exact h.setTvec
  | vaddF => exact h.rowIssue
  | vsubF => exact h.rowIssue
  | vmulF => exact h.rowIssue
  | vdiv => exact h.rowIssue
  | vfma => exact h.rowIssue
  | vfms => exact h.rowIssue
  | vminF => exact h.rowIssue
  | vmaxF => exact h.rowIssue
  | vabsF => exact h.rowIssue
  | vnegF => exact h.rowIssue
  | vsqrt => exact h.rowIssue
  | vscl => exact h.rowIssue
  | vcpys => exact h.rowIssue
  | vceqF => exact h.rowIssue
  | vcltF => exact h.rowIssue
  | vcle => exact h.rowIssue
  | vaddI => exact h.rowIssue
  | vsubI => exact h.rowIssue
  | vmulI => exact h.rowIssue
  | vmulh => exact h.rowIssue
  | vadds => exact h.rowIssue
  | vsubs => exact h.rowIssue
  | vminI => exact h.rowIssue
  | vmaxI => exact h.rowIssue
  | vminu => exact h.rowIssue
  | vmaxu => exact h.rowIssue
  | vceqI => exact h.rowIssue
  | vcltI => exact h.rowIssue
  | vcltu => exact h.rowIssue
  | vshl => exact h.rowIssue
  | vshr => exact h.rowIssue
  | vsra => exact h.rowIssue
  | vabsI => exact h.rowIssue
  | vnegI => exact h.rowIssue
  | vand => exact h.rowIssue
  | vor => exact h.rowIssue
  | vxor => exact h.rowIssue
  | vsel => exact h.rowIssue
  | vperm => exact h.rowIssue
  | vbcst => exact h.rowIssue
  | vins => exact h.rowIssue
  | vext => exact h.rowIssue
  | vrev => exact h.rowIssue
  | vzipH => exact h.rowIssue
  | vzipW => exact h.rowIssue
  | vuzpH => exact h.rowIssue
  | vuzpW => exact h.rowIssue
  | vpark => exact h.rowIssue
  | vunpk => exact h.rowIssue
  | vrep => exact h.execVrep
  | vcvt => exact h.rowIssue
  | vpack => exact h.rowIssue
  | vwiden => exact h.rowIssue
  | vcvtB => exact h.rowIssue
  | vcvtef => exact h.rowIssue
  | vrsum => exact h.rowIssue
  | vrmax => exact h.rowIssue
  | vrmin => exact h.rowIssue
  | vdotF32 => exact h.rowIssue
  | vdotBf16 => exact h.rowIssue
  | vdotF16 => exact h.rowIssue
  | vdotI16 => exact h.rowIssue
  | vdotI8 => exact h.rowIssue
  | vdotwBf16 => exact h.rowIssue
  | vdotwF16 => exact h.rowIssue
  | vdotwI16 => exact h.rowIssue
  | vdotwI8 => exact h.rowIssue
  | vsprs => exact h.rowIssue
  | vsexp => exact h.rowIssue
  | vsdot => exact h.rowIssue
  | trap => exact h.trap
  | brk => exact h.trap
  | nop => exact h.done
  | pref => exact h.execPref
  | bhint => exact h.done
  | yield => exact h.execYield
  | tret => exact h.execTret
  | ctxsave => exact h.execCtxsave
  | ctxload => exact h.execCtxload
  | migr => exact h.execMigr
  | gstop => exact h.execGstop
  | tlbinv => exact h.execTlbinv
  | tlbinva => exact h.execTlbinva
  | kzero => exact h.sec (fun _ _ h1 => h1.ite h1.zeroKey.done)
  | kload => exact h.sec (fun _ _ h1 => h1.rest.secAnswer.ite h1.secAnswer)
  | scrub => exact h.execScrub
  | tnassign => exact h.execTnassign
  | tnfree => exact h.execTnfree
  | tnstat => exact h.sec (fun _ _ h1 => h1.produce)
  | resultLands => exact h.execResultLands
  | sequencerExecute => exact h.execSequencerExecute
  | strandDrainEnd => exact h.execStrandDrainEnd
  | bankWakeComplete => exact h.execBankWakeComplete
  | deposit => exact h.execDeposit
  | remoteAccess => exact h.execRemoteAccess
  | atomicPerform => exact h.execAtomicPerform
  | cellDecr => exact h.execCellDecr
  | cellTaskq => exact h.execCellTaskq
  | cellAwait => exact h.execCellAwait
  | haltRtBind => exact h.execHaltRtBind
  | cbarArrival => exact h.execCbarArrival
  | enqueueArrival => exact h.execEnqueueArrival
  | taskPrefetch => exact h.execTaskPrefetch
  | queueDoorbell => exact h.modQueue.ite h
  | headerFetch => exact h.execHeaderFetch
  | launchAccept => exact h.execLaunchAccept
  | lnchHeaderRead => exact h.execLnchHeaderRead
  | launchDeal => exact h.execLaunchDeal
  | persistAdmit => exact h.execPersistAdmit
  | runListPop => exact h.execRunListPop
  | memoryCorePop => exact h.execMemoryCorePop
  | agePromotion => exact h.execAgePromotion
  | launchComplete => exact h.execLaunchComplete
  | foldOffer => exact h.execFoldOffer
  | foldClaim => exact h.claimStage
  | foldPost => exact h.execFoldPost
  | logRefill => exact h.execLogRefill
  | foldCommitTake => exact h.execFoldCommitTake
  | foldCompletionAction => exact h.execFoldCompletionAction
  | adaptChange => exact h.execAdaptChange
  | engineOpStart => exact h.execEngineOpStart
  | tileTaskDispatch => exact h.execTileTaskDispatch
  | matrixUnitComplete => exact h.execMatrixUnitComplete
  | matrixOpComplete => exact h.execMatrixOpComplete
  | copyComplete => exact h.execCopyComplete
  | streamComplete => exact h.execStreamComplete
  | taskEngineComplete => exact h.execTaskEngineComplete
  | walkComplete => exact h.execWalkComplete
  | hostRequestFail => exact h.execHostRequestFail
  | asyncTrap => exact h.execAsyncTrap
  | watchdogPre => exact h.execWatchdogPre
  | watchdogKill => exact h.execWatchdogKill
  | watchdogFence => exact h.execWatchdogFence
  | sliceSwitch => exact h.execSliceSwitch
  | clusterIdle => exact h.execClusterIdle
  | stealRequest => exact h.execStealRequest
  | stealAnswer => exact h.execStealAnswer
  | stealBackoffExpiry => exact h.execStealBackoffExpiry
  | seepLineLand => exact h.execSeepLineLand
  | ctxsaveComplete => exact h.execCtxsaveComplete
  | migrationRestore => exact h.execMigrationRestore
  | forwardRetire => exact h.execForwardRetire
  | coreStop => exact h.execCoreStop
  | gstopComplete => exact h.execGstopComplete
  | handlerMessageArrival => exact h.execHandlerMessageArrival
  | builtinStore => exact h.execBuiltinStore
  | builtinLoad => exact h.execBuiltinLoad
  | builtinAtomic => exact h.execBuiltinAtomic
  | builtinPost => exact h.execBuiltinPost
  | builtinDecr => exact h.execBuiltinDecr
  | sendAck => exact h.execSendAck
  | mcstStamp => exact h.execMcstStamp
  | mcstStampReturn => exact h.execMcstStampReturn
  | multicastStoreArrival => exact h.execMulticastStoreArrival
  | gapplyReport => exact h.execGapplyReport
  | sluiceGReport => exact h.execSluiceGReport
  | resendRequest => exact h.execResendRequest
  | memberLoss => exact h.execMemberLoss
  | sequencerFailover => exact h.execSequencerFailover
  | operationTimeout => exact h.execOperationTimeout
  | meshFlitResend => exact h.execMeshFlitResend
  | delmelFrameReceive => exact h.execDelmelFrameReceive
  | portRetrain => exact h.execPortRetrain
  | regionRestitch => exact h.ite (h.rest.ite h.rest.logMgmt)
  | qstatusWrite => exact h.modQueue.ite h
  | tsliceWrite => exact h.execTsliceWrite
  | pwrcapWrite => exact h.execPwrcapWrite
  | pwgtWrite => exact h.ite (h.modTenant.ite (h.modTenant.ite h))
  | registerWrite => exact h.execRegisterWrite
  | mboxAssign => exact h.execMboxAssign
  | mboxFree => exact h.mboxAccept (fun _ h1 => h1.mboxAnswer.ite (h1.mboxAnswer.ite h1.rest.modTenant))
  | mboxShare => exact h.execMboxShare
  | mboxPart => exact h.execMboxPart
  | mboxLife => exact h.mboxAccept (fun _ h1 => h1.mboxAnswer.ite h1.mboxAnswer)
  | configWrite => exact h.tdiError.ite h
  | bar2UnprotectedRequest => exact h.execBar2UnprotectedRequest
  | getVersion => exact h.spdmReq (fun _ h1 => h1.modSpdm.spdmAnswer)
  | getCapabilities => exact h.spdmReq (fun _ h1 => h1.modSpdm.spdmAnswer)
  | negotiateAlgorithms => exact h.spdmReq (fun _ h1 => h1.modSpdm.spdmAnswer.ite h1.spdmAnswer)
  | getDigests => exact h.spdmReq (fun _ h1 => h1.spdmAnswer)
  | getCertificate => exact h.spdmReq (fun _ h1 => h1.spdmAnswer)
  | challenge => exact h.spdmReq (fun _ h1 => h1.spdmAnswer)
  | getMeasurements => exact h.spdmReq (fun _ h1 => h1.spdmAnswer.ite h1.rest)
  | keyExchange => exact h.spdmReq (fun _ h1 => h1.spdmAnswer.ite h1.modSpdm.spdmAnswer)
  | finish => exact h.spdmReq (fun _ h1 => h1.modSpdm.spdmAnswer)
  | keyUpdate => exact h.spdmReq (fun _ h1 => h1.spdmAnswer)
  | endSession => exact h.spdmReq (fun _ h1 => h1.modSpdm.spdmAnswer)
  | vendorDefinedRequest => exact h.execVendorDefinedRequest
  | securedMessage => exact h.execSecuredMessage
  | lockInterface => exact h.modTenant.spdmAnswer.ite h.spdmAnswer
  | ideKm => exact h.spdmReq (fun _ h1 => h1.modSpdm.spdmAnswer)
  | coldReset => exact State.Holds.coldBoot
  | warmReset => exact State.Holds.execWarmReset
  | recoveryImagePush => exact State.Holds.bootWith.ite h
  | scrubChunkComplete => exact h.execScrubChunkComplete
  | patrolRead => exact h.execPatrolRead
  | keyIntegrityCheck => exact h.execKeyIntegrityCheck
  | lifetimeHourTick => exact h.execLifetimeHourTick
  | illegalInstruction => exact h.execIllegalInstruction
  | fetchFault => exact h.execFetchFault
  | tdispStartInterface => exact h.modTenant.spdmAnswer.ite h.spdmAnswer

/-! ## Choice -/

theorem State.Holds.planIssue [Kept P] {s : State} (h : s.Holds P) {r : SlotRef} : (s.planIssue r).2.Holds P := by
  dsimp only [State.planIssue]
  split
  · exact h.modCore.planSlot
  · exact h

theorem State.Holds.noteReady [Kept P] {s : State} (h : s.Holds P) : (s.noteReady).Holds P := h.mapCores (hf := fun _ => by split <;> exact le_rfl)

theorem State.Holds.planTick [Lasting P] {s : State} (h : s.Holds P) {ts : List Turn} {x : Nat} : (s.planTick ts x).2.Holds P := by
  dsimp only [State.planTick]
  split
  · exact h.rest
  · split
    · exact h.rest.planIssue
    · exact h.noteReady.tick.rest

theorem State.Holds.planIdle [Lasting P] {s : State} (h : s.Holds P) : (s.planIdle).2.Holds P := by
  dsimp only [State.planIdle]
  split
  · exact h.rest
  · split
    · split
      · exact h.rest.planIssue
      · exact h.rest
    · exact h.rest.noteReady.tick

theorem State.Holds.planEvent [Kept P] {s : State} (h : s.Holds P) {i : Instr} : (s.planEvent i).2.Holds P := by
  unfold State.planEvent
  split <;> exact h

theorem State.Holds.plan [Lasting P] {s : State} (h : s.Holds P) : (s.plan).2.Holds P := by
  unfold State.plan
  split
  · exact h.planIdle
  · exact h.rest.planIssue
  · exact h.rest.planIssue
  · exact h.rest.planEvent
  · exact h.rest.planEvent
  · exact h.planTick

/-! ## Step -/

/-- Every event that a turn may choose keeps the capacities. -/
def EventsFit (P : State → Prop) (l : List (State → Out1)) : Prop := ∀ f ∈ l, ∀ t : State, t.Holds P → Out1.Fits P (f t)

section
variable {α : Type} {f : State → Out1} {l m : List (State → Out1)}

theorem EventsFit.nil : EventsFit P [] := fun _ h => absurd h List.not_mem_nil

theorem EventsFit.cons (hf : ∀ t : State, t.Holds P → Out1.Fits P (f t)) (hl : EventsFit P l) : EventsFit P (f :: l) :=
  fun g hg => (List.mem_cons.mp hg).elim (fun e => e ▸ hf) (hl g)

theorem EventsFit.one (hf : ∀ t : State, t.Holds P → Out1.Fits P (f t)) : EventsFit P [f] := .cons hf .nil

theorem EventsFit.append (hl : EventsFit P l) (hm : EventsFit P m) : EventsFit P (l ++ m) :=
  fun g hg => (List.mem_append.mp hg).elim (hl g) (hm g)

theorem EventsFit.ite {c : Prop} {d : Decidable c} (hl : EventsFit P l) (hm : EventsFit P m) : EventsFit P (if c then l else m) := by
  split <;> assumption

theorem EventsFit.map {l : List α} {f : α → State → Out1} (hf : ∀ a (t : State), t.Holds P → Out1.Fits P (f a t)) : EventsFit P (l.map f) := by
  intro g hg
  obtain ⟨a, -, rfl⟩ := List.mem_map.mp hg
  exact hf a

theorem EventsFit.flatMap {l : List α} {f : α → List (State → Out1)} (hf : ∀ a, EventsFit P (f a)) : EventsFit P (l.flatMap f) := by
  intro g hg
  obtain ⟨a, -, hg⟩ := List.mem_flatMap.mp hg
  exact hf a g hg

end

theorem Flight.move_fits [Lasting P] (f : Flight) : EventsFit P f.move.toList := by
  have land : ∀ t : State, t.Holds P → Out1.Fits P ((match f.seep with
      | some n => execSeepLineLand f.who.core n
      | none => execResultLands f.id) t) := by
    cases f.seep with
    | some n => exact fun _ h => h.execSeepLineLand
    | none => exact fun _ h => h.execResultLands
  unfold Flight.move
  extract_lets l
  split
  · exact .one land
  · exact .one fun _ h => h.execResultLands
  · exact .one land
  · exact .one land
  · exact .one fun _ h => h.execRemoteAccess
  · refine .one ?_
    split
    · exact fun _ h => h.execDeposit
    · exact fun _ h => h.execRemoteAccess
  · exact .one fun _ h => h.execAtomicPerform
  · exact .one fun _ h => h.execCellDecr
  · exact .one fun _ h => h.execCellTaskq
  · exact .one fun _ h => h.execCellAwait
  · exact .one fun _ h => h.execHaltRtBind
  · exact .one fun _ h => h.execCbarArrival
  · exact .one fun _ h => h.execFoldPost
  · intro g hg
    have hg := List.mem_singleton.mp hg
    split at hg <;> subst hg
    · exact fun _ h => h.execBuiltinStore
    · exact fun _ h => h.execBuiltinLoad
    · exact fun _ h => h.execBuiltinAtomic
    · exact fun _ h => h.execBuiltinPost
    · exact fun _ h => h.execBuiltinDecr
    · exact fun _ h => h.execHandlerMessageArrival
  · exact .one fun _ h => h.execSendAck
  · exact .one fun _ h => h.execMcstStamp
  · exact .one fun _ h => h.execMcstStampReturn
  · exact .one fun _ h => h.execMulticastStoreArrival
  · exact .one fun _ h => h.execEnqueueArrival
  · exact .one fun _ h => h.execEnqueueArrival
  · exact .one fun _ h => h.execEnqueueArrival
  · exact .one fun _ h => h.execLnchHeaderRead
  · exact .one fun _ h => h.execCtxsaveComplete
  · exact .one fun _ h => h.execMigrationRestore
  · next cores _ =>
    cases cores with
    | nil => exact .nil
    | cons c cs => exact .one fun _ h => h.execCoreStop
  · exact .one fun _ h => h.execGstopComplete
  · exact .nil
  · exact .nil
  · exact .nil

theorem Flight.events_fit [Lasting P] (f : Flight) : EventsFit P f.events :=
  .append (.ite .nil f.move_fits) (.ite .nil (.one fun _ h => h.execOperationTimeout))

theorem Core.events_fit [Lasting P] (c : Core) (k : Nat) : EventsFit P (c.events k) := by
  unfold Core.events
  refine .append (.append (.append (.append (.append (.append (.append ?_ ?_) ?_) ?_) ?_) ?_) ?_) ?_
  · exact .map fun _ _ h => h.execBankWakeComplete
  · exact .map fun _ _ h => h.execStrandDrainEnd
  · exact .ite .nil (.one fun _ h => h.execSequencerExecute)
  · exact .ite .nil (.ite (.cons (fun _ h => h.execEngineOpStart) (.one fun _ h => h.execCopyComplete))
      (.cons (fun _ h => h.execEngineOpStart) (.one fun _ h => h.execStreamComplete)))
  · exact .ite .nil (.one fun _ h => h.execMemoryCorePop)
  · exact .ite .nil (.ite (.one fun _ h => h.execRunListPop) (.one fun _ h => h.execMemoryCorePop))
  · exact .map fun _ _ h => h.execTaskPrefetch
  · exact .map fun _ _ h => h.execForwardRetire

theorem Cluster.events_fit [Lasting P] (c : Cluster) (k : Nat) (parts : Nat → List Nat) : EventsFit P (c.events k parts) := by
  unfold Cluster.events
  refine .append (.append (.append (.append (.append (.append (.append (.append ?_ ?_) ?_) ?_) ?_) ?_) ?_) ?_) ?_
  · exact .flatMap fun _ => .append (.ite (.one fun _ h => h.execFoldOffer) .nil) (.ite (.one fun _ h => h.execFoldCompletionAction) .nil)
  · exact .ite .nil (.map fun _ _ h => h.execAgePromotion)
  · exact .ite .nil (.one fun _ h => h.execRunListPop)
  · exact .ite .nil (.one fun _ h => h.execSliceSwitch)
  · exact .cons (fun _ h => h.execClusterIdle) (.cons (fun _ h => h.execStealRequest) (.cons (fun _ h => h.execStealAnswer)
      (.one fun _ h => h.execStealBackoffExpiry)))
  · exact .ite .nil (.cons (fun _ h => h.execEngineOpStart) (.one fun _ h => h.execTaskEngineComplete))
  · split
    · exact .nil
    · exact .cons (fun _ h => h.execEngineOpStart) (.map fun _ _ h => h.execFoldCommitTake)
  · exact .ite .nil (.one fun _ h => h.execTileTaskDispatch)
  · exact .flatMap fun _ => .append (.ite .nil (.one fun _ h => h.execEngineOpStart))
      (.ite .nil (.cons (fun _ h => h.execMatrixUnitComplete) (.one fun _ h => h.execMatrixOpComplete)))

theorem Tenant.events_fit [Lasting P] (t : Tenant) (v : Nat) : EventsFit P (t.events v) := by
  unfold Tenant.events
  refine .append (.append ?_ ?_) ?_
  · exact .map fun _ _ h => h.execHeaderFetch
  · exact .ite .nil (.one fun _ h => h.execLaunchAccept)
  · exact .flatMap fun _ => .cons (fun _ h => h.execWatchdogPre) (.cons (fun _ h => h.execWatchdogKill) (.one fun _ h => h.execWatchdogFence))

theorem Group.events_fit [Lasting P] (g : Group) (k now dev : Nat) : EventsFit P (g.events k now dev) := by
  unfold Group.events
  refine .ite .nil (.append (.append ?_ ?_) ?_)
  · exact .cons (fun _ h => h.execGapplyReport) (.one fun _ h => h.execResendRequest)
  · exact .ite (.one fun _ h => h.execSluiceGReport) .nil
  · exact .map fun _ _ h => h.execMemberLoss

theorem Launch.events_fit [Lasting P] (l : Launch) : EventsFit P l.events :=
  .append (.ite (.one fun _ h => h.execPersistAdmit) (.map fun _ _ h => h.execLaunchDeal)) (.ite (.one fun _ h => h.execLaunchComplete) .nil)

theorem State.events_fit [Lasting P] (s : State) : EventsFit P s.events := by
  unfold State.events
  refine .append (.append (.append (.append (.append (.append ?_ ?_) ?_) ?_) ?_) ?_) ?_
  · exact .map fun _ _ h => h.execWalkComplete
  · exact .flatMap Flight.events_fit
  · exact .flatMap fun g => g.2.events_fit _ _ _
  · exact .flatMap fun c => c.2.events_fit _
  · exact .flatMap fun c => c.2.events_fit _ _
  · exact .flatMap fun t => t.2.events_fit _
  · exact .flatMap Launch.events_fit

/-- The event that a turn chooses, if it chooses one, keeps the capacities. -/
def Todo.Fits (P : State → Prop) : Todo → Prop
  | .event f => ∀ t : State, t.Holds P → Out1.Fits P (f t)
  | _ => True

theorem State.planSlot_fits [Lasting P] (s : State) (r : SlotRef) : (s.planSlot r).1.Fits P := by
  unfold State.planSlot
  extract_lets x
  split
  · trivial
  · split
    · exact fun _ h => h.execAsyncTrap
    · split
      · trivial
      · split
        · split
          · trivial
          · exact fun _ h => h.execIllegalInstruction
        · exact fun _ h => h.execFetchFault
        · trivial
        · trivial
        · trivial

theorem State.planIssue_fits [Lasting P] (s : State) (r : SlotRef) : (s.planIssue r).1.Fits P := by
  unfold State.planIssue
  extract_lets ready
  split
  · exact State.planSlot_fits _ r
  · trivial

theorem State.planTick_fits [Lasting P] (s : State) (ts : List Turn) (n : Nat) : (s.planTick ts n).1.Fits P := by
  unfold State.planTick
  split
  · trivial
  · split
    · exact State.planIssue_fits _ _
    · trivial

theorem State.planIdle_fits [Lasting P] (s : State) : s.planIdle.1.Fits P := by
  unfold State.planIdle
  extract_lets evs s1
  split
  · next heq => exact s.events_fit _ (List.mem_of_getElem? heq)
  · split
    · split
      · exact State.planIssue_fits _ _
      · trivial
    · trivial

theorem State.planEvent_fits [Lasting P] (s : State) (i : Instr) : (s.planEvent i).1.Fits P := by
  unfold State.planEvent
  split <;> trivial

theorem State.plan_fits [Lasting P] (s : State) : s.plan.1.Fits P := by
  unfold State.plan
  split
  · exact s.planIdle_fits
  · exact State.planIssue_fits _ _
  · exact State.planIssue_fits _ _
  · exact State.planEvent_fits _ _
  · exact State.planEvent_fits _ _
  · exact s.planTick_fits _ _

theorem State.Holds.step [Lasting P] {s : State} (h : s.Holds P) : Out1.Fits P (step s) := by
  have fits : s.plan.1.Fits P := s.plan_fits
  unfold Machine.step
  split
  · exact trivial
  · split
    · next heq => exact (h.plan.of_snd heq).exec
    · next f t heq =>
      rw [heq] at fits
      exact fits t (h.plan.of_snd heq)
    · next heq => exact h.plan.of_snd heq


end

end Sys2Proof.Machine

open Sys2Proof Sys2Proof.Machine

/-- Settles O59: the capacities last (`lasting_capacities`), and a step has what lasts (`State.Holds.step`). -/
theorem everyStepKeepsTheCapacities : Obligations.EveryStepKeepsTheCapacities := by
  intro s t h e
  have := lasting_capacities
  have fits : Out1.Fits State.Capacities (step s) := State.Holds.step h
  rw [e] at fits
  exact fits
end

section
/-! PROOFS. Prefetched tasks (R32): a bad packet whose task has entered the run list. -/

namespace Sys2Proof.Machine

/-- The first byte of the scratch of core 0: a task packet of firmware stands there, all of its words 0, so that its header breaks R30. -/
def zeroPacket : Word := wd chipBit

/-- A device of one cluster. The task of `zeroPacket` has entered the run list; the fall of its count to 1 still waits to be prefetched. Scratch
bank 0 of core 0, which holds the packet, is Full. -/
def fallAfterEntry : State :=
  { capunits := 1#64
    cores := [(0, { b0 := setFld 0#64 33 32 2, falls := [(zeroPacket, 0)] })]
    clusters := [(0, { banks := [{ work := .task zeroPacket, prio := 0, stamp := 0, ten := 0, queue := 0 }] :: List.replicate 7 [] })] }

end Sys2Proof.Machine

open Sys2Proof Sys2Proof.Machine

/-- Refutes O37: the last clause says that a fall whose packet has a bad header leaves a bad task in a shadow slot of its core. Of
`fallAfterEntry` it does not: the task has entered the run list before its fall is fetched, and `State.dropBad` then takes its entry out
of the run list and keeps nothing in a shadow slot. (The clause lacks the hypothesis that no entry of the run list has the task.) -/
theorem not_popsAdmissionsAndPrefetches : ¬ Obligations.PopsAdmissionsAndPrefetches := by
  unfold Obligations.PopsAdmissionsAndPrefetches
  intro h
  obtain ⟨-, -, -, -, prefetch⟩ := h
  let s : State := fallAfterEntry
  obtain ⟨-, bad⟩ := prefetch s 0 0 zeroPacket (by decide +kernel) rfl (by decide +kernel)
    ⟨by decide +kernel, by decide +kernel, by decide +kernel, by decide +kernel, fun w hw => absurd hw List.not_mem_nil, by decide +kernel⟩
  obtain ⟨t, hexec, ⟨e, he, -⟩, -⟩ := bad (by decide +kernel)
  have none : ∀ u, exec (.taskPrefetch 0 zeroPacket) s = .next u → (u.core 0).tasks = [] := by
    intro u hu
    rw [← Host.Outcome.next.inj hu]
    decide +kernel
  rw [none t hexec] at he
  exact absurd he List.not_mem_nil
end

section
/-! PROOFS. Turns: which slot a core chooses (R22), what a turn executes (R86, R215, R341, R347), and what a cycle leaves. -/

namespace Sys2Proof.Machine

/-! ## The choice of a slot (R22) -/

/-- Turning from any slot, the four slots come round to slot `n`. -/
theorem find?_rotation {n : Nat} (l : Nat) (hn : n < 4) :
    ((List.range 4).map fun i => (l + 1 + i) % 4).find? (fun m => [n].contains m) = some n := by
  have found : (((List.range 4).map fun i => (l + 1 + i) % 4).find? (fun m => [n].contains m)).isSome := by
    rw [List.find?_isSome]
    refine ⟨n, List.mem_map.mpr ⟨(n + 3 * (l + 1)) % 4, ?_, ?_⟩, by simp⟩
    · exact List.mem_range.mpr (Nat.mod_lt _ (by omega))
    · omega
  obtain ⟨m, hm⟩ := Option.isSome_iff_exists.mp found
  have : m = n := by simpa using List.find?_some hm
  rw [hm, this]

/-- A slot that alone is ready is chosen. -/
theorem Core.choose_singleton (c : Core) (now : Nat) {n : Nat} (hn : n < 4) : c.choose now [n] = some n := by
  unfold Core.choose
  by_cases waits : c.issuedAt.get now n + 12 ≤ now
  · simp [waits]
  · simp only [List.find?_cons, waits, decide_false, List.find?_nil]
    simpa using find?_rotation (c.last.get 3 (stPrio (c.slot n).st)) hn

/-- A slot that alone is ready has the turn, even when it has yielded. -/
theorem Core.turnOf_singleton (c : Core) (now : Nat) {n : Nat} (hn : n < 4) : c.turnOf now [n] = some n := by
  unfold Core.turnOf
  rw [c.choose_singleton now hn]
  have nobody : c.choose now [] = none := by simp [Core.choose]
  simp [nobody]

/-- Among the four slots, the one that the turn names and the ready ones: just that one when no other is ready. -/
theorem filter_ready_singleton {k : Nat} {ready : Nat → Bool} (hk : k < 4) (alone : ∀ n < 4, n ≠ k → ready n = false) :
    (List.range 4).filter (fun n => n == k || ready n) = [k] := by
  have same : (List.range 4).filter (fun n => n == k || ready n) = (List.range 4).filter (fun n => n == k) := by
    refine List.filter_congr fun n hn => ?_
    by_cases h : n = k
    · simp [h]
    · simp [alone n (List.mem_range.mp hn) h]
  have one : ∀ k < 4, (List.range 4).filter (fun n => n == k) = [k] := by decide
  rw [same, one k hk]

/-! ## The turn of a slot -/

/-- A machine that is not in recovery is not stuck. -/
theorem State.stuck_of_recovery {s : State} (h : s.recovery = false) : s.stuck = false := by simp [State.stuck, h]

/-- A machine in recovery with one of recovery's events next is not stuck. -/
theorem State.stuck_of_event {s : State} {i : Instr} {v : List Nat} {p : Nat} {ts : List Turn}
    (ha : (s.agenda = .event i :: ts ∧ v = [0] ∧ p = 0) ∨ s.agenda = .eventAt i v p :: ts) (h : s.recovery = false ∨ inRecovery i = true) :
    s.stuck = false := by
  rcases h with h | h
  · exact State.stuck_of_recovery h
  · rcases ha with ⟨ha, -⟩ | ha <;> simp [State.stuck, ha, h]

/-- What a turn does once it is known what it executes. -/
def Todo.run : Todo × State → Host.Outcome State Fault Refusal
  | (.word i, t) => exec i t
  | (.event f, t) => f t
  | (.over, t) => .next t

/-- A machine that is not stuck does what its plan says. -/
theorem step_eq_run {s : State} (h : s.stuck = false) : step s = Todo.run s.plan := by
  unfold step
  rw [if_neg (by simp [h])]
  rcases s.plan with ⟨_ | _ | _, t⟩ <;> rfl

/-- The plan of an agenda that names a slot. -/
theorem State.plan_issue {s : State} {r : SlotRef} {v : List Nat} {ts : List Turn}
    (ha : (s.agenda = .issue r :: ts ∧ v = [0]) ∨ s.agenda = .issueAt r v :: ts) :
    s.plan = ({ s with agenda := ts, view := v, part := 0 } : State).planIssue r := by
  rcases ha with ⟨ha, rfl⟩ | ha <;> simp only [State.plan, ha]

/-- The plan of an agenda that names an event. -/
theorem State.plan_event {s : State} {i : Instr} {v : List Nat} {p : Nat} {ts : List Turn}
    (ha : (s.agenda = .event i :: ts ∧ v = [0] ∧ p = 0) ∨ s.agenda = .eventAt i v p :: ts) :
    s.plan = ({ s with agenda := ts, view := v, part := p } : State).planEvent i := by
  rcases ha with ⟨ha, rfl, rfl⟩ | ha <;> simp only [State.plan, ha]

/-- An event takes place; what is no event is over. -/
theorem State.run_planEvent (s : State) (i : Instr) : Todo.run (s.planEvent i) = if isEvent i then exec i s else .next s := by
  unfold State.planEvent
  split <;> rfl

/-- The slots among which a core chooses in the turn of a slot: that slot and those that are ready. -/
def State.readyIn (s : State) (r : SlotRef) : List Nat := (List.range 4).filter fun n => n == r.slot || s.readySlot r.core n

theorem State.planIssue_chosen {s : State} {r : SlotRef} (h : (s.core r.core).turnOf s.cycle (s.readyIn r) = some r.slot) :
    s.planIssue r = (s.modCore r.core fun c => c.turned s.cycle (s.readyIn r)).planSlot r := by
  unfold State.planIssue
  exact if_pos h

theorem State.planIssue_passed {s : State} {r : SlotRef} (h : (s.core r.core).turnOf s.cycle (s.readyIn r) ≠ some r.slot) :
    s.planIssue r = (.over, s) := by
  unfold State.planIssue
  exact if_neg h

theorem State.planSlot_waits {s : State} {r : SlotRef} (h : s.mayTurn r = false) : s.planSlot r = (.over, s) := by
  simp [State.planSlot, h]

theorem State.planSlot_boundary {s : State} {r : SlotRef} (h : s.mayTurn r = true) (due : s.boundaryDue r = true) :
    s.planSlot r = (.event (execAsyncTrap r.core r.slot), { s with cur := r }) := by
  simp [State.planSlot, h, due]

theorem State.planSlot_held {s : State} {r : SlotRef} (h : s.mayTurn r = true) (due : s.boundaryDue r = false)
    (held : (s.slot r).drain.isSome = true ∨ (s.core r.core).issued = some s.cycle) : s.planSlot r = (.over, s) := by
  have : ((s.slot r).drain.isSome || (s.core r.core).issued == some s.cycle) = true := by simpa using held
  simp only [State.planSlot, h, due, this]
  rfl

/-- What a slot does whose turn it is and which fetches: by what its fetch answers. -/
def State.fetched (s : State) (r : SlotRef) : Fetched → Todo × State
  | .word w t => match decode w with
    | some i => (.word i, t.issuing r w)
    | none => (.event (execIllegalInstruction w), t.issuing r w)
  | .bad c t => (.event (execFetchFault c t), s.issuing r 0#32)
  | .miss => (.over, s.wantWalk r (s.slot r).pc .fetch)
  | .own => (.over, s)
  | .wake core b k => (.over, (s.wake core b).holdFetch r (s.slot r).pc k)

theorem State.planSlot_fetches {s : State} {r : SlotRef} (h : s.mayTurn r = true) (due : s.boundaryDue r = false)
    (drains : (s.slot r).drain = none) (issued : (s.core r.core).issued ≠ some s.cycle) :
    s.planSlot r = s.fetched r (s.fetchWord r (s.slot r).pc) := by
  have : ((s.slot r).drain.isSome || (s.core r.core).issued == some s.cycle) = false := by simpa [drains] using issued
  simp only [State.planSlot, h, due, this]
  cases s.fetchWord r (s.slot r).pc with
  | word w t => cases hd : decode w <;> simp [State.fetched, hd]
  | bad c v => rfl
  | miss => rfl
  | own => rfl
  | wake core b k => rfl

/-! ## The fetch of a word -/

/-- A slot that has fetched a word has entered its code. -/
def Fetched.entered (r : SlotRef) : Fetched → Fetched
  | .word w t => .word w (t.entered r)
  | o => o

/-- A slot whose latch does not hold the address fetches from memory, and has then entered its code. -/
theorem State.fetchWord_of_not_latched {s : State} {r : SlotRef} {pc : Word} (h : ∀ e ∈ (s.slot r).latch, e.1 ≠ pc) :
    s.fetchWord r pc = (s.fetchAt r pc).entered r := by
  have nothing : (s.slot r).latch.find? (fun e => e.1 == pc) = none := by
    rw [List.find?_eq_none]
    intro e he
    simpa using h e he
  unfold State.fetchWord
  rw [nothing]
  cases s.fetchAt r pc <;> rfl

/-! ## The machine in which a slot issues -/

/-- An update of a core that leaves its slots leaves every slot. -/
theorem State.slot_modCore (s : State) (k : Nat) {f : Core → Core} (hf : ∀ c, (f c).slots = c.slots) (q : SlotRef) :
    (s.modCore k f).slot q = s.slot q := by
  by_cases h : q.core = k
  · subst h
    simp [State.slot, State.modCore, Core.slot, hf]
  · simp [State.slot, State.modCore, State.core_setCore_ne _ _ h]

/-- Any other slot reads what it read. -/
theorem State.slot_modSlot_ne (s : State) {r q : SlotRef} (f : Slot → Slot) (h : q ≠ r) : (s.modSlot r f).slot q = s.slot q :=
  s.slot_setSlot_ne _ h

/-- A slot of a core is updated. -/
theorem State.slot_modSlot_same (s : State) {r : SlotRef} (f : Slot → Slot) (h : r.slot < 4) : (s.modSlot r f).slot r = f (s.slot r) :=
  s.slot_setSlot_same r _ h

/-- A core has no slot beyond its four: what stands for one is an empty slot. -/
theorem State.slot_of_not_lt (s : State) {r : SlotRef} (h : ¬ r.slot < 4) : s.slot r = {} := by
  simp [State.slot, Core.slot, Vector.toList, h]

/-- A core notes which of its slots issues, and when. -/
def State.noteIssue (s : State) (r : SlotRef) : State :=
  s.modCore r.core fun c =>
    { c with last := c.last.put (stPrio (s.slot r).st) r.slot, issuedAt := c.issuedAt.put r.slot s.cycle, issued := some s.cycle }

/-- To issue leaves every slot, but that an armed one notes where its step begins. -/
theorem State.issuing_cores (s : State) (r : SlotRef) (w : BitVec 32) :
    (s.issuing r w).cores =
      (if (s.slot r).armed then (s.noteIssue r).modSlot r fun x => { x with stepFrom := s.fresh } else s.noteIssue r).cores := rfl

theorem State.slot_noteIssue (s : State) (r q : SlotRef) : (s.noteIssue r).slot q = s.slot q := by
  unfold State.noteIssue
  exact s.slot_modCore _ (by exact fun _ => rfl) q

/-- The slots of a machine are those of its cores. -/
theorem State.slot_congr {s t : State} (h : t.cores = s.cores) (q : SlotRef) : t.slot q = s.slot q := by
  simp [State.slot, State.core, h]

/-- The slot that issues is as it was, but that an armed one notes where its step began. -/
theorem State.issuing_slot_same (s : State) (r : SlotRef) (w : BitVec 32) :
    (s.issuing r w).slot r = if (s.slot r).armed then { s.slot r with stepFrom := s.fresh } else s.slot r := by
  rw [State.slot_congr (s.issuing_cores r w)]
  by_cases armed : (s.slot r).armed = true
  · have four : r.slot < 4 := by
      by_contra h
      rw [s.slot_of_not_lt h] at armed
      exact absurd armed (by decide)
    rw [if_pos armed, if_pos armed, State.slot_modSlot_same _ _ four, State.slot_noteIssue]
  · rw [if_neg armed, if_neg armed, State.slot_noteIssue]

/-- The other slots are as they were. -/
theorem State.issuing_slot_ne (s : State) {r q : SlotRef} (w : BitVec 32) (h : q ≠ r) : (s.issuing r w).slot q = s.slot q := by
  rw [State.slot_congr (s.issuing_cores r w)]
  split
  · rw [State.slot_modSlot_ne _ _ h, State.slot_noteIssue]
  · exact s.slot_noteIssue r q

/-- Memory is as it was. -/
theorem State.issuing_mem (s : State) (r : SlotRef) (w : BitVec 32) : (s.issuing r w).mem = s.mem := by
  change (if (s.slot r).armed then (s.noteIssue r).modSlot r fun x => { x with stepFrom := s.fresh } else s.noteIssue r).mem = s.mem
  split
  · rfl
  · rfl

/-- The program counter and the registers of the slot that issues are as they were. -/
theorem State.issuing_sl (s : State) (r : SlotRef) (w : BitVec 32) :
    (s.issuing r w).sl.pc = (s.slot r).pc ∧ ∀ q, (s.issuing r w).sl.rd q = (s.slot r).rd q := by
  have hsl : (s.issuing r w).sl = if (s.slot r).armed then { s.slot r with stepFrom := s.fresh } else s.slot r := s.issuing_slot_same r w
  rw [hsl]
  split
  · exact ⟨rfl, fun _ => rfl⟩
  · exact ⟨rfl, fun _ => rfl⟩

/-! ## A cycle passes -/

/-- One cycle moves the clock by one: nothing that takes place at its end or its beginning does, but the passing of the cycle itself. -/
theorem State.cycleOver_cycle (s : State) : s.cycleOver.cycle = s.cycle + 1 := by
  have ended : s.cycleEnd.moveMesh.cycle = s.cycle := by
    have := kept_cycle s.cycle
    have atStart : s.Holds (fun t => t.cycle = s.cycle) := rfl
    exact atStart.cycleEnd.moveMesh
  have passed : (s.cycleEnd.moveMesh.pass 1).cycle = s.cycle + 1 := congrArg (· + 1) ended
  have := kept_cycle (s.cycle + 1)
  have begun : (s.cycleEnd.moveMesh.pass 1).Holds (fun t => t.cycle = s.cycle + 1) := passed
  exact (begun.foldl fun _ _ h => h.bankStart).applyAll

/-- A tick of one cycle moves the clock by one. -/
theorem State.tick_one_cycle (s : State) : (s.tick 1).cycle = s.cycle + 1 := by
  unfold State.tick
  split
  · rfl
  · exact s.cycleOver_cycle

/-- A tick of a calm machine leaves memory. -/
theorem State.tick_mem_of_calm {s : State} (n : Nat) (h : s.calm = true) : (s.tick n).mem = s.mem := by
  cases n with
  | zero => rfl
  | succ n =>
    unfold State.tick
    rw [if_pos h]
    rfl

/-- Noting which slots are ready calms no machine and stirs none. -/
theorem State.noteReady_calm (s : State) : s.noteReady.calm = s.calm := by
  have due : s.noteReady.cores.all (fun c => c.2.due.isEmpty) = s.cores.all (fun c => c.2.due.isEmpty) := by
    unfold State.noteReady
    rw [List.all_map]
    refine List.all_congr rfl fun c => ?_
    simp only [Function.comp]
    split <;> rfl
  unfold State.calm
  rw [due]
  rfl

/-- The slot that is overdue is one that its core picks, and the core has not issued. -/
theorem State.overdue_some {s : State} {r : SlotRef} (h : s.overdue = some r) : (s.core r.core).issued ≠ some s.cycle := by
  unfold State.overdue at h
  obtain ⟨c, -, hc⟩ := List.mem_filterMap.mp (List.mem_of_head? h)
  dsimp only at hc
  split at hc
  · exact absurd hc nofun
  · next idle =>
    unfold State.pickSlot at hc
    obtain ⟨n, -, rfl⟩ := Option.map_eq_some_iff.mp hc
    intro issued
    exact idle (by simp [issued])

end Sys2Proof.Machine

open Sys2Proof Sys2Proof.Machine

/-- Settles O55: a step does what its plan says (`step_eq_run`), and the plan of each turn is the decoded word, the boundary event or nothing. -/
theorem aStepRunsTheDecodedWord : Obligations.AStepRunsTheDecodedWord := by
  refine ⟨?turn, ?fetch, ?issuing, ?event, ?tick⟩
  case turn =>
    intro s r v ts agenda awake u ready
    have run : step s = Todo.run (u.planIssue r) := by rw [step_eq_run (State.stuck_of_recovery awake), State.plan_issue agenda]
    refine ⟨fun four alone => ?_, fun passed => ?_, ?_⟩
    · rw [show ready = [r.slot] from filter_ready_singleton four alone]
      exact Core.turnOf_singleton _ _ four
    · rw [run, State.planIssue_passed passed]
      rfl
    · intro chosen x pc
      replace run : step s = Todo.run (x.planSlot r) := by rw [run, State.planIssue_chosen chosen]; rfl
      refine ⟨fun waits => ?_, fun may due => ?_, fun may due held => ?_, fun may due drains issued => ?_⟩
      · rw [run, State.planSlot_waits waits]
        rfl
      · rw [run, State.planSlot_boundary may due]
        rfl
      · rw [run, State.planSlot_held may due held]
        rfl
      · replace run : step s = Todo.run (x.fetched r (x.fetchWord r pc)) := by rw [run, State.planSlot_fetches may due drains issued]
        refine ⟨fun w i t answer known => ?_, fun w t answer unknown => ?_, fun c t answer => ?_, fun answer => ?_, fun answer => ?_,
          fun core b k answer => ?_⟩
        · rw [run, answer]
          simp only [State.fetched, known]
          rfl
        · rw [run, answer]
          simp only [State.fetched, unknown]
          rfl
        all_goals
          rw [run, answer]
          rfl
  case fetch =>
    intro s r pc latched
    rw [State.fetchWord_of_not_latched latched]
    refine ⟨fun w t answer => by rw [answer]; rfl, fun o answer other => ?_⟩
    rw [answer]
    cases o with
    | word w t => exact absurd rfl (other w t)
    | bad c t => rfl
    | miss => rfl
    | own => rfl
    | wake core b k => rfl
  case issuing =>
    intro s r w
    obtain ⟨hpc, hrd⟩ := s.issuing_sl r w
    refine ⟨rfl, rfl, s.issuing_mem r w, hpc, hrd, fun q other => s.issuing_slot_ne w other, fun unarmed => ?_⟩
    exact (s.issuing_slot_same r w).trans (by rw [unarmed]; rfl)
  case event =>
    intro s i v p ts agenda may
    rw [step_eq_run (State.stuck_of_event agenda may), State.plan_event agenda, State.run_planEvent]
  case tick =>
    intro s n ts agenda awake
    have run : step s = Todo.run (s.planTick ts (n + 1)) := by
      rw [step_eq_run (State.stuck_of_recovery awake)]
      simp only [State.plan, agenda]
    refine ⟨fun nobody => ⟨{ s.noteReady.tick 1 with agenda := if n = 0 then ts else .tick n :: ts }, ?_, ?_, rfl, fun calm => ?_⟩,
      fun r overdue => ⟨State.overdue_some overdue, ?_⟩⟩
    · rw [run]
      simp only [State.planTick, nobody]
      rfl
    · exact s.noteReady.tick_one_cycle
    · exact State.tick_mem_of_calm 1 (s.noteReady_calm.trans calm)
    · rw [run, step_eq_run (s := { s with agenda := .issue r :: s.agenda }) (State.stuck_of_recovery awake)]
      simp only [State.planTick, overdue]
      rfl
end

section
/-! PROOFS. What a report, the freeing of a slot and the killing of a queue leave: launches, host queues and the reports made before. -/

namespace Sys2Proof.Machine

/-- A fact about every value of a table holds of its values when each is put through a function that keeps it. -/
theorem AMap.get_map_of {α : Type} {Q : α → Prop} {d : α} {m : AMap α} {f : Nat × α → α} {k : Nat} (hf : ∀ e, Q e.2 → Q (f e))
    (h : Q (AMap.get d m k)) : Q (AMap.get d (m.map fun e => (e.1, f e)) k) := by
  induction m with
  | nil => exact h
  | cons e m ih =>
    simp only [List.map_cons, AMap.get] at h ⊢
    split
    · next same => exact hf e (by rwa [if_pos same] at h)
    · next other => exact ih (by rwa [if_neg other] at h)

/-! ## Tenants -/

@[simp] theorem State.tenant_modTenant_same (s : State) (v : Nat) (f : Tenant → Tenant) : (s.modTenant v f).tenant v = f (s.tenant v) :=
  AMap.get_put_same ..

theorem State.tenant_modTenant_ne (s : State) {v u : Nat} (f : Tenant → Tenant) (h : u ≠ v) : (s.modTenant v f).tenant u = s.tenant u :=
  AMap.get_put_ne _ _ _ h

/-- What an update of a tenant leaves of it, it leaves of every tenant. -/
theorem State.tenant_modTenant_congr {α : Type} (s : State) (v : Nat) {f : Tenant → Tenant} {g : Tenant → α} (hf : ∀ t, g (f t) = g t) (u : Nat) :
    g ((s.modTenant v f).tenant u) = g (s.tenant u) := by
  by_cases h : u = v
  · rw [h, State.tenant_modTenant_same, hf]
  · rw [State.tenant_modTenant_ne _ _ h]

/-- A host queue that is updated. -/
@[simp] theorem State.queue_modQueue_same (s : State) (v q : Nat) (f : HQueue → HQueue) :
    ((s.modQueue v q f).tenant v).queues.get {} q = f ((s.tenant v).queues.get {} q) := by
  unfold State.modQueue
  rw [State.tenant_modTenant_same]
  exact AMap.get_put_same ..

/-- The other host queues of the tenant. -/
theorem State.queue_modQueue_ne (s : State) (v : Nat) {q p : Nat} (f : HQueue → HQueue) (h : p ≠ q) :
    ((s.modQueue v q f).tenant v).queues.get {} p = (s.tenant v).queues.get {} p := by
  unfold State.modQueue
  rw [State.tenant_modTenant_same]
  exact AMap.get_put_ne _ _ _ h

/-! ## What is left beside -/

/-- From `s` to `t` no launch and no host queue has changed, no core has got out of its fence, and no report is lost. -/
structure State.Beside (s t : State) : Prop where
  launches : t.launches = s.launches
  queues : ∀ v, (t.tenant v).queues = (s.tenant v).queues
  fenced : ∀ k, (s.core k).fenced = true → (t.core k).fenced = true
  reports : s.reports ⊆ t.reports

namespace State.Beside

variable {s t u : State}

theorem refl (s : State) : s.Beside s := ⟨rfl, fun _ => rfl, fun _ h => h, fun _ h => h⟩

theorem trans (h : s.Beside t) (g : t.Beside u) : s.Beside u :=
  ⟨g.launches.trans h.launches, fun v => (g.queues v).trans (h.queues v), fun k f => g.fenced k (h.fenced k f),
    fun _ m => g.reports (h.reports m)⟩

/-- An update of other fields. -/
theorem of_eq (hl : t.launches = s.launches := by rfl) (ht : t.tenants = s.tenants := by rfl) (hc : t.cores = s.cores := by rfl)
    (hr : t.reports = s.reports := by rfl) : s.Beside t :=
  ⟨hl, fun v => by simp [State.tenant, ht], fun k f => by simpa [State.core, hc] using f, fun _ m => by rwa [hr]⟩

theorem modCore (s : State) (k : Nat) {f : Core → Core} (hf : ∀ c, c.fenced = true → (f c).fenced = true := by exact fun _ h => h) :
    s.Beside (s.modCore k f) := by
  refine ⟨rfl, fun _ => rfl, fun j h => ?_, fun _ h => h⟩
  by_cases hj : j = k
  · subst hj
    simpa [State.modCore] using hf _ h
  · rwa [State.modCore, State.core_setCore_ne _ _ hj]

/-- Every core put through a function. -/
theorem mapCores {f : Nat × Core → Core} (hc : t.cores = s.cores.map fun e => (e.1, f e)) (hf : ∀ e, e.2.fenced = true → (f e).fenced = true)
    (hl : t.launches = s.launches := by rfl) (ht : t.tenants = s.tenants := by rfl) (hr : t.reports = s.reports := by rfl) : s.Beside t := by
  refine ⟨hl, fun v => by simp [State.tenant, ht], fun k h => ?_, fun _ m => by rwa [hr]⟩
  unfold State.core
  rw [hc]
  exact AMap.get_map_of (Q := fun c : Core => c.fenced = true) hf h

theorem modTenant (s : State) (v : Nat) {f : Tenant → Tenant} (hf : ∀ t, (f t).queues = t.queues := by exact fun _ => rfl) :
    s.Beside (s.modTenant v f) :=
  ⟨rfl, fun u => s.tenant_modTenant_congr v hf u, fun _ h => h, fun _ h => h⟩

theorem ite {c : Prop} {d : Decidable c} (ht : s.Beside t) (hu : s.Beside u) : s.Beside (if c then t else u) := by
  split
  · exact ht
  · exact hu

theorem foldl {β : Type} {l : List β} {f : State → β → State} (hf : ∀ (t : State) x, t.Beside (f t x)) (s : State) : s.Beside (l.foldl f s) := by
  induction l generalizing s with
  | nil => exact refl s
  | cons x l ih => exact (hf s x).trans (ih _)

end State.Beside

/-! ## A report -/

theorem State.beside_countPkt (s : State) (core cls : Nat) (sent : Bool) : s.Beside (s.countPkt core cls sent) := by
  unfold State.countPkt
  exact .ite (.refl s) (.modCore s core fun c h => by split <;> exact h)

theorem State.beside_stopCore (s : State) (core : Nat) (freeze : Bool) : s.Beside (s.stopCore core freeze) :=
  (s.beside_countPkt core 3 false).trans (.modCore _ core)

theorem State.beside_freezeTenant (s : State) (ten : Nat) : s.Beside (s.freezeTenant ten) := by
  unfold State.freezeTenant
  exact (State.Beside.foldl (fun t c => (t.beside_stopCore c true).trans .of_eq) s).trans (.modTenant _ ten)

theorem Core.fenced_setBank (c : Core) (n code : Nat) : (c.setBank n code).fenced = c.fenced := by
  unfold Core.setBank
  split <;> rfl

theorem State.beside_wake (s : State) (core n : Nat) : s.Beside (s.wake core n) :=
  .modCore s core fun c h => (c.fenced_setBank n 3).trans h

theorem State.beside_bankWrite (s : State) (core n : Nat) : s.Beside (s.bankWrite core n).2 := by
  unfold State.bankWrite
  split
  · exact .refl s
  · exact s.beside_wake core n
  · exact s.beside_wake core n

theorem State.beside_hostReq (s : State) (ten : Nat) (write : Bool) (k n : Nat) : s.Beside (s.hostReq ten write k n) :=
  .ite .of_eq (.refl s)

theorem State.beside_installNow (s : State) (cluster ten : Nat) (lv : Level) (va : Word) : s.Beside (s.installNow cluster ten lv va) := by
  have walks : s.Beside (s.walkRequests ten lv (s.tenant ten).ptroot va.toNat) := State.Beside.foldl (fun t k => t.beside_hostReq ten false k 8) s
  unfold State.installNow
  split
  · exact .refl s
  · split
    · exact walks.trans .of_eq
    · exact walks

theorem State.beside_rekey (s : State) (ten k : Nat) : s.Beside (s.rekey ten k) := by
  unfold State.rekey
  split
  · exact .ite (.refl s) (.ite .of_eq .of_eq)
  · exact .refl s

theorem State.beside_wrBytes (s : State) (ten k : Nat) (bs : List Byte) : s.Beside (s.wrBytes ten k bs) :=
  .ite (.refl s) ((s.beside_rekey ten k).trans .of_eq)

theorem State.beside_write (s : State) (p ten k : Nat) (bs : List Byte) (rel : Rels) : s.Beside (s.write p ten k bs rel) := by
  have noted : s.Beside (s.noteWrite p ten k bs rel) := .of_eq
  exact .ite (.refl s) (noted.trans ((State.beside_wrBytes _ ten k bs).trans (State.beside_hostReq _ ten true k bs.length)))

theorem State.beside_deviceWrite (s : State) (p cluster ten : Nat) (lv : Level) (va : Word) (bs : List Byte) (rels : Rels) :
    s.Beside (s.deviceWrite p cluster ten lv va bs rels).2 := by
  dsimp only [State.deviceWrite]
  split
  · split
    · exact .refl s
    · refine State.Beside.trans ?_ ((State.beside_installNow _ cluster ten lv va).trans (State.beside_write _ p ten _ bs rels))
      split
      · exact s.beside_bankWrite ..
      · exact .refl s
  · exact .refl s
  · exact .refl s

theorem State.beside_raiseVec (s : State) (ten q : Nat) : s.Beside (s.raiseVec ten q) := by
  unfold State.raiseVec
  exact .ite .of_eq (.refl s)

/-- A report as it is made: with its number, its time and what has come of it. -/
def Report.made (r : Report) (s : State) : Report → Prop := fun p =>
  p.ten = r.ten ∧ p.cause = r.cause ∧ p.tval = r.tval ∧ p.killed = r.killed ∧ p.fenced = r.fenced ∧ p.queue = r.queue ∧ p.cycle = wd s.cycle

/-- A report stands among the reports, and nothing else has changed of what is told here. -/
theorem State.report_made (s : State) (r : Report) : s.Beside (s.report r) ∧ ∃ p ∈ (s.report r).reports, r.made s p := by
  have frozen : ∀ b : Bool, s.Beside (if b then s.freezeTenant r.ten else s) := fun b => .ite (s.beside_freezeTenant r.ten) (.refl s)
  unfold State.report
  extract_lets t sq gs s0 r1 s1 lg
  have numbered : s.Beside s1 := (frozen gs).trans (.modTenant _ r.ten)
  generalize hx : (if (lg = 0 || r.ten = 0) = true then (none, s1)
    else s1.deviceWrite 0 0 r.ten .s (wd (fld t.flog 56 12 * 0x1000 + (sq - 1) % 2 ^ (lg + 6) * 64)) r1.bytes []) = logged
  have written : s.Beside logged.2 := by
    rw [← hx]
    split
    · exact numbered
    · exact numbered.trans (s1.beside_deviceWrite ..)
  obtain ⟨fail, s2⟩ := logged
  let p : Report := { r1 with logfail := fail.isSome }
  let s3 : State := { s2 with reports := s2.reports ++ [p] }
  have added : s.Beside s3 :=
    ⟨written.launches, written.queues, written.fenced, fun _ m => List.mem_append_left _ (written.reports m)⟩
  have raised : s3.Beside (s3.raiseVec r.ten r.queue) := s3.beside_raiseVec ..
  exact ⟨added.trans raised, p, raised.reports (List.mem_append_right _ (List.mem_singleton_self p)), rfl, rfl, rfl, rfl, rfl, rfl, rfl⟩

theorem State.beside_report (s : State) (r : Report) : s.Beside (s.report r) := (s.report_made r).1

/-! ## The freeing of a slot, and work that is dropped -/

theorem State.beside_bankOff (s : State) (core n : Nat) : s.Beside (s.bankOff core n) := by
  have off : s.Beside (s.modCore core fun c => { c.setBank n 0 with hints := c.hints.filter fun h => h.1 != n }) :=
    .modCore s core fun c h => (c.fenced_setBank n 0).trans h
  exact off.trans .of_eq

theorem State.beside_banksOff (s : State) (core : Nat) (tiles : List Nat) (sb : BitVec 48) : s.Beside (s.banksOff core tiles sb) :=
  State.Beside.foldl (fun t n => t.beside_bankOff core n) s

theorem State.beside_foldRetire (s : State) (cl dom : Nat) (key : Word) (holds : Bool) (rel : List Nat) (count : Bool) :
    s.Beside (s.foldRetire cl dom key holds rel count) := .of_eq

theorem State.beside_setSlot (s : State) (r : SlotRef) (x : Slot) : s.Beside (s.setSlot r x) :=
  State.Beside.modCore s r.core (f := fun c => c.setSlot r.slot x)

theorem State.beside_freeSlot (s : State) (r : SlotRef) : s.Beside (s.freeSlot r) := by
  unfold State.freeSlot
  extract_lets x s1 s2 s3
  have hs1 : s.Beside s1 := by
    have abandoned : s.Beside (s.abandonHeld r x.party) := .mapCores rfl fun _ h => h
    exact abandoned.trans (State.beside_banksOff ..)
  have hs2 : s1.Beside s2 := by
    dsimp only [s2]
    split
    · exact .ite (.refl s1) (s1.beside_foldRetire ..)
    · exact .refl s1
  have hs3 : s2.Beside s3 := .modCore s2 r.core
  exact hs1.trans (hs2.trans (hs3.trans (s3.beside_setSlot r _)))

theorem State.beside_dropSaved (s : State) (ten : Nat) (p : Origin → Nat → Bool) : s.Beside (s.dropSaved ten p) := by
  unfold State.dropSaved
  extract_lets gone all s1
  have retired : s.Beside s1 := State.Beside.foldl (fun t e => by
    split
    · exact t.beside_foldRetire ..
    · exact .refl t) s
  exact retired.trans .of_eq

theorem State.beside_dropWork (s : State) (p : RunEntry → Bool) : s.Beside (s.dropWork p) := by
  unfold State.dropWork
  exact .mapCores rfl fun _ h => h

end Sys2Proof.Machine
end

section
/-! PROOFS. Plain memory (R2, R50): the bytes below LPDDR that no write holds back read as they stand, and what little-endian numbers are. -/

namespace Sys2Proof.Machine

/-! ## Little-endian numbers (R2) -/

theorem leNat_lt (bs : List Byte) : leNat bs < 2 ^ (8 * bs.length) := by
  induction bs with
  | nil => simp [leNat]
  | cons b bs ih =>
    have hb : b.toNat < 256 := b.isLt
    simp only [leNat, List.length_cons, Nat.mul_add, Nat.pow_add] at ih ⊢
    omega

/-- A word made of eight bytes is their number. -/
theorem toNat_wd_leNat {bs : List Byte} (h : bs.length ≤ 8) : (wd (leNat bs)).toNat = leNat bs := by
  have small : leNat bs < 2 ^ 64 := (leNat_lt bs).trans_le (Nat.pow_le_pow_right (by omega) (by omega))
  exact Nat.mod_eq_of_lt small

theorem length_leWords (bs : List Byte) (n : Nat) : (leWords bs n).length = n := by
  induction n generalizing bs with
  | zero => rfl
  | succ n ih => simp [leWords, ih]

/-- The words of a list of bytes: each of its eight bytes. -/
theorem wordAt_leWords (bs : List Byte) {n i : Nat} (h : i < n) : wordAt (leWords bs n) i = wd (leNat ((bs.drop (8 * i)).take 8)) := by
  induction n generalizing bs i with
  | zero => omega
  | succ n ih =>
    cases i with
    | zero => simp [leWords, wordAt]
    | succ i =>
      have tail := ih (bs.drop 8) (i := i) (by omega)
      simp only [wordAt, leWords, List.getD_cons_succ] at tail ⊢
      rw [tail, List.drop_drop]
      ring_nf

/-! ## Bytes below LPDDR (R50) -/

/-- A byte of stack memory lies below LPDDR. -/
theorem State.lt_stackEnd_of_place {s : State} {k : Nat} (h : s.place k = .stack) : k < stackEnd := by
  unfold State.place at h
  split at h
  · exact absurd h nofun
  · split at h
    · assumption
    · split at h
      · exact absurd h nofun
      · split at h <;> exact absurd h nofun

/-- No byte below LPDDR is one of an LPDDR channel. -/
theorem State.place_of_lt_lpBase (s : State) {k : Nat} (h : k < lpBase) : s.place k = .stack ∨ s.place k = .nothing := by
  have notChip : ¬ chipBit ≤ k := by unfold lpBase at h; unfold chipBit; omega
  have notHost : ¬ hostBase ≤ k := by unfold lpBase at h; unfold hostBase; omega
  unfold State.place
  rw [if_neg notChip]
  by_cases stack : k < stackEnd
  · exact .inl (if_pos stack)
  · rw [if_neg stack, if_neg notHost]
    exact .inr (if_neg (by simp; omega))

/-- A byte below LPDDR reads as it stands. -/
theorem State.rdByte_of_lt_lpBase (s : State) (ten : Nat) {k : Nat} (h : k < lpBase) : s.rdByte ten k = Memory.get s.mem k := by
  have near : ¬ farBit ≤ k := by unfold lpBase at h; unfold farBit; omega
  unfold State.rdByte
  dsimp only
  rw [if_neg near]
  rcases s.place_of_lt_lpBase h with hp | hp <;> rw [hp]

theorem State.lostKey_of_lt_lpBase (s : State) (ten : Nat) {k : Nat} (h : k < lpBase) : s.lostKey ten k = false := by
  unfold State.lostKey
  rcases s.place_of_lt_lpBase h with hp | hp <;> rw [hp]

theorem isWindow_of_lt_lpBase {k : Nat} (h : k < lpBase) : isWindow k = false := by
  have notChip : ¬ chipBit ≤ k := by unfold lpBase at h; unfold chipBit; omega
  simp [isWindow, notChip]

theorem isMacc_of_lt_lpBase {k : Nat} (h : k < lpBase) : isMacc k = false := by
  have notChip : ¬ chipBit ≤ k := by unfold lpBase at h; unfold chipBit; omega
  simp [isMacc, notChip]

/-- What no write holds back reads as it stands. -/
theorem State.read_settled {s : State} {k n : Nat} (h : s.settled k n) (p ten : Nat) (view : List Nat) :
    (s.read p ten k n view).1 = (List.range n).map fun i => s.rdByte ten (k + i) := by
  have nothing : s.writes.filter (fun w => w.touches k n) = [] := List.filter_eq_nil_iff.mpr fun w hw => by simp [h w hw]
  have unseen : ∀ (a : Nat) (d : List Nat) (b : Byte), applyView [] a d b = b := by
    intro a d
    induction d with
    | nil => exact fun _ => rfl
    | cons i d ih => exact fun b => ih b
  unfold State.read
  rw [nothing]
  dsimp only
  refine List.map_congr_left fun i _ => ?_
  split
  · exact unseen ..
  · rfl

/-- With nothing poisoned, what is read below LPDDR is clean. -/
theorem State.cleaned_of_lt_lpBase {s : State} (clean : s.poison = []) (ten : Nat) {k : Nat} (h : k < lpBase) (bs : List Byte) :
    s.cleaned ten k bs = bs := by
  unfold State.cleaned
  rw [isMacc_of_lt_lpBase h, s.lostKey_of_lt_lpBase ten h, clean]
  refine List.ext_getElem (by simp) fun i h1 h2 => ?_
  simp [h2]

theorem State.poisoned_of_lt_lpBase {s : State} (clean : s.poison = []) (ten : Nat) {k : Nat} (h : k < lpBase) (n : Nat) :
    s.poisoned ten k n = none := by
  simp [State.poisoned, s.lostKey_of_lt_lpBase ten h, clean]

/-- A request to the host is seen outside alone. -/
theorem State.hostReq_eq (s : State) (ten : Nat) (write : Bool) (k n : Nat) : ∃ out, s.hostReq ten write k n = { s with out := out } := by
  unfold State.hostReq
  split
  · exact ⟨_, rfl⟩
  · exact ⟨s.out, rfl⟩

/-- A read notes what its party has seen, and nothing else changes. -/
theorem State.read_eq (s : State) (p ten k n : Nat) (view : List Nat) :
    ∃ ps out, (s.read p ten k n view).2.2 = { s with parties := ps, out := out } := by
  obtain ⟨out, h⟩ := State.hostReq_eq (s.modParty p fun q => { q with floor := unionIds q.floor (if s.viewOk p k n view then view
    else (s.writes.filter fun w => w.touches k n).map (·.id)) }) ten false k n
  exact ⟨_, out, h⟩

/-- What the device reads of plain memory: the bytes as they stand. -/
theorem State.readDev_stack {s : State} {ten k n : Nat} (stack : s.place k = .stack) (small : n ≤ 0x1000) (settled : s.settled k n)
    (clean : s.poison = []) :
    ∃ rels ps out, s.readDev ten k n = some ((List.range n).map fun i => Memory.get s.mem (k + i), rels, { s with parties := ps, out := out }) := by
  have low := State.lt_stackEnd_of_place stack
  unfold stackEnd at low
  have within : ∀ i < n, k + i < lpBase := fun i hi => by
    unfold lpBase
    omega
  have first : k < lpBase := by
    unfold lpBase
    omega
  have notChip : ¬ chipBit ≤ k := by
    unfold chipBit
    omega
  let s0 : State := { s with view := [0] }
  have bytes : s0.cleaned ten k (s0.read 0 ten k n (s0.turnView k n)).1 = (List.range n).map fun i => Memory.get s.mem (k + i) := by
    rw [State.cleaned_of_lt_lpBase (s := s0) clean ten first, State.read_settled (s := s0) settled]
    exact List.map_congr_left fun i hi => s0.rdByte_of_lt_lpBase ten (within i (List.mem_range.mp hi))
  obtain ⟨ps, out, noted⟩ := s0.read_eq 0 ten k n (s0.turnView k n)
  refine ⟨(s0.read 0 ten k n (s0.turnView k n)).2.1, ps, out, ?_⟩
  have answer : s0.readNow 0 ten k n = some (s0.cleaned ten k (s0.read 0 ten k n (s0.turnView k n)).1, (s0.read 0 ten k n (s0.turnView k n)).2.1,
      (s0.read 0 ten k n (s0.turnView k n)).2.2) := by
    unfold State.readNow
    dsimp only
    rw [isWindow_of_lt_lpBase first, if_neg (by simp), if_neg notChip]
  unfold State.readDev
  rw [answer, bytes, noted]
  rfl

/-- The number in eight of the bytes read. -/
theorem State.num_eq_leNat_take (s : State) {k n i : Nat} (h : 8 * i + 8 ≤ n) :
    leNat ((((List.range n).map fun j => Memory.get s.mem (k + j)).drop (8 * i)).take 8) = s.num (k + 8 * i) 8 := by
  have same : ((((List.range n).map fun j => Memory.get s.mem (k + j)).drop (8 * i)).take 8) =
      (List.range 8).map fun j => Memory.get s.mem (k + 8 * i + j) := by
    refine List.ext_getElem (by simp; omega) fun j h1 h2 => ?_
    simp [Nat.add_assoc]
  rw [same, State.num]

end Sys2Proof.Machine
end

section
/-! PROOFS. Host queues, headers and launches (R149 to R153, R256). -/

namespace Sys2Proof.Machine

/-! ## Flights -/

/-- A changed flight, found under its number. -/
theorem State.flight?_modFlight {s : State} {id : Nat} {f : Flight} {g : Flight → Flight} (found : s.flight? id = some f)
    (hg : ∀ x : Flight, (g x).id = x.id) : (s.modFlight id g).flight? id = some (g f) := by
  have named : f.id = id := by simpa using List.find?_some found
  unfold State.flight? State.modFlight at *
  rw [List.find?_map]
  have same : ((fun x : Flight => x.id == id) ∘ fun x => if x.id = id then g x else x) = fun x => x.id == id := by
    funext x
    by_cases h : x.id = id
    · simp [h, hg]
    · simp [h]
  rw [same, found]
  simp [named]

/-- A flight that is dropped is no longer found. -/
theorem State.flight?_dropFlight (s : State) (id : Nat) : (s.dropFlight id).flight? id = none := by
  unfold State.flight? State.dropFlight
  rw [List.find?_eq_none]
  intro f hf
  simpa using (List.mem_filter.mp hf).2

/-- An operation that nothing waits for is over when it is finished. -/
theorem State.finish_of_silent (s : State) {f : Flight} (v : Word) (h : f.act.dest = .none) : s.finish f v = s.dropFlight f.id := by
  unfold State.finish
  rw [h]

/-- The result of an operation that is finished is on its way to its destination. -/
theorem State.finish_of_dest (s : State) {f : Flight} (v : Word) (h : f.act.dest ≠ .none) :
    s.finish f v = s.setAct f.id (.result f.act.dest (v.setWidth 256) none []) := by
  unfold State.finish
  split
  · next silent => exact absurd silent h
  · rfl

/-- An operation that is finished has been answered. -/
theorem State.finish_answered {s : State} {f : Flight} (found : s.flight? f.id = some f) (v : Word) : (s.finish f v).Answered f v := by
  unfold State.Answered
  by_cases silent : f.act.dest = .none
  · rw [if_pos silent, s.finish_of_silent v silent]
    exact s.flight?_dropFlight f.id
  · rw [if_neg silent, s.finish_of_dest v silent, State.setAct, State.flight?_modFlight found fun x => by split <;> rfl]
    split
    · exact ⟨_, _, rfl⟩
    · exact ⟨f.hop, f.owed, rfl⟩

/-- To finish an operation changes flights alone. -/
theorem State.finish_eq (s : State) (f : Flight) (v : Word) : ∃ fs, s.finish f v = { s with flights := fs } := by
  unfold State.finish
  split
  · exact ⟨_, rfl⟩
  · exact ⟨_, rfl⟩

/-- An operation is answered or not by its flight alone. -/
theorem State.Answered.of_flights {s t : State} {f : Flight} {v : Word} (h : s.Answered f v) (same : t.flights = s.flights) : t.Answered f v := by
  unfold State.Answered State.flight? at *
  rwa [same]

/-! ## The checks of a header (R153) -/

/-- A header is checked against the units of the device and what its tenant owns, and against nothing else. -/
theorem State.headerFault_congr {s t : State} (hc : t.capunits = s.capunits) (hp : ∀ v, (t.tenant v).pairs = (s.tenant v).pairs)
    (hm : ∀ v, (t.tenant v).mwin = (s.tenant v).mwin) (hs : ∀ v, (t.tenant v).scr = (s.tenant v).scr) (l : Launch) :
    t.headerFault l = s.headerFault l := by
  have clusters : t.nclusters = s.nclusters := by simp only [State.nclusters, hc]
  have channels : t.channels = s.channels := by simp only [State.channels, hc]
  have mems : t.memCoreOf = s.memCoreOf := by
    funext ten m
    simp only [State.memCoreOf, channels, hm]
  have cores : t.coreOf = s.coreOf := by
    funext ten core
    simp only [State.coreOf, clusters, mems, Tenant.ownsCore, hp]
  have parts : t.inPartition = s.inPartition := by
    funext ten cluster
    simp only [State.inPartition, clusters, cores]
  have maps : t.inMap = s.inMap := by
    funext k
    simp only [State.inMap, clusters]
  have cells : t.cellFault = s.cellFault := by
    funext ten cell
    simp only [State.cellFault, maps, parts]
  have words : t.wordFails l = s.wordFails l := by
    funext i
    simp only [State.wordFails, mems, parts, cells, hs, State.targetCores, cores]
  rw [State.headerFault, State.headerFault, words]

/-- The choice of a queue takes a credit, and changes its tenant in nothing else (R153). -/
theorem Tenant.choose_eq {t u : Tenant} {q : Nat} (h : t.choose = some (q, u)) : ∃ m, u = { t with credit := m } := by
  unfold Tenant.choose at h
  extract_lets qs withCredit refilled prio pick at h
  have picked : ∀ (w : Tenant) (r : Nat × Tenant), pick w = some r → ∃ m, r.2 = { w with credit := m } := by
    intro w r hr
    obtain ⟨p, -, hp⟩ := Option.bind_eq_some_iff.mp hr
    obtain ⟨q', -, hq⟩ := Option.map_eq_some_iff.mp hp
    exact ⟨_, (congrArg Prod.snd hq).symm⟩
  split at h
  · next r hr =>
    cases h
    exact picked t _ hr
  · exact picked refilled _ h

/-! ## A launch that is accepted (R39) -/

/-- What changes a queue leaves the header buffer. -/
theorem State.hbuf_modQueue (s : State) (v q : Nat) (f : HQueue → HQueue) (u : Nat) : ((s.modQueue v q f).tenant u).hbuf = (s.tenant u).hbuf :=
  s.tenant_modTenant_congr v (g := Tenant.hbuf) (by exact fun _ => rfl) u

/-- A launch without a completion word that is accepted stands last among the launches; what else is told here stands. -/
theorem State.acceptLaunch_silent {s : State} {l : Launch} (silent : wordAt l.words 15 = 0#64) :
    (s.acceptLaunch l).launches = s.launches ++ [l] ∧ (∀ v, ((s.acceptLaunch l).tenant v).hbuf = (s.tenant v).hbuf) ∧
      (s.acceptLaunch l).accepted = s.accepted ∧ (s.acceptLaunch l).mem = s.mem ∧ (s.acceptLaunch l).flights = s.flights := by
  unfold State.acceptLaunch
  dsimp only
  simp only [silent, if_true]
  split
  · exact ⟨rfl, fun _ => rfl, rfl, rfl, rfl⟩
  · exact ⟨rfl, fun v => s.hbuf_modQueue l.ten l.queue (fun q => { q with wstart := s.cycle, wstep := 0 }) v, rfl, rfl, rfl⟩

/-- A launch without a completion word waits for nothing. -/
theorem State.acceptWait_silent {s : State} {l : Launch} (silent : wordAt l.words 15 = 0#64) : s.acceptWait l = none := by
  simp [State.acceptWait, silent]

end Sys2Proof.Machine
end

section
/-! PROOFS. Doorbells, header fetches, acceptance and LNCH headers (R39, R149 to R153, R256, R354). -/

namespace Sys2Proof.Machine

/-- A doorbell writes the low half of its word to QWP. -/
theorem State.execQueueDoorbell_served {s : State} {vf q : Nat} (v : Word) (h : q < (s.tenant vf).nq) :
    execQueueDoorbell vf q v s = .next (s.modQueue vf q fun x => { x with wp := fld v 31 0 }) := by
  unfold execQueueDoorbell
  rw [if_pos h]

/-- A header that may be fetched from stack memory: it goes to the header buffer as its sixteen words, and the queue's read index moves on. -/
theorem State.execHeaderFetch_stack {s : State} {vf q k : Nat} (hq : q < (s.tenant vf).nq)
    (on : bit ((s.tenant vf).queues.get {} q).cfg 63 = true) (new : ((s.tenant vf).queues.get {} q).wp ≠ ((s.tenant vf).queues.get {} q).rp)
    (room : (s.tenant vf).hbuf.length < 8) (served : (s.tenant vf).served = true) (clean : s.poison = [])
    (checked : s.checkNow 0 vf .s .load false (wd (fld ((s.tenant vf).queues.get {} q).base 56 12 * 0x1000 +
      128 * (((s.tenant vf).queues.get {} q).rp % 2 ^ fld ((s.tenant vf).queues.get {} q).cfg 4 0))) 128 = .ok k)
    (stack : s.place k = .stack) (settled : s.settled k 128) :
    ∃ ps out, execHeaderFetch vf q s = .next ((({ s with parties := ps, out := out, fresh := s.fresh + 1 } : State).modTenant vf fun t =>
      { t with hbuf := t.hbuf ++ [⟨q, leWords ((List.range 128).map fun i => Memory.get s.mem (k + i)) 16, s.fresh⟩] }).modQueue vf q fun h =>
        { h with rp := (h.rp + 1) % 2 ^ 32 }) := by
  obtain ⟨rels, ps, out, answer⟩ := State.readDev_stack (ten := vf) stack (by omega) settled clean
  have low : k < lpBase := (State.lt_stackEnd_of_place stack).trans (by decide)
  have open_ : ((s.tenant vf).nq ≤ q || !bit ((s.tenant vf).queues.get {} q).cfg 63 ||
      ((s.tenant vf).queues.get {} q).wp = ((s.tenant vf).queues.get {} q).rp || 8 ≤ (s.tenant vf).hbuf.length || !(s.tenant vf).served) = false := by
    simp [hq, on, new, room, served]
  refine ⟨ps, out, ?_⟩
  unfold execHeaderFetch
  simp only [open_, checked, stack, answer, State.poisoned_of_lt_lpBase clean vf low]
  rfl

/-- The machine in which the arbiter has taken a header of tenant `v`, who is `te` from now on but for the headers that are left. -/
def State.accepting (s : State) (v : Nat) (te : Tenant) (rest : List Header) : State :=
  ({ s.settleStitch with lastVf := v, fresh := s.fresh + 1, accepted := some s.cycle } : State).modTenant v fun _ => { te with hbuf := rest }

theorem State.tenant_accepting (s : State) (v : Nat) (te : Tenant) (rest : List Header) (u : Nat) :
    (s.accepting v te rest).tenant u = if u = v then { te with hbuf := rest } else s.tenant u := by
  unfold State.accepting
  split
  · next h => rw [h, State.tenant_modTenant_same]
  · next h => exact State.tenant_modTenant_ne _ _ h

/-- In that machine a header is checked as before: the choice has changed the tenant's credits and header buffer alone. -/
theorem State.headerFault_accepting {s : State} {v q : Nat} {te : Tenant} (chosen : (s.tenant v).choose = some (q, te)) (rest : List Header)
    (l : Launch) : (s.accepting v te rest).headerFault l = s.headerFault l := by
  obtain ⟨m, hm⟩ := Tenant.choose_eq chosen
  refine State.headerFault_congr ?_ (fun u => ?_) (fun u => ?_) (fun u => ?_) l
  · rfl
  all_goals
    rw [State.tenant_accepting]
    split
    · next h => rw [h, hm]
    · rfl

/-- What comes of a header that the arbiter has taken. -/
def State.headerTaken (s : State) (v q : Nat) (te : Tenant) (rest : List Header) (l : Launch) : State :=
  match (s.accepting v te rest).headerFault l with
  | some i => (s.accepting v te rest).report { ten := v, cause := 0x0C#64, tval := wd (0x300 + i), queue := q }
  | none => match s.settleStitch.acceptWait l with
    | some t => t
    | none => (s.accepting v te rest).acceptLaunch l

/-- The arbiter takes the header that it chooses, when one virtual function alone has headers. -/
theorem State.execLaunchAccept_takes {s : State} {v q : Nat} {te : Tenant} {hd : Header} {rest : List Header} {l : Launch}
    (once : s.accepted ≠ some s.cycle) (pending : ((s.tenants.filter fun t => !t.2.pendingQueues.isEmpty).map (·.1)) = [v])
    (chosen : (s.tenant v).choose = some (q, te)) (taken : takeHeader q te.hbuf = some (hd, rest))
    (hl : launchOf hd.words s.fresh v (some q) hd.arrived s.cycle [] = l) :
    execLaunchAccept s = .next (s.headerTaken v q te rest l) := by
  have alone : ((s.settleStitch.tenants.filter fun t => !t.2.pendingQueues.isEmpty).map (·.1)) = [v] := pending
  have first : s.settleStitch.accepted ≠ some s.settleStitch.cycle := once
  have chosen' : (s.settleStitch.tenant v).choose = some (q, te) := chosen
  have named : launchOf hd.words s.settleStitch.fresh v (some q) hd.arrived s.settleStitch.cycle [] = l := hl
  unfold execLaunchAccept
  dsimp only
  rw [if_neg first, alone]
  cases later : decide (s.settleStitch.lastVf < v)
  all_goals
    simp only [List.find?, later, List.head?, chosen', taken, named]
    rfl

/-- A fault of an operation whose strand still runs waits in its slot for the next boundary. -/
theorem State.flightFault_held {s : State} {f : Flight} (held : s.holds f.who f.party = true) (thawed : (s.slot f.who).frozen = false)
    (own : f.own = false) (pkt : f.pkt = none) (outlived : f.outlived = false) (c : Nat) (v : Word) :
    s.flightFault f c v = s.modSlot f.who fun x => { x with pend := x.pend ++ [{ code := c, tval := v, handler := f.inh }] } := by
  unfold State.flightFault State.asyncFault
  simp [own, pkt, outlived, held, thawed]

end Sys2Proof.Machine

open Sys2Proof Sys2Proof.Machine

/-- Settles O39: each event takes the branch that its hypotheses choose, and what that branch changes is read off. -/
theorem headersAreFetchedAndAccepted : Obligations.HeadersAreFetchedAndAccepted := by
  refine ⟨?doorbell, ?fetch, ?accept, ?lnch⟩
  case doorbell =>
    intro s vf q v hq
    refine ⟨_, State.execQueueDoorbell_served v hq, ?_, fun p hp => s.queue_modQueue_ne vf _ hp, rfl⟩
    rw [State.queue_modQueue_same]
    simp [fld, bits]
  case fetch =>
    intro s vf q k h hq on new room served clean checked stack settled
    obtain ⟨ps, out, e⟩ := State.execHeaderFetch_stack hq on new room served clean checked stack settled
    refine ⟨_, leWords ((List.range 128).map fun i => Memory.get s.mem (k + i)) 16, e, ?_, length_leWords _ _, fun i hi => ?_, ?_, rfl⟩
    · rw [State.hbuf_modQueue, State.tenant_modTenant_same]
      rfl
    · rw [wordAt_leWords _ hi, toNat_wd_leNat (List.length_take_le _ _), State.num_eq_leNat_take s (by omega)]
    · rw [State.queue_modQueue_same, State.tenant_modTenant_same]
      rfl
  case accept =>
    intro s v q te hd rest once pending chosen taken l
    have takes : exec .launchAccept s = .next (s.headerTaken v q te rest l) := State.execLaunchAccept_takes once pending chosen taken rfl
    have sound : (s.accepting v te rest).headerFault l = s.headerFault l := State.headerFault_accepting chosen rest l
    refine ⟨fun lawful silent => ?_, fun i broken => ?_⟩
    · obtain ⟨launches, hbuf, accepted, mem, -⟩ := State.acceptLaunch_silent (s := s.accepting v te rest) (l := l) silent
      refine ⟨(s.accepting v te rest).acceptLaunch l, ?_, launches, ?_, accepted, mem⟩
      · rw [takes, State.headerTaken, sound, lawful, State.acceptWait_silent silent]
      · rw [hbuf, State.tenant_accepting, if_pos rfl]
    · obtain ⟨beside, p, hp, ten, cause, tval, -, -, queue, -⟩ :=
        (s.accepting v te rest).report_made { ten := v, cause := 0x0C#64, tval := wd (0x300 + i), queue := q }
      exact ⟨_, by rw [takes, State.headerTaken, sound, broken], beside.launches, p, hp, cause, tval, ten, queue⟩
  case lnch =>
    intro s f d hdr ws bad found reads l fails
    have failed : ∀ c v, s.holds f.who f.party = true → (s.slot f.who).frozen = false → f.who.slot < 4 → f.own = false → f.pkt = none →
        f.outlived = false → exec (.lnchHeaderRead f.id) s = .next ((s.finish f 0#64).flightFault f c v) → fails c v := by
      intro c v held thawed four own pkt outlived run
      have answered := State.finish_answered found 0#64
      obtain ⟨fs, finished⟩ := s.finish_eq f 0#64
      rw [finished] at answered run
      rw [State.flightFault_held (s := { s with flights := fs }) held thawed own pkt outlived] at run
      refine ⟨_, run, rfl, answered.of_flights rfl, rfl, ?_⟩
      rw [State.slot_modSlot_same _ _ four]
      rfl
    refine ⟨fun good lawful silent => ?_, fun held thawed four own pkt outlived => ⟨fun i good broken => ?_, fun c v broken => ?_⟩⟩
    · obtain ⟨launches, -, -, mem, flights⟩ := State.acceptLaunch_silent (s := { s.settleStitch with fresh := s.fresh + 1 }) (l := l) silent
      have found' : (({ s.settleStitch with fresh := s.fresh + 1 } : State).acceptLaunch l).flight? f.id = some f := by
        unfold State.flight? at *
        rwa [flights]
      obtain ⟨fs, finished⟩ := (({ s.settleStitch with fresh := s.fresh + 1 } : State).acceptLaunch l).finish_eq f (wd l.total)
      refine ⟨(({ s.settleStitch with fresh := s.fresh + 1 } : State).acceptLaunch l).finish f (wd l.total), ?_, ?_,
        State.finish_answered found' _, ?_⟩
      · change execLnchHeaderRead f.id s = _
        unfold execLnchHeaderRead
        subst good
        simp only [found, reads]
        rw [lawful, State.acceptWait_silent silent]
      · rw [finished]
        exact launches
      · rw [finished]
        exact mem
    · refine failed _ _ held thawed four own pkt outlived ?_
      change execLnchHeaderRead f.id s = _
      unfold execLnchHeaderRead
      subst good
      simp only [found, reads]
      rw [broken]
    · refine failed _ _ held thawed four own pkt outlived ?_
      change execLnchHeaderRead f.id s = _
      unfold execLnchHeaderRead
      subst broken
      simp only [found, reads]
end

section
/-! PROOFS. Launches dealt, completed and watched (R38, R113, R149, R155, R165, R343, R391). -/

namespace Sys2Proof.Machine

/-! ## Run lists (R157) -/

/-- What enters a run list stands in a bank, or waits for room. -/
theorem Cluster.insert_listed {c : Cluster} (eight : c.banks.length = 8) (now : Nat) (e : RunEntry) :
    ∃ x, (x ∈ (c.insert now e).entries ∨ x ∈ (c.insert now e).overflow) ∧ x.sameWork e := by
  unfold Cluster.insert
  split
  · next i hi =>
    have within : i < c.banks.length := by
      have room : (((List.range 8).map fun j => (c.count + j) % 8).find? fun j => decide ((c.banks.getD j []).length < 256)) = some i := by
        split at hi
        · exact hi
        · exact absurd hi nofun
      obtain ⟨j, -, rfl⟩ := List.mem_map.mp (List.mem_of_find?_eq_some room)
      omega
    refine ⟨{ e with stamp := now }, .inl ?_, rfl⟩
    exact List.mem_flatten.mpr ⟨_, List.mem_set within _, List.mem_append_right _ (List.mem_singleton_self _)⟩
  · exact ⟨e, .inr (List.mem_append_right _ (List.mem_singleton_self e)), rfl⟩

/-- A cluster that is changed. -/
@[simp] theorem State.cluster_modCluster_same (s : State) (k : Nat) (f : Cluster → Cluster) : (s.modCluster k f).cluster k = f (s.cluster k) :=
  AMap.get_put_same ..

/-- What enters the run list of a cluster is listed there. -/
theorem State.enterRunList_listed {s : State} {k : Nat} (cluster : k < 1024) (eight : (s.cluster k).banks.length = 8) (e : RunEntry) :
    (s.enterRunList k e).Listed k e := by
  unfold State.enterRunList State.Listed
  rw [if_pos cluster, State.cluster_modCluster_same]
  exact Cluster.insert_listed eight s.cycle e

/-- What enters a run list changes it alone. -/
theorem State.enterRunList_eq (s : State) (k : Nat) (e : RunEntry) :
    ∃ cores clusters, s.enterRunList k e = { s with cores := cores, clusters := clusters } := by
  unfold State.enterRunList
  split
  · exact ⟨s.cores, _, rfl⟩
  · exact ⟨_, s.clusters, rfl⟩

/-- A launch that is changed, found under its number. -/
theorem State.launch?_modLaunch {s : State} {id : Nat} {l : Launch} {g : Launch → Launch} (found : s.launch? id = some l)
    (hg : ∀ x : Launch, (g x).id = x.id) : (s.modLaunch id g).launch? id = some (g l) := by
  have named : l.id = id := by simpa using List.find?_some found
  unfold State.launch? State.modLaunch at *
  rw [List.find?_map]
  have same : ((fun x : Launch => x.id == id) ∘ fun x => if x.id = id then g x else x) = fun x => x.id == id := by
    funext x
    by_cases h : x.id = id
    · simp [h, hg]
    · simp [h]
  rw [same, found]
  simp [named]

/-! ## Completion (R113, R149, R151) -/

/-- What an update of a host queue leaves of it, it leaves of every queue. -/
theorem State.queue_modQueue_congr {α : Type} (s : State) (v q : Nat) {f : HQueue → HQueue} (g : HQueue → α) (hf : ∀ h, g (f h) = g h) (u p : Nat) :
    g (((s.modQueue v q f).tenant u).queues.get {} p) = g (((s.tenant u).queues.get {} p)) := by
  by_cases hu : u = v
  · subst hu
    by_cases hp : p = q
    · rw [hp, State.queue_modQueue_same, hf]
    · rw [State.queue_modQueue_ne _ _ _ hp]
  · unfold State.modQueue
    rw [State.tenant_modTenant_ne _ _ hu]

/-- A flag of a tenant changes none of its queues. -/
theorem State.queues_noteFlag (s : State) (v n u : Nat) : ((s.noteFlag v n).tenant u).queues = (s.tenant u).queues :=
  s.tenant_modTenant_congr v (g := Tenant.queues) (by exact fun _ => rfl) u

/-- That a launch was approximate stands in its queue and among its tenant's flags. -/
theorem State.noteApprox_shown {s : State} {l : Launch} (h : l.approx = true) :
    (((s.noteApprox l).tenant l.ten).queues.get {} l.queue).approx = true ∧ ((s.noteApprox l).tenant l.ten).flags.getLsbD 0 = true := by
  unfold State.noteApprox
  rw [if_pos h, State.queues_noteFlag, State.queue_modQueue_same]
  refine ⟨rfl, ?_⟩
  rw [State.noteFlag, State.tenant_modTenant_same]
  simp

/-- What the mark of an approximate launch leaves of a queue, it leaves of every queue. -/
theorem State.queue_noteApprox_congr {α : Type} (s : State) (l : Launch) (g : HQueue → α) (hf : ∀ h : HQueue, g { h with approx := true } = g h)
    (u p : Nat) : g (((s.noteApprox l).tenant u).queues.get {} p) = g ((s.tenant u).queues.get {} p) := by
  unfold State.noteApprox
  split
  · rw [State.queues_noteFlag]
    exact s.queue_modQueue_congr _ _ g hf u p
  · rfl

theorem State.noteApprox_eq (s : State) (l : Launch) : ∃ ts, s.noteApprox l = { s with tenants := ts } := by
  unfold State.noteApprox
  split
  · exact ⟨_, rfl⟩
  · exact ⟨s.tenants, rfl⟩

theorem State.raiseVec_eq (s : State) (ten q : Nat) : ∃ out, s.raiseVec ten q = { s with out := out } := by
  unfold State.raiseVec
  dsimp only
  split
  · exact ⟨_, rfl⟩
  · exact ⟨s.out, rfl⟩

/-- A queue that has a vector raises it. -/
theorem State.raiseVec_raised {s : State} {ten q : Nat} (on : bit ((s.tenant ten).queues.get {} q).cfg 62 = true)
    (h : fld ((s.tenant ten).queues.get {} q).cfg 55 48 < msixVectors ten) :
    Out.msix ten (fld ((s.tenant ten).queues.get {} q).cfg 55 48) ∈ (s.raiseVec ten q).out := by
  unfold State.raiseVec
  simp [on, h]

/-- The machine when launch `l` has left and its queue has counted it. -/
def State.launchCounted (s : State) (l : Launch) : State :=
  let first := (s.oldestLaunch l.ten l.queue).any fun m => m.id == l.id
  let s1 : State := { s with launches := s.launches.filter fun m => m.id != l.id }
  (s1.modQueue l.ten l.queue fun q =>
    { q with done := (q.done + 1) % 2 ^ 32, wstart := if first then s.cycle else q.wstart, wstep := if first then 0 else q.wstep }).noteApprox l

/-- It raises the vector of the queue whose ring it came from. -/
def State.launchRung (s : State) (l : Launch) : State :=
  match l.ring with
  | some q => (s.launchCounted l).raiseVec l.ten q
  | none => s.launchCounted l

theorem State.execLaunchComplete_done {s : State} {l : Launch} (found : s.launch? l.id = some l) (halted : l.total ≤ l.halted)
    (settled : ∀ f ∈ s.flights, f.ten = l.ten → ∀ d c a, f.act = .decr d c a → c ≠ wordAt l.words 15) :
    execLaunchComplete l.id s = .next (s.launchRung l) := by
  unfold execLaunchComplete
  simp only [found]
  rw [if_neg]
  · rfl
  · simp only [Bool.or_eq_true, decide_eq_true_eq, List.any_eq_true, Bool.and_eq_true, beq_iff_eq, not_or]
    refine ⟨by omega, ?_⟩
    rintro ⟨f, hf, ten, decr⟩
    split at decr
    · next d c a act => exact settled f hf ten d c a act (by simpa using decr)
    · exact absurd decr (by decide)

theorem State.launchRung_eq (s : State) (l : Launch) : ∃ out, s.launchRung l = { s.launchCounted l with out := out } := by
  unfold State.launchRung
  split
  · exact State.raiseVec_eq ..
  · exact ⟨(s.launchCounted l).out, rfl⟩

theorem State.launchCounted_eq (s : State) (l : Launch) :
    ∃ ts, s.launchCounted l = { s with launches := s.launches.filter (fun m => m.id != l.id), tenants := ts } := by
  unfold State.launchCounted
  dsimp only
  obtain ⟨ts, h⟩ := State.noteApprox_eq (({ s with launches := s.launches.filter fun m => m.id != l.id } : State).modQueue l.ten l.queue fun q =>
    { q with done := (q.done + 1) % 2 ^ 32
             wstart := if (s.oldestLaunch l.ten l.queue).any fun m => m.id == l.id then s.cycle else q.wstart
             wstep := if (s.oldestLaunch l.ten l.queue).any fun m => m.id == l.id then 0 else q.wstep }) l
  exact ⟨ts, h⟩

theorem State.launchCounted_done (s : State) (l : Launch) :
    (((s.launchCounted l).tenant l.ten).queues.get {} l.queue).done = (((s.tenant l.ten).queues.get {} l.queue).done + 1) % 2 ^ 32 := by
  unfold State.launchCounted
  dsimp only
  rw [State.queue_noteApprox_congr _ l HQueue.done fun _ => rfl, State.queue_modQueue_same]
  rfl

theorem State.launchCounted_cfg (s : State) (l : Launch) (u p : Nat) :
    (((s.launchCounted l).tenant u).queues.get {} p).cfg = ((s.tenant u).queues.get {} p).cfg := by
  unfold State.launchCounted
  dsimp only
  rw [State.queue_noteApprox_congr _ l HQueue.cfg fun _ => rfl]
  refine (State.queue_modQueue_congr _ _ _ HQueue.cfg ?_ u p).trans rfl
  exact fun _ => rfl

/-! ## The watchdog (R165, R343, R391) -/

/-- A strand of the launch is asked to pre-empt. -/
def State.askPre (id : Nat) (t : State) (r : SlotRef) : State :=
  match (t.slot r).origin with
  | .launch i _ => if (t.slot r).occ != .free && i == id then t.modSlot r fun x => { x with pre := true } else t
  | _ => t

/-- To ask a slot changes nothing but its request. -/
theorem State.askPre_slot (id : Nat) (t : State) (r q : SlotRef) :
    (t.askPre id r).slot q = t.slot q ∨ (t.askPre id r).slot q = { t.slot q with pre := true } := by
  unfold State.askPre
  split
  · split
    · by_cases h : q = r
      · subst h
        by_cases four : q.slot < 4
        · exact .inr (State.slot_modSlot_same _ _ four)
        · refine .inl ?_
          rw [State.slot_of_not_lt _ four, State.slot_of_not_lt _ four]
      · exact .inl (State.slot_modSlot_ne _ _ h)
    · exact .inl rfl
  · exact .inl rfl

/-- A strand of the launch that is asked. -/
theorem State.askPre_asked {id n : Nat} {t : State} {r : SlotRef} (four : r.slot < 4) (busy : (t.slot r).occ ≠ .free)
    (mine : (t.slot r).origin = .launch id n) : ((t.askPre id r).slot r).pre = true := by
  unfold State.askPre
  rw [mine]
  simp [busy, State.slot_modSlot_same _ _ four]

/-- Of the slots asked in turn, each that is held by a strand of the launch has been asked at the end; nothing but cores changes. -/
theorem State.askPre_all {id : Nat} (l : List SlotRef) (t : State) :
    (∃ cores, l.foldl (State.askPre id) t = { t with cores := cores }) ∧
      ∀ r, r.slot < 4 → (t.slot r).occ ≠ .free → (∃ n, (t.slot r).origin = .launch id n) → r ∈ l ∨ (t.slot r).pre = true →
        ((l.foldl (State.askPre id) t).slot r).pre = true := by
  induction l generalizing t with
  | nil => exact ⟨⟨t.cores, rfl⟩, fun r _ _ _ h => h.resolve_left List.not_mem_nil⟩
  | cons q l ih =>
    obtain ⟨⟨cores, eq⟩, asked⟩ := ih (t.askPre id q)
    refine ⟨?_, fun r four busy ⟨n, mine⟩ h => ?_⟩
    · have one : ∃ cores, t.askPre id q = { t with cores := cores } := by
        unfold State.askPre
        split
        · split
          · exact ⟨_, rfl⟩
          · exact ⟨t.cores, rfl⟩
        · exact ⟨t.cores, rfl⟩
      obtain ⟨cs, one⟩ := one
      exact ⟨cores, by rw [List.foldl_cons, eq, one]⟩
    · have stays : ((t.askPre id q).slot r).occ = (t.slot r).occ ∧ ((t.askPre id q).slot r).origin = (t.slot r).origin ∧
          ((t.slot r).pre = true → ((t.askPre id q).slot r).pre = true) := by
        rcases t.askPre_slot id q r with e | e <;> rw [e]
        · exact ⟨rfl, rfl, fun h => h⟩
        · exact ⟨rfl, rfl, fun _ => rfl⟩
      obtain ⟨occ, origin, pre⟩ := stays
      refine asked r four (by rwa [occ]) ⟨n, origin.trans mine⟩ ?_
      rcases h with h | h
      · rcases List.mem_cons.mp h with rfl | h
        · exact .inr (State.askPre_asked four busy mine)
        · exact .inl h
      · exact .inr (pre h)

/-- The slots of the machine are those of its cores. -/
theorem State.slot_lt_of_mem_allSlots {s : State} {r : SlotRef} (h : r ∈ s.allSlots) : r.slot < 4 := by
  obtain ⟨c, -, hr⟩ := List.mem_flatMap.mp h
  obtain ⟨n, hn, rfl⟩ := List.mem_map.mp hr
  exact List.mem_range.mp hn

/-- The first step of the watchdog, when it is due. -/
theorem State.execWatchdogPre_due {s : State} {vf q : Nat} {l : Launch} (oldest : s.oldestLaunch vf q = some l)
    (due : ((s.tenant vf).queues.get {} q).due s.cycle 0 (fld ((s.tenant vf).queues.get {} q).wdog 19 0) = true) :
    execWatchdogPre vf q s =
      .next (s.allSlots.foldl (State.askPre l.id) (s.modQueue vf q fun h => { h with wstep := 1, wstart := s.cycle })) := by
  unfold execWatchdogPre
  simp only [oldest, due]
  rfl

/-- A table of queues whose queue `q` is put out of service. -/
def disabled (q : Nat) (e : Nat × HQueue) : Nat × HQueue := if e.1 = q then (e.1, { e.2 with cfg := setFld e.2.cfg 63 63 0 }) else e

/-- A field is cleared. -/
theorem bit_disabled (w : Word) : bit (setFld w 63 63 0) 63 = false := by
  have hw : w.toNat < 2 ^ 64 := w.isLt
  simp only [bit, bitOf, setFld, bits, BitVec.toNat_ofNat, beq_eq_false_iff_ne, ne_eq]
  omega

theorem bit_get_disabled (m : AMap HQueue) (q : Nat) : bit (AMap.get {} (m.map (disabled q)) q).cfg 63 = false := by
  induction m with
  | nil => exact (by decide : bit 0#64 63 = false)
  | cons e m ih =>
    obtain ⟨k, h⟩ := e
    by_cases hk : k = q
    · simp [disabled, hk, AMap.get, bit_disabled]
    · simpa [disabled, hk, AMap.get] using ih

theorem fences_get_disabled (m : AMap HQueue) (q p : Nat) : (AMap.get {} (m.map (disabled q)) p).fences = (AMap.get {} m p).fences := by
  induction m with
  | nil => rfl
  | cons e m ih =>
    obtain ⟨k, h⟩ := e
    by_cases hk : k = q
    · simp only [List.map_cons, disabled, hk, if_true, AMap.get]
      split
      · rfl
      · exact ih
    · simp only [List.map_cons, disabled, hk, if_false, AMap.get]
      split
      · rfl
      · exact ih

/-- A queue that is killed: its launches are gone, it is out of service, and no other queue of its tenant has changed. -/
theorem State.killQueue_killed (s : State) (ten q : Nat) :
    (∀ m ∈ (s.killQueue ten q).launches, ¬ (m.ten = ten ∧ m.queue = q)) ∧
      ((s.killQueue ten q).tenant ten).queues = (s.tenant ten).queues.map (disabled q) := by
  unfold State.killQueue
  extract_lets ids s1 s2 s2' s3 s3' s4
  have dropped : s.Beside s1 := s.beside_dropWork _
  have freed : s2'.Beside s3 := State.Beside.foldl (fun t r => .ite (t.beside_freeSlot r) (.refl t)) s2'
  have unsaved : s3.Beside s3' := s3.beside_dropSaved ..
  have unretained : s3'.Beside s4 := State.Beside.foldl (by
    intro t c
    refine State.Beside.trans ?_ (.modCore _ c.1)
    exact State.Beside.foldl (fun u (e : Retained) => u.beside_banksOff c.1 e.tiles e.sb) t) s3'
  have after : s2'.Beside s4 := freed.trans (unsaved.trans unretained)
  refine ⟨fun m hm mine => ?_, ?_⟩
  · change m ∈ s4.launches at hm
    rw [after.launches] at hm
    have kept : m ∈ s1.launches.filter fun l => !ids.contains l.id := hm
    obtain ⟨there, other⟩ := List.mem_filter.mp kept
    rw [dropped.launches] at there
    have listed : m.id ∈ ids := List.mem_map.mpr ⟨m, List.mem_filter.mpr ⟨there, by simp [mine]⟩, rfl⟩
    simp [listed] at other
  · have same : (s4.tenant ten).queues = (s.tenant ten).queues := by
      rw [after.queues, ← dropped.queues]
      exact s2.tenant_modTenant_congr ten (g := Tenant.queues) (by exact fun _ => rfl) ten
    rw [State.tenant_modTenant_same]
    exact congrArg (List.map (disabled q)) same

/-- The second step of the watchdog, when it is due. -/
theorem State.execWatchdogKill_due {s : State} {vf q : Nat} {l : Launch} (oldest : s.oldestLaunch vf q = some l)
    (due : ((s.tenant vf).queues.get {} q).due s.cycle 1 (fld ((s.tenant vf).queues.get {} q).wdog 39 20) = true)
    (first : fld ((s.tenant vf).queues.get {} q).wdog 19 0 ≠ 0) :
    execWatchdogKill vf q s = .next (((s.modQueue vf q fun h => { h with wstep := 0, fences := h.fences ++
      [(s.cycle, (s.launches.filter fun l => l.ten == vf && l.queue == q).map (·.id))] }).killQueue vf q).report
        { ten := vf, cause := 0x12#64, tval := wd q, killed := true, queue := q }) := by
  unfold execWatchdogKill
  simp [oldest, due, first]

/-- A core is fenced, and the report of it made. -/
def State.fenceAt (s : State) (vf q : Nat) (t : State) (r : SlotRef) : State :=
  (t.modCore r.core fun c => { c with fenced := true }).report
    { ten := vf, cause := 0x12#64, tval := wd q, src := s.srcId r, killed := true, fenced := true, queue := q }

theorem State.beside_fenceAt (s : State) (vf q : Nat) (t : State) (r : SlotRef) : t.Beside (s.fenceAt vf q t r) := by
  unfold State.fenceAt
  exact (State.Beside.modCore t r.core fun _ _ => rfl).trans (State.beside_report ..)

/-- Of the cores fenced in turn, each is fenced at the end, and reported. -/
theorem State.fenceAt_all (s : State) (vf q : Nat) (l : List SlotRef) (t : State) : ∀ r ∈ l,
    ((l.foldl (s.fenceAt vf q) t).core r.core).fenced = true ∧
      ∃ p ∈ (l.foldl (s.fenceAt vf q) t).reports, p.ten = vf ∧ p.cause = 0x12#64 ∧ p.fenced = true := by
  induction l generalizing t with
  | nil => exact fun r h => absurd h List.not_mem_nil
  | cons x l ih =>
    intro r hr
    rcases List.mem_cons.mp hr with rfl | hr
    · have rest : (s.fenceAt vf q t r).Beside (l.foldl (s.fenceAt vf q) (s.fenceAt vf q t r)) :=
        State.Beside.foldl (fun u y => s.beside_fenceAt vf q u y) _
      obtain ⟨beside, p, hp, ten, cause, -, -, fenced, -⟩ := (t.modCore r.core fun c => { c with fenced := true }).report_made
        { ten := vf, cause := 0x12#64, tval := wd q, src := s.srcId r, killed := true, fenced := true, queue := q }
      have here : ((t.modCore r.core fun c => { c with fenced := true }).core r.core).fenced = true := by simp [State.modCore]
      exact ⟨rest.fenced _ (beside.fenced _ here), p, rest.reports hp, ten, cause, fenced⟩
    · exact ih _ r hr

/-- The third step of the watchdog, when it is due: one slot of each core that holds a strand of a killed launch stands for the core. -/
theorem State.execWatchdogFence_due {s : State} {vf q t0 : Nat} {ids : List Nat} {rest : List (Nat × List Nat)}
    (fences : ((s.tenant vf).queues.get {} q).fences = (t0, ids) :: rest) (first : fld ((s.tenant vf).queues.get {} q).wdog 19 0 ≠ 0)
    (second : fld ((s.tenant vf).queues.get {} q).wdog 39 20 ≠ 0) (third : fld ((s.tenant vf).queues.get {} q).wdog 59 40 ≠ 0)
    (late : t0 + 700 * fld ((s.tenant vf).queues.get {} q).wdog 59 40 ≤ s.cycle) :
    execWatchdogFence vf q s = .next (((s.allSlots.filter (s.holdsAny ids)).filter fun r =>
      (s.allSlots.filter (s.holdsAny ids)).find? (fun a => a.core == r.core) == some r).foldl (s.fenceAt vf q)
        (s.modQueue vf q fun h => { h with fences := rest })) := by
  unfold execWatchdogFence
  simp only [first, second, third, fences, decide_false, Bool.or_self, Bool.false_eq_true, if_false]
  rw [if_neg (by omega)]
  rfl

/-- Of slots, the first of each core: every core that has a slot among them has one among these. -/
theorem exists_first_of_core {l : List SlotRef} {r : SlotRef} (h : r ∈ l) :
    ∃ a ∈ l.filter (fun x => l.find? (fun a => a.core == x.core) == some x), a.core = r.core := by
  have some_ : (l.find? fun a => a.core == r.core).isSome := List.find?_isSome.mpr ⟨r, h, by simp⟩
  obtain ⟨a, ha⟩ := Option.isSome_iff_exists.mp some_
  have same : a.core = r.core := by simpa using List.find?_some ha
  refine ⟨a, List.mem_filter.mpr ⟨List.mem_of_find?_eq_some ha, ?_⟩, same⟩
  simp [same, ha]

end Sys2Proof.Machine

open Sys2Proof Sys2Proof.Machine

/-- Settles O40: each event takes the branch that its hypotheses choose, and what that branch changes is read off. -/
theorem launchesAreDealtCompletedAndWatched : Obligations.LaunchesAreDealtCompletedAndWatched := by
  refine ⟨?deal, ?complete, ?watch⟩
  case deal =>
    intro s la k found undealt admitted compute share low eight
    let u : State := s.modLaunch la.id fun l => { l with undealt := l.undealt.erase k }
    let e : RunEntry := { work := .launch la.id 0 (la.shareOf k), prio := stPrio la.state, stamp := s.cycle, ten := la.ten, queue := la.queue,
                          home := some k, rel := [(3, la.rel)], st := la.state }
    have run : exec (.launchDeal la.id k) s = .next (u.enterRunList (fld la.place 5 0 + k) e) := by
      change execLaunchDeal la.id k s = _
      unfold execLaunchDeal
      simp only [found]
      rw [if_neg (by simp [undealt, admitted]), if_neg share, compute]
      rfl
    obtain ⟨cores, clusters, entered⟩ := u.enterRunList_eq (fld la.place 5 0 + k) e
    obtain ⟨x, there, same⟩ := State.enterRunList_listed (s := u) low eight e
    refine ⟨_, run, ?_, ?_, x, there, same⟩
    · rw [entered]
      exact State.launch?_modLaunch found fun _ => rfl
    · rw [entered]
      rfl
  case complete =>
    intro s la found halted settled
    obtain ⟨out, rung⟩ := s.launchRung_eq la
    obtain ⟨ts, counted⟩ := s.launchCounted_eq la
    refine ⟨_, State.execLaunchComplete_done found halted settled, ?_, ?_, ?_, fun approx => ?_, ?_⟩
    · rw [rung, counted]
    · rw [rung, counted]
    · rw [rung]
      exact s.launchCounted_done la
    · rw [rung]
      exact State.noteApprox_shown approx
    · intro q ring cfg on vec
      have same := s.launchCounted_cfg la la.ten q
      rw [State.launchRung, ring]
      unfold cfg at on vec ⊢
      rw [← same] at on vec ⊢
      exact State.raiseVec_raised on vec
  case watch =>
    intro s vf q h
    refine ⟨fun la oldest step lim late => ?_, fun la oldest step first lim late => ?_, fun t0 ids rest fences first second third late => ?_⟩
    · have due : h.due s.cycle 0 (fld h.wdog 19 0) = true := by simp [HQueue.due, step, lim, late]
      obtain ⟨⟨cores, all⟩, asked⟩ := State.askPre_all (id := la.id) s.allSlots
        (s.modQueue vf q fun h => { h with wstep := 1, wstart := s.cycle })
      refine ⟨_, State.execWatchdogPre_due oldest due, ?_, ?_, fun r hr busy mine => ?_⟩
      · rw [all]
        rfl
      · rw [all]
        exact congrArg HQueue.wstep (s.queue_modQueue_same vf q fun h => { h with wstep := 1, wstart := s.cycle })
      · exact asked r (State.slot_lt_of_mem_allSlots hr) busy mine (.inl hr)
    · have due : h.due s.cycle 1 (fld h.wdog 39 20) = true := by simp [HQueue.due, step, lim, late]
      let ids := (s.launches.filter fun l => l.ten == vf && l.queue == q).map (·.id)
      let u : State := s.modQueue vf q fun h => { h with wstep := 0, fences := h.fences ++ [(s.cycle, ids)] }
      obtain ⟨gone, queues⟩ := u.killQueue_killed vf q
      obtain ⟨beside, p, hp, ten, cause, tval, killed, -⟩ := (u.killQueue vf q).report_made
        { ten := vf, cause := 0x12#64, tval := wd q, killed := true, queue := q }
      refine ⟨_, State.execWatchdogKill_due oldest due first, ?_, ?_, ?_, p, hp, ten, cause, tval, killed⟩
      · rw [beside.launches]
        exact gone
      · rw [beside.queues, queues]
        exact bit_get_disabled _ q
      · rw [beside.queues, queues, fences_get_disabled]
        exact congrArg HQueue.fences (s.queue_modQueue_same vf q _)
    · let firsts := (s.allSlots.filter (s.holdsAny ids)).filter fun r =>
        (s.allSlots.filter (s.holdsAny ids)).find? (fun a => a.core == r.core) == some r
      let u : State := s.modQueue vf q fun h => { h with fences := rest }
      have beside : u.Beside (firsts.foldl (s.fenceAt vf q) u) := State.Beside.foldl (fun t r => s.beside_fenceAt vf q t r) u
      refine ⟨_, State.execWatchdogFence_due fences first second third late, ?_, fun r hr holds => ?_⟩
      · rw [beside.queues]
        exact congrArg HQueue.fences (s.queue_modQueue_same vf q _)
      · obtain ⟨a, ha, same⟩ := exists_first_of_core (List.mem_filter.mpr ⟨hr, holds⟩)
        rw [← same]
        exact s.fenceAt_all vf q firsts u a ha
end

section
/-! PROOFS. Plain stores (R2, R42, R50): what a write to stack memory or to a unit of this device leaves, and the numbers that stand there then. -/

namespace Sys2Proof.Machine

/-! ## Numbers in memory (R2) -/

@[simp] theorem length_leBytes (n v : Nat) : (leBytes n v).length = n := by
  induction n generalizing v with
  | zero => rfl
  | succ n ih => simp [leBytes, ih]

/-- The bytes of a number are its bytes. -/
theorem leNat_leBytes (n v : Nat) : leNat (leBytes n v) = v % 2 ^ (8 * n) := by
  induction n generalizing v with
  | zero => simp [leBytes, leNat, Nat.mod_one]
  | succ n ih =>
    have split : 2 ^ (8 * (n + 1)) = 256 * 2 ^ (8 * n) := by rw [Nat.mul_add, Nat.pow_add]; omega
    simp only [leBytes, leNat, ih, split, BitVec.toNat_ofNat]
    exact (Nat.mod_mul).symm

/-- The number that stands where bytes were stored. -/
theorem State.num_of_setBytes {s t : State} {k i n : Nat} {bs : List Byte} (hm : t.mem = Memory.setBytes s.mem k bs) (ok : s.memOk)
    (within : i + n ≤ bs.length) : t.num (k + i) n = leNat ((bs.drop i).take n) := by
  unfold State.num
  congr 1
  refine List.ext_getElem (by simp; omega) fun j h1 h2 => ?_
  have hj : j < n := by simpa using h1
  have at_ := Memory.get_setBytes_in s.mem k (i + j) bs ok (by omega)
  simp only [List.getElem_map, List.getElem_range, List.getElem_take, List.getElem_drop, hm, Nat.add_assoc, at_]
  exact List.getD_eq_getElem _ _ (by omega)

/-- The number that stands where a word was stored, alone or among others. -/
theorem State.num_of_setBytes_word {s t : State} {k n v : Nat} {pre post : List Byte}
    (hm : t.mem = Memory.setBytes s.mem k (pre ++ leBytes n v ++ post)) (ok : s.memOk) : t.num (k + pre.length) n = v % 2 ^ (8 * n) := by
  rw [State.num_of_setBytes hm ok (by simp), List.append_assoc, List.drop_left, List.take_left' (length_leBytes n v), leNat_leBytes]

/-- Bytes that were stored change no byte elsewhere. -/
theorem State.onlyAt_of_setBytes {s t : State} {k n : Nat} {bs : List Byte} (hm : t.mem = Memory.setBytes s.mem k bs) (hn : bs.length = n) :
    s.onlyAt t k n := by
  intro a ha
  rw [hm]
  exact Memory.get_setBytes_out _ _ _ _ (by omega)

/-! ## Keys of this device (R42) -/

theorem State.place_of_chip (s : State) {k : Nat} (h : chipBit ≤ k) : s.place k = .chip := if_pos h

theorem State.lostKey_of_chip (s : State) (ten : Nat) {k : Nat} (h : chipBit ≤ k) : s.lostKey ten k = false := by
  unfold State.lostKey
  rw [s.place_of_chip h]

theorem State.rdByte_of_chip (s : State) (ten : Nat) {k : Nat} (h : chipBit ≤ k) (near : k < farBit) : s.rdByte ten k = Memory.get s.mem k := by
  unfold State.rdByte
  dsimp only
  rw [if_neg (by omega), s.place_of_chip h]

/-- The bytes of units of this device read as they stand. -/
theorem State.rdBytes_of_chip (s : State) (ten : Nat) {k n : Nat} (h : chipBit ≤ k) (near : k + n ≤ farBit) :
    s.rdBytes ten k n = (List.range n).map fun j => Memory.get s.mem (k + j) := by
  induction n generalizing k with
  | zero => rfl
  | succ n ih =>
    rw [State.rdBytes, s.rdByte_of_chip ten h (by omega), ih (by omega) (by omega), List.range_succ_eq_map]
    simp [Nat.add_comm, Nat.add_left_comm]

/-- A word of a unit of this device reads as it stands. -/
theorem State.leNat_rdBytes_of_chip (s : State) (ten : Nat) {k n : Nat} (h : chipBit ≤ k) (near : k + n ≤ farBit) :
    leNat (s.rdBytes ten k n) = s.num k n := by
  rw [s.rdBytes_of_chip ten h near, State.num]

/-- With nothing poisoned, no byte of a unit of this device is. -/
theorem State.poisoned_of_chip {s : State} (clean : s.poison = []) (ten : Nat) {k : Nat} (h : chipBit ≤ k) (n : Nat) : s.poisoned ten k n = none := by
  simp [State.poisoned, s.lostKey_of_chip ten h, clean]

/-! ## Stores -/

/-- What a write notes beside the bytes that it stores. -/
theorem State.noteWrite_eq (s : State) (p ten k : Nat) (bs : List Byte) (rel : Rels) :
    ∃ ws ps fr, s.noteWrite p ten k bs rel = { s with writes := ws, parties := ps, fresh := fr } := ⟨_, _, _, rfl⟩

/-- A store to stack memory or to a unit of this device: its bytes stand there, and what the write notes. -/
theorem State.write_plain {s : State} {k : Nat} (plain : s.place k = .chip ∨ s.place k = .stack) (near : k < farBit) (p ten : Nat)
    (bs : List Byte) (rel : Rels) :
    ∃ g ws ps fr, s.write p ten k bs rel =
      { s with mem := Memory.setBytes s.mem k bs, poison := s.poison.filter g, writes := ws, parties := ps, fresh := fr } := by
  obtain ⟨ws, ps, fr, noted⟩ := s.noteWrite_eq p ten k bs rel
  refine ⟨fun g => !(decide (k ≤ g) && decide (g + 16 ≤ k + bs.length)), ws, ps, fr, ?_⟩
  have place : ∀ t : State, t.capunits = s.capunits → t.place k = s.place k := by
    intro t ht
    unfold State.place State.channels
    rw [ht]
  have lost : ∀ t : State, t.capunits = s.capunits → t.lostKey ten k = false := by
    intro t ht
    unfold State.lostKey
    rw [place t ht]
    rcases plain with h | h <;> rw [h]
  have kept : ∀ t : State, t.capunits = s.capunits → t.rekey ten k = t := by
    intro t ht
    unfold State.rekey
    rw [place t ht]
    rcases plain with h | h <;> rw [h]
  have silent : ∀ t : State, t.capunits = s.capunits → t.hostReq ten true k bs.length = t := by
    intro t ht
    unfold State.hostReq
    rw [place t ht]
    rcases plain with h | h <;> rw [h] <;> rfl
  have wrote : ∀ t : State, t.capunits = s.capunits → t.wrBytes ten k bs =
      { t with mem := Memory.setBytes t.mem k bs, poison := t.poison.filter fun g => !(decide (k ≤ g) && decide (g + 16 ≤ k + bs.length)) } := by
    intro t ht
    unfold State.wrBytes
    rw [lost t ht, kept t ht, if_neg (by simp; omega)]
  unfold State.write
  rw [lost s rfl, if_neg (by decide), noted]
  rw [wrote { s with writes := ws, parties := ps, fresh := fr } rfl]
  exact silent { s with mem := Memory.setBytes s.mem k bs, writes := ws, parties := ps, fresh := fr
                        poison := s.poison.filter fun g => !(decide (k ≤ g) && decide (g + 16 ≤ k + bs.length)) } rfl

/-- From `s` to `t` bytes were stored at `k`, and nothing else has changed of what is told here. -/
structure State.Stores (s t : State) (k : Nat) (bs : List Byte) : Prop where
  mem : t.mem = Memory.setBytes s.mem k bs
  poison : s.poison = [] → t.poison = []
  cores : t.cores = s.cores
  clusters : t.clusters = s.clusters
  tenants : t.tenants = s.tenants
  capunits : t.capunits = s.capunits
  flights : t.flights = s.flights
  cycle : t.cycle = s.cycle
  cur : t.cur = s.cur

theorem State.stores_write {s : State} {k : Nat} (plain : s.place k = .chip ∨ s.place k = .stack) (near : k < farBit) (p ten : Nat)
    (bs : List Byte) (rel : Rels) : s.Stores (s.write p ten k bs rel) k bs := by
  obtain ⟨g, ws, ps, fr, written⟩ := State.write_plain plain near p ten bs rel
  rw [written]
  exact ⟨rfl, fun clean => by dsimp only; rw [clean, List.filter_nil], rfl, rfl, rfl, rfl, rfl, rfl, rfl⟩

end Sys2Proof.Machine
end

section
/-! PROOFS. Counter cells (R29, R33, R251 to R255, R291). -/

namespace Sys2Proof.Machine

/-! ## A lawful cell (R29, R426) -/

/-- Where a lawful cell lies: in the scratch of a core of this device, sixteen bytes from an aligned address. -/
structure CellPlace (cell : Word) : Prop where
  aligned : cell.toNat % 16 = 0
  chip : chipBit ≤ cell.toNat
  near : cell.toNat + 32 ≤ farBit
  unit : (chipOf cell.toNat).unit < 16
  region : (chipOf cell.toNat).region = 0
  cluster : (chipOf cell.toNat).cluster < 128

/-- What is lawful as a cell, by each of its checks. -/
theorem State.cellFault_none {s : State} {ten : Nat} {cell : Word} (h : s.cellFault ten cell = none) :
    cell.toNat % 16 = 0 ∧ fld cell 63 57 = 0 ∧ bit cell 56 = true ∧ inScr cell.toNat = true ∧ s.inMap cell.toNat = true := by
  unfold State.cellFault at h
  split at h
  · exact absurd h nofun
  · next aligned =>
    split at h
    · exact absurd h nofun
    · next lawful =>
      simp only [Bool.or_eq_true, Bool.not_eq_true', decide_eq_true_eq, not_or, Bool.not_eq_false, not_not] at lawful
      obtain ⟨⟨⟨⟨high, chip⟩, scr⟩, map⟩, -⟩ := lawful
      exact ⟨by omega, high, chip, scr, map⟩

theorem State.cellPlace {s : State} {ten : Nat} {cell : Word} (h : s.cellFault ten cell = none) : CellPlace cell := by
  obtain ⟨aligned, high, -, scr, map⟩ := State.cellFault_none h
  unfold inScr at scr
  simp only [Bool.and_eq_true, decide_eq_true_eq] at scr
  obtain ⟨⟨chip, unit⟩, region⟩ := scr
  have zero : bits cell.toNat 55 35 = 0 := by
    simp only [State.inMap, Bool.and_eq_true, decide_eq_true_eq] at map
    exact map.1.1
  have near : cell.toNat + 32 ≤ farBit := by
    have := cell.isLt
    unfold fld bits at high
    unfold bits at zero
    unfold farBit
    unfold chipBit at chip
    omega
  refine ⟨aligned, chip, near, unit, region, ?_⟩
  unfold chipOf
  split
  · exact (Nat.mod_lt _ (by omega)).trans_le (by decide)
  · decide

/-! ## What the performance of an operation on a cell leaves before it changes the cell -/

/-- The machine when an operation of `s` performs on its cell: what it has counted and seen is noted, and nothing else has changed of what is told
here. -/
structure State.Attends (s u : State) : Prop where
  mem : u.mem = s.mem
  poison : u.poison = s.poison
  flights : u.flights = s.flights
  clusters : u.clusters = s.clusters
  tenants : u.tenants = s.tenants
  capunits : u.capunits = s.capunits
  tasks : ∀ k, (u.core k).tasks = (s.core k).tasks
  retained : ∀ k, (u.core k).retained = (s.core k).retained

theorem State.Attends.trans {s t u : State} (h : s.Attends t) (g : t.Attends u) : s.Attends u :=
  ⟨g.mem.trans h.mem, g.poison.trans h.poison, g.flights.trans h.flights, g.clusters.trans h.clusters, g.tenants.trans h.tenants,
    g.capunits.trans h.capunits, fun k => (g.tasks k).trans (h.tasks k), fun k => (g.retained k).trans (h.retained k)⟩

theorem State.Attends.refl (s : State) : s.Attends s := ⟨rfl, rfl, rfl, rfl, rfl, rfl, fun _ => rfl, fun _ => rfl⟩

/-- What an update of a core leaves of it, it leaves of every core. -/
theorem State.core_modCore_congr {α : Type} (s : State) (k : Nat) {f : Core → Core} (g : Core → α) (hf : ∀ c, g (f c) = g c) (j : Nat) :
    g ((s.modCore k f).core j) = g (s.core j) := by
  by_cases h : j = k
  · subst h
    simp [State.modCore, hf]
  · rw [State.modCore, State.core_setCore_ne _ _ h]

theorem State.attends_countPkt (s : State) (core cls : Nat) (sent : Bool) : s.Attends (s.countPkt core cls sent) := by
  unfold State.countPkt
  split
  · exact .refl s
  · refine ⟨rfl, rfl, rfl, rfl, rfl, rfl, fun k => ?_, fun k => ?_⟩
    · exact s.core_modCore_congr core Core.tasks (by intro c; split <;> rfl) k
    · exact s.core_modCore_congr core Core.retained (by intro c; split <;> rfl) k

theorem State.attends_deliver (s : State) (t : Option Nat) (cls : Nat) : s.Attends (s.deliver t cls) := by
  unfold State.deliver
  split
  · exact s.attends_countPkt ..
  · exact .refl s

theorem State.attends_countResponse (s : State) (t : Option Nat) (core : Nat) : s.Attends (s.countResponse t core) := by
  unfold State.countResponse
  refine State.Attends.trans ?_ (State.attends_countPkt _ core 1 false)
  split
  · exact s.attends_countPkt ..
  · exact .refl s

theorem State.attends_exchanged (s : State) (f : Flight) : s.Attends (s.exchanged f) := by
  unfold State.exchanged
  split
  · exact s.attends_deliver ..
  · split
    · exact .refl s
    · split
      · exact s.attends_deliver ..
      · exact (s.attends_deliver ..).trans (State.attends_countResponse ..)

/-- A cell whose bank is Full answers with its words. -/
theorem State.cellAt_full {s : State} {cell : Word} (here : CellPlace cell) (clean : s.poison = [])
    (full : (s.core (chipOf cell.toNat).core).bank (16 + (chipOf cell.toNat).off / 0x2000) = 2) (party ten : Nat) :
    ∃ rels ps, s.cellAt party ten cell.toNat =
      .words (wd (s.num cell.toNat 8)) (wd (s.num (cell.toNat + 8) 8)) rels { s with parties := ps } := by
  have chip := here.chip
  have near := here.near
  have notWindow : isWindow cell.toNat = false := by
    simp [isWindow, here.unit, here.region]
  have bank : (chipOf cell.toNat).bank? = some (16 + (chipOf cell.toNat).off / 0x2000) := by
    simp [Chip.bank?, here.unit, here.region]
  have ready : s.bankRead (chipOf cell.toNat).core (16 + (chipOf cell.toNat).off / 0x2000) = (.ok, s) := by
    simp only [State.bankRead, full]
  have silent : ∀ t : State, t.hostReq ten false cell.toNat 16 = t := by
    intro t
    unfold State.hostReq
    rw [t.place_of_chip chip, if_neg nofun]
  unfold State.cellAt State.readAt
  rw [notWindow, if_neg (by decide), if_pos chip, bank]
  dsimp only
  rw [ready]
  dsimp only
  rw [State.poisoned_of_chip clean ten chip]
  dsimp only
  rw [s.leNat_rdBytes_of_chip ten chip (by omega), s.leNat_rdBytes_of_chip ten (k := cell.toNat + 8) (by omega) (by omega)]
  refine ⟨_, _, congrArg (CellAns.words _ _ _) (silent _)⟩

end Sys2Proof.Machine
end

section
/-! PROOFS. Operations on counter cells (R29, R33, R251 to R255, R291, R389). -/

namespace Sys2Proof.Machine

/-! ## The turn of an operation at its cell -/

/-- An operation that is due at its cell has its turn. -/
theorem State.AtCell.onTurn {s : State} {f : Flight} {cell : Word} (h : s.AtCell f cell) (loc : f.act.location = some (cell.toNat, 16))
    (k : State → State) : s.onTurn f k = k { s with servedAt := (cell.toNat, 16) :: s.servedAt } := by
  obtain ⟨reached, turn⟩ := h.turn
  have direct : s.forwardOf f.who.core cell.toNat = none := (h.stays _ (by simp)).2
  have here : s.locationOf f = some (cell.toNat, 16) := by
    unfold State.locationOf
    split
    · next ws act =>
      rw [act] at loc
      exact absurd loc nofun
    · rw [loc, Option.map_some, State.redirect, direct]
  unfold State.onTurn
  rw [h.due, here]
  dsimp only
  rw [turn _ here]
  simp [Option.isSome_iff_ne_none.mp reached]

/-- What an operation at its cell finds there: the words of the cell. -/
theorem State.AtCell.words {s : State} {f : Flight} {cell : Word} (h : s.AtCell f cell) :
    ∃ rels ps, State.cellAt { s with servedAt := (cell.toNat, 16) :: s.servedAt } f.party f.ten cell.toNat =
      .words (wd (s.num cell.toNat 8)) (wd (s.num (cell.toNat + 8) 8)) rels
        { s with servedAt := (cell.toNat, 16) :: s.servedAt, parties := ps } :=
  State.cellAt_full (s := { s with servedAt := (cell.toNat, 16) :: s.servedAt }) (State.cellPlace h.lawful) h.clean h.full f.party f.ten

/-- No forwarding record stands between an operation and its cell. -/
theorem State.AtCell.redirect {s : State} {f : Flight} {cell : Word} (h : s.AtCell f cell) :
    State.redirect { s with servedAt := (cell.toNat, 16) :: s.servedAt } f.who.core cell.toNat =
      (cell.toNat, { s with servedAt := (cell.toNat, 16) :: s.servedAt }) := by
  have direct : State.forwardOf { s with servedAt := (cell.toNat, 16) :: s.servedAt } f.who.core cell.toNat = none := (h.stays _ (by simp)).2
  unfold State.redirect
  rw [direct]

/-- An operation at its cell performs on the words that stand there. -/
theorem State.AtCell.performs {s : State} {f : Flight} {cell : Word} (h : s.AtCell f cell) (loc : f.act.location = some (cell.toNat, 16))
    (op : Nat → Word → Word → Rels → State → State) :
    ∃ rels u, s.onCell f cell op = op cell.toNat (wd (s.num cell.toNat 8)) (wd (s.num (cell.toNat + 8) 8)) rels u ∧ s.Attends u := by
  obtain ⟨rels, ps, words⟩ := h.words
  have open_ : State.barredAt { s with servedAt := (cell.toNat, 16) :: s.servedAt } f.from? cell.toNat = false := (h.stays _ (by simp)).1
  have near : ¬ farBit ≤ cell.toNat := by
    have := (State.cellPlace h.lawful).near
    omega
  let t : State := { s with servedAt := (cell.toNat, 16) :: s.servedAt, parties := ps }
  have seen : s.Attends t := ⟨rfl, rfl, rfl, rfl, rfl, rfl, fun _ => rfl, fun _ => rfl⟩
  refine ⟨rels ++ t.cellRel f, t.exchanged f, ?_, seen.trans (t.attends_exchanged f)⟩
  unfold State.onCell
  rw [h.due, h.lawful]
  dsimp only
  rw [if_neg (by decide), h.onTurn loc, State.performCell, open_, if_neg (by decide), h.redirect]
  dsimp only
  rw [if_neg near, words]

/-- A flight is found among the same flights. -/
theorem State.flight?_congr {s t : State} (h : t.flights = s.flights) (id : Nat) : t.flight? id = s.flight? id := by
  unfold State.flight?
  rw [h]

/-! ## DECR (R29, R252) -/

/-- The words of a cell of which an amount has been taken. -/
def cellBytes (count waiter : Word) : List Byte := leBytes 8 count.toNat ++ leBytes 8 waiter.toNat

/-- What is left of a count. -/
def leftOf (count amount : Word) : Word := if count ≤ amount then 0#64 else count - amount

theorem toNat_leftOf (count amount : Word) : (leftOf count amount).toNat = count.toNat - amount.toNat := by
  unfold leftOf
  split <;> bv_omega

/-- Storing the words of a cell. -/
theorem State.stores_cell {s : State} {cell : Word} (here : CellPlace cell) (p ten : Nat) (bs : List Byte) (rel : Rels) :
    s.Stores (s.write p ten cell.toNat bs rel) cell.toNat bs :=
  State.stores_write (.inl (s.place_of_chip here.chip)) (by have := here.near; omega) p ten bs rel

/-- The fall of a count is noted in a core, or not at all. -/
theorem State.noteFall_eq (s : State) (ten k : Nat) (count left waiter : Word) :
    ∃ cores, s.noteFall ten k count left waiter = { s with cores := cores } := by
  unfold State.noteFall
  split
  · exact ⟨_, rfl⟩
  · exact ⟨s.cores, rfl⟩

/-- A DECR that does not fire: the cell holds what is left and its waiter. -/
theorem State.decrCell_quiet {s : State} {cell : Word} (here : CellPlace cell) {count waiter amount : Word}
    (quiet : count = 0#64 ∨ amount < count ∨ fld waiter 63 62 = 0) (party ten : Nat) (rels : Rels) :
    (s.decrCell party ten cell.toNat count waiter amount rels).mem = Memory.setBytes s.mem cell.toNat (cellBytes (leftOf count amount) waiter) ∧
      (s.decrCell party ten cell.toNat count waiter amount rels).flights = s.flights := by
  have silent : (count != 0#64 && leftOf count amount == 0#64 && fld waiter 63 62 != 0) = false := by
    rcases quiet with h | h | h
    · simp [h]
    · have some_ : leftOf count amount ≠ 0#64 := by
        unfold leftOf
        split <;> bv_omega
      simp [some_]
    · simp [h]
  have stores := State.stores_cell (s := s) here party ten (cellBytes (leftOf count amount) waiter) rels
  unfold State.decrCell
  extract_lets left kind fires s1 cl s2
  have calm : fires = false := silent
  obtain ⟨cores, noted⟩ := s1.noteFall_eq ten cell.toNat count left waiter
  have hs2 : s2 = { s1 with cores := cores } := by
    dsimp only [s2]
    rw [calm, if_neg (by decide), noted]
  have hs1 : s1 = s.write party ten cell.toNat (cellBytes (leftOf count amount) waiter) rels := by
    dsimp only [s1]
    rw [calm, if_neg (by decide)]
    rfl
  have kept : s2.mem = Memory.setBytes s.mem cell.toNat (cellBytes (leftOf count amount) waiter) ∧ s2.flights = s.flights := by
    rw [hs2, hs1]
    exact ⟨stores.mem, stores.flights⟩
  split
  · exact kept
  · exact kept

/-- A DECR that fires a task: both words are cleared, the task is entered, and the shortfall is counted. -/
theorem State.decrCell_fires {s : State} {cell : Word} (here : CellPlace cell) {count waiter amount : Word}
    (some_ : count ≠ 0#64) (all : count ≤ amount) (kind : fld waiter 63 62 = 1) (party ten : Nat) (rels : Rels) :
    ∃ x, s.Stores x cell.toNat (cellBytes 0#64 0#64) ∧ s.decrCell party ten cell.toNat count waiter amount rels =
      if count < amount then (x.enterTask ten (wd (fld waiter 56 0)) rels).modCluster (chipOf cell.toNat).cluster fun c =>
        { c with under := c.under.put ten ((c.under.get 0 ten + 1) % 2 ^ 64) }
      else x.enterTask ten (wd (fld waiter 56 0)) rels := by
  have none_ : leftOf count amount = 0#64 := if_pos all
  have firing : (count != 0#64 && leftOf count amount == 0#64 && fld waiter 63 62 != 0) = true := by simp [some_, none_, kind]
  refine ⟨_, State.stores_cell here party ten (cellBytes 0#64 0#64) rels, ?_⟩
  unfold State.decrCell
  extract_lets left kind' fires s1 cl s2
  have fire : fires = true := firing
  have zero : left = 0#64 := none_
  have task : kind' = 1 := kind
  have hs2 : s2 = (s.write party ten cell.toNat (cellBytes 0#64 0#64) rels).enterTask ten (wd (fld waiter 56 0)) rels := by
    dsimp only [s2, s1]
    rw [fire, if_pos rfl, if_pos rfl, zero, task]
    rfl
  rw [hs2]

/-! ## The entry of a task (R33) -/

theorem State.coreOf_congr {s t : State} (hc : t.capunits = s.capunits) (ht : t.tenants = s.tenants) : t.coreOf = s.coreOf := by
  funext ten core
  unfold State.coreOf State.memCoreOf State.nclusters State.channels State.tenant
  rw [hc, ht]

theorem State.inMap_congr {s t : State} (hc : t.capunits = s.capunits) : t.inMap = s.inMap := by
  funext k
  unfold State.inMap State.nclusters
  rw [hc]

theorem State.cellFault_congr {s t : State} (hc : t.capunits = s.capunits) (ht : t.tenants = s.tenants) (ten : Nat) (cell : Word) :
    t.cellFault ten cell = s.cellFault ten cell := by
  unfold State.cellFault State.inPartition State.nclusters
  rw [State.coreOf_congr hc ht, State.inMap_congr hc, hc]

/-- The home of a task lies in a cluster. -/
theorem CellPlace.core_lt {cell : Word} (h : CellPlace cell) : (chipOf cell.toNat).core / 16 < 1024 := by
  have := h.cluster
  have := h.unit
  unfold Chip.core
  omega

/-- A task whose packet is in the shadow of its home core enters the run list of that core's cluster, as its header says. -/
theorem State.enterTask_enters {s : State} {ten : Nat} {p : Word} {task : ShadowTask} (lawful : s.cellFault ten p = none)
    (own : s.coreOf ten (chipOf p.toNat).core = true)
    (shadow : (s.core (chipOf p.toNat).core).tasks.find? (fun t => t.handle == p) = some task)
    (sound : ∀ e ∈ (s.core (chipOf p.toNat).core).tasks, e.handle = p → e.bad = false) (header : headerBad (wordAt task.words 0) = false)
    (clean : s.poison = []) (rels : Rels) :
    ∃ e, s.enterTask ten p rels = s.enterRunList ((chipOf p.toNat).core / 16) e ∧ e.work = .task p ∧ e.ten = ten ∧
      e.home = some (chipOf p.toNat).core ∧ e.prio = fld (wordAt task.words 0) 63 58 := by
  obtain ⟨-, high, chip, scr, map⟩ := State.cellFault_none lawful
  have place := State.cellPlace lawful
  have good : (s.core (chipOf p.toNat).core).tasks.find? (fun t => t.handle == p && t.bad) = none := by
    rw [List.find?_eq_none]
    intro e he bad
    simp only [Bool.and_eq_true, beq_iff_eq] at bad
    exact absurd bad.2 (by simp [sound e he bad.1])
  have state : s.taskState ten p = wordAt task.words 0 := by
    unfold State.taskState
    rw [shadow, State.poisoned_of_chip clean ten (by have := place.chip; omega)]
    simp [header]
  refine ⟨s.freshEntry { work := .task p, prio := 0, stamp := s.cycle, ten := ten, queue := 0, home := some (chipOf p.toNat).core, rel := rels },
    ?_, ?_⟩
  · unfold State.enterTask
    dsimp only
    rw [good, if_neg (by simp [chip, high, scr, map, own])]
  · unfold State.freshEntry
    dsimp only
    rw [state]
    exact ⟨rfl, rfl, rfl, rfl⟩

/-- What an update of a cluster leaves of it, it leaves of every cluster. -/
theorem State.cluster_modCluster_congr {α : Type} (s : State) (k : Nat) {f : Cluster → Cluster} (g : Cluster → α) (hf : ∀ c, g (f c) = g c)
    (j : Nat) :
    g ((s.modCluster k f).cluster j) = g (s.cluster j) := by
  by_cases h : j = k
  · rw [h, State.cluster_modCluster_same, hf]
  · exact congrArg g (AMap.get_put_ne _ _ _ h)

/-- Entries of the same work differ in their stamps alone. -/
theorem RunEntry.sameWork.fields {a b : RunEntry} (h : a.sameWork b) : a.work = b.work ∧ a.ten = b.ten ∧ a.home = b.home ∧ a.prio = b.prio := by
  unfold RunEntry.sameWork at h
  exact ⟨congrArg (·.work) h, congrArg (·.ten) h, congrArg (·.home) h, congrArg (·.prio) h⟩

/-! ## TASKQ and AWAIT (R251, R255) -/

/-- A cell that is not 0 keeps its waiter. -/
theorem State.waitCell_waits {s : State} {cell : Word} (here : CellPlace cell) {count : Word} (some_ : count ≠ 0#64)
    (party ten kind : Nat) (addr : Word) (rels : Rels) :
    (s.waitCell party ten cell.toNat kind addr count rels).mem = Memory.setBytes s.mem (cell.toNat + 8) (leBytes 8 (waiterWord kind addr).toNat) ∧
      (s.waitCell party ten cell.toNat kind addr count rels).flights = s.flights := by
  have near := here.near
  have chip := here.chip
  have stores : ∀ t : State, t.Stores (t.write party ten (cell.toNat + 8) (leBytes 8 (waiterWord kind addr).toNat) rels)
      (cell.toNat + 8) (leBytes 8 (waiterWord kind addr).toNat) := fun t =>
    State.stores_write (.inl (t.place_of_chip (by omega))) (by omega) party ten _ rels
  unfold State.waitCell
  rw [if_neg some_]
  split
  · exact ⟨(stores (s.freshPacket cell.toNat)).mem, (stores (s.freshPacket cell.toNat)).flights⟩
  · exact ⟨(stores s).mem, (stores s).flights⟩

theorem toNat_waiterWord {kind : Nat} (h : kind < 4) (addr : Word) : (waiterWord kind addr).toNat = kind * 2 ^ 62 + addr.toNat % 2 ^ 57 := by
  simp only [waiterWord, wd, fld, bits, BitVec.toNat_ofNat]
  omega

/-! ## The binding of retained banks (R254, R389) -/

/-- What every step of a loop leaves, the loop leaves. -/
theorem State.foldl_keeps {α β : Type} {l : List β} {f : State → β → State} (g : State → α) (hf : ∀ t x, g (f t x) = g t) (s : State) :
    g (l.foldl f s) = g s := by
  induction l generalizing s with
  | nil => rfl
  | cons x l ih => exact (ih (f s x)).trans (hf s x)

/-- To turn banks Off leaves what it leaves for each bank. -/
theorem State.banksOff_keeps {α : Type} (g : State → α) {core : Nat} (hg : ∀ (t : State) n, g (t.bankOff core n) = g t) (s : State) (tiles : List Nat)
    (sb : BitVec 48) : g (s.banksOff core tiles sb) = g s := State.foldl_keeps g hg s

/-- To turn a bank Off leaves what cores retain. -/
theorem State.retained_bankOff (s : State) (core n k : Nat) : ((s.bankOff core n).core k).retained = (s.core k).retained :=
  s.core_modCore_congr core (f := fun d => { d.setBank n 0 with hints := d.hints.filter fun h => h.1 != n }) Core.retained
    (by intro d; unfold Core.setBank; split <;> rfl) k

/-- What stands among the retained banks of a core still stands when those of another handle go Off. -/
theorem State.mem_retained_dropRetained {s : State} {ten k : Nat} {handle : Word} {e : Retained} (h : e ∈ (s.core k).retained)
    (other : ¬ (e.handle = handle ∧ e.ten = ten)) : e ∈ ((s.dropRetained ten handle).core k).retained := by
  unfold State.dropRetained
  generalize s.cores = l
  induction l generalizing s with
  | nil => exact h
  | cons c l ih =>
    refine ih ?_
    have off : e ∈ (((c.2.retained.filter fun e => e.handle == handle && e.ten == ten).foldl (fun u e => u.banksOff c.1 e.tiles e.sb) s).core
        k).retained := by
      rwa [State.foldl_keeps (fun t : State => (t.core k).retained) fun t (x : Retained) =>
        State.banksOff_keeps (fun t : State => (t.core k).retained) (fun u n => u.retained_bankOff c.1 n k) t x.tiles x.sb]
    dsimp only
    split
    · exact h
    · by_cases hk : k = c.1
      · subst hk
        simp only [State.modCore, State.core_setCore_same, List.mem_filter]
        exact ⟨off, by simpa [imp_iff_not_or] using other⟩
      · rwa [State.modCore, State.core_setCore_ne _ _ hk]

/-- To turn retained banks Off changes no flight. -/
theorem State.dropRetained_flights (s : State) (ten : Nat) (handle : Word) : (s.dropRetained ten handle).flights = s.flights := by
  refine State.foldl_keeps State.flights (fun t c => ?_) s
  have off : ∀ (l : List Retained), (l.foldl (fun u e => u.banksOff c.1 e.tiles e.sb) t).flights = t.flights := fun l =>
    State.foldl_keeps State.flights (fun u (e : Retained) => State.banksOff_keeps State.flights (fun _ _ => rfl) u e.tiles e.sb) t
  dsimp only
  split
  · rfl
  · exact off _

end Sys2Proof.Machine
end

section
/-! PROOFS. Cells count down, hold their waiter and fire it at zero (R29, R33, R251 to R255, R291, R389). -/

namespace Sys2Proof.Machine

/-- The words of a cell that were stored. -/
theorem State.cell_of_setBytes {s t : State} {k : Nat} {count waiter : Word} (hm : t.mem = Memory.setBytes s.mem k (cellBytes count waiter))
    (ok : s.memOk) : t.num k 8 = count.toNat ∧ t.num (k + 8) 8 = waiter.toNat ∧ s.onlyAt t k 16 := by
  have first := State.num_of_setBytes_word (s := s) (t := t) (k := k) (n := 8) (v := count.toNat) (pre := []) (post := leBytes 8 waiter.toNat) hm ok
  have second := State.num_of_setBytes_word (s := s) (t := t) (k := k) (n := 8) (v := waiter.toNat) (pre := leBytes 8 count.toNat) (post := [])
    (by rw [hm, cellBytes, List.append_nil]) ok
  rw [length_leBytes] at second
  exact ⟨first.trans (Nat.mod_eq_of_lt count.isLt), second.trans (Nat.mod_eq_of_lt waiter.isLt),
    State.onlyAt_of_setBytes hm (by simp [cellBytes])⟩

/-- What ends an operation on a cell: its party's fence is open again, and its flight answered. -/
def State.cellDone (s : State) (f : Flight) (v : Word) : State := (s.released f.party).finish f v

theorem State.cellDone_eq (s : State) (f : Flight) (v : Word) : ∃ fs ps, s.cellDone f v = { s with flights := fs, parties := ps } := by
  obtain ⟨fs, h⟩ := (s.released f.party).finish_eq f v
  exact ⟨fs, _, h⟩

theorem State.cellDone_answered {s u : State} {f : Flight} (found : s.flight? f.id = some f) (same : u.flights = s.flights) (v : Word) :
    (u.cellDone f v).Answered f v :=
  State.finish_answered (s := u.released f.party) ((State.flight?_congr (s := s) same f.id).trans found) v

/-- A DECR whose cell is reached takes its amount. -/
theorem State.AtCell.decr {s : State} {f : Flight} {cell amount : Word} {d : Dest} (h : s.AtCell f cell) (act : f.act = .decr d cell amount) :
    ∃ rels u, exec (.cellDecr f.id) s = .next ((u.decrCell f.party f.ten cell.toNat (wd (s.num cell.toNat 8)) (wd (s.num (cell.toNat + 8) 8)) amount
      rels).cellDone f (wd (s.num cell.toNat 8))) ∧ s.Attends u := by
  obtain ⟨rels, u, performed, attends⟩ := h.performs (by rw [act]; rfl) (cellOp f)
  refine ⟨rels, u, ?_, attends⟩
  change execCellDecr f.id s = _
  unfold execCellDecr
  simp only [h.found, act]
  rw [performed]
  unfold cellOp
  rw [act]
  rfl

/-- A TASKQ or AWAIT whose cell is reached. -/
theorem State.AtCell.taskq {s : State} {f : Flight} {cell : Word} (h : s.AtCell f cell) (act : f.act = .taskq cell) :
    ∃ rels u, exec (.cellTaskq f.id) s = .next ((u.waitCell f.party f.ten cell.toNat 1 cell (wd (s.num cell.toNat 8)) rels).cellDone f 0#64) ∧
      s.Attends u := by
  obtain ⟨rels, u, performed, attends⟩ := h.performs (by rw [act]; rfl) (cellOp f)
  refine ⟨rels, u, ?_, attends⟩
  change execCellTaskq f.id s = _
  unfold execCellTaskq
  simp only [h.found, act]
  rw [performed]
  unfold cellOp
  rw [act]
  rfl

theorem State.AtCell.await {s : State} {f : Flight} {cell rec : Word} {e : RunEntry} (h : s.AtCell f cell) (act : f.act = .await cell rec e) :
    ∃ rels u, exec (.cellAwait f.id) s = .next ((u.waitCell f.party f.ten cell.toNat 2 rec (wd (s.num cell.toNat 8)) rels).cellDone f 0#64) ∧
      s.Attends u := by
  obtain ⟨rels, u, performed, attends⟩ := h.performs (by rw [act]; rfl) (cellOp f)
  refine ⟨rels, u, ?_, attends⟩
  change execCellAwait f.id s = _
  unfold execCellAwait
  simp only [h.found, act]
  rw [performed]
  unfold cellOp
  rw [act]
  rfl

/-- A waiter that a cell keeps stands in its second word, and its operation is over. -/
theorem State.waitCell_kept {s u : State} {f : Flight} {cell : Word} (h : s.AtCell f cell) (attends : s.Attends u) (silent : f.act.dest = .none)
    {count : Word} (some_ : count ≠ 0#64) {kind : Nat} (small : kind < 4) (addr : Word) (rels : Rels) :
    ((u.waitCell f.party f.ten cell.toNat kind addr count rels).cellDone f 0#64).num (cell.toNat + 8) 8 = kind * 2 ^ 62 + addr.toNat % 2 ^ 57 ∧
      s.onlyAt ((u.waitCell f.party f.ten cell.toNat kind addr count rels).cellDone f 0#64) (cell.toNat + 8) 8 ∧
      ((u.waitCell f.party f.ten cell.toNat kind addr count rels).cellDone f 0#64).flight? f.id = none := by
  obtain ⟨stored, flights⟩ := State.waitCell_waits (s := u) (State.cellPlace h.lawful) some_ f.party f.ten kind
    addr rels
  have answered := State.cellDone_answered h.found (flights.trans attends.flights) 0#64
  obtain ⟨fs, ps, done⟩ := (u.waitCell f.party f.ten cell.toNat kind addr count rels).cellDone_eq f 0#64
  have mem : ((u.waitCell f.party f.ten cell.toNat kind addr count rels).cellDone f 0#64).mem =
      Memory.setBytes s.mem (cell.toNat + 8) (leBytes 8 (waiterWord kind addr).toNat) := by
    rw [done, ← attends.mem, ← stored]
  refine ⟨?_, State.onlyAt_of_setBytes mem (by simp), ?_⟩
  · have word := State.num_of_setBytes_word (pre := []) (post := []) (n := 8) (v := (waiterWord kind addr).toNat) (by simpa using mem) h.mem
    rw [← toNat_waiterWord small addr]
    exact word.trans (Nat.mod_eq_of_lt (waiterWord kind addr).isLt)
  · unfold State.Answered at answered
    rwa [if_pos silent] at answered

/-- A DECR that does not fire takes its amount. -/
theorem State.AtCell.decr_quiet {s : State} {f : Flight} {cell amount : Word} {d : Dest} (h : s.AtCell f cell) (act : f.act = .decr d cell amount)
    (quiet : wd (s.num cell.toNat 8) = 0#64 ∨ amount < wd (s.num cell.toNat 8) ∨ fld (wd (s.num (cell.toNat + 8) 8)) 63 62 = 0) :
    ∃ t, exec (.cellDecr f.id) s = .next t ∧
      t.mem = Memory.setBytes s.mem cell.toNat (cellBytes (leftOf (wd (s.num cell.toNat 8)) amount) (wd (s.num (cell.toNat + 8) 8))) ∧
      t.Answered f (wd (s.num cell.toNat 8)) := by
  obtain ⟨rels, u, run, attends⟩ := h.decr act
  obtain ⟨stored, flights⟩ := State.decrCell_quiet (s := u) (State.cellPlace h.lawful) quiet f.party f.ten rels
  refine ⟨_, run, ?_, State.cellDone_answered h.found (flights.trans attends.flights) _⟩
  obtain ⟨fs, ps, done⟩ := State.cellDone_eq
    (u.decrCell f.party f.ten cell.toNat (wd (s.num cell.toNat 8)) (wd (s.num (cell.toNat + 8) 8)) amount rels) f (wd (s.num cell.toNat 8))
  rw [done, ← attends.mem]
  exact stored

/-- An entry is listed the same when nothing but counts of its cluster has changed. -/
theorem State.listed_ite_modCluster {s : State} {k j : Nat} {e : RunEntry} {c : Prop} {dec : Decidable c} {f : Cluster → Cluster}
    (hf : ∀ x, (f x).entries = x.entries ∧ (f x).overflow = x.overflow) (h : s.Listed k e) : (if c then s.modCluster j f else s).Listed k e := by
  obtain ⟨x, there, same⟩ := h
  split
  · refine ⟨x, there.imp (fun m => ?_) (fun m => ?_), same⟩
    · rwa [State.cluster_modCluster_congr s j Cluster.entries fun x => (hf x).1]
    · rwa [State.cluster_modCluster_congr s j Cluster.overflow fun x => (hf x).2]
  · exact ⟨x, there, same⟩

/-- A DECR that fires a task clears its cell and lists the task. -/
theorem State.AtCell.decr_fires {s : State} {f : Flight} {cell amount : Word} {d : Dest} {task : ShadowTask} (h : s.AtCell f cell)
    (act : f.act = .decr d cell amount) (some_ : wd (s.num cell.toNat 8) ≠ 0#64) (all : wd (s.num cell.toNat 8) ≤ amount)
    (kind : fld (wd (s.num (cell.toNat + 8) 8)) 63 62 = 1) {p : Word} (hp : wd (fld (wd (s.num (cell.toNat + 8) 8)) 56 0) = p)
    (lawful : s.cellFault f.ten p = none) (own : s.coreOf f.ten (chipOf p.toNat).core = true)
    (shadow : (s.core (chipOf p.toNat).core).tasks.find? (fun t => t.handle == p) = some task)
    (sound : ∀ e ∈ (s.core (chipOf p.toNat).core).tasks, e.handle = p → e.bad = false) (header : headerBad (wordAt task.words 0) = false)
    (eight : (s.cluster ((chipOf p.toNat).core / 16)).banks.length = 8) :
    ∃ t e, exec (.cellDecr f.id) s = .next t ∧ t.mem = Memory.setBytes s.mem cell.toNat (cellBytes 0#64 0#64) ∧
      t.Answered f (wd (s.num cell.toNat 8)) ∧ t.Listed ((chipOf p.toNat).core / 16) e ∧ e.work = .task p ∧ e.ten = f.ten ∧
      e.home = some (chipOf p.toNat).core ∧ e.prio = fld (wordAt task.words 0) 63 58 := by
  obtain ⟨rels, u, run, attends⟩ := h.decr act
  obtain ⟨x, stores, counted⟩ := State.decrCell_fires (s := u) (State.cellPlace h.lawful) some_ all kind f.party f.ten rels
  rw [hp] at counted
  have capunits := stores.capunits.trans attends.capunits
  have tenants := stores.tenants.trans attends.tenants
  have tasks : (x.core (chipOf p.toNat).core).tasks = (s.core (chipOf p.toNat).core).tasks := by
    rw [← attends.tasks, State.core, stores.cores]
    rfl
  have lists : (x.cluster ((chipOf p.toNat).core / 16)).banks.length = 8 := by
    rw [State.cluster, stores.clusters, attends.clusters]
    exact eight
  obtain ⟨e, enters, named⟩ := State.enterTask_enters (s := x) (ten := f.ten) (p := p) (task := task)
    ((State.cellFault_congr capunits tenants f.ten p).trans lawful) (by rw [State.coreOf_congr capunits tenants, own]) (by rw [tasks, shadow])
    (by rw [tasks]; exact sound) header (stores.poison (attends.poison.trans h.clean)) rels
  have listed := State.enterRunList_listed (s := x) (State.cellPlace lawful).core_lt lists e
  obtain ⟨cores, clusters, entered⟩ := x.enterRunList_eq ((chipOf p.toNat).core / 16) e
  rw [enters] at counted
  have kept : ∀ c : Prop, ∀ dec : Decidable c, ∀ g : Cluster → Cluster,
      (if c then (x.enterRunList ((chipOf p.toNat).core / 16) e).modCluster (chipOf cell.toNat).cluster g
        else x.enterRunList ((chipOf p.toNat).core / 16) e).mem = x.mem ∧
      (if c then (x.enterRunList ((chipOf p.toNat).core / 16) e).modCluster (chipOf cell.toNat).cluster g
        else x.enterRunList ((chipOf p.toNat).core / 16) e).flights = x.flights := by
    intro c dec g
    rw [entered]
    split
    · exact ⟨rfl, rfl⟩
    · exact ⟨rfl, rfl⟩
  obtain ⟨mem, flights⟩ := kept _ _ _
  have answered := State.cellDone_answered (h.found) (counted ▸ flights.trans (stores.flights.trans attends.flights)) (wd (s.num cell.toNat 8))
  obtain ⟨fs, ps, done⟩ := State.cellDone_eq
    (u.decrCell f.party f.ten cell.toNat (wd (s.num cell.toNat 8)) (wd (s.num (cell.toNat + 8) 8)) amount rels) f (wd (s.num cell.toNat 8))
  refine ⟨_, e, run, ?_, answered, ?_, named⟩
  · rw [done, counted, ← attends.mem, ← stores.mem]
    exact mem
  · rw [done, counted]
    exact State.listed_ite_modCluster (fun _ => ⟨rfl, rfl⟩) listed

/-- What a core retains under `held` for a tenant is bound to the task `cell`, and charged to queue `q`. -/
def Retained.bind (held cell : Word) (ten q : Nat) (e : Retained) : Retained :=
  if e.handle = held ∧ e.ten = ten then { e with handle := cell, queue := q } else e

/-- A binding whose cell is reached and is not 0: the banks are bound, then what is still kept under the old handle goes Off. -/
theorem State.AtCell.bind {s : State} {f : Flight} {cell held : Word} (h : s.AtCell f cell) (act : f.act = .bind cell held)
    (some_ : wd (s.num cell.toNat 8) ≠ 0#64) (fresh : ∀ e ∈ (s.core f.who.core).retained, ¬ (e.handle = cell ∧ e.ten = f.ten)) :
    ∃ v : State, exec (.haltRtBind f.id) s = .next (v.dropRetained f.ten held) ∧ v.flight? f.id = none ∧
      (v.core f.who.core).retained =
        (s.core f.who.core).retained.map (Retained.bind held cell f.ten (fld (wd (s.num (cell.toNat + 16) 8)) 57 48)) := by
  have here := State.cellPlace h.lawful
  have chip := here.chip
  have near := here.near
  obtain ⟨rels, u, performed, attends⟩ := h.performs (by rw [act]; rfl) (bindOp f cell held)
  have stores := State.stores_cell (s := u) here f.party f.ten
    (cellBytes (wd (s.num cell.toNat 8)) (wd (s.num (cell.toNat + 8) 8))) rels
  have untaken : ((u.core f.who.core).retained.any fun e => e.handle == cell && e.ten == f.ten) = false := by
    rw [attends.retained]
    simpa using fresh
  have queue : u.packetQueue f.ten cell = [fld (wd (s.num (cell.toNat + 16) 8)) 57 48] := by
    unfold State.packetQueue
    rw [State.poisoned_of_chip (attends.poison.trans h.clean) f.ten (by omega), State.leNat_rdBytes_of_chip _ _ (by omega) (by omega)]
    simp [State.num, attends.mem]
  let v : State := ((u.write f.party f.ten cell.toNat (cellBytes (wd (s.num cell.toNat 8)) (wd (s.num (cell.toNat + 8) 8))) rels).released
    f.party).modCore f.who.core fun d =>
      { d with retained := d.retained.map (Retained.bind held cell f.ten (fld (wd (s.num (cell.toNat + 16) 8)) 57 48)) }
  have bound : bindOp f cell held cell.toNat (wd (s.num cell.toNat 8)) (wd (s.num (cell.toNat + 8) 8)) rels u = v.dropFlight f.id := by
    unfold bindOp
    rw [untaken, queue]
    dsimp only
    rw [if_neg (by simpa using some_), State.finish_of_silent _ _ (by rw [act]; rfl)]
    rfl
  have gone : (v.dropFlight f.id).flight? f.id = none := v.flight?_dropFlight f.id
  refine ⟨v.dropFlight f.id, ?_, gone, ?_⟩
  · change execHaltRtBind f.id s = _
    unfold execHaltRtBind
    simp only [h.found, act, h.due]
    rw [performed, bound, State.bindOver, gone]
    rfl
  · rw [← attends.retained]
    change (v.core f.who.core).retained = _
    simp only [v, State.modCore, State.core_setCore_same]
    refine congrArg (List.map _) ?_
    rw [State.core, State.core, ← stores.cores]
    rfl

/-- A party that arrives at a barrier cell counts there, and waits for the barrier. -/
theorem State.AtCell.cbar {s : State} {f : Flight} {cell : Word} {d : Dest} {n : Nat} (h : s.AtCell f cell) (act : f.act = .cbar d cell n) :
    ∃ t, exec (.cbarArrival f.id) s = .next t ∧
      t.mem = Memory.setBytes s.mem cell.toNat (cellBytes
        (if n ≤ (wd (s.num cell.toNat 8)).toNat + 1 then 0#64 else wd (s.num cell.toNat 8) + 1#64)
        (if n ≤ (wd (s.num cell.toNat 8)).toNat + 1 then wd (s.num (cell.toNat + 8) 8) + 1#64 else wd (s.num (cell.toNat + 8) 8))) ∧
      ∃ hop owed, t.flight? f.id = some { f with act := .cbarWait d cell (wd (s.num (cell.toNat + 8) 8)) [], hop := hop, owed := owed } := by
  obtain ⟨rels, ps, words⟩ := h.words
  let bs : List Byte := cellBytes (if n ≤ (wd (s.num cell.toNat 8)).toNat + 1 then 0#64 else wd (s.num cell.toNat 8) + 1#64)
    (if n ≤ (wd (s.num cell.toNat 8)).toNat + 1 then wd (s.num (cell.toNat + 8) 8) + 1#64 else wd (s.num (cell.toNat + 8) 8))
  let x : State := { s with servedAt := (cell.toNat, 16) :: s.servedAt, parties := ps }
  have stores := State.stores_cell (s := x) (State.cellPlace h.lawful) f.party f.ten bs (rels ++ x.relOf f.party 2)
  have open_ : State.barredAt { s with servedAt := (cell.toNat, 16) :: s.servedAt } f.who.core cell.toNat = false := (h.stays _ (by simp)).1
  let y : State := (x.write f.party f.ten cell.toNat bs (rels ++ x.relOf f.party 2)).released f.party
  have attends := y.attends_exchanged f
  refine ⟨(y.exchanged f).setAct f.id (.cbarWait d cell (wd (s.num (cell.toNat + 8) 8)) []), ?_, attends.mem.trans stores.mem, ?_⟩
  · change execCbarArrival f.id s = _
    unfold execCbarArrival
    simp only [h.found, act]
    rw [h.onTurn (by rw [act]; rfl)]
    unfold State.performCbar
    simp only [act, open_, h.redirect, words]
    have named : wd cell.toNat = cell := by simp [wd]
    simp only [decide_eq_true_eq, named]
    rfl
  · have found : (y.exchanged f).flight? f.id = some f := (State.flight?_congr (s := s) (attends.flights.trans stores.flights) f.id).trans h.found
    unfold State.setAct
    rw [State.flight?_modFlight found fun x => by split <;> rfl]
    split
    · exact ⟨_, _, rfl⟩
    · exact ⟨f.hop, f.owed, rfl⟩

end Sys2Proof.Machine

open Sys2Proof Sys2Proof.Machine

/-- Settles O34: an operation at its cell performs on the words that stand there (`State.AtCell.performs`); what it stores there is read back. -/
theorem cellsCountWaitAndFire : Obligations.CellsCountWaitAndFire := by
  intro s f cell h k c w
  refine ⟨?quiet, ?fires, ?taskq, ?await, ?bind, ?cbar⟩
  case quiet =>
    intro d amount act quiet
    obtain ⟨t, run, mem, answered⟩ := h.decr_quiet act quiet
    obtain ⟨count, waiter, only⟩ := State.cell_of_setBytes mem h.mem
    exact ⟨t, run, count.trans (toNat_leftOf c amount), waiter, only, answered⟩
  case fires =>
    intro d amount p home task act some_ all kind hp lawful hhome own shadow sound header eight
    subst hhome
    obtain ⟨t, e, run, mem, answered, ⟨x, there, same⟩, work, ten, at_, prio⟩ :=
      h.decr_fires act some_ all kind hp.symm lawful own shadow sound header eight
    obtain ⟨count, waiter, only⟩ := State.cell_of_setBytes mem h.mem
    obtain ⟨work', ten', at_', prio'⟩ := same.fields
    exact ⟨t, run, count, waiter, only, answered, x, there, work'.trans work, ten'.trans ten, at_'.trans at_, prio'.trans prio⟩
  case taskq =>
    intro act some_
    obtain ⟨rels, u, run, attends⟩ := h.taskq act
    obtain ⟨waiter, only, ended⟩ := State.waitCell_kept h attends (by rw [act]; rfl) some_ (kind := 1) (by omega) cell rels
    exact ⟨_, run, by rw [waiter, Nat.one_mul], only, ended⟩
  case await =>
    intro rec e act some_
    obtain ⟨rels, u, run, attends⟩ := h.await act
    obtain ⟨waiter, only, ended⟩ := State.waitCell_kept h attends (by rw [act]; rfl) some_ (kind := 2) (by omega) rec rels
    exact ⟨_, run, waiter, only, ended⟩
  case bind =>
    intro held act some_ fresh
    obtain ⟨v, run, gone, bound⟩ := h.bind act some_ fresh
    refine ⟨_, run, (State.flight?_congr (State.dropRetained_flights v f.ten held) f.id).trans gone, fun e he handle ten => ?_⟩
    refine State.mem_retained_dropRetained ?_ (e := { e with handle := cell, queue := fld (wd (s.num (cell.toNat + 16) 8)) 57 48 })
      fun ⟨same, _⟩ => fresh e he ⟨handle.trans same.symm, ten⟩
    rw [bound]
    exact List.mem_map.mpr ⟨e, he, if_pos ⟨handle, ten⟩⟩
  case cbar =>
    intro d n act
    obtain ⟨t, run, mem, waits⟩ := h.cbar act
    obtain ⟨count, gen, only⟩ := State.cell_of_setBytes mem h.mem
    refine ⟨t, run, only, count.trans ?_, gen.trans ?_, waits⟩
    · split
      · rfl
      · rw [BitVec.toNat_add]; rfl
    · split
      · rw [BitVec.toNat_add]; rfl
      · rfl
end

section
/-! PROOFS. Slots that are freed (R28): their banks go Off, and no memory below the units changes. -/

namespace Sys2Proof.Machine

/-! ## The state of a bank (R66) -/

/-- The two bits of a field are read as they are, or 0 when they were cleared. -/
theorem fld_clear_pair (w : Word) (n m : Nat) :
    fld (setFld w (2 * n + 1) (2 * n) 0) (2 * m + 1) (2 * m) = if m = n then 0 else fld w (2 * m + 1) (2 * m) := by
  have width : ∀ a : Nat, 2 * a + 1 + 1 - 2 * a = 2 := fun a => by omega
  have power : ∀ a : Nat, 2 ^ (2 * a) = 4 ^ a := fun a => by rw [Nat.pow_mul]
  have hw : w.toNat < 2 ^ 64 := w.isLt
  generalize hv : w.toNat = v at hw
  have field : v / 4 ^ n % 4 * 4 ^ n ≤ v := (Nat.mul_le_mul_right _ (Nat.mod_le _ _)).trans (Nat.div_mul_le_self _ _)
  have cleared : (setFld w (2 * n + 1) (2 * n) 0).toNat = v - v / 4 ^ n % 4 * 4 ^ n := by
    simp only [setFld, bits, width, power, hv, BitVec.toNat_ofNat, Nat.zero_mod, Nat.zero_mul, Nat.add_zero]
    exact Nat.mod_eq_of_lt (by omega)
  have four : ∀ a, 0 < 4 ^ a := fun a => Nat.pow_pos (by omega)
  simp only [fld, bits, width, power, cleared, hv]
  have above : (v - v / 4 ^ n % 4 * 4 ^ n) / 4 ^ n = v / 4 ^ n - v / 4 ^ n % 4 := by
    rw [Nat.mul_comm (v / 4 ^ n % 4), Nat.sub_mul_div]
  rcases Nat.lt_trichotomy m n with h | h | h
  · rw [if_neg (by omega)]
    obtain ⟨d, rfl⟩ := Nat.exists_eq_add_of_lt h
    have split : v / 4 ^ (m + d + 1) % 4 * 4 ^ (m + d + 1) = 4 ^ m * (4 * (v / 4 ^ (m + d + 1) % 4 * 4 ^ d)) := by ring
    have below : 4 * (v / 4 ^ (m + d + 1) % 4 * 4 ^ d) ≤ v / 4 ^ m := by
      rw [Nat.le_div_iff_mul_le (four m), Nat.mul_comm, ← split]
      exact field
    rw [split, Nat.sub_mul_div]
    omega
  · subst h
    rw [if_pos rfl, above]
    omega
  · rw [if_neg (by omega)]
    obtain ⟨d, rfl⟩ := Nat.exists_eq_add_of_lt h
    have higher : ∀ x : Nat, x / 4 ^ (n + d + 1) = x / 4 ^ n / 4 / 4 ^ d := fun x => by
      rw [Nat.div_div_eq_div_mul, Nat.div_div_eq_div_mul]
      congr 1
      ring
    have quarter : ∀ x : Nat, (x - x % 4) / 4 = x / 4 := fun x => by omega
    rw [higher, higher, above, quarter]

/-- To turn a bank Off turns no other bank on. -/
theorem Core.bank_setBank_off (c : Core) (n m : Nat) (h : m = n ∨ c.bank m = 0) : (c.setBank n 0).bank m = 0 := by
  have upper : ∀ k, 32 ≤ k → 2 * k - 63 = 2 * (k - 32) + 1 ∧ 2 * k - 64 = 2 * (k - 32) := fun k hk => ⟨by omega, by omega⟩
  unfold Core.setBank Core.bank at *
  by_cases hn : n < 32
  · by_cases hm : m < 32
    · simp only [hn, hm, if_true] at h ⊢
      rw [fld_clear_pair]
      split
      · rfl
      · next other => exact h.resolve_left other
    · simp only [hn, hm, if_true, if_false] at h ⊢
      exact h.resolve_left (by omega)
  · by_cases hm : m < 32
    · simp only [hn, hm, if_true, if_false] at h ⊢
      exact h.resolve_left (by omega)
    · obtain ⟨n1, n0⟩ := upper n (by omega)
      obtain ⟨m1, m0⟩ := upper m (by omega)
      simp only [hn, hm, if_false, n1, n0, m1, m0] at h ⊢
      rw [fld_clear_pair]
      split
      · rfl
      · next other => exact h.resolve_left (by omega)

theorem State.core_bankOff (s : State) (core n : Nat) :
    (s.bankOff core n).core core = { (s.core core).setBank n 0 with hints := (s.core core).hints.filter fun h => h.1 != n } :=
  State.core_setCore_same ..

/-- A bank that is turned Off is Off, and one that was Off stays so. -/
theorem State.bank_bankOff (s : State) (core n m : Nat) (h : m = n ∨ (s.core core).bank m = 0) : ((s.bankOff core n).core core).bank m = 0 := by
  rw [State.core_bankOff]
  exact Core.bank_setBank_off _ n m h

/-- Of the banks that are turned Off, each is Off at the end. -/
theorem State.bank_banksOff (s : State) (core : Nat) (tiles : List Nat) (sb : BitVec 48) {b : Nat}
    (h : b ∈ tiles ∨ ∃ i < 48, sb.getLsbD i = true ∧ b = 16 + i) : ((s.banksOff core tiles sb).core core).bank b = 0 := by
  have listed : b ∈ tiles ++ ((List.range 48).filter fun i => sb.getLsbD i).map (· + 16) := by
    rcases h with h | ⟨i, hi, on, rfl⟩
    · exact List.mem_append_left _ h
    · exact List.mem_append_right _ (List.mem_map.mpr ⟨i, List.mem_filter.mpr ⟨List.mem_range.mpr hi, on⟩, by omega⟩)
  have off : ∀ (l : List Nat) (t : State), b ∈ l ∨ (t.core core).bank b = 0 →
      ((l.foldl (fun t n => t.bankOff core n) t).core core).bank b = 0 := by
    intro l
    induction l with
    | nil => exact fun t h => h.resolve_left List.not_mem_nil
    | cons n l ih =>
      refine fun t h => ih _ ?_
      rcases h with h | h
      · rcases List.mem_cons.mp h with rfl | h
        · exact .inr (t.bank_bankOff core b b (.inl rfl))
        · exact .inl h
      · exact .inr (t.bank_bankOff core n b (.inr h))
  exact off _ s (.inl listed)

/-! ## What the freeing of a slot leaves -/

/-- Clearing a range of memory changes no byte outside. -/
theorem Memory.get_clear_out (m : Memory) {lo hi a : Nat} (h : a < lo ∨ hi ≤ a) : (m.clear lo hi).get a = m.get a := by
  induction m with
  | nil => rfl
  | cons c m ih =>
    obtain ⟨k, v⟩ := c
    unfold Memory.clear at ih ⊢
    by_cases keep : (decide (k < lo) || decide (hi ≤ k)) = true
    · simp only [List.filter_cons, keep, if_true, Memory.get, ih]
    · have other : k ≠ a := by
        rintro rfl
        exact keep (by simpa using h)
      simp only [List.filter_cons, keep, Bool.false_eq_true, if_false, Memory.get, if_neg other]
      exact ih

/-- The banks of cores lie among the units. -/
theorem chipBit_le_bankAddr (core n : Nat) : chipBit ≤ bankAddr core n := by
  unfold bankAddr chipAddr
  split <;> omega

/-- To turn banks Off changes no memory below the units. -/
theorem State.mem_banksOff (s : State) (core : Nat) (tiles : List Nat) (sb : BitVec 48) {a : Nat} (h : a < chipBit) :
    Memory.get (s.banksOff core tiles sb).mem a = Memory.get s.mem a :=
  State.banksOff_keeps (fun t => Memory.get t.mem a)
    (fun _ n => Memory.get_clear_out _ (.inl (h.trans_le (chipBit_le_bankAddr core n)))) s tiles sb

/-- What abandons a slot's held operations changes no run list. -/
theorem State.banks_abandonHeld {s : State} (r : SlotRef) (party : Nat) {k : Nat} (h : (s.cluster k).banks.length = 8) :
    ((s.abandonHeld r party).cluster k).banks.length = 8 :=
  AMap.get_map_of (Q := fun c : Cluster => c.banks.length = 8) (fun _ h => h) h

/-- A slot that is free. -/
def Slot.freed (x : Slot) : Slot :=
  { x with occ := .free, tiles := [], sb := 0#48, lq := [], sq := [], sa := [], succs := [], pend := [], pre := false, frozen := false
           halted := false, saving := false, drain := none, walk := none, armed := false, stepDue := false, waits := 0#32, regRel := [], origin := .firmware
           parked := false, withdrawn := [], entry := false, latch := [], took := 0, tookOp := 0 }

/-- To free the slot of a strand that no fold lookup has started: what it holds is abandoned, its banks go Off, and its rows are discarded. -/
theorem State.freeSlot_eq {s : State} {r : SlotRef} (h : ∀ cl dom key holds, (s.slot r).origin ≠ .fold cl dom key holds) :
    s.freeSlot r = ((((s.abandonHeld r (s.slot r).party).banksOff r.core (s.slot r).tiles (s.slot r).sb).modCore r.core fun c =>
      { c with seq := c.seq.filter fun i => i.slot != r.slot }).setSlot r (s.slot r).freed) := by
  unfold State.freeSlot
  dsimp only
  split
  · next cl dom key holds fold => exact absurd fold (h cl dom key holds)
  · rfl

/-- From `s` to `t` the slot `r` has been freed, with what the strand in it leaves. -/
structure State.Freed (s t : State) (r : SlotRef) : Prop where
  slot : t.slot r = (s.slot r).freed
  banks : ∀ b, (b ∈ (s.slot r).tiles ∨ ∃ i < 48, (s.slot r).sb.getLsbD i = true ∧ b = 16 + i) → (t.core r.core).bank b = 0
  mem : ∀ a < chipBit, Memory.get t.mem a = Memory.get s.mem a
  same : (s.slot r).tiles = [] → (s.slot r).sb = 0#48 → t.mem = s.mem
  flights : t.flights = s.flights
  lists : ∀ k, (s.cluster k).banks.length = 8 → (t.cluster k).banks.length = 8
  cycle : t.cycle = s.cycle
  cur : t.cur = s.cur

theorem State.freed_freeSlot {s : State} {r : SlotRef} (four : r.slot < 4) (h : ∀ cl dom key holds, (s.slot r).origin ≠ .fold cl dom key holds) :
    s.Freed (s.freeSlot r) r := by
  rw [State.freeSlot_eq h]
  generalize hx : s.slot r = x
  let u : State := (s.abandonHeld r x.party).banksOff r.core x.tiles x.sb
  have kept : ∀ {α : Type} (g : State → α), (∀ (t : State) n, g (t.bankOff r.core n) = g t) → g u = g (s.abandonHeld r x.party) :=
    fun g hg => State.banksOff_keeps g hg _ _ _
  refine ⟨(State.slot_setSlot_same _ r _ four).trans (by rw [hx]), fun b hb => ?_, fun a ha => ?_, fun tiles sb => ?_,
    kept State.flights fun _ _ => rfl, fun k hk => ?_, kept State.cycle fun _ _ => rfl, kept State.cur fun _ _ => rfl⟩
  · have off : (u.core r.core).bank b = 0 := State.bank_banksOff _ r.core x.tiles x.sb (hx ▸ hb)
    simp only [State.setSlot, State.modCore, State.core_setCore_same]
    exact off
  · exact State.mem_banksOff (s.abandonHeld r x.party) r.core x.tiles x.sb ha
  · rw [hx] at tiles sb
    have nothing : u = s.abandonHeld r x.party := by
      dsimp only [u]
      rw [tiles, sb]
      simp [State.banksOff]
    have gone : u.mem = s.mem := by rw [nothing]; rfl
    exact gone
  · have same : u.clusters = (s.abandonHeld r x.party).clusters := kept State.clusters fun _ _ => rfl
    have lists := State.banks_abandonHeld (s := s) r x.party hk
    unfold State.cluster at lists ⊢
    rw [← same] at lists
    exact lists

end Sys2Proof.Machine
end

section
/-! PROOFS. The end of a drain (R27, R28, R40, R248, R250, R253). -/

namespace Sys2Proof.Machine

/-! ## The slot whose drain ends -/

/-- The machine in which the slot `r`, which has drained, goes on: it issues again, and what stands in its queues is discarded (R248). -/
def State.drainedAt (s : State) (r : SlotRef) : State := ({ s with cur := r, ir := (s.slot r).dword } : State).discardQueues

/-- The slot with its queues discarded. -/
theorem State.slot_drainedAt {s : State} {r : SlotRef} (four : r.slot < 4) :
    (s.drainedAt r).slot r = { s.slot r with lq := [], sq := [], sa := [] } :=
  State.slot_modSlot_same _ _ four

/-- What is discarded: store addresses that have no store. What stays are other flights. -/
theorem State.flights_drainedAt {s : State} {r : SlotRef} {f : Flight} (h : f ∈ (s.drainedAt r).flights) :
    f ∈ s.flights ∧ (f ∈ s.flightsOf r → ∀ va k bs o n, f.act = .store va k bs o n → f.ready = true) := by
  obtain ⟨there, stays⟩ := List.mem_filter.mp h
  refine ⟨there, fun mine va k bs o n act => ?_⟩
  by_contra unready
  have gone : f ∈ (s.flightsOf r).filter fun f => (match f.act with | .store _ _ _ _ _ => !f.ready | _ => false) :=
    List.mem_filter.mpr ⟨mine, by rw [act]; simpa using unready⟩
  have out : ((s.flightsOf r).filter fun f => (match f.act with | .store _ _ _ _ _ => !f.ready | _ => false)).contains f = true := by
    simpa using gone
  have kept : (!((s.flightsOf r).filter fun f => (match f.act with | .store _ _ _ _ _ => !f.ready | _ => false)).contains f) = true := stays
  rw [out] at kept
  exact absurd kept (by decide)

/-- A HALT without retention ends its strand (R253). -/
theorem State.haltNow_plain (s : State) (a : Reg) : s.haltNow a false = s.endStrand := by
  simp [State.haltNow]

section
variable {s : State} {core slot : Nat} (may : s.mayRun ⟨core, slot⟩ = true) (drained : s.drained ⟨core, slot⟩ = true)
  (calm : s.boundaryDue ⟨core, slot⟩ = false)
include may drained calm

/-- At the end of its drain a strand that halts is over. -/
theorem State.execStrandDrainEnd_halt (drain : (s.slot ⟨core, slot⟩).drain = some .halt) :
    execStrandDrainEnd core slot s = .next { (s.drainedAt ⟨core, slot⟩).endStrand with cur := s.cur, ir := s.ir } := by
  rw [← State.haltNow_plain _ 0#5]
  unfold execStrandDrainEnd
  simp only [drain]
  rw [if_neg (by simp [may, drained, calm])]
  rfl

/-- At the end of its drain a strand that suspends does, when no operation of it is still owed. -/
theorem State.execStrandDrainEnd_susp {rt : Bool} (drain : (s.slot ⟨core, slot⟩).drain = some (.susp rt))
    (quiet : ({ s with cur := ⟨core, slot⟩ } : State).quietDrain = true) :
    execStrandDrainEnd core slot s = .next { (s.drainedAt ⟨core, slot⟩).suspend rt with cur := s.cur, ir := s.ir } := by
  have still : ({ s with cur := ⟨core, slot⟩, ir := (s.slot ⟨core, slot⟩).dword } : State).quietDrain = true := quiet
  unfold execStrandDrainEnd
  simp only [drain]
  rw [if_neg (by simp [may, drained, calm])]
  unfold State.onSlot
  simp only [still, if_true]
  rfl

/-- At the end of its drain a strand arrives at its barrier, when no operation of it is still owed. -/
theorem State.execStrandDrainEnd_gbar {l : BitVec 3} (drain : (s.slot ⟨core, slot⟩).drain = some (.gbar l))
    (quiet : ({ s with cur := ⟨core, slot⟩ } : State).quietDrain = true) :
    execStrandDrainEnd core slot s = .next { (s.drainedAt ⟨core, slot⟩).gbarNow l.toNat with cur := s.cur, ir := s.ir } := by
  have still : ({ s with cur := ⟨core, slot⟩, ir := (s.slot ⟨core, slot⟩).dword } : State).quietDrain = true := quiet
  unfold execStrandDrainEnd
  simp only [drain]
  rw [if_neg (by simp [may, drained, calm])]
  unfold State.onSlot
  simp only [still, if_true]
  rfl

end

/-- A strand of no launch passes every barrier (R40). -/
theorem State.gbarNow_passes {s : State} (h : ∀ id n, s.sl.origin ≠ .launch id n) (l : Nat) :
    s.gbarNow l = s.modSl fun y => { y.next with drain := none } := by
  unfold State.gbarNow
  dsimp only
  split
  · next id n launch => exact absurd launch (h id n)
  · rfl

/-! ## What a strand sends as it ends (R28) -/

/-- From `s` to `t` operations have been sent: they stand beside those that were on their way, and nothing else has changed of what is told here. -/
structure State.Sends (s t : State) : Prop where
  slots : ∀ q, t.slot q = s.slot q
  mem : t.mem = s.mem
  cur : t.cur = s.cur
  flights : ∀ g ∈ s.flights, ∃ f ∈ t.flights, f.act = g.act ∧ f.who = g.who ∧ f.ten = g.ten

theorem State.Sends.refl (s : State) : s.Sends s := ⟨fun _ => rfl, rfl, rfl, fun g h => ⟨g, h, rfl, rfl, rfl⟩⟩

theorem State.Sends.trans {s t u : State} (h : s.Sends t) (k : t.Sends u) : s.Sends u := by
  refine ⟨fun q => (k.slots q).trans (h.slots q), k.mem.trans h.mem, k.cur.trans h.cur, fun g hg => ?_⟩
  obtain ⟨f, hf, act, who, ten⟩ := h.flights g hg
  obtain ⟨e, he, act', who', ten'⟩ := k.flights f hf
  exact ⟨e, he, act'.trans act, who'.trans who, ten'.trans ten⟩

/-- An operation is on its way for the strand in slot `r` of tenant `ten`. -/
def State.HasSent (t : State) (r : SlotRef) (ten : Nat) (act : Act) : Prop := ∃ f ∈ t.flights, f.act = act ∧ f.who = r ∧ f.ten = ten

theorem State.HasSent.sends {s t : State} {r : SlotRef} {ten : Nat} {act : Act} (h : s.HasSent r ten act) (k : s.Sends t) : t.HasSent r ten act := by
  obtain ⟨g, hg, act, who, ten⟩ := h
  obtain ⟨f, hf, act', who', ten'⟩ := k.flights g hg
  exact ⟨f, hf, act'.trans act, who'.trans who, ten'.trans ten⟩

theorem State.slot_countPkt (s : State) (core cls : Nat) (sent : Bool) (q : SlotRef) : (s.countPkt core cls sent).slot q = s.slot q := by
  unfold State.countPkt
  split
  · rfl
  · exact s.slot_modCore core (by intro c; split <;> rfl) q

theorem State.slot_inject (s : State) (core : Nat) (a : Act) (q : SlotRef) : (s.inject core a).slot q = s.slot q := by
  unfold State.inject
  split
  · exact s.slot_countPkt ..
  · rfl

theorem State.inject_eq (s : State) (core : Nat) (a : Act) : ∃ cores, s.inject core a = { s with cores := cores } := by
  unfold State.inject State.countPkt
  split
  · split
    · exact ⟨s.cores, rfl⟩
    · exact ⟨_, rfl⟩
  · exact ⟨s.cores, rfl⟩

/-- An operation that a slot sends. -/
theorem State.sends_launchFlight (s : State) (r : SlotRef) (act : Act) (rel : List Nat) :
    s.Sends (s.launchFlight r act rel) ∧ (s.launchFlight r act rel).HasSent r (s.slot r).ten act := by
  obtain ⟨cores, injected⟩ := s.inject_eq r.core act
  have mem : (s.launchFlight r act rel).mem = s.mem := by
    change (s.inject r.core act).mem = s.mem
    rw [injected]
  have cur : (s.launchFlight r act rel).cur = s.cur := by
    change (s.inject r.core act).cur = s.cur
    rw [injected]
  refine ⟨⟨fun q => s.slot_inject r.core act q, mem, cur, fun g hg => ⟨g, List.mem_append_left _ hg, rfl, rfl, rfl⟩⟩, ?_⟩
  exact ⟨_, List.mem_append_right _ (List.mem_singleton_self _), rfl, rfl, rfl⟩

/-- The mark of an operation as one on a packet. -/
theorem State.sends_markPacket (s : State) (id : Nat) : s.Sends (s.modFlight id fun f => { f with packet := true }) := by
  refine ⟨fun _ => rfl, rfl, rfl, fun g hg => ⟨_, List.mem_map_of_mem hg, ?_⟩⟩
  split
  · exact ⟨rfl, rfl, rfl⟩
  · exact ⟨rfl, rfl, rfl⟩

/-- The DECR of 1 that a strand in slot `r` sends to a successor. -/
def State.tellSucc (r : SlotRef) (t : State) (h : Word) : State :=
  (t.launchFlight r (.decr .none h 1#64)).modFlight t.fresh fun f => { f with packet := true }

/-- Each successor is told. -/
theorem State.sends_tellSuccs (r : SlotRef) (l : List Word) (s : State) :
    s.Sends (l.foldl (State.tellSucc r) s) ∧ ∀ h ∈ l, (l.foldl (State.tellSucc r) s).HasSent r (s.slot r).ten (.decr .none h 1#64) := by
  induction l generalizing s with
  | nil => exact ⟨.refl s, fun _ h => absurd h List.not_mem_nil⟩
  | cons x l ih =>
    obtain ⟨launched, there⟩ := s.sends_launchFlight r (.decr .none x 1#64) []
    have marked := (s.launchFlight r (.decr .none x 1#64)).sends_markPacket s.fresh
    have told : s.Sends (s.tellSucc r x) := launched.trans marked
    obtain ⟨rest, each⟩ := ih (s.tellSucc r x)
    refine ⟨told.trans rest, fun h hh => ?_⟩
    rcases List.mem_cons.mp hh with rfl | hh
    · exact (there.sends marked).sends rest
    · rw [← told.slots]
      exact each h hh

/-- A slot that a strand leaves with no fault waiting retires and is freed. -/
theorem State.leaveSlot_calm {s : State} (h : s.sl.pend = []) : s.leaveSlot = (s.modSl Slot.retire).freeSlot s.cur := by
  unfold State.leaveSlot
  dsimp only
  rw [h]
  rfl

/-- A strand of a record that ends: it tells its successors, says that it has halted when operations of it are still owed, and leaves its slot. -/
theorem State.endStrand_record {s : State} (origin : s.sl.origin = .record) :
    ∃ t, s.Sends t ∧ (∀ h ∈ s.sl.succs ++ (if s.sl.succ = 0#64 then [] else [s.sl.succ]), t.HasSent s.cur s.sl.ten (.decr .none h 1#64)) ∧
      s.endStrand = (t.modSl fun y => { y with origin := .firmware }).leaveSlot := by
  obtain ⟨told, each⟩ := State.sends_tellSuccs s.cur s.sl.succs s
  generalize hs1 : s.sl.succs.foldl (State.tellSucc s.cur) s = s1 at told each
  obtain ⟨last, there⟩ := s1.sends_launchFlight s.cur (.decr .none s.sl.succ 1#64) []
  obtain ⟨s2, hs2, told2, each2⟩ : ∃ s2, (if s.sl.succ = 0#64 then s1 else s1.launchFlight s.cur (.decr .none s.sl.succ 1#64)) = s2 ∧ s.Sends s2 ∧
      ∀ h ∈ s.sl.succs ++ (if s.sl.succ = 0#64 then [] else [s.sl.succ]), s2.HasSent s.cur s.sl.ten (.decr .none h 1#64) := by
    refine ⟨_, rfl, ?_⟩
    split
    · exact ⟨told, fun h hh => each h (by simpa using hh)⟩
    · refine ⟨told.trans last, fun h hh => ?_⟩
      rcases List.mem_append.mp hh with hh | hh
      · exact (each h hh).sends last
      · rw [List.mem_singleton.mp hh]
        rw [told.slots] at there
        exact there
  obtain ⟨ended, -⟩ := s2.sends_launchFlight s.cur (.halted s.sl.origin) []
  refine ⟨if s2.quiet then s2 else s2.launchFlight s.cur (.halted s.sl.origin), ?_, fun h hh => ?_, ?_⟩
  · split
    · exact told2
    · exact told2.trans ended
  · split
    · exact each2 h hh
    · exact (each2 h hh).sends ended
  · have ends : s.endStrand = ((if s2.quiet then s2.strandOver s.sl.party s.sl.origin else s2.launchFlight s.cur (.halted s.sl.origin)).modSl
        fun y => { y with origin := .firmware }).leaveSlot := by
      rw [← hs2, ← hs1]
      rfl
    rw [ends, origin]
    rfl

end Sys2Proof.Machine
end

section
/-! PROOFS. Drained strands end, suspend or go on (R27, R28, R40, R248, R250, R253). -/

namespace Sys2Proof.Machine

/-! ## The record of a strand (R27) -/

/-- The words of a record without retained banks (R27). -/
def recordWords (x : Slot) (core : Nat) : List Word :=
  [x.pc + 4#64, x.workid, x.rd 2#5, x.rd 3#5, x.rd 4#5, x.rd 5#5, stRecord x.st false core, x.succ]

/-- Words that were stored are read back. -/
theorem State.num_of_setBytes_words {s t : State} {k : Nat} {ws : List Word}
    (hm : t.mem = Memory.setBytes s.mem k (ws.flatMap fun w => leBytes 8 w.toNat)) (ok : s.memOk) {i : Nat} (h : i < ws.length) :
    t.num (k + 8 * i) 8 = (wordAt ws i).toNat := by
  have length : ∀ l : List Word, (l.flatMap fun w => leBytes 8 w.toNat).length = 8 * l.length := fun l => by
    induction l with
    | nil => rfl
    | cons w l ih => rw [List.flatMap_cons, List.length_append, ih, length_leBytes, List.length_cons]; omega
  have cut : ws.flatMap (fun w => leBytes 8 w.toNat) =
      (ws.take i).flatMap (fun w => leBytes 8 w.toNat) ++ leBytes 8 (ws[i]).toNat ++ (ws.drop (i + 1)).flatMap fun w => leBytes 8 w.toNat := by
    conv_lhs => rw [← List.take_append_drop i ws, List.drop_eq_getElem_cons h]
    rw [List.flatMap_append, List.flatMap_cons, List.append_assoc]
  have word := State.num_of_setBytes_word (cut ▸ hm) ok
  rw [length, List.length_take, Nat.min_eq_left h.le] at word
  rw [word, wordAt, List.getD_eq_getElem _ _ h]
  exact Nat.mod_eq_of_lt (ws[i]).isLt

/-- The record is written to stack memory as its words. -/
theorem State.stores_writeRecord {s : State} {key : Nat} (stack : s.place key = .stack) :
    s.Stores (s.writeRecord key false) key ((recordWords s.sl s.cur.core).flatMap fun w => leBytes 8 w.toNat) := by
  have low : key < lpBase := (State.lt_stackEnd_of_place stack).trans (by decide)
  have notChip : ¬ chipBit ≤ key := by unfold lpBase at low; unfold chipBit; omega
  have near : key < farBit := by unfold lpBase at low; unfold farBit; omega
  have plain : ∀ (p ten : Nat) (bs : List Byte) (rels : Rels), s.writeNow p ten key bs rels = s.write p ten key bs rels := by
    intro p ten bs rels
    unfold State.writeNow State.maccStore
    rw [isWindow_of_lt_lpBase low, isMacc_of_lt_lpBase low]
    simp only [notChip, if_false, Bool.false_eq_true, Bool.not_false, if_true]
  obtain ⟨mem, poison, cores, clusters, tenants, capunits, flights, cycle, cur⟩ := State.stores_write (.inr stack) near s.sl.party s.sl.ten
    ((recordWords s.sl s.cur.core).flatMap fun w => leBytes 8 w.toNat) (s.relOf s.sl.party 3)
  have written : s.writeRecord key false = (s.write s.sl.party s.sl.ten key ((recordWords s.sl s.cur.core).flatMap fun w => leBytes 8 w.toNat)
      (s.relOf s.sl.party 3)).released s.sl.party := by
    rw [← plain]
    rfl
  rw [written]
  exact ⟨mem, poison, cores, clusters, tenants, capunits, flights, cycle, cur⟩

/-- The state word of a record without retained banks of a compute core: what is below bit 39 is 0. -/
theorem toNat_stRecord {core : Nat} (compute : core < 1024) (w : Word) : (stRecord w false core).toNat = w.toNat / 2 ^ 39 * 2 ^ 39 := by
  have hw := w.isLt
  have kind : (coreKind core == CoreKind.memory) = false := by
    unfold coreKind
    rw [if_pos compute]
    rfl
  simp only [stRecord, kind, b01, wd, Bool.false_eq_true, if_false, BitVec.toNat_ofNat]
  omega

/-! ## The suspension (R250) -/

/-- The check of an access of a slot reads the slot, and nothing that the discarding of its queues changes. -/
theorem State.check_drainedAt {s : State} {r : SlotRef} (four : r.slot < 4) (acc : Acc) (va : Word) (n align : Nat) :
    (s.drainedAt r).check r acc va n align = s.check r acc va n align := by
  have slot := s.slot_drainedAt four
  unfold State.check State.translate
  rw [slot]
  rfl

theorem State.slot_enterRunList (s : State) (k : Nat) (e : RunEntry) (q : SlotRef) : (s.enterRunList k e).slot q = s.slot q := by
  unfold State.enterRunList
  split
  · rfl
  · exact s.slot_modCore k (by exact fun _ => rfl) q

/-- The entry of a record that a suspension lists. -/
def State.suspendEntry (s t : State) : RunEntry :=
  { work := .record (s.sl.rd 6#5), prio := stPrio s.sl.st, stamp := s.cycle, ten := s.sl.ten, queue := s.sl.queue, rel := t.relOf s.sl.party 3
    st := stRecord s.sl.st false s.cur.core }

/-- A strand of a record that suspends with no banks: its record is written, its slot is free, and the record is listed. -/
theorem State.suspend_record {s : State} {key : Nat} (four : s.cur.slot < 4) (origin : s.sl.origin = .record) (running : s.sl.occ = .running)
    (calm : s.sl.pend = []) (tiles : s.sl.tiles = []) (sb : s.sl.sb = 0#48) (compute : s.cur.core < 1024)
    (eight : (s.cluster (s.cur.core / 16)).banks.length = 8) (checked : s.check s.cur .store (s.sl.rd 6#5) 64 64 = .ok key)
    (stack : s.place key = .stack) :
    ((s.suspend false).slot s.cur).occ = .free ∧
      (s.suspend false).mem = Memory.setBytes s.mem key ((recordWords s.sl s.cur.core).flatMap fun w => leBytes 8 w.toNat) ∧
      ∃ e, (s.suspend false).Listed (s.cur.core / 16) e ∧ e.work = .record (s.sl.rd 6#5) ∧ e.ten = s.sl.ten ∧ e.prio = fld s.sl.st 63 58 := by
  have stores := State.stores_writeRecord stack
  generalize hs0 : s.writeRecord key false = s0 at stores
  have sl0 : s0.slot s.cur = s.sl := State.slot_congr stores.cores s.cur
  have suspends : s.suspend false = ((s0.leaveBanks false (s.sl.rd 6#5)).leaveSlot).enterRunList (s.cur.core / 16) (s.suspendEntry s0) := by
    have list : listOf s.cur.core = s.cur.core / 16 := if_pos compute
    unfold State.suspend State.onRecord
    rw [if_neg (by rw [running]; decide)]
    dsimp only
    rw [checked]
    unfold State.onAddr
    dsimp only
    rw [if_neg (by simp [stack]), hs0]
    unfold State.noteRecord
    rw [origin, list]
    rfl
  have left : s0.leaveBanks false (s.sl.rd 6#5) = s0.modSlot s.cur fun x => { x with tiles := [], sb := 0#48 } := by
    have nothing : s0.banksOff s0.cur.core s0.sl.tiles s0.sl.sb = s0 := by
      unfold State.sl
      rw [stores.cur, sl0, tiles, sb]
      simp [State.banksOff]
    rw [← stores.cur]
    unfold State.leaveBanks
    dsimp only
    rw [nothing]
    rfl
  obtain ⟨u, hu, ucur, uslot, umem, uclusters⟩ : ∃ u, (s0.modSlot s.cur fun x => { x with tiles := [], sb := 0#48 }) = u ∧ u.cur = s.cur ∧
      u.slot s.cur = { s.sl with tiles := [], sb := 0#48 } ∧ u.mem = s0.mem ∧ u.clusters = s.clusters :=
    ⟨_, rfl, stores.cur, by rw [State.slot_modSlot_same _ _ four, sl0], rfl, stores.clusters⟩
  have usl : u.sl = { s.sl with tiles := [], sb := 0#48 } := by rw [State.sl, ucur, uslot]
  have leaves : (s0.leaveBanks false (s.sl.rd 6#5)).leaveSlot = (u.modSlot s.cur Slot.retire).freeSlot s.cur := by
    rw [left, hu, State.leaveSlot_calm (by rw [usl]; exact calm), State.modSl, ucur]
  have retired : (u.modSlot s.cur Slot.retire).slot s.cur = ({ s.sl with tiles := [], sb := 0#48 } : Slot).retire := by
    rw [State.slot_modSlot_same _ _ four, uslot]
  have freed := State.freed_freeSlot (s := u.modSlot s.cur Slot.retire) four fun cl dom k holds => by
    rw [retired]
    exact fun fold => absurd (origin.symm.trans fold) nofun
  have same : (u.modSlot s.cur Slot.retire).cluster (s.cur.core / 16) = s.cluster (s.cur.core / 16) :=
    congrArg (AMap.get ({} : Cluster) · (s.cur.core / 16)) uclusters
  have lists := freed.lists _ ((congrArg (·.banks.length) same).trans eight)
  obtain ⟨cores, clusters, entered⟩ := ((u.modSlot s.cur Slot.retire).freeSlot s.cur).enterRunList_eq (s.cur.core / 16) (s.suspendEntry s0)
  have listed := State.enterRunList_listed (show s.cur.core / 16 < 1024 by omega) lists (s.suspendEntry s0)
  rw [suspends, leaves]
  refine ⟨?_, ?_, s.suspendEntry s0, listed, rfl, rfl, rfl⟩
  · rw [State.slot_enterRunList, freed.slot]
    rfl
  · rw [entered, ← stores.mem, ← umem]
    exact freed.same (by rw [retired]; rfl) (by rw [retired]; rfl)

/-! ## The end of a drain -/

/-- A strand of a record that has drained and ends: its slot is free, its banks are Off, its successors are told, and memory below the units
stands. -/
theorem State.endStrand_drainedAt {s : State} {r : SlotRef} (four : r.slot < 4) (origin : (s.slot r).origin = .record)
    (faultless : (s.slot r).pend = []) :
    (((s.drainedAt r).endStrand).slot r).occ = .free ∧ (((s.drainedAt r).endStrand).slot r).retired = (s.slot r).retired + 1#64 ∧
      (∀ b, (b ∈ (s.slot r).tiles ∨ ∃ i < 48, (s.slot r).sb.getLsbD i = true ∧ b = 16 + i) → (((s.drainedAt r).endStrand).core r.core).bank b = 0) ∧
      (∀ h ∈ (s.slot r).succs ++ (if (s.slot r).succ = 0#64 then [] else [(s.slot r).succ]),
        ((s.drainedAt r).endStrand).HasSent r (s.slot r).ten (.decr .none h 1#64)) ∧
      ∀ a < chipBit, Memory.get ((s.drainedAt r).endStrand).mem a = Memory.get s.mem a := by
  have sl_ : (s.drainedAt r).sl = { s.slot r with lq := [], sq := [], sa := [] } := s.slot_drainedAt four
  obtain ⟨u, sends, told, ends⟩ := State.endStrand_record (s := s.drainedAt r) (by rw [sl_]; exact origin)
  rw [sl_] at told
  have ucur : u.cur = r := sends.cur
  obtain ⟨v, hv, vcur, vslot, vmem, vflights⟩ : ∃ v, (u.modSlot r fun y => { y with origin := .firmware }) = v ∧ v.cur = r ∧
      v.slot r = { s.slot r with lq := [], sq := [], sa := [], origin := .firmware } ∧ v.mem = s.mem ∧ v.flights = u.flights :=
    ⟨_, rfl, ucur, by rw [State.slot_modSlot_same _ _ four, sends.slots, State.slot_drainedAt four], sends.mem, rfl⟩
  have retired : (v.modSlot r Slot.retire).slot r = ({ s.slot r with lq := [], sq := [], sa := [], origin := .firmware } : Slot).retire := by
    rw [State.slot_modSlot_same _ _ four, vslot]
  have pending : v.sl.pend = [] := by
    rw [State.sl, vcur, vslot]
    exact faultless
  have leaves : (s.drainedAt r).endStrand = (v.modSlot r Slot.retire).freeSlot r := by
    rw [ends, State.modSl, ucur, hv, State.leaveSlot_calm pending, State.modSl, vcur]
  have freed := State.freed_freeSlot (s := v.modSlot r Slot.retire) four fun cl dom k holds => by
    rw [retired]
    exact nofun
  rw [leaves]
  refine ⟨congrArg Slot.occ freed.slot, ?_, fun b hb => freed.banks b ?_, fun h hh => ?_, fun a ha => ?_⟩
  · rw [freed.slot, retired]
    rfl
  · rw [retired]
    exact hb
  · obtain ⟨f, hf, said⟩ := told h hh
    rw [← vflights] at hf
    exact ⟨f, freed.flights.symm ▸ hf, said⟩
  · rw [freed.mem a ha, ← vmem]
    rfl

/-- A strand of a record that has drained and suspends with no banks: its slot is free, its record stands where the check says, and is listed. -/
theorem State.suspend_drainedAt {s : State} {r : SlotRef} {key : Nat} (four : r.slot < 4) (origin : (s.slot r).origin = .record)
    (running : (s.slot r).occ = .running) (faultless : (s.slot r).pend = []) (tiles : (s.slot r).tiles = []) (sb : (s.slot r).sb = 0#48)
    (compute : r.core < 1024) (eight : (s.cluster (r.core / 16)).banks.length = 8)
    (checked : s.check r .store ((s.slot r).rd 6#5) 64 64 = .ok key) (stack : s.place key = .stack) :
    (((s.drainedAt r).suspend false).slot r).occ = .free ∧
      ((s.drainedAt r).suspend false).mem = Memory.setBytes s.mem key ((recordWords (s.slot r) r.core).flatMap fun w => leBytes 8 w.toNat) ∧
      ∃ e, ((s.drainedAt r).suspend false).Listed (r.core / 16) e ∧ e.work = .record ((s.slot r).rd 6#5) ∧ e.ten = (s.slot r).ten ∧
        e.prio = fld (s.slot r).st 63 58 := by
  have sl_ : (s.drainedAt r).sl = { s.slot r with lq := [], sq := [], sa := [] } := s.slot_drainedAt four
  have suspended := State.suspend_record (s := s.drainedAt r) (key := key) four (by rw [sl_]; exact origin) (by rw [sl_]; exact running)
    (by rw [sl_]; exact faultless) (by rw [sl_]; exact tiles) (by rw [sl_]; exact sb) compute eight
    (by rw [sl_]; exact (State.check_drainedAt four .store ((s.slot r).rd 6#5) 64 64).trans checked) stack
  rw [sl_] at suspended
  exact suspended

/-- A slot that goes on after its drain: the next word, with its queues empty. -/
def Slot.goesOn (x : Slot) : Slot := { ({ x with lq := [], sq := [], sa := [] } : Slot).next with drain := none }

/-- A strand of no launch that has drained at a barrier goes on. -/
theorem State.gbarNow_drainedAt {s : State} {r : SlotRef} (four : r.slot < 4) (free : ∀ id n, (s.slot r).origin ≠ .launch id n) (l : Nat) :
    ((s.drainedAt r).gbarNow l).slot r = (s.slot r).goesOn ∧ ((s.drainedAt r).gbarNow l).mem = s.mem ∧
      ((s.drainedAt r).gbarNow l).flights = (s.drainedAt r).flights := by
  have sl_ : (s.drainedAt r).sl = { s.slot r with lq := [], sq := [], sa := [] } := s.slot_drainedAt four
  rw [State.gbarNow_passes (s := s.drainedAt r) (by rw [sl_]; exact free) l]
  refine ⟨?_, rfl, rfl⟩
  refine (State.slot_modSlot_same (s.drainedAt r) _ four).trans ?_
  rw [State.slot_drainedAt four]
  rfl

end Sys2Proof.Machine

open Sys2Proof Sys2Proof.Machine

/-- Settles O36: at the end of its drain the slot issues again with its queues discarded (`State.drainedAt`), and then ends, suspends or goes on. -/
theorem drainedStrandsEndSuspendOrGoOn : Obligations.DrainedStrandsEndSuspendOrGoOn := by
  intro s core slot four r x may drained calm
  refine ⟨?halts, ?suspends, ?passes⟩
  case halts =>
    intro halts origin faultless
    have run := State.execStrandDrainEnd_halt may drained calm halts
    obtain ⟨free, retired, banks, told, mem⟩ := State.endStrand_drainedAt (r := r) four origin faultless
    generalize (s.drainedAt r).endStrand = u at *
    exact ⟨_, run, free, retired, fun b hb => banks b (.inl hb),
      fun b hb on => banks (16 + b) (.inr ⟨b, hb, on, rfl⟩), told, mem⟩
  case suspends =>
    intro key susp origin running faultless tiles sb compute quiet ok eight checked stack
    have run := State.execStrandDrainEnd_susp may drained calm susp quiet
    obtain ⟨free, mem, e, ⟨y, there, same⟩, work, ten, prio⟩ :=
      State.suspend_drainedAt (r := r) four origin running faultless tiles sb compute eight checked stack
    obtain ⟨work', ten', -, prio'⟩ := same.fields
    generalize (s.drainedAt r).suspend false = u at *
    obtain ⟨t, ht, tmem⟩ : ∃ t : State, { u with cur := s.cur, ir := s.ir } = t ∧
        t.mem = Memory.setBytes s.mem key ((recordWords x core).flatMap fun w => leBytes 8 w.toNat) := ⟨_, rfl, mem⟩
    have words : ∀ i < 8, t.num (key + 8 * i) 8 = (wordAt (recordWords x core) i).toNat := fun i hi => State.num_of_setBytes_words tmem ok hi
    refine ⟨t, ht ▸ run, ht ▸ free, State.onlyAt_of_setBytes tmem ?_, words 0 (by omega),
      words 1 (by omega), fun i hi => ?_, (words 6 (by omega)).trans (toNat_stRecord compute x.st), words 7 (by omega), y, ht ▸ there,
      work'.trans work, ten'.trans ten, prio'.trans prio⟩
    · simp [recordWords]
    · have word := words (2 + i) (by omega)
      rw [show key + 8 * (2 + i) = key + 16 + 8 * i by omega] at word
      rw [word]
      interval_cases i <;> rfl
  case passes =>
    intro l gbar free quiet
    have run := State.execStrandDrainEnd_gbar may drained calm gbar quiet
    obtain ⟨goes, mem, flights⟩ := State.gbarNow_drainedAt (r := r) four free l.toNat
    generalize (s.drainedAt r).gbarNow l.toNat = u at *
    obtain ⟨t, ht, tslot, tmem, tflights⟩ : ∃ t : State, { u with cur := s.cur, ir := s.ir } = t ∧
        t.slot r = x.goesOn ∧ t.mem = s.mem ∧ t.flights = (s.drainedAt r).flights := ⟨_, rfl, goes, mem, flights⟩
    refine ⟨t, ht ▸ run, congrArg Slot.pc tslot, congrArg Slot.drain tslot, tmem,
      congrArg Slot.lq tslot, congrArg Slot.sq tslot, congrArg Slot.sa tslot, fun f hf => ?_, fun q => by rw [tslot]; exact ⟨rfl, rfl⟩⟩
    obtain ⟨there, mine⟩ := List.mem_filter.mp hf
    rw [tflights] at there
    rw [tslot] at mine
    obtain ⟨flies, ready⟩ := State.flights_drainedAt there
    have own : f ∈ s.flightsOf r := List.mem_filter.mpr ⟨flies, mine⟩
    exact ⟨own, ready own⟩
end

section
/-! PROOFS. Reads and writes of plain memory (R2, R50, R80): what a party's access below LPDDR finds and leaves. -/

namespace Sys2Proof.Machine

/-! ## What a party has seen (R82) -/

/-- From `s` to `t` parties have seen and released writes, and requests have left the device; nothing else has changed. -/
def State.Seen (s t : State) : Prop := ∃ ps out, t = { s with parties := ps, out := out }

theorem State.Seen.refl (s : State) : s.Seen s := ⟨s.parties, s.out, rfl⟩

theorem State.Seen.trans {s t u : State} (h : s.Seen t) (g : t.Seen u) : s.Seen u := by
  obtain ⟨ps, out, rfl⟩ := h
  obtain ⟨qs, out', rfl⟩ := g
  exact ⟨qs, out', rfl⟩

theorem State.seen_modParty (s : State) (p : Nat) (f : Party → Party) : s.Seen (s.modParty p f) := ⟨_, s.out, rfl⟩

theorem State.seen_acquire (s : State) (p scope : Nat) (rels : Rels) : s.Seen (s.acquire p scope rels) := ⟨_, s.out, rfl⟩

theorem State.seen_released (s : State) (p : Nat) : s.Seen (s.released p) := ⟨_, s.out, rfl⟩

theorem State.seen_pending (s : State) (p : Nat) (rels : Rels) : s.Seen (s.pending p rels) := by
  unfold State.pending
  split
  · exact .refl s
  · exact s.seen_modParty _ _

theorem State.seen_read (s : State) (p ten k n : Nat) (view : List Nat) : s.Seen (s.read p ten k n view).2.2 := s.read_eq p ten k n view

/-! ## Below LPDDR (R50) -/

/-- The bytes below LPDDR read as they stand. -/
theorem State.rdBytes_of_lt_lpBase (s : State) (ten : Nat) {k n : Nat} (h : k + n ≤ lpBase) :
    s.rdBytes ten k n = (List.range n).map fun j => Memory.get s.mem (k + j) := by
  induction n generalizing k with
  | zero => rfl
  | succ n ih =>
    rw [State.rdBytes, s.rdByte_of_lt_lpBase ten (by omega), ih (by omega), List.range_succ_eq_map]
    simp [Nat.add_comm, Nat.add_left_comm]

/-- The number below LPDDR reads as it stands. -/
theorem State.leNat_rdBytes_of_lt_lpBase (s : State) (ten : Nat) {k n : Nat} (h : k + n ≤ lpBase) : leNat (s.rdBytes ten k n) = s.num k n := by
  rw [s.rdBytes_of_lt_lpBase ten h, State.num]

/-- A byte below LPDDR is no byte of a unit. -/
theorem not_chipBit_le_of_lt_lpBase {k : Nat} (h : k < lpBase) : ¬ chipBit ≤ k := by
  unfold lpBase at h
  unfold chipBit
  omega

/-- A read below LPDDR where nothing is poisoned answers with what the reference machine reads. -/
theorem State.readAt_of_lt_lpBase {s : State} (clean : s.poison = []) {k : Nat} (low : k < lpBase) (p ten n : Nat) (view : List Nat) :
    s.readAt p ten k n view = .val (s.read p ten k n view).1 none (s.read p ten k n view).2.1 (s.read p ten k n view).2.2 := by
  unfold State.readAt
  rw [isWindow_of_lt_lpBase low, if_neg (by decide), if_neg (not_chipBit_le_of_lt_lpBase low)]
  dsimp only
  rw [State.cleaned_of_lt_lpBase clean ten low, State.poisoned_of_lt_lpBase clean ten low]

/-- No strand that has moved away has left a byte below LPDDR. -/
theorem State.forwardOf_of_lt_lpBase (s : State) (from_ : Nat) {k : Nat} (low : k < lpBase) : s.forwardOf from_ k = none := by
  unfold State.forwardOf
  rw [if_pos (by simp [Nat.lt_of_not_le (not_chipBit_le_of_lt_lpBase low)])]

theorem State.redirect_of_forwardOf {s : State} {from_ k : Nat} (h : s.forwardOf from_ k = none) : s.redirect from_ k = (k, s) := by
  unfold State.redirect
  rw [h]

theorem State.redirect_of_lt_lpBase (s : State) (from_ : Nat) {k : Nat} (low : k < lpBase) : s.redirect from_ k = (k, s) :=
  State.redirect_of_forwardOf (s.forwardOf_of_lt_lpBase from_ low)

theorem State.goneAt_of_lt_lpBase (s : State) (from_ : Nat) {k : Nat} (low : k < lpBase) : s.goneAt from_ k = false := by
  simp [State.goneAt, not_chipBit_le_of_lt_lpBase low]

/-- No access below LPDDR is barred. -/
theorem State.barredAt_of_lt_lpBase (s : State) (from_ : Nat) {k : Nat} (low : k < lpBase) : s.barredAt from_ k = false := by
  unfold State.barredAt State.cutOff
  rw [s.goneAt_of_lt_lpBase from_ low, s.forwardOf_of_lt_lpBase from_ low]
  simp [not_chipBit_le_of_lt_lpBase low]

/-- An access below LPDDR takes no packet. -/
theorem keyPkt_of_lt_lpBase (core cls : Nat) {k : Nat} (low : k < lpBase) : keyPkt core cls k = none := by
  unfold keyPkt
  rw [if_neg (not_chipBit_le_of_lt_lpBase low), if_pos low]

theorem State.farFrom_of_lt_lpBase (s : State) (core : Nat) {k : Nat} (low : k < lpBase) : s.farFrom core k = false := by
  simp [State.farFrom, not_chipBit_le_of_lt_lpBase low]

theorem unitCore_of_lt_lpBase {k : Nat} (low : k < lpBase) : unitCore k = none := by
  have : ¬ 2 ^ 56 ≤ k := not_chipBit_le_of_lt_lpBase low
  unfold unitCore
  simp only [this, decide_false, Bool.false_and, Bool.false_eq_true, if_false]

theorem stackEnd_le_lpBase : stackEnd ≤ lpBase := by decide

/-- Below the end of stack memory lies stack memory. -/
theorem State.place_of_lt_stackEnd (s : State) {k : Nat} (h : k < stackEnd) : s.place k = .stack := by
  have notChip : ¬ chipBit ≤ k := not_chipBit_le_of_lt_lpBase (h.trans_le stackEnd_le_lpBase)
  unfold State.place
  rw [if_neg notChip, if_pos h]

end Sys2Proof.Machine
end

section
/-! PROOFS. Atomics on stack memory (R60, R81, R286). -/

namespace Sys2Proof.Machine

/-! ## The new value (R286) -/

/-- The signed value of a lane is its balanced residue. -/
theorem IFmt.val_signed {w : Nat} (hw : 0 < w) (v : Nat) : (IFmt.mk w true).val v = (v : Int).bmod (2 ^ w) := by
  obtain ⟨u, rfl⟩ : ∃ u, w = u + 1 := ⟨w - 1, by omega⟩
  have two : 2 ^ (u + 1) = 2 * 2 ^ u := by rw [Nat.pow_succ, Nat.mul_comm]
  have top : bitOf v u = decide (2 ^ u ≤ v % 2 ^ (u + 1)) := by
    have q : v % (2 * 2 ^ u) / 2 ^ u = v / 2 ^ u % 2 := by rw [Nat.mul_comm, Nat.mod_mul_right_div_self]
    have pos : 0 < 2 ^ u := Nat.two_pow_pos u
    have : 2 ^ u ≤ v % (2 * 2 ^ u) ↔ 1 ≤ v / 2 ^ u % 2 := by rw [← q, Nat.le_div_iff_mul_le pos, Nat.one_mul]
    rw [two, bitOf]
    simp only [this]
    rw [Bool.eq_iff_iff]
    simp
    omega
  have cast : ((2 ^ (u + 1) : Nat) : Int) = 2 ^ (u + 1) := by push_cast; rfl
  have half : (((2 ^ (u + 1) : Nat) : Int) + 1) / 2 = (2 ^ u : Nat) := by rw [two]; omega
  rw [IFmt.val, Int.bmod, half, ← Int.natCast_emod]
  simp only [Nat.add_sub_cancel, top, Bool.true_and, decide_eq_true_eq]
  split <;> split <;> omega

/-- What rounds to FP32 is a pattern of 32 bits. -/
theorem roundTo_fp32_lt (rm : RMode) (sign : Bool) (m : Nat) (e : Int) : (roundTo fp32 rm false sign m e).1 < 2 ^ 32 := by
  have beyond : overflowCode fp32 rm false sign < 2 ^ 32 := by cases rm <;> cases sign <;> decide
  have sg : (if sign then fp32.signBit else 0) ≤ 2 ^ 31 := by cases sign <;> decide
  have most : fp32.maxCode < 2 ^ 31 := by decide
  unfold roundTo
  dsimp only
  by_cases zero : m = 0
  · rw [if_pos zero]
    omega
  · rw [if_neg zero]
    refine iteInduction (motive := fun r : Nat × FFlags => r.1 < 2 ^ 32) (fun _ => beyond) fun within => ?_
    dsimp only
    omega

/-- To quiet a pattern sets a bit that is clear. -/
theorem quieted_fp32_lt {w x : Nat} (wide : 32 ≤ w) (h : x < 2 ^ w) : quieted fp32 x < 2 ^ w := by
  have quiet : fp32.quietBit = 4194304 := by decide
  have even : 2 ^ w = 4194304 * (2 * 2 ^ (w - 23)) := by
    obtain ⟨v, rfl⟩ : ∃ v, w = 23 + v := ⟨w - 23, by omega⟩
    rw [Nat.add_sub_cancel_left, Nat.pow_add]
    omega
  rw [quieted, quiet]
  by_cases low : bitOf x (fp32.fw - 1) = true
  · rwa [if_pos low]
  · rw [if_neg low]
    have clear : ¬ x / 4194304 % 2 = 1 := by simpa [bitOf, fp32] using low
    omega

/-- The sum that AFADD stores fits where its operands do (R286). -/
theorem afadd_lt {w old x : Nat} (wide : 32 ≤ w) (ho : old < 2 ^ w) (hx : x < 2 ^ w) : afadd old x < 2 ^ w := by
  have pattern : ∀ v, v < 2 ^ 32 → v < 2 ^ w := fun v hv => hv.trans_le (Nat.pow_le_pow_right (by decide) wide)
  have inf : ∀ b : Bool, fp32.infCode + (if b then fp32.signBit else 0) < 2 ^ 32 := by decide
  have nan : fp32.canonNan < 2 ^ 32 := by decide
  unfold afadd fAdd
  split
  · next r hr =>
    unfold nanOf at hr
    dsimp only at hr
    split at hr
    · exact absurd hr nofun
    · next y hy =>
      cases hr
      rcases List.mem_pair.mp (List.mem_of_find?_eq_some hy) with rfl | rfl
      · exact quieted_fp32_lt wide ho
      · exact quieted_fp32_lt wide hx
  · split
    · split
      · exact ho
      · exact pattern _ nan
    · exact ho
    · exact pattern _ (inf _)
    · exact pattern _ (roundTo_fp32_lt ..)
    · exact pattern _ nan

/-- Each operation's new value fits where its operands do (R286). -/
theorem atomicNew_lt {w : Nat} (op : Nat) {old x : Nat} (c : Nat) (wide : 32 ≤ w) (ho : old < 2 ^ w) (hx : x < 2 ^ w) :
    atomicNew op w old x c < 2 ^ w := by
  unfold atomicNew
  split
  · exact Nat.mod_lt _ (Nat.two_pow_pos w)
  · exact Nat.and_lt_two_pow _ hx
  · exact Nat.or_lt_two_pow ho hx
  · exact Nat.xor_lt_two_pow ho hx
  · exact iteInduction (motive := (· < 2 ^ w)) (fun _ => hx) fun _ => ho
  · exact iteInduction (motive := (· < 2 ^ w)) (fun _ => hx) fun _ => ho
  · exact (Nat.min_le_left old x).trans_lt ho
  · exact Nat.max_lt.mpr ⟨ho, hx⟩
  · exact hx
  · exact iteInduction (motive := (· < 2 ^ w)) (fun _ => hx) fun _ => ho
  · exact afadd_lt wide ho hx

/-- The lesser of two signed lanes (R286). -/
theorem signed_atomicNew_min {w : Nat} (hw : 0 < w) (old x c : Nat) :
    ((atomicNew 4 w old x c : Nat) : Int).bmod (2 ^ w) = Min.min ((old : Int).bmod (2 ^ w)) ((x : Int).bmod (2 ^ w)) := by
  simp only [atomicNew, IFmt.val_signed hw]
  split <;> omega

/-- The greater of two signed lanes (R286). -/
theorem signed_atomicNew_max {w : Nat} (hw : 0 < w) (old x c : Nat) :
    ((atomicNew 5 w old x c : Nat) : Int).bmod (2 ^ w) = Max.max ((old : Int).bmod (2 ^ w)) ((x : Int).bmod (2 ^ w)) := by
  simp only [atomicNew, IFmt.val_signed hw]
  split <;> omega

/-! ## An atomic in its turn (R81) -/

/-- An atomic of a core on stack memory takes no packet, so that its answer has no way to go and waits for nothing more. -/
theorem State.flight?_setAct_stack {s : State} {f : Flight} {d : Dest} {op : Nat} {dbl : Bool} {va x c : Word} {key : Nat} {o : Ordering2}
    (found : s.flight? f.id = some f) (act : f.act = .atomic d op dbl va key x c o) (low : key < lpBase) (arrived : f.hop = none) (a : Act) :
    (s.setAct f.id a).flight? f.id = some { f with act := a } := by
  have noPkt : f.act.pkt f.who.core = none := by rw [act]; exact keyPkt_of_lt_lpBase _ _ low
  have back : s.hopBack f = none := by unfold State.hopBack; rw [noPkt]
  have owed : s.timed? f = f.owed := by
    unfold State.timed?
    rw [act]
    dsimp only
    rw [s.farFrom_of_lt_lpBase _ low]
    cases f.owed <;> simp
  rw [State.setAct, State.flight?_modFlight found fun y => by split <;> rfl]
  split
  · rw [back, owed, ← arrived]
  · rfl

/-- The exchange of an atomic of a core on stack memory counts no packet. -/
theorem State.exchanged_stack {f : Flight} {d : Dest} {op : Nat} {dbl : Bool} {va x c : Word} {key : Nat} {o : Ordering2}
    (act : f.act = .atomic d op dbl va key x c o) (low : key < lpBase) (s : State) : s.exchanged f = s := by
  have noPkt : f.act.pkt f.who.core = none := by rw [act]; exact keyPkt_of_lt_lpBase _ _ low
  unfold State.exchanged
  rw [noPkt, act]
  simp [Act.range, unitCore_of_lt_lpBase low, State.deliver]

/-- What an atomic on stack memory does in its turn (R81, R286): the new value stands there, and the old one is on its way to its destination. -/
theorem State.performAtomic_stack {s : State} {f : Flight} {d : Dest} {op : Nat} {dbl : Bool} {va x c : Word} {key : Nat} {o : Ordering2}
    (act : f.act = .atomic d op dbl va key x c o) (clean : s.poison = []) {n : Nat} (hn : n = if dbl then 8 else 4) (low : key + n ≤ stackEnd) :
    ∃ u : State, s.performAtomic f = u.setAct f.id (.result d (extend (!dbl) n (s.num key n)) none []) ∧ u.flights = s.flights ∧
      u.cores = s.cores ∧
      u.mem = Memory.setBytes s.mem key (leBytes n (atomicNew op (8 * n) (s.num key n) (x.toNat % 2 ^ (8 * n)) (c.toNat % 2 ^ (8 * n)))) := by
  have n0 : 0 < n := by subst hn; cases dbl <;> decide
  have stack : key < stackEnd := by omega
  have low0 : key < lpBase := stack.trans_le stackEnd_le_lpBase
  obtain ⟨ps, out, seen⟩ := s.seen_read f.party f.ten key n (s.homeView key n)
  let s2 : State := { s with parties := ps, out := out }
  let new := atomicNew op (8 * n) (s.num key n) (x.toNat % 2 ^ (8 * n)) (c.toNat % 2 ^ (8 * n))
  let rels := (s.read f.party f.ten key n (s.homeView key n)).2.1
  let s3 : State := s2.write f.party f.ten key (leBytes n new) (rels ++ (if ordRel o then s2.relOf f.party 3 else []))
  let s4 : State := if ordRel o then s3.released f.party else s3
  let s5 : State := if ordAcq o then s4.acquire f.party 3 rels else s4.pending f.party rels
  let s6 : State := if op = 10 then s5.noteFlag f.ten 3 else s5
  have old : leNat (s2.rdBytes f.ten key n) = s.num key n := s2.leNat_rdBytes_of_lt_lpBase f.ten (by have := stackEnd_le_lpBase; omega)
  have stores : s.Stores s3 key (leBytes n new) := by
    have := State.stores_write (s := s2) (k := key) (.inr (s2.place_of_lt_stackEnd stack)) (by unfold stackEnd at stack; unfold farBit; omega)
      f.party f.ten (leBytes n new) (rels ++ (if ordRel o then s2.relOf f.party 3 else []))
    exact { this with }
  have h4 : s3.Seen s4 := by dsimp only [s4]; split; exacts [s3.seen_released _, .refl s3]
  have h5 : s3.Seen s5 := h4.trans (by dsimp only [s5]; split; exacts [s4.seen_acquire .., s4.seen_pending ..])
  obtain ⟨ps', out', e5⟩ := h5
  have h6 : s6.flights = s3.flights ∧ s6.cores = s3.cores ∧ s6.mem = s3.mem := by
    dsimp only [s6]
    rw [e5]
    split <;> exact ⟨rfl, rfl, rfl⟩
  obtain ⟨flights, cores, mem⟩ := h6
  refine ⟨s6, ?_, flights.trans stores.flights, cores.trans stores.cores, mem.trans stores.mem⟩
  unfold State.performAtomic
  rw [act]
  dsimp only
  rw [s.barredAt_of_lt_lpBase _ low0, if_neg (by decide), s.redirect_of_lt_lpBase _ low0]
  subst hn
  dsimp only
  rw [State.readAt_of_lt_lpBase clean low0, seen]
  dsimp only
  rw [old, State.exchanged_stack act low0]

/-- An atomic at its unit on plain memory (R60): it reaches the unit, waits for its turn there, and is performed in it. -/
theorem exec_atomicPerform_stack {s : State} {f : Flight} {d : Dest} {op : Nat} {dbl : Bool} {va x c : Word} {key : Nat} {o : Ordering2}
    (found : s.flight? f.id = some f) (act : f.act = .atomic d op dbl va key x c o) (due : s.performable f = true) {n : Nat}
    (hn : n = if dbl then 8 else 4) (low : key < lpBase) :
    exec (.atomicPerform f.id) s = .next (
      if f.reached.isNone then (if s.portBusy f then s else s.noteReach f [])
      else if !s.itsTurn f (key, n) then s
      else ({ s with servedAt := (key, n) :: s.servedAt } : State).performAtomic f) := by
  have location : s.locationOf f = some (key, n) := by
    unfold State.locationOf
    rw [act, hn]
    simp [Act.location, s.redirect_of_lt_lpBase _ low]
  change execAtomicPerform f.id s = _
  unfold execAtomicPerform
  rw [found]
  dsimp only
  rw [act]
  dsimp only
  rw [State.onTurn, due, if_neg (by decide), location]

/-- A zero-extended value lands as it is. -/
theorem setWidth_extend_zero (n v : Nat) : (extend false n v).setWidth 64 = wd v := by
  apply BitVec.eq_of_toNat_eq
  simp [extend, wd]

/-- A sign-extended value lands as its signed value. -/
theorem setWidth_extend_sign (n v : Nat) : (extend true n v).setWidth 64 = BitVec.ofInt 64 (sLane (8 * n) v) := by
  apply BitVec.eq_of_toNat_eq
  simp [extend]

/-- The balanced residue of a narrower width is in range for a wider one. -/
theorem bmod_bmod_two_pow {v : Int} {n m : Nat} (h : n ≤ m) : (v.bmod (2 ^ n)).bmod (2 ^ m) = v.bmod (2 ^ n) := by
  have wider : 2 ^ n ≤ 2 ^ m := Nat.pow_le_pow_right (by decide) h
  have low := Int.le_bmod (x := v) (Nat.two_pow_pos n)
  have high := Int.bmod_lt (x := v) (Nat.two_pow_pos n)
  generalize v.bmod (2 ^ n) = b at *
  exact Int.bmod_eq_of_le (by omega) (by omega)

/-- A word of four bytes lands sign-extended. -/
theorem toInt_extend_word (v : Nat) : ((extend true 4 v).setWidth 64).toInt = (v : Int).bmod (2 ^ 32) := by
  rw [setWidth_extend_sign, sLane, IFmt.val_signed (by decide), BitVec.toInt_ofInt, bmod_bmod_two_pow (by decide)]

/-- Eight bytes land as they are. -/
theorem toInt_extend_double (v : Nat) : ((extend false 8 v).setWidth 64).toInt = (v : Int).bmod (2 ^ 64) := by
  rw [setWidth_extend_zero, wd, BitVec.toInt_ofNat']

/-- What lands of an atomic is the old value, sign-extended from a word of four bytes (R286). -/
theorem toInt_extend_old (dbl : Bool) (v : Nat) :
    ((extend (!dbl) (if dbl then 8 else 4) v).setWidth 64).toInt = if dbl then (v : Int).bmod (2 ^ 64) else (v : Int).bmod (2 ^ 32) := by
  cases dbl
  · simp only [Bool.not_false, Bool.false_eq_true, if_false, toInt_extend_word]
  · simp only [Bool.not_true, if_true, toInt_extend_double]

end Sys2Proof.Machine

open Sys2Proof Sys2Proof.Machine

/-- Settles O16: by what the unit does with the request (`exec_atomicPerform_stack`) and what its performance leaves (`State.performAtomic_stack`). -/
theorem atomicsReplaceAndReturnTheOldValue : Obligations.AtomicsReplaceAndReturnTheOldValue := by
  unfold Obligations.AtomicsReplaceAndReturnTheOldValue
  intro s f d op dbl va key x c o ok found act due clean n w low
  have wide : 32 ≤ w := by dsimp only [w, n]; split <;> decide
  have n0 : key < stackEnd := by dsimp only [w, n] at *; split at low <;> omega
  have served := exec_atomicPerform_stack (n := n) found act due rfl (n0.trans_le stackEnd_le_lpBase)
  have arrived : f.hop = none := by
    unfold State.performable at due
    simp only [Bool.and_eq_true, Option.isNone_iff_eq_none] at due
    exact due.1.2
  refine ⟨fun fresh busy => ?_, fun fresh free => ?_, fun reached waits => ?_, fun reached turn => ?_⟩
  · rw [served, fresh, busy]
    rfl
  · refine ⟨s.noteReach f [], ?_, ?_, ?_⟩
    · rw [served, fresh, free]
      rfl
    · rw [State.noteReach, fresh, if_neg (by decide)]
      exact State.flight?_modFlight found fun _ => rfl
    · rw [State.noteReach, fresh, if_neg (by decide)]
      exact ⟨rfl, rfl⟩
  · rw [served, waits]
    cases h : f.reached with
    | none => rw [h] at reached; exact absurd reached (by decide)
    | some _ => rfl
  · intro old xv signed
    let s1 : State := { s with servedAt := (key, n) :: s.servedAt }
    obtain ⟨u, performed, flights, cores, mem⟩ := State.performAtomic_stack (s := s1) act clean (n := n) rfl low
    have found' : u.flight? f.id = some f := (State.flight?_congr flights f.id).trans found
    have oldLt : old < 2 ^ w := by
      have := leNat_lt ((List.range n).map fun j => Memory.get s.mem (key + j))
      rwa [List.length_map, List.length_range] at this
    have xLt : xv < 2 ^ w := Nat.mod_lt _ (Nat.two_pow_pos w)
    have newLt := atomicNew_lt op (c.toNat % 2 ^ w) wide oldLt xLt
    refine ⟨u.setAct f.id (.result (.reg d) (extend (!dbl) n old) none []), extend (!dbl) n old, atomicNew op w old xv (c.toNat % 2 ^ w),
      ?_, State.flight?_setAct_stack found' act (n0.trans_le stackEnd_le_lpBase) arrived _, toInt_extend_old dbl old, ?_, ?_, ?_, ?_, ?_, ?_, ?_, ?_, ?_, ?_,
      newLt, ?_, ?_, cores⟩
    · rw [served, turn]
      cases h : f.reached with
      | none => rw [h] at reached; exact absurd reached (by decide)
      | some _ => exact congrArg Host.Outcome.next performed
    · rintro rfl; rfl
    · rintro rfl; rfl
    · rintro rfl; rfl
    · rintro rfl; rfl
    · rintro rfl; exact signed_atomicNew_min (by omega) ..
    · rintro rfl; exact signed_atomicNew_max (by omega) ..
    · rintro rfl; rfl
    · rintro rfl; rfl
    · rintro rfl; rfl
    · rintro rfl; rfl
    · have := State.num_of_setBytes (t := u) (i := 0) (n := n) mem ok (by simp)
      rw [List.drop_zero, List.take_of_length_le (by simp), leNat_leBytes] at this
      exact this.trans (Nat.mod_eq_of_lt newLt)
    · exact State.onlyAt_of_setBytes (t := u) mem (length_leBytes _ _)
end

section
/-! PROOFS. Control and status registers (R129, R193, R224, R244, R270, R330 to R332, R352): what a write of one leaves of the others. -/

namespace Sys2Proof.Machine

/-! ## What the CSRs read -/

/-- All that CSRs read of a slot, but what CSR `c` reads, is in `y` as in `x`. -/
structure Slot.CsrsStand (x y : Slot) (c : Nat) : Prop where
  strand : y.ten = x.ten ∧ y.level = x.level ∧ y.workid = x.workid ∧ y.tiles = x.tiles ∧ y.sb = x.sb
  limit : c ≠ 0x030 → y.limit = x.limit ∧ y.unacc = x.unacc
  retired : c ≠ 0x001 → y.retired = x.retired
  wdef : c ≠ 0x016 → y.wdef = x.wdef
  succ : c ≠ 0x018 → y.succ = x.succ
  frm : c ≠ 0x020 → y.frm = x.frm
  fflags : c ≠ 0x021 → y.fflags = x.fflags
  amax : c ≠ 0x022 → y.amax = x.amax
  tpc : c ≠ 0x101 → y.trap.tpc = x.trap.tpc
  tcause : c ≠ 0x102 → y.trap.tcause = x.trap.tcause
  tval : c ≠ 0x103 → y.trap.tval = x.trap.tval
  tinst : c ≠ 0x104 → y.trap.tinst = x.trap.tinst
  tstat : c ≠ 0x105 → y.trap.tstat = x.trap.tstat
  tsave : c ≠ 0x106 → y.trap.tsave = x.trap.tsave

/-- All that CSRs read, but what CSR `c` reads, is in `t` as in `s`, and of the device only cores, tenants and parties may differ. -/
structure State.CsrsStand (s t : State) (c : Nat) : Prop where
  slot : s.sl.CsrsStand t.sl c
  core : (t.core t.cur.core).pk = (s.core s.cur.core).pk ∧ (t.core t.cur.core).e0 = (s.core s.cur.core).e0 ∧
    (t.core t.cur.core).e1 = (s.core s.cur.core).e1
  ptroot : c ≠ 0x031 → (t.tenant s.sl.ten).ptroot = (s.tenant s.sl.ten).ptroot
  mspill : c ≠ 0x032 → (t.tenant s.sl.ten).mspill = (s.tenant s.sl.ten).mspill
  flog : c ≠ 0x033 → (t.tenant s.sl.ten).flog = (s.tenant s.sl.ten).flog
  mwin : (t.tenant s.sl.ten).mwin = (s.tenant s.sl.ten).mwin
  tvec : c ≠ 0x100 → t.tvecOf t.cur = s.tvecOf s.cur
  rest : ∃ cores tenants parties, t = { s with cores := cores, tenants := tenants, parties := parties }

/-- Then every other CSR reads in `t` as in `s`. -/
theorem State.CsrsStand.csr_ne {s t : State} {c : Nat} (h : s.CsrsStand t c) {k : Nat} (hk : k ≠ c) : t.csr k = s.csr k := by
  obtain ⟨cores, tenants, parties, rest⟩ := h.rest
  obtain ⟨pk, e0, e1⟩ := h.core
  obtain ⟨ten, level, workid, tiles, sb⟩ := h.slot.strand
  have cur : t.cur = s.cur := by rw [rest]
  have ctx : t.ctxid t.cur = s.ctxid s.cur := by
    have : t.sl = t.slot t.cur := rfl
    unfold State.ctxid
    change wd (t.sl.ten % 128 * _ + t.sl.level.code * _ + _ + _ + _) = wd (s.sl.ten % 128 * _ + s.sl.level.code * _ + _ + _ + _)
    rw [ten, level, cur]
  unfold State.csr
  dsimp only
  rw [cur] at pk e0 e1 ctx ⊢
  split
  case h_1 => rw [rest]
  case h_2 => exact h.slot.retired (Ne.symm hk)
  case h_3 => exact ctx
  case h_4 => exact workid
  case h_5 => rw [Slot.tilemap, tiles]; rfl
  case h_6 => rw [pk]
  case h_7 => rw [e0]
  case h_8 => rw [e1]
  case h_9 => rw [h.slot.wdef (Ne.symm hk)]
  case h_10 => rw [sb]
  case h_11 => exact h.slot.succ (Ne.symm hk)
  case h_12 => rw [h.slot.frm (Ne.symm hk)]
  case h_13 => rw [h.slot.fflags (Ne.symm hk)]
  case h_14 => rw [h.slot.amax (Ne.symm hk)]
  case h_15 => rw [Slot.sallow, (h.slot.limit (Ne.symm hk)).1, (h.slot.limit (Ne.symm hk)).2]; rfl
  case h_16 => rw [ten]; exact h.ptroot (Ne.symm hk)
  case h_17 => rw [ten]; exact h.mspill (Ne.symm hk)
  case h_18 => rw [ten]; exact h.flog (Ne.symm hk)
  case h_24 => rw [← cur]; exact (h.tvec (Ne.symm hk)).trans (by rw [cur])
  case h_25 => exact h.slot.tpc (Ne.symm hk)
  case h_26 => exact h.slot.tcause (Ne.symm hk)
  case h_27 => exact h.slot.tval (Ne.symm hk)
  case h_28 => exact h.slot.tinst (Ne.symm hk)
  case h_29 => exact h.slot.tstat (Ne.symm hk)
  case h_30 => exact h.slot.tsave (Ne.symm hk)
  case h_32 => rw [ten, h.mwin]
  all_goals rw [rest]

/-- An update of the issuing slot leaves what CSRs read as it leaves it of the slot. -/
theorem State.csrsStand_modSl {s : State} (four : s.cur.slot < 4) {c : Nat} {f : Slot → Slot} (h : s.sl.CsrsStand (f s.sl) c) :
    s.CsrsStand (s.modSl f) c := by
  have slot : (s.modSl f).sl = f s.sl := s.slot_setSlot_same s.cur _ four
  have core : ∀ {α : Type} (g : Core → α), (∀ k : Core, g (k.setSlot s.cur.slot (f s.sl)) = g k) →
      g ((s.modSl f).core s.cur.core) = g (s.core s.cur.core) := by
    intro α g hg
    rw [State.modSl, State.modSlot, State.setSlot, State.core_setCore_same]
    exact hg _
  have ten := h.strand.1
  refine ⟨by rwa [slot], ⟨core Core.pk fun _ => rfl, core Core.e0 fun _ => rfl, core Core.e1 fun _ => rfl⟩, fun _ => rfl, fun _ => rfl, fun _ => rfl,
    rfl, fun _ => ?_, _, _, _, rfl⟩
  unfold State.tvecOf
  change (if _ then ((s.modSl f).core s.cur.core).tvec else (s.tenant (s.modSl f).sl.ten).tvec) = _
  rw [core Core.tvec fun _ => rfl, slot, ten]
  rfl

/-- An update of the strand's tenant leaves what CSRs read as it leaves it of the tenant. -/
theorem State.csrsStand_modTenant {s : State} {c : Nat} {f : Tenant → Tenant} (ptroot : c ≠ 0x031 → (f (s.tenant s.sl.ten)).ptroot = (s.tenant s.sl.ten).ptroot)
    (mspill : c ≠ 0x032 → (f (s.tenant s.sl.ten)).mspill = (s.tenant s.sl.ten).mspill)
    (flog : c ≠ 0x033 → (f (s.tenant s.sl.ten)).flog = (s.tenant s.sl.ten).flog) (mwin : (f (s.tenant s.sl.ten)).mwin = (s.tenant s.sl.ten).mwin)
    (tvec : c ≠ 0x100 → (f (s.tenant s.sl.ten)).tvec = (s.tenant s.sl.ten).tvec) : s.CsrsStand (s.modTenant s.sl.ten f) c := by
  have same := s.tenant_modTenant_same s.sl.ten f
  have slot : (s.modTenant s.sl.ten f).sl = s.sl := rfl
  refine ⟨?_, ⟨rfl, rfl, rfl⟩, by rwa [same], by rwa [same], by rwa [same], by rwa [same], fun hc => ?_, _, _, _, rfl⟩
  · exact ⟨⟨rfl, rfl, rfl, rfl, rfl⟩, fun _ => ⟨rfl, rfl⟩, fun _ => rfl, fun _ => rfl, fun _ => rfl, fun _ => rfl, fun _ => rfl, fun _ => rfl,
      fun _ => rfl, fun _ => rfl, fun _ => rfl, fun _ => rfl, fun _ => rfl, fun _ => rfl⟩
  · unfold State.tvecOf
    change (if _ then _ else ((s.modTenant s.sl.ten f).tenant s.sl.ten).tvec) = _
    rw [same, tvec hc]
    rfl

/-- The parts of a slot that a result changes when it lands. -/
theorem Slot.setS_eq (x : Slot) (d : Reg) (v : Word) : ∃ s full rel, x.setS d v = { x with s := s, full := full, regRel := rel } := by
  unfold Slot.setS Slot.wr Slot.setFull
  by_cases hd : d = 0#5
  · simp only [hd, if_true]
    exact ⟨x.s, x.full, x.regRel, rfl⟩
  · simp only [hd, if_false, if_true]
    exact ⟨_, _, x.regRel, rfl⟩

/-- A result that lands leaves every CSR but RETIRED, which counts the instruction. -/
theorem State.csrsStand_setD {s : State} (four : s.cur.slot < 4) (d : Reg) (v : Word) : s.CsrsStand (s.setD d v) 0x001 := by
  refine State.csrsStand_modSl (f := fun x => (x.setS d v).next) four ?_
  obtain ⟨y, full, rel, h⟩ := s.sl.setS_eq d v
  rw [h]
  constructor <;> simp [Slot.next, Slot.retire]

/-- What an instruction consumes leaves every CSR. -/
theorem State.csr_consume {s : State} (four : s.cur.slot < 4) (src : List (Reg × Bool)) (k : Nat) : (s.consume src).csr k = s.csr k := by
  rcases s.consume_cases src with h | ⟨ps, h⟩
  · rw [h]
  · have marks : s.CsrsStand (s.modSl fun x => { x with waits := 0#32 }) (k + 1) := State.csrsStand_modSl four (by constructor <;> simp)
    rw [h, ← marks.csr_ne (Nat.succ_ne_self k).symm]
    rfl

/-! ## Writes -/

/-- From `s` to `u` CSR `c` is written (R244): it reads `w`, every other CSR of the slot reads as before, and so do its registers, the other slots and
memory. -/
structure State.WritesCsr (s u : State) (c : Nat) (w : Word) : Prop where
  value : u.csr c = w
  stand : s.CsrsStand u c
  pc : u.sl.pc = s.sl.pc
  retired : u.sl.retired = s.sl.retired
  regs : ∀ r, u.sl.rd r = s.sl.rd r ∧ u.sl.isFull r = s.sl.isFull r
  slots : ∀ r, r ≠ s.cur → u.slot r = s.slot r

/-- The CSRs that are fields of a slot, each with its writable bits (R224, R331, R332), but SALLOW and TSTAT. -/
def csrsOfSlot : List (BitVec 12 × Word) :=
  [(0x016#12, 1#64), (0x018#12, 0x01FF_FFFF_FFFF_FFF0#64), (0x020#12, 3#64), (0x021#12, 0x7F#64), (0x022#12, 0x7FFF_FFFF#64),
    (0x101#12, 0xFFFF_FFFF_FFFF_FFFF#64), (0x102#12, 0x8000_0000_0000_00FF#64), (0x103#12, 0xFFFF_FFFF_FFFF_FFFF#64),
    (0x104#12, 0xFFFF_FFFF#64), (0x106#12, 0xFFFF_FFFF_FFFF_FFFF#64)]

/-- Those of the tenant (R56, R224). -/
def csrsOfTenant : List (BitVec 12 × Word) :=
  [(0x031#12, 0x0000_FFFF_FFFF_F000#64), (0x032#12, 0x01FF_FFFF_FFFF_F00F#64), (0x033#12, 0x01FF_FFFF_FFFF_F08F#64)]

/-- The low bits of a word, as a mask picks them. -/
theorem setWidth_low (v : Word) {n : Nat} (h : n ≤ 64) : (v.setWidth n).setWidth 64 = v &&& BitVec.ofNat 64 (2 ^ n - 1) := by
  have fits : 2 ^ n - 1 < 2 ^ 64 := (Nat.sub_lt (Nat.two_pow_pos n) Nat.one_pos).trans_le (Nat.pow_le_pow_right (by decide) h)
  have small : v.toNat % 2 ^ n < 2 ^ 64 := (Nat.mod_le _ _).trans_lt v.isLt
  apply BitVec.eq_of_toNat_eq
  rw [BitVec.toNat_setWidth, BitVec.toNat_setWidth, Nat.mod_eq_of_lt small, BitVec.toNat_and, BitVec.toNat_ofNat, Nat.mod_eq_of_lt fits,
    Nat.and_two_pow_sub_one_eq_mod]

theorem boolW_bit_zero (v : Word) : boolW (bit v 0) = v &&& 1#64 := by
  have odd : v &&& 1#64 = (v.setWidth 1).setWidth 64 := (setWidth_low v (n := 1) (by decide)).symm
  have two : v.toNat % 2 = 0 ∨ v.toNat % 2 = 1 := Nat.mod_two_eq_zero_or_one _
  rw [odd]
  apply BitVec.eq_of_toNat_eq
  rcases two with h | h <;> simp [boolW, bit, bitOf, h]

/-- A write that takes nothing. -/
theorem State.WritesCsr.refl (s : State) (c : Nat) : s.WritesCsr s c (s.csr c) := by
  refine ⟨rfl, ⟨?_, ⟨rfl, rfl, rfl⟩, fun _ => rfl, fun _ => rfl, fun _ => rfl, rfl, fun _ => rfl, _, _, _, rfl⟩, rfl, rfl, fun _ => ⟨rfl, rfl⟩, fun _ _ => rfl⟩
  constructor <;> simp

/-- An update of the issuing slot that reaches no register and nothing that another CSR reads. -/
theorem State.writesCsr_modSl {s : State} (four : s.cur.slot < 4) {c : Nat} {f : Slot → Slot} (stand : s.sl.CsrsStand (f s.sl) c)
    (regs : (f s.sl).pc = s.sl.pc ∧ (f s.sl).retired = s.sl.retired ∧ (f s.sl).s = s.sl.s ∧ (f s.sl).full = s.sl.full) :
    s.WritesCsr (s.modSl f) c ((s.modSl f).csr c) := by
  have slot : (s.modSl f).sl = f s.sl := s.slot_setSlot_same s.cur _ four
  obtain ⟨pc, retired, file, full⟩ := regs
  refine ⟨rfl, State.csrsStand_modSl four stand, ?_, ?_, fun r => ?_, fun r hr => s.slot_setSlot_ne _ hr⟩
  · rw [slot, pc]
  · rw [slot, retired]
  · rw [slot, Slot.rd, Slot.isFull, file, full]
    exact ⟨rfl, rfl⟩

/-- What it writes, when it is known what the CSR reads of the slot. -/
theorem State.writesCsr_field {s : State} (four : s.cur.slot < 4) {c : Nat} {w : Word} {f : Slot → Slot} (stand : s.sl.CsrsStand (f s.sl) c)
    (regs : (f s.sl).pc = s.sl.pc ∧ (f s.sl).retired = s.sl.retired ∧ (f s.sl).s = s.sl.s ∧ (f s.sl).full = s.sl.full)
    (value : ∀ t : State, t.sl = f s.sl → t.csr c = w) : s.WritesCsr (s.modSl f) c w := by
  rw [← value (s.modSl f) (s.slot_setSlot_same s.cur _ four)]
  exact State.writesCsr_modSl four stand regs

/-- A write of a CSR of the slot. -/
theorem State.writesCsr_slot {s : State} (four : s.cur.slot < 4) {c : BitVec 12} {m : Word} (h : (c, m) ∈ csrsOfSlot) (v : Word) :
    s.WritesCsr (s.writeCsr c.toNat v) c.toNat (v &&& m) := by
  simp only [csrsOfSlot, List.mem_cons, List.not_mem_nil, Prod.mk.injEq, or_false] at h
  rcases h with h | h | h | h | h | h | h | h | h | h
  all_goals obtain ⟨rfl, rfl⟩ := h
  · exact State.writesCsr_field four (by constructor <;> simp) ⟨rfl, rfl, rfl, rfl⟩ fun t ht =>
      (congrArg (fun x : Slot => boolW x.wdef) ht).trans (boolW_bit_zero v)
  · exact State.writesCsr_field four (by constructor <;> simp) ⟨rfl, rfl, rfl, rfl⟩ fun t ht => congrArg Slot.succ ht
  · exact State.writesCsr_field four (by constructor <;> simp) ⟨rfl, rfl, rfl, rfl⟩ fun t ht =>
      (congrArg (fun x : Slot => x.frm.setWidth 64) ht).trans (setWidth_low v (by decide))
  · exact State.writesCsr_field four (by constructor <;> simp) ⟨rfl, rfl, rfl, rfl⟩ fun t ht =>
      (congrArg (fun x : Slot => x.fflags.setWidth 64) ht).trans (setWidth_low v (by decide))
  · exact State.writesCsr_field four (by constructor <;> simp) ⟨rfl, rfl, rfl, rfl⟩ fun t ht =>
      (congrArg (fun x : Slot => x.amax.setWidth 64) ht).trans (setWidth_low v (by decide))
  · exact State.writesCsr_field four (by constructor <;> simp) ⟨rfl, rfl, rfl, rfl⟩ fun t ht =>
      (congrArg (fun x : Slot => x.trap.tpc) ht).trans BitVec.and_allOnes.symm
  · exact State.writesCsr_field four (by constructor <;> simp) ⟨rfl, rfl, rfl, rfl⟩ fun t ht => congrArg (fun x : Slot => x.trap.tcause) ht
  · exact State.writesCsr_field four (by constructor <;> simp) ⟨rfl, rfl, rfl, rfl⟩ fun t ht =>
      (congrArg (fun x : Slot => x.trap.tval) ht).trans BitVec.and_allOnes.symm
  · exact State.writesCsr_field four (by constructor <;> simp) ⟨rfl, rfl, rfl, rfl⟩ fun t ht => congrArg (fun x : Slot => x.trap.tinst) ht
  · exact State.writesCsr_field four (by constructor <;> simp) ⟨rfl, rfl, rfl, rfl⟩ fun t ht =>
      (congrArg (fun x : Slot => x.trap.tsave) ht).trans BitVec.and_allOnes.symm

/-- An update of the strand's tenant that makes CSR `c` read `w`. -/
theorem State.writesCsr_modTenant {s : State} {c : Nat} {w : Word} {f : Tenant → Tenant} (stand : s.CsrsStand (s.modTenant s.sl.ten f) c)
    (value : (s.modTenant s.sl.ten f).csr c = w) : s.WritesCsr (s.modTenant s.sl.ten f) c w :=
  ⟨value, stand, rfl, rfl, fun _ => ⟨rfl, rfl⟩, fun _ _ => rfl⟩

/-- A write of a CSR of the tenant. -/
theorem State.writesCsr_tenant (s : State) {c : BitVec 12} {m : Word} (h : (c, m) ∈ csrsOfTenant) (v : Word) :
    s.WritesCsr (s.writeCsr c.toNat v) c.toNat (v &&& m) := by
  simp only [csrsOfTenant, List.mem_cons, List.not_mem_nil, Prod.mk.injEq, or_false] at h
  rcases h with h | h | h
  all_goals obtain ⟨rfl, rfl⟩ := h
  · exact State.writesCsr_modTenant (f := fun t => { t with ptroot := v &&& 0x0000_FFFF_FFFF_F000#64 })
      (State.csrsStand_modTenant (by simp) (by simp) (by simp) rfl (by simp)) (congrArg Tenant.ptroot (s.tenant_modTenant_same s.sl.ten _))
  · exact State.writesCsr_modTenant (f := fun t => { t with mspill := v &&& 0x01FF_FFFF_FFFF_F00F#64 })
      (State.csrsStand_modTenant (by simp) (by simp) (by simp) rfl (by simp)) (congrArg Tenant.mspill (s.tenant_modTenant_same s.sl.ten _))
  · exact State.writesCsr_modTenant (f := fun t => { t with flog := v &&& 0x01FF_FFFF_FFFF_F08F#64 })
      (State.csrsStand_modTenant (by simp) (by simp) (by simp) rfl (by simp)) (congrArg Tenant.flog (s.tenant_modTenant_same s.sl.ten _))

/-- The address that TVEC keeps is its writable bits (R330). -/
theorem tvec_bits (v : Word) : wd (fld (v &&& 0x01FF_FFFF_FFFF_FFFC#64) 56 2 * 4) = v &&& 0x01FF_FFFF_FFFF_FFFC#64 := by
  have least : (v &&& 0x01FF_FFFF_FFFF_FFFC#64).toNat % 2 ^ 2 = 0 := by
    rw [BitVec.toNat_and, Nat.and_mod_two_pow]
    simp
  have most : (v &&& 0x01FF_FFFF_FFFF_FFFC#64).toNat ≤ 0x01FF_FFFF_FFFF_FFFC := by
    rw [BitVec.toNat_and]
    exact Nat.and_le_right
  generalize v &&& 0x01FF_FFFF_FFFF_FFFC#64 = u at least most
  apply BitVec.eq_of_toNat_eq
  simp only [wd, fld, bits, BitVec.toNat_ofNat]
  omega

/-- TVEC of a strand that does not run on a monitor core is its tenant's (R330). -/
theorem State.tvecOf_tenant {s : State} {r : SlotRef} (h : coreKind r.core ≠ .monitor) : s.tvecOf r = (s.tenant (s.slot r).ten).tvec := if_neg h

theorem State.tvecOf_monitor {s : State} {r : SlotRef} (h : coreKind r.core = .monitor) : s.tvecOf r = (s.core r.core).tvec := if_pos h

/-- A write of TVEC: the tenant's, or a monitor core's own (R330). -/
theorem State.writesCsr_tvec (s : State) (v : Word) : s.WritesCsr (s.writeCsr 0x100 v) 0x100 (v &&& 0x01FF_FFFF_FFFF_FFFC#64) := by
  change s.WritesCsr (s.setTvec s.cur s.sl.ten v) _ _
  unfold State.setTvec
  dsimp only
  by_cases monitor : coreKind s.cur.core = .monitor
  · rw [if_pos monitor, tvec_bits]
    generalize v &&& 0x01FF_FFFF_FFFF_FFFC#64 = a
    have core := s.core_setCore_same s.cur.core { s.core s.cur.core with tvec := a }
    have slot : ∀ q, (s.modCore s.cur.core fun c => { c with tvec := a }).slot q = s.slot q := s.slot_modCore _ (by exact fun _ => rfl)
    have sl : (s.modCore s.cur.core fun c => { c with tvec := a }).sl = s.sl := slot s.cur
    refine ⟨?_, ⟨?_, ?_, fun _ => rfl, fun _ => rfl, fun _ => rfl, rfl, fun h => absurd rfl h, _, _, _, rfl⟩, ?_, ?_, ?_, fun r _ => slot r⟩
    · exact (State.tvecOf_monitor monitor).trans (congrArg Core.tvec core)
    · rw [sl]
      constructor <;> simp
    · exact ⟨s.core_modCore_congr _ Core.pk (by exact fun _ => rfl) _, s.core_modCore_congr _ Core.e0 (by exact fun _ => rfl) _,
        s.core_modCore_congr _ Core.e1 (by exact fun _ => rfl) _⟩
    · rw [sl]
    · rw [sl]
    · rw [sl]
      exact fun _ => ⟨rfl, rfl⟩
  · rw [if_neg monitor, tvec_bits]
    refine State.writesCsr_modTenant (State.csrsStand_modTenant (by simp) (by simp) (by simp) rfl (by simp)) ?_
    exact (State.tvecOf_tenant monitor).trans (congrArg Tenant.tvec (s.tenant_modTenant_same s.sl.ten _))

/-- A permitted write of a CSR changes its writable bits (R244). -/
theorem State.writesCsr_writeCsr {s : State} (four : s.cur.slot < 4) {c : BitVec 12} {m : Word}
    (h : (c, m) ∈ csrsOfSlot ∨ (c, m) ∈ csrsOfTenant ∨ (c = 0x100#12 ∧ m = 0x01FF_FFFF_FFFF_FFFC#64)) (v : Word) :
    s.WritesCsr (s.writeCsr c.toNat v) c.toNat (v &&& m) := by
  rcases h with h | h | ⟨rfl, rfl⟩
  · exact State.writesCsr_slot four h v
  · exact s.writesCsr_tenant h v
  · exact s.writesCsr_tvec v

/-! ## CSR instructions (R129, R244, R270) -/

theorem csrOrdered_write_iff (c : BitVec 12) : csrOrdered c.toNat true = true ↔ c = 0x021#12 ∨ c = 0x022#12 := by
  simp [csrOrdered, BitVec.toNat_eq]

/-- What slots have no part in stands in a core whose slot is set. -/
theorem State.core_setSlot_congr {α : Type} (s : State) (r : SlotRef) (x : Slot) (g : Core → α) (hg : ∀ (c : Core) n x, g (c.setSlot n x) = g c)
    (k : Nat) : g ((s.setSlot r x).core k) = g (s.core k) :=
  s.core_modCore_congr r.core (f := fun c => c.setSlot r.slot x) g (fun c => hg c r.slot x) k

/-- It stands whatever an instruction has consumed. -/
theorem State.core_consume_congr {α : Type} (s : State) (src : List (Reg × Bool)) (g : Core → α) (hg : ∀ (c : Core) n x, g (c.setSlot n x) = g c)
    (k : Nat) : g ((s.consume src).core k) = g (s.core k) := by
  rcases s.consume_cases src with h | ⟨ps, h⟩
  · rw [h]
  · rw [h]
    exact s.core_setSlot_congr s.cur _ g hg k

/-- Row instructions are under way for a strand whatever an instruction has consumed. -/
theorem State.rowsUnderWay_consume {s : State} (four : s.cur.slot < 4) (src : List (Reg × Bool)) :
    (s.consume src).rowsUnderWay s.cur = s.rowsUnderWay s.cur := by
  have seq := s.core_consume_congr src Core.seq (fun _ _ _ => rfl) s.cur.core
  have flights : (s.consume src).flightsOf s.cur = s.flightsOf s.cur := by
    rcases s.consume_cases src with h | ⟨ps, h⟩
    · rw [h]
    · have slot := s.slot_setSlot_same s.cur { s.sl with waits := 0#32 } four
      rw [h]
      unfold State.flightsOf
      change s.flights.filter (fun f => f.party == ((s.setSlot s.cur _).slot s.cur).party && ((s.setSlot s.cur _).slot s.cur).occ != .free) = _
      rw [slot]
      rfl
  rw [State.rowsUnderWay, State.rowsUnderWay, State.seqOf, State.seqOf, seq, flights]

/-- The slot after a one-cycle result. -/
theorem State.sl_setD {s : State} (four : s.cur.slot < 4) (d : Reg) (v : Word) : (s.setD d v).sl = (s.sl.setS d v).next :=
  s.slot_setSlot_same s.cur _ four

/-- To write a CSR and to land a result: the CSR reads what was written, and the result stands in its register. -/
theorem State.WritesCsr.setD {s u : State} {c : Nat} {w : Word} (four : s.cur.slot < 4) (h : s.WritesCsr u c w) (hc : c ≠ 1) (d : Reg) (v : Word) :
    (u.setD d v).csr c = w ∧ (u.setD d v).sl.Holds d v ∧ (u.setD d v).sl.pc = s.sl.pc + 4#64 ∧
      (u.setD d v).sl.retired = s.sl.retired + 1#64 ∧ (∀ k, k ≠ c → k ≠ 1 → (u.setD d v).csr k = s.csr k) ∧
      (∀ r, r ≠ d → (u.setD d v).sl.rd r = s.sl.rd r ∧ (u.setD d v).sl.isFull r = s.sl.isFull r) ∧
      (∀ r, r ≠ s.cur → (u.setD d v).slot r = s.slot r) ∧ (u.setD d v).mem = s.mem := by
  obtain ⟨cores, tenants, parties, rest⟩ := h.stand.rest
  have cur : u.cur = s.cur := by rw [rest]
  have four' : u.cur.slot < 4 := by rwa [cur]
  have landed := State.csrsStand_setD four' d v
  obtain ⟨y, full, rel, parts⟩ := u.sl.setS_eq d v
  have sl := State.sl_setD four' d v
  refine ⟨(landed.csr_ne hc).trans h.value, ?_, ?_, ?_, fun k hk k1 => (landed.csr_ne k1).trans (h.stand.csr_ne hk), fun r hr => ?_, fun r hr => ?_,
    (congrArg State.mem rest :)⟩
  · rw [sl]
    exact ⟨Slot.rd_setS_same u.sl d v, Slot.isFull_setS_same u.sl d v⟩
  · rw [sl, parts, ← h.pc]
    rfl
  · rw [sl, parts, ← h.retired]
    rfl
  · rw [sl, ← (h.regs r).1, ← (h.regs r).2]
    exact ⟨Slot.rd_setS_ne u.sl v hr, Slot.isFull_setS_ne u.sl v hr⟩
  · exact (u.slot_setSlot_ne _ (by rwa [cur])).trans (h.slots r hr)

/-- What a landing result leaves of the fields of a slot that SALLOW and the trap registers read. -/
theorem State.fields_setD {s : State} (four : s.cur.slot < 4) (d : Reg) (v : Word) :
    (s.setD d v).sl.limit = s.sl.limit ∧ (s.setD d v).sl.unacc = s.sl.unacc ∧ (s.setD d v).sl.trap = s.sl.trap := by
  obtain ⟨y, full, rel, h⟩ := s.sl.setS_eq d v
  rw [State.sl_setD four, h]
  exact ⟨rfl, rfl, rfl⟩

/-- What consuming leaves of the other slots. -/
theorem State.slot_consume_ne (s : State) (src : List (Reg × Bool)) {r : SlotRef} (h : r ≠ s.cur) : (s.consume src).slot r = s.slot r := by
  rcases s.consume_cases src with e | ⟨ps, e⟩
  · rw [e]
  · rw [e]
    exact s.slot_setSlot_ne _ h

theorem State.isFull_consume (s : State) (src : List (Reg × Bool)) (four : s.cur.slot < 4) (r : Reg) :
    (s.consume src).sl.isFull r = s.sl.isFull r := by
  rcases s.consume_sl src four with h | h
  · rw [h]
  · rw [h]
    rfl

theorem State.retired_consume (s : State) (src : List (Reg × Bool)) (four : s.cur.slot < 4) : (s.consume src).sl.retired = s.sl.retired := by
  rcases s.consume_sl src four with h | h
  · rw [h]
  · rw [h]

theorem State.mem_consume (s : State) (src : List (Reg × Bool)) : (s.consume src).mem = s.mem := by
  rcases s.consume_cases src with h | ⟨ps, h⟩
  · rw [h]
  · rw [h]
    rfl

/-- A CSR instruction that may write is issued (R244, R352). -/
theorem csrOp_permitted {s : State} {c : BitVec 12} (permitted : csrFault s.sl.level c.toNat true = none) (i : Instr) (d a : Reg) (w : Bool)
    (f : Word → Word → Word) :
    csrOp i d [(a, w)] c (some f) s = s.issue [(a, w)] [d] fun s =>
      if csrOrdered c.toNat true && s.rowsUnderWay s.cur then s.pushSeq i [s.sl.rd a] none [d]
      else (s.writeCsr c.toNat (f (s.csr c.toNat) (s.sl.rd a))).setD d (s.csr c.toNat) := by
  unfold csrOp
  rw [Option.isSome_some, permitted]

/-- A CSR instruction that writes, and that no row instruction under way keeps back, writes and lands the old value (R244). -/
theorem State.csrOp_writes {s : State} {d a : Reg} (ready : s.Ready [a] [d]) {c : BitVec 12} {w : Word} {f : Word → Word → Word}
    (permitted : csrFault s.sl.level c.toNat true = none) (free : csrOrdered c.toNat true = true → s.rowsUnderWay s.cur = false) (hc : c.toNat ≠ 1)
    (writes : (s.consume [(a, s.wmode)]).WritesCsr ((s.consume [(a, s.wmode)]).writeCsr c.toNat (f (s.csr c.toNat) (s.sl.rd a))) c.toNat w)
    (i : Instr) :
    let t := csrOp i d [(a, s.wmode)] c (some f) s
    t = ((s.consume [(a, s.wmode)]).writeCsr c.toNat (f (s.csr c.toNat) (s.sl.rd a))).setD d (s.csr c.toNat) ∧
      t.csr c.toNat = w ∧ t.sl.Holds d (s.csr c.toNat) ∧ t.sl.pc = s.sl.pc + 4#64 ∧
      (∀ k, k ≠ c.toNat → k ≠ 1 → t.csr k = s.csr k) ∧ (∀ r, r ≠ d → t.sl.rd r = s.sl.rd r ∧ t.sl.isFull r = s.sl.isFull r) ∧
      (∀ r, r ≠ s.cur → t.slot r = s.slot r) ∧ ∀ n, Memory.get t.mem n = Memory.get s.mem n := by
  have four := ready.slot
  let s1 := s.consume [(a, s.wmode)]
  have cur : s1.cur = s.cur := s.consume_cur _
  have four' : s1.cur.slot < 4 := by rwa [cur]
  obtain ⟨value, holds, pc, retired, others, regs, slots, mem⟩ := writes.setD four' hc d (s.csr c.toNat)
  let k : State → State := fun s =>
    if csrOrdered c.toNat true && s.rowsUnderWay s.cur then s.pushSeq i [s.sl.rd a] none [d]
    else (s.writeCsr c.toNat (f (s.csr c.toNat) (s.sl.rd a))).setD d (s.csr c.toNat)
  have rows : s1.rowsUnderWay s1.cur = s.rowsUnderWay s.cur := by
    rw [cur]
    exact s.rowsUnderWay_consume four _
  have goes : k s1 = (s1.writeCsr c.toNat (f (s.csr c.toNat) (s.sl.rd a))).setD d (s.csr c.toNat) := by
    have : (csrOrdered c.toNat true && s1.rowsUnderWay s1.cur) = false := by
      rw [rows]
      cases h : csrOrdered c.toNat true
      · rfl
      · exact free h
    dsimp only [k]
    rw [if_neg (by simp [this]), State.csr_consume four, s.consume_rd _ four]
  have issued : csrOp i d [(a, s.wmode)] c (some f) s = k s1 := by
    rw [csrOp_permitted permitted]
    exact s.issue_retires _ _ k ready (by rw [goes, retired, s.retired_consume _ four])
  intro t
  have ht : t = (s1.writeCsr c.toNat (f (s.csr c.toNat) (s.sl.rd a))).setD d (s.csr c.toNat) := issued.trans goes
  rw [ht]
  refine ⟨rfl, value, holds, ?_, fun k hk k1 => ?_, fun r hr => ?_, fun r hr => ?_, fun n => ?_⟩
  · rw [pc, s.consume_pc _ four]
  · rw [others k hk k1, State.csr_consume four]
  · rw [(regs r hr).1, (regs r hr).2, s.consume_rd _ four, s.isFull_consume _ four]
    exact ⟨rfl, rfl⟩
  · rw [slots r (by rwa [cur]), s.slot_consume_ne _ hr]
  · rw [mem, s.mem_consume]

/-- A write of SALLOW takes a LIMIT from 1 to 64 (R193). -/
theorem State.writeCsr_sallow {s : State} (four : s.cur.slot < 4) (v : Word) :
    (∃ w, s.WritesCsr (s.writeCsr 0x030 v) 0x030 w) ∧
      (s.writeCsr 0x030 v).sl.limit = (if 1 ≤ fld v 15 8 ∧ fld v 15 8 ≤ 64 then fld v 15 8 else s.sl.limit) ∧
      (s.writeCsr 0x030 v).sl.unacc = s.sl.unacc := by
  by_cases within : 1 ≤ fld v 15 8 ∧ fld v 15 8 ≤ 64
  · have taken : s.writeCsr 0x030 v = s.modSl fun x => { x with limit := fld v 15 8 } := if_pos within
    have sl : (s.writeCsr 0x030 v).sl = { s.sl with limit := fld v 15 8 } := by
      rw [taken]
      exact s.slot_setSlot_same s.cur _ four
    rw [if_pos within, sl, taken]
    exact ⟨⟨_, State.writesCsr_modSl four (by constructor <;> simp) ⟨rfl, rfl, rfl, rfl⟩⟩, rfl, rfl⟩
  · have kept : s.writeCsr 0x030 v = s := if_neg within
    rw [if_neg within, kept]
    exact ⟨⟨_, .refl s 0x030⟩, rfl, rfl⟩

/-- A write of TSTAT (R332). -/
theorem State.writeCsr_tstat {s : State} (four : s.cur.slot < 4) (v : Word) :
    (∃ w, s.WritesCsr (s.writeCsr 0x105 v) 0x105 w) ∧ (s.writeCsr 0x105 v).sl.trap.tstat = tstatWrite s.sl.level s.sl.trap.tstat v := by
  refine ⟨⟨_, State.writesCsr_modSl four (by constructor <;> simp) ⟨rfl, rfl, rfl, rfl⟩⟩, ?_⟩
  exact congrArg (fun x : Slot => x.trap.tstat)
    (s.slot_setSlot_same s.cur { s.sl with trap := { s.sl.trap with tstat := tstatWrite s.sl.level s.sl.trap.tstat v } } four)

theorem bit_eq_getLsbD (w : Word) (i : Nat) : bit w i = w.getLsbD i := by
  rw [bit, bitOf, BitVec.getLsbD, Nat.testBit_eq_decide_div_mod_eq]
  rfl

/-- Above PLEVEL a write of TSTAT takes the writable bits of what is written (R332). -/
theorem bit_tstatWrite (lv : Level) (old v : Word) {i : Nat} (hi : i < 64) (high : 2 ≤ i) :
    bit (tstatWrite lv old v) i = (bit v i && ((4 ≤ i && i ≤ 6) || 43 ≤ i)) := by
  have mask : ∀ i < 64, 2 ≤ i → (0xFFFF_F800_0000_0073#64).getLsbD i = ((4 ≤ i && i ≤ 6) || 43 ≤ i) ∧ (3#64).getLsbD i = false := by decide
  obtain ⟨writable, plevel⟩ := mask i hi high
  unfold tstatWrite
  dsimp only
  split
  · rw [bit_eq_getLsbD, bit_eq_getLsbD, BitVec.getLsbD_or, BitVec.getLsbD_and, BitVec.getLsbD_and, BitVec.getLsbD_and, BitVec.getLsbD_not, plevel, writable]
    simp [hi]
  · rw [bit_eq_getLsbD, bit_eq_getLsbD, BitVec.getLsbD_and, writable]

theorem fld_one_zero (w : Word) : fld w 1 0 = (w.setWidth 2).toNat := by
  simp [fld, bits]

/-- PLEVEL after a write of TSTAT (R332). -/
theorem fld_tstatWrite (lv : Level) (old v : Word) :
    fld (tstatWrite lv old v) 1 0 = if lv = .s ∧ 2 ≤ fld v 1 0 then fld old 1 0 else fld v 1 0 := by
  have mask : (0xFFFF_F800_0000_0073#64).setWidth 2 = BitVec.allOnes 2 := by decide
  have kept : (~~~3#64).setWidth 2 = 0#2 ∧ (3#64).setWidth 2 = BitVec.allOnes 2 := by decide
  unfold tstatWrite
  dsimp only
  split
  · rw [fld_one_zero, fld_one_zero, BitVec.setWidth_or, BitVec.setWidth_and, BitVec.setWidth_and, BitVec.setWidth_and, kept.1, kept.2,
      BitVec.and_zero, BitVec.zero_or, BitVec.and_allOnes]
  · rw [fld_one_zero, fld_one_zero, BitVec.setWidth_and, mask, BitVec.and_allOnes]

/-! ## Behind the row instructions (R129, R162, R270) -/

/-- The parts of a slot that a change of a full bit reaches. -/
theorem Slot.setFull_eq (x : Slot) (d : Reg) (b : Bool) : ∃ full rel, x.setFull d b = { x with full := full, regRel := rel } := by
  unfold Slot.setFull
  by_cases hd : d = 0#5
  · simp only [hd, if_true]
    exact ⟨x.full, x.regRel, rfl⟩
  · cases b <;> simp only [hd, if_false, if_true, Bool.false_eq_true]
    · exact ⟨_, _, rfl⟩
    · exact ⟨_, x.regRel, rfl⟩

/-- An instruction whose destination is empty from then on retires. -/
theorem Slot.retires_setFull (x : Slot) (d : Reg) : x.Retires (x.setFull d false).next [d] (x.pc + 4#64) := by
  obtain ⟨full, rel, h⟩ := x.setFull_eq d false
  refine ⟨?_, ?_, fun r hr => ?_, ?_, ?_⟩
  · rw [h]
    rfl
  · rw [h]
    rfl
  · have hn : r ≠ d := by simpa using hr
    exact ⟨Slot.rd_setFull x d r false, Slot.isFull_setFull_ne x false hn⟩
  · rw [h]
    exact ⟨rfl, rfl⟩
  · rw [h]
    rfl

/-- The rounding mode that a word captures in the sequencer (R121, R129). -/
theorem frm_captured (m : BitVec 2) :
    [RMode.rne, RMode.rtz, RMode.rdn, RMode.rup].getD m.toNat .rne = if m = 0#2 then .rne else if m = 1#2 then .rtz else if m = 2#2 then .rdn else .rup := by
  revert m
  decide

/-- A word that finds room in the sequencer enters it, with one scalar destination. -/
theorem State.enters_pushSeq {s : State} (four : s.cur.slot < 4) (room : (s.core s.cur.core).seqLen < 16) (i : Instr) (scal : List Word) (d : Reg) :
    s.Enters (s.pushSeq i scal none [d]) i scal [d] := by
  let e : SeqEntry :=
    { slot := s.cur.slot, party := s.sl.party, instr := i, word := s.ir, scal := scal, ea := none, id := s.fresh, inh := bit s.sl.trap.tstat 4,
      frm := [RMode.rne, RMode.rtz, RMode.rdn, RMode.rup].getD s.sl.frm.toNat .rne }
  let q := (s.core s.cur.core).seq ++ [.one e]
  let u : State := ({ s with fresh := s.fresh + 1 } : State).modCore s.cur.core fun k => { k with seq := k.seq ++ [.one e] }
  have same : u.sl = s.sl := State.slot_modCore { s with fresh := s.fresh + 1 } s.cur.core (by exact fun _ => rfl) s.cur
  have pushed : s.pushSeq i scal none [d] = u.setSlot s.cur (s.sl.setFull d false).next := by
    rw [← same]
    unfold State.pushSeq
    rw [if_neg (by omega)]
    rfl
  have slot : (s.pushSeq i scal none [d]).sl = (s.sl.setFull d false).next := by
    rw [pushed]
    exact u.slot_setSlot_same s.cur _ four
  refine ⟨?_, fun r hr => ?_, ⟨e, ?_, rfl, rfl, rfl, rfl, rfl, rfl, rfl, frm_captured _⟩, fun a => ?_, q, ?_⟩
  · rw [slot]
    exact s.sl.retires_setFull d
  · obtain rfl : r = d := by simpa using hr
    rw [slot]
    exact (Slot.isFull_setFull_same s.sl r false).trans (Bool.or_false _)
  · rw [pushed, State.setSlot, State.core_setCore_same]
    change (u.core s.cur.core).seq = _
    exact congrArg Core.seq (State.core_setCore_same { s with fresh := s.fresh + 1 } s.cur.core _)
  · rw [pushed]
    rfl
  · rw [slot, pushed]
    rfl

/-- A CSR instruction that writes a CSR which the strand's row instructions still use enters the sequencer behind them (R129, R270). -/
theorem State.csrOp_enters {s : State} {d a : Reg} (ready : s.Ready [a] [d]) {c : BitVec 12} (permitted : csrFault s.sl.level c.toNat true = none)
    (ordered : csrOrdered c.toNat true = true) (rows : s.rowsUnderWay s.cur = true) (room : (s.core s.cur.core).seqLen < 16) (i : Instr)
    (f : Word → Word → Word) :
    (s.consume [(a, s.wmode)]).Enters (csrOp i d [(a, s.wmode)] c (some f) s) i [s.sl.rd a] [d] := by
  have four := ready.slot
  let s1 := s.consume [(a, s.wmode)]
  have cur : s1.cur = s.cur := s.consume_cur _
  let k : State → State := fun s =>
    if csrOrdered c.toNat true && s.rowsUnderWay s.cur then s.pushSeq i [s.sl.rd a] none [d]
    else (s.writeCsr c.toNat (f (s.csr c.toNat) (s.sl.rd a))).setD d (s.csr c.toNat)
  have goes : k s1 = s1.pushSeq i [s.sl.rd a] none [d] := by
    have : s1.rowsUnderWay s1.cur = true := by
      rw [cur, State.rowsUnderWay_consume four, rows]
    dsimp only [k]
    rw [ordered, this, if_pos (by decide), s.consume_rd _ four]
  have seq : (s1.core s1.cur.core).seqLen < 16 := by
    have : (s1.core s1.cur.core).seqLen = (s.core s1.cur.core).seqLen := s.core_consume_congr _ Core.seqLen (fun _ _ _ => rfl) _
    rwa [this, cur]
  have enters := State.enters_pushSeq (s := s1) (by rwa [cur]) seq i [s.sl.rd a] d
  rw [csrOp_permitted permitted, s.issue_retires [(a, s.wmode)] [d] k ready, goes]
  · exact enters
  · rw [goes, enters.slot.count, s.retired_consume _ four]

/-! ## Rights (R224, R352) -/

/-- The CSRs that a strand of a level writes, each with its writable bits (R224, R330 to R332), but SALLOW and TSTAT. -/
def csrsWritten (lv : Level) : List (BitVec 12 × Word) :=
  [(0x016#12, 1#64), (0x018#12, 0x01FF_FFFF_FFFF_FFF0#64), (0x020#12, 3#64), (0x021#12, 0x7F#64), (0x022#12, 0x7FFF_FFFF#64)] ++
    if lv = .u then [] else [(0x031#12, 0x0000_FFFF_FFFF_F000#64), (0x032#12, 0x01FF_FFFF_FFFF_F00F#64),
      (0x033#12, 0x01FF_FFFF_FFFF_F08F#64), (0x100#12, 0x01FF_FFFF_FFFF_FFFC#64), (0x101#12, 0xFFFF_FFFF_FFFF_FFFF#64),
      (0x102#12, 0x8000_0000_0000_00FF#64), (0x103#12, 0xFFFF_FFFF_FFFF_FFFF#64), (0x104#12, 0xFFFF_FFFF#64),
      (0x106#12, 0xFFFF_FFFF_FFFF_FFFF#64)]

theorem csrFault_of_u {c : Nat} (h : csrRights c = some (.u, some .u)) (lv : Level) : csrFault lv c true = none := by
  unfold csrFault
  rw [h]
  cases lv <;> rfl

theorem csrFault_of_s {c : Nat} (h : csrRights c = some (.u, some .s) ∨ csrRights c = some (.s, some .s)) {lv : Level} (high : lv ≠ .u) :
    csrFault lv c true = none := by
  have above : ∀ q : Level, q = .u ∨ q = .s → lv.atLeast q = true := by
    rintro q (rfl | rfl)
    · cases lv <;> rfl
    · cases lv
      · exact absurd rfl high
      · rfl
      · rfl
  unfold csrFault
  rcases h with h | h
  · rw [h]
    simp [above .u (.inl rfl), above .s (.inr rfl)]
  · rw [h]
    simp [above .s (.inr rfl)]

/-- Each of them may be written, is one of those that `State.writesCsr_writeCsr` speaks of, and is not RETIRED. -/
theorem csrsWritten_writable {lv : Level} {c : BitVec 12} {m : Word} (h : (c, m) ∈ csrsWritten lv) : csrFault lv c.toNat true = none ∧ c.toNat ≠ 1 ∧
    ((c, m) ∈ csrsOfSlot ∨ (c, m) ∈ csrsOfTenant ∨ (c = 0x100#12 ∧ m = 0x01FF_FFFF_FFFF_FFFC#64)) := by
  rcases List.mem_append.mp h with h | h
  · simp only [List.mem_cons, List.not_mem_nil, Prod.mk.injEq, or_false] at h
    rcases h with h | h | h | h | h
    all_goals
      obtain ⟨rfl, rfl⟩ := h
      exact ⟨csrFault_of_u rfl lv, by decide, .inl (by simp [csrsOfSlot])⟩
  · by_cases low : lv = .u
    · rw [if_pos low] at h
      exact absurd h List.not_mem_nil
    · rw [if_neg low] at h
      simp only [List.mem_cons, List.not_mem_nil, Prod.mk.injEq, or_false] at h
      rcases h with h | h | h | h | h | h | h | h | h
      all_goals
        obtain ⟨rfl, rfl⟩ := h
        exact ⟨csrFault_of_s (.inr rfl) low, by decide, by simp [csrsOfSlot, csrsOfTenant]⟩

/-- A CSR instruction without the right to its CSR traps before anything else (R352). -/
theorem csrOp_fault {s : State} {c : BitVec 12} {new : Option (Word → Word → Word)} {code : Nat}
    (h : csrFault s.sl.level c.toNat new.isSome = some code) (i : Instr) (d : Reg) (src : List (Reg × Bool)) : csrOp i d src c new s = s.trap code 0#64 := by
  unfold csrOp
  rw [h]

/-- An unassigned CSR (R352). -/
theorem csrFault_unassigned {c : Nat} (h : csrRights c = none) (lv : Level) (w : Bool) : csrFault lv c w = some 1 := by
  unfold csrFault
  rw [h]

/-- A CSR that every level reads and none writes (R352). -/
theorem csrFault_readOnly {c : Nat} (h : csrRights c = some (.u, none)) (lv : Level) : csrFault lv c true = some 1 := by
  unfold csrFault
  rw [h]
  cases lv <;> rfl

/-- A CSR that only higher levels read (R352). -/
theorem csrFault_low {c : Nat} {q : Level} {p : Option Level} (h : csrRights c = some (q, p)) {lv : Level} (low : lv.atLeast q = false) (w : Bool) :
    csrFault lv c w = some 2 := by
  unfold csrFault
  rw [h]
  simp [low]

end Sys2Proof.Machine

open Sys2Proof Sys2Proof.Machine

/-- Settles O11: a permitted write is `State.writeCsr` and the landing of the old value (`State.csrOp_writes`), and each CSR's write is read off its field
(`State.writesCsr_writeCsr`); the rights are rows of `csrRights`. -/
theorem csrWritesAndRights : Obligations.CsrWritesAndRights := by
  unfold Obligations.CsrWritesAndRights
  refine ⟨?writes, ?masked, ?rights, ?tenant⟩
  case writes =>
    intro s d a c m ready listed ordered writes enters
    obtain ⟨permitted, hc, writable⟩ := csrsWritten_writable listed
    have four : (s.consume [(a, s.wmode)]).cur.slot < 4 := by rw [s.consume_cur]; exact ready.slot
    have writing : ∀ i f, exec i s = .next (csrOp i d [(a, s.wmode)] c (some f) s) → writes i (f (s.csr c.toNat) (s.sl.rd a)) := by
      intro i f run free
      obtain ⟨-, done⟩ := State.csrOp_writes ready permitted (fun h => free ((csrOrdered_write_iff c).mp h)) hc
        (State.writesCsr_writeCsr four writable (f (s.csr c.toNat) (s.sl.rd a))) i
      exact ⟨_, run, done⟩
    have entering : ∀ i f, exec i s = .next (csrOp i d [(a, s.wmode)] c (some f) s) → enters i := fun i f run row rows room =>
      ⟨_, run, State.csrOp_enters ready permitted ((csrOrdered_write_iff c).mpr row) rows room i f⟩
    refine ⟨writing (.csrw d a c) (fun _ v => v) rfl, entering (.csrw d a c) (fun _ v => v) rfl, fun ha => ?_⟩
    have set : exec (.csrs d a c) s = .next (csrOp (.csrs d a c) d [(a, s.wmode)] c (some fun o v => o ||| v) s) := by
      change execCsrs d a c s = _
      rw [execCsrs, if_neg ha]
    have clear : exec (.csrc d a c) s = .next (csrOp (.csrc d a c) d [(a, s.wmode)] c (some fun o v => o &&& ~~~v) s) := by
      change execCsrc d a c s = _
      rw [execCsrc, if_neg ha]
    exact ⟨writing _ _ set, writing _ _ clear, entering _ _ set, entering _ _ clear⟩
  case masked =>
    intro s d a ready high v writes
    have four := ready.slot
    let s1 := s.consume [(a, s.wmode)]
    have four' : s1.cur.slot < 4 := by rw [s.consume_cur]; exact ready.slot
    obtain ⟨level, limit, unacc, trap⟩ : s1.sl.level = s.sl.level ∧ s1.sl.limit = s.sl.limit ∧ s1.sl.unacc = s.sl.unacc ∧
        s1.sl.trap = s.sl.trap := by
      rcases s.consume_sl [(a, s.wmode)] four with h | h
      · rw [h]
        exact ⟨rfl, rfl, rfl, rfl⟩
      · rw [h]
        exact ⟨rfl, rfl, rfl, rfl⟩
    have writing : ∀ c : BitVec 12, c.toNat ≠ 1 → csrRights c.toNat = some (.u, some .s) ∨ csrRights c.toNat = some (.s, some .s) →
        csrOrdered c.toNat true = false → (∃ w, s1.WritesCsr (s1.writeCsr c.toNat v) c.toNat w) →
        ∃ t, exec (.csrw d a c) s = .next t ∧ t.sl.Holds d (s.csr c.toNat) ∧ t.sl.pc = s.sl.pc + 4#64 ∧
          t.sl.limit = (s1.writeCsr c.toNat v).sl.limit ∧ t.sl.unacc = (s1.writeCsr c.toNat v).sl.unacc ∧
          t.sl.trap = (s1.writeCsr c.toNat v).sl.trap := by
      intro c hc right free ⟨w, write⟩
      obtain ⟨eq, -, holds, pc, -⟩ := State.csrOp_writes (f := fun _ v => v) ready (csrFault_of_s right high) (fun h => absurd h (by simp [free])) hc write
        (.csrw d a c)
      obtain ⟨cores, tenants, parties, rest⟩ := write.stand.rest
      have fields := State.fields_setD (s := s1.writeCsr c.toNat v) (by rwa [rest]) d (s.csr c.toNat)
      exact ⟨_, rfl, holds, pc, by rw [eq]; exact fields⟩
    refine ⟨?_, ?_⟩
    · obtain ⟨write, lim, un⟩ := State.writeCsr_sallow four' v
      obtain ⟨t, run, holds, pc, l, u, -⟩ := writing 0x030#12 (by decide) (.inl rfl) (by decide) write
      refine ⟨t, run, holds, pc, ?_, ?_⟩
      · rw [← limit]
        exact l.trans lim
      · rw [← unacc]
        exact u.trans un
    · obtain ⟨write, tstat⟩ := State.writeCsr_tstat four' v
      obtain ⟨t, run, holds, pc, -, -, tr⟩ := writing 0x105#12 (by decide) (.inr rfl) (by decide) write
      have written : t.sl.trap.tstat = tstatWrite s.sl.level s.sl.trap.tstat v := by
        rw [← level, ← trap]
        exact (congrArg TrapRegs.tstat tr).trans tstat
      refine ⟨t, run, holds, pc, fun i hi => ?_, ?_⟩
      · split
        · rfl
        · next h =>
          rw [written]
          exact bit_tstatWrite _ _ _ hi (by omega)
      · rw [written]
        exact fld_tstatWrite ..
  case rights =>
    intro s d a c
    refine ⟨fun h => ?_, fun h => ?_, fun low h => ?_, fun mid => ?_⟩
    · have none : csrRights c.toNat = none := by
        simp only [List.mem_cons, List.not_mem_nil, or_false] at h
        rcases h with rfl | rfl | rfl | rfl | rfl | rfl <;> rfl
      exact ⟨congrArg _ (csrOp_fault (csrFault_unassigned none _ _) ..), congrArg _ (csrOp_fault (csrFault_unassigned none _ _) ..)⟩
    · have readOnly : csrRights c.toNat = some (.u, none) := by
        simp only [List.mem_cons, List.not_mem_nil, or_false] at h
        rcases h with rfl | rfl | rfl | rfl | rfl | rfl | rfl | rfl | rfl | rfl | rfl | rfl <;> rfl
      exact congrArg _ (csrOp_fault (csrFault_readOnly readOnly _) ..)
    · have higher : ∃ q p, csrRights c.toNat = some (q, p) ∧ Level.u.atLeast q = false := by
        simp only [List.mem_cons, List.not_mem_nil, or_false] at h
        rcases h with rfl | rfl | rfl | rfl | rfl | rfl | rfl | rfl | rfl <;> exact ⟨_, _, rfl, rfl⟩
      obtain ⟨q, p, right, below⟩ := higher
      rw [← low] at below
      exact ⟨congrArg _ (csrOp_fault (csrFault_low right below _) ..), congrArg _ (csrOp_fault (csrFault_low right below _) ..)⟩
    · exact congrArg _ (csrOp_fault (csrFault_low (q := .m) (p := none) rfl (by rw [mid]; rfl) _) ..)
  case tenant =>
    intro s ten v _
    have tvec : s.setTvec ⟨0, 0⟩ ten v = s.modTenant ten fun t => { t with tvec := v &&& 0x01FF_FFFF_FFFF_FFFC#64 } := by
      unfold State.setTvec
      dsimp only
      rw [if_neg (by decide), tvec_bits]
    refine ⟨⟨_, rfl, ?_, rfl, fun k hk => s.tenant_modTenant_ne _ hk⟩, ⟨_, congrArg Host.Outcome.next tvec, ?_, rfl, fun k hk => s.tenant_modTenant_ne _ hk⟩⟩
    · exact congrArg Tenant.ptroot (s.tenant_modTenant_same ten _)
    · exact congrArg Tenant.tvec (s.tenant_modTenant_same ten _)
end

section
/-! PROOFS. Operations that are sent on their way (R175, R219): what the issue of one leaves. -/

namespace Sys2Proof.Machine

/-- What a core injects changes its count of packets alone, once its slot is set. -/
theorem State.setSlot_inject (s : State) (r : SlotRef) (act : Act) (x : Slot) :
    ∃ n, (s.inject r.core act).setSlot r x = (s.modCore r.core fun c => { c with sent := n }).setSlot r x := by
  have same : s.setSlot r x = (s.modCore r.core fun c => { c with sent := c.sent }).setSlot r x := by
    simp only [State.setSlot, State.modCore, State.core_setCore_same, State.setCore_setCore]
  unfold State.inject
  split
  · unfold State.countPkt
    split
    · exact ⟨(s.core r.core).sent, same⟩
    · next c _ _ _ => exact ⟨(s.core r.core).sent.put c (((s.core r.core).sent.get 0 c + 1) % 2 ^ 32), rfl⟩
  · exact ⟨(s.core r.core).sent, same⟩

/-- The slot that issues stands as it is while its operation is sent. -/
theorem State.sl_launchFlight (s : State) (act : Act) (rel : List Nat) : (s.launchFlight s.cur act rel).sl = s.sl := by
  obtain ⟨cores, h⟩ := s.inject_eq s.cur.core act
  have cur : (s.launchFlight s.cur act rel).cur = s.cur := by
    change (s.inject s.cur.core act).cur = s.cur
    rw [h]
  rw [State.sl, cur]
  exact s.slot_inject s.cur.core act s.cur

/-- An instruction that sends an operation and retires with the slot that `g` makes (R219). -/
theorem State.starts_done {s : State} (four : s.cur.slot < 4) {g : Slot → Slot} {ds : List Reg} (slot : s.sl.Retires (g s.sl).next ds (s.sl.pc + 4#64))
    (empty : ∀ d ∈ ds, (g s.sl).next.isFull d = (d == 0#5)) (act : Act) (rel : List Nat) : s.Starts ((s.launchFlight s.cur act rel).done g) ds act := by
  obtain ⟨cores, injected⟩ := s.inject_eq s.cur.core act
  have cur : (s.launchFlight s.cur act rel).cur = s.cur := by
    change (s.inject s.cur.core act).cur = s.cur
    rw [injected]
  have mem : (s.launchFlight s.cur act rel).mem = s.mem := by
    change (s.inject s.cur.core act).mem = s.mem
    rw [injected]
  have done : (s.launchFlight s.cur act rel).done g = (s.launchFlight s.cur act rel).setSlot s.cur (g s.sl).next := by
    change (s.launchFlight s.cur act rel).setSlot (s.launchFlight s.cur act rel).cur (g (s.launchFlight s.cur act rel).sl).next = _
    rw [cur, State.sl_launchFlight]
  have sl : ((s.launchFlight s.cur act rel).done g).sl = (g s.sl).next := by
    rw [done, State.sl, State.setSlot_cur, cur]
    exact State.slot_setSlot_same _ s.cur _ four
  obtain ⟨n, hn⟩ := s.setSlot_inject s.cur act (g s.sl).next
  refine ⟨by rwa [sl], fun d hd => by rw [sl]; exact empty d hd, ⟨_, by rw [done]; rfl, rfl, rfl, rfl, rfl, rfl, rfl, rfl⟩, fun a => ?_, n, ?_⟩
  · rw [done, State.setSlot_mem, mem]
  · rw [sl, done, ← hn]
    unfold State.launchFlight
    generalize s.inject s.cur.core act = v
    rfl

/-- A producer sends its operation, with its register empty until then (R219). -/
theorem State.starts_produce {s : State} (four : s.cur.slot < 4) (d : Reg) (act : Act) (rel : List Nat) : s.Starts (s.produce d act rel) [d] act :=
  State.starts_done (g := fun x => x.setFull d false) four (s.sl.retires_setFull d) (fun r hr => by
    obtain rfl : r = d := by simpa using hr
    exact (Slot.isFull_setFull_same s.sl r false).trans (Bool.or_false _)) act rel

/-- An instruction that changes no register retires. -/
theorem Slot.retires_next (x : Slot) : x.Retires x.next [] (x.pc + 4#64) := ⟨rfl, rfl, fun _ _ => ⟨rfl, rfl⟩, ⟨rfl, rfl⟩, rfl⟩

/-- An instruction without a destination sends its operation. -/
theorem State.starts_launch {s : State} (four : s.cur.slot < 4) (act : Act) (rel : List Nat) : s.Starts ((s.launchFlight s.cur act rel).done id) [] act :=
  State.starts_done (g := id) four s.sl.retires_next (fun _ hd => absurd hd List.not_mem_nil) act rel

/-- An instruction whose sources are full, and that retires once its values are consumed, does so. -/
theorem State.issue_goes {s t : State} {src : List (Reg × Bool)} {dst : List Reg} {k : State → State} (ready : s.Ready (src.map (·.1)) dst)
    (goes : k (s.consume src) = t) (retired : t.sl.retired = s.sl.retired + 1#64) : s.issue src dst k = t := by
  rw [← goes] at retired ⊢
  exact s.issue_retires src dst k ready retired

/-- So does one that then sends an operation. -/
theorem State.issue_sends {s t : State} {src : List (Reg × Bool)} {dst : List Reg} {k : State → State} (ready : s.Ready (src.map (·.1)) dst)
    {ds : List Reg} {act : Act} (goes : k (s.consume src) = t) (h : (s.consume src).Starts t ds act) : s.issue src dst k = t :=
  State.issue_goes ready goes (by rw [h.slot.count, s.retired_consume src ready.slot])

/-- What an instruction has consumed leaves all of the machine but the issuing slot and what parties have seen. -/
theorem State.rest_consume (s : State) (src : List (Reg × Bool)) : (s.consume src).clusters = s.clusters ∧ (s.consume src).flights = s.flights ∧
    (s.consume src).mem = s.mem ∧ ∀ k, (s.consume src).clusterOf k = s.clusterOf k := by
  rcases s.consume_cases src with h | ⟨ps, h⟩
  · rw [h]
    exact ⟨rfl, rfl, rfl, fun _ => rfl⟩
  · rw [h]
    exact ⟨rfl, rfl, rfl, fun _ => rfl⟩

/-- It leaves the strand and its tenant. -/
theorem State.strand_consume (s : State) (src : List (Reg × Bool)) (four : s.cur.slot < 4) :
    (s.consume src).sl.party = s.sl.party ∧ (s.consume src).sl.ten = s.sl.ten := by
  rcases s.consume_sl src four with h | h
  · rw [h]
    exact ⟨rfl, rfl⟩
  · rw [h]
    exact ⟨rfl, rfl⟩

/-- The strand instructions are present on compute and memory cores (R215). -/
theorem State.needs_of_strand {s : State} (h : coreKind s.cur.core ≠ .monitor) (major : Nat) (k : State → State) : s.needs true major k = k s := by
  have present : s.present true = true := by
    unfold State.present
    cases hk : coreKind s.cur.core
    · rfl
    · rfl
    · exact absurd hk h
  rw [State.needs, present, if_pos rfl]

/-- The slot that issues is there after its values are consumed. -/
theorem State.four_consume {s : State} (four : s.cur.slot < 4) (src : List (Reg × Bool)) : (s.consume src).cur.slot < 4 := by
  rwa [s.consume_cur]

/-! ## Cell operations (R252, R255, R291) -/

/-- A DECR whose cell passes its checks is sent (R252). -/
theorem exec_decr_sends {s : State} {d a b : Reg} {wa wb : Bool} (strand : coreKind s.cur.core ≠ .monitor) (ready : s.Ready [a, b] [d])
    (lawful : (s.consume [(a, wa), (b, wb)]).cellBad (s.consume [(a, wa), (b, wb)]).sl (s.sl.rd a) = none) :
    ∃ t, exec (.decr d a b wa wb) s = .next t ∧ (s.consume [(a, wa), (b, wb)]).Starts t [d]
      (.decr (if d = 0#5 then .none else .reg d) (s.sl.rd a) (if b = 0#5 then 1#64 else s.sl.rd b)) := by
  have four := ready.slot
  refine ⟨_, ?_, State.starts_produce (State.four_consume four [(a, wa), (b, wb)]) d _ []⟩
  change execDecr d a b wa wb s = _
  rw [execDecr, State.needs_of_strand strand]
  refine congrArg Host.Outcome.next (State.issue_sends (src := [(a, wa), (b, wb)]) ready ?_
    (State.starts_produce (State.four_consume four [(a, wa), (b, wb)]) d _ []))
  dsimp only
  rw [s.consume_rd _ four, s.consume_rd _ four, lawful]

/-- A TASKQ whose packet passes its checks is sent (R255). -/
theorem exec_taskq_sends {s : State} {a : Reg} {wa : Bool} (strand : coreKind s.cur.core ≠ .monitor) (ready : s.Ready [a] [])
    (lawful : (s.consume [(a, wa)]).cellBad (s.consume [(a, wa)]).sl (s.sl.rd a) = none) :
    ∃ t, exec (.taskq a wa) s = .next t ∧ (s.consume [(a, wa)]).Starts t [] (.taskq (s.sl.rd a)) := by
  have four := ready.slot
  refine ⟨_, ?_, State.starts_launch (State.four_consume four [(a, wa)]) _ []⟩
  change execTaskq a wa s = _
  rw [execTaskq, State.needs_of_strand strand]
  refine congrArg Host.Outcome.next (State.issue_sends (src := [(a, wa)]) ready ?_ (State.starts_launch (State.four_consume four [(a, wa)]) _ []))
  dsimp only
  rw [s.consume_rd _ four, lawful]

/-- An access whose check succeeds goes on. -/
theorem State.onAddr_ok (s : State) (acc : Acc) (va : Word) {c : Chk} {key : Nat} (h : c = .ok key) (k : Nat → State → State) :
    s.onAddr acc va c k = k key s := by rw [h]; rfl

/-- A read at a lawful place whose bank will not be Off goes on (R350 steps 8 and 9). -/
theorem State.atPlace_ok {s : State} {key : Nat} {okPlace : Nat → Bool} (lawful : okPlace key = true) (alive : s.deadOwn key = none) (va : Word)
    (k : State → State) : s.atPlace va key okPlace true k = k s := by
  rw [State.atPlace, lawful, if_neg (by decide), if_pos rfl, alive]

/-- A CBAR whose counter passes its checks is sent (R291). -/
theorem exec_cbar_sends {s : State} {d a b : Reg} {wa wb : Bool} {key : Nat} (ready : s.Ready [a, b] [d])
    (check : (s.consume [(a, wa), (b, wb)]).check (s.consume [(a, wa), (b, wb)]).cur .atomic (s.sl.rd a) 8 16 = .ok key) (scratch : inScr key = true)
    (near : (chipOf key).cluster = (s.consume [(a, wa), (b, wb)]).clusterOf (s.consume [(a, wa), (b, wb)]).cur.core)
    (alive : (s.consume [(a, wa), (b, wb)]).deadOwn key = none) :
    ∃ t, exec (.cbar d a b wa wb) s = .next t ∧ (s.consume [(a, wa), (b, wb)]).Starts t [d]
      (.cbar (.reg d) (s.sl.rd a) (Max.max 1 ((s.sl.rd b).toNat % 65536))) := by
  have four := ready.slot
  refine ⟨_, ?_, State.starts_produce (State.four_consume four [(a, wa), (b, wb)]) d _ []⟩
  change execCbar d a b wa wb s = _
  rw [execCbar]
  refine congrArg Host.Outcome.next (State.issue_sends (src := [(a, wa), (b, wb)]) ready ?_
    (State.starts_produce (State.four_consume four [(a, wa), (b, wb)]) d _ []))
  have most : Nat.max 1 (fld (s.sl.rd b) 15 0) = Max.max 1 ((s.sl.rd b).toNat % 65536) := by simp [fld, bits]
  dsimp only
  rw [s.consume_rd _ four, State.onAddr_ok _ _ _ check, State.atPlace_ok (by simp [scratch, near]) alive, s.consume_rd _ four, most]

/-! ## What a read that answers leaves (R80) -/

/-- A read that answers with a value notes what its party has seen, and nothing else changes. -/
theorem State.seen_readAt {s u : State} {p ten k n : Nat} {view : List Nat} {bs : List Byte} {po : Option Nat} {rels : Rels}
    (h : s.readAt p ten k n view = .val bs po rels u) : s.Seen u := by
  unfold State.readAt at h
  split at h
  · cases h
    exact s.seen_read p ten k n (s.homeView k n)
  · dsimp only at h
    split at h
    · split at h
      · next b _ =>
        cases hb : (s.core (chipOf k).core).bank b with
        | zero => simp [State.bankRead, hb] at h
        | succ m =>
          by_cases full : m = 1
          · simp only [State.bankRead, hb, full] at h
            cases h
            exact s.seen_read p ten k n view
          · have waits : (s.bankRead (chipOf k).core b) = (.wait, s.wake (chipOf k).core b) := by
              unfold State.bankRead
              rw [hb]
              split
              · next h0 => exact absurd h0 (by omega)
              · next h2 => exact absurd h2 (by omega)
              · rfl
            rw [waits] at h
            exact absurd h nofun
      · cases h
        exact s.seen_read p ten k n view
    · cases h
      exact s.seen_read p ten k n view

/-- So does a read of several parts. -/
theorem State.seen_readParts {p ten : Nat} {parts : List (Nat × Nat)} : ∀ {s u : State} {bs : List Byte} {po : Option Nat} {rels : Rels},
    State.readParts p ten parts s = .val bs po rels u → s.Seen u := by
  induction parts with
  | nil =>
    intro s u bs po rels h
    cases h
    exact .refl s
  | cons part parts ih =>
    intro s u bs po rels h
    unfold State.readParts at h
    split at h
    · next first =>
      split at h
      · next rest =>
        cases h
        exact (State.seen_readAt first).trans (ih rest)
      · next other => exact absurd h (other _ _ _ _)
    · next other => exact absurd h (other _ _ _ _)

theorem State.Seen.sl {s u : State} (h : s.Seen u) : u.sl = s.sl := by
  obtain ⟨ps, out, rfl⟩ := h
  rfl

theorem State.Seen.cur {s u : State} (h : s.Seen u) : u.cur = s.cur := by
  obtain ⟨ps, out, rfl⟩ := h
  rfl

theorem State.Seen.flights {s u : State} (h : s.Seen u) : u.flights = s.flights := by
  obtain ⟨ps, out, rfl⟩ := h
  rfl

theorem State.Seen.mem {s u : State} (h : s.Seen u) : u.mem = s.mem := by
  obtain ⟨ps, out, rfl⟩ := h
  rfl

/-! ## LNCH (R39, R256) -/

/-- The parts of a header that are checked page by page, as they lie at their keys (R58). -/
def headerParts (va : Word) (k1 k2 : Nat) : List (Nat × Nat) := if va.toNat % 4096 = 0xFC0 then [(k1, 64), (k2, 64)] else [(k1, 128)]

/-- A header at an aligned address spans one page or two (R58). -/
theorem State.onSpan_header {s : State} {va : Word} {k1 k2 : Nat} (aligned : va.toNat % 64 = 0)
    (first : s.check s.cur .load va (if va.toNat % 4096 = 0xFC0 then 64 else 128) 1 = .ok k1)
    (second : va.toNat % 4096 = 0xFC0 → s.check s.cur .load (va + 64#64) 64 1 = .ok k2) (k : List (Nat × Nat) → State → State) :
    State.onSpan .load k 2 va 128 [] s = k (headerParts va k1 k2) s := by
  by_cases two : va.toNat % 4096 = 0xFC0
  · have next : (va + 64#64).toNat % 4096 = 0 := by
      rw [BitVec.toNat_add]
      simp only [BitVec.toNat_ofNat]
      omega
    rw [if_pos two] at first
    have m1 : Nat.min 128 (4096 - va.toNat % 4096) = 64 := by rw [two]; rfl
    have m2 : Nat.min (128 - 64) (4096 - (va + wd 64).toNat % 4096) = 64 := by
      change Nat.min (128 - 64) (4096 - (va + 64#64).toNat % 4096) = 64
      rw [next]; rfl
    rw [headerParts, if_pos two]
    simp only [State.onSpan, m1, m2]
    rw [if_neg (by decide), State.onAddr_ok _ _ _ first, if_neg (by decide)]
    exact State.onAddr_ok _ _ _ (second two) _
  · rw [if_neg two] at first
    have m1 : Nat.min 128 (4096 - va.toNat % 4096) = 128 := by
      have := va.isLt
      exact Nat.min_eq_left (by omega)
    rw [headerParts, if_neg two]
    simp only [State.onSpan, m1]
    rw [if_neg (by decide), State.onAddr_ok _ _ _ first, if_pos (by decide)]
    rfl

/-- A read of parts at lawful places, whose banks will not be Off, goes on (R350 steps 8 and 9). -/
theorem State.atPlaces_ok {s : State} {parts : List (Nat × Nat)} {okPlace : Nat → Bool} (lawful : ∀ p ∈ parts, okPlace p.1 = true)
    (alive : ∀ p ∈ parts, s.deadOwn p.1 = none ∧ s.deadOwn (p.1 + p.2 - 1) = none) (va : Word) (k : State → State) :
    s.atPlaces va parts okPlace k = k s := by
  have places : (parts.any fun p => !okPlace p.1) = false := List.any_eq_false.mpr fun p hp => by simp [lawful p hp]
  have dead : (parts.findSome? fun p => (s.deadOwn p.1).or (s.deadOwn (p.1 + p.2 - 1))) = none :=
    List.findSome?_eq_none_iff.mpr fun p hp => by rw [(alive p hp).1, (alive p hp).2]; rfl
  rw [State.atPlaces, places, if_neg (by decide), dead]

/-- Parts that have not moved are read where they lie (R173). -/
theorem State.redirectParts_still {from_ : Nat} {parts got : List (Nat × Nat)} {s : State} (still : ∀ p ∈ parts, s.forwardOf from_ p.1 = none) :
    parts.foldl (fun (a : List (Nat × Nat) × State) p =>
      (a.1 ++ [((a.2.redirect from_ p.1).1, p.2)], (a.2.redirect from_ p.1).2)) (got, s) = (got ++ parts, s) := by
  induction parts generalizing got with
  | nil => rw [List.foldl_nil, List.append_nil]
  | cons p parts ih =>
    rw [List.foldl_cons]
    dsimp only
    rw [State.redirect_of_forwardOf (still p List.mem_cons_self)]
    dsimp only
    rw [ih fun q hq => still q (List.mem_cons_of_mem _ hq), List.append_assoc]
    rfl

/-- What LNCH does with a header that it reads: a release, then the launch on its way (R256). -/
def State.lnchSent (s : State) (d : Reg) (va : Word) (bs : List Byte) (po : Option Nat) (rels : Rels) (u : State) : State :=
  match po with
  | some g => u.produce d (.lnch (.reg d) va [] (some (0x14, wd g))) (s.relSet s.sl.party)
  | none => (u.pending s.sl.party rels).produce d (.lnch (.reg d) va (leWords bs 16) none) (s.relSet s.sl.party)

/-- An LNCH whose header passes its checks and is read sends its launch (R256). -/
theorem exec_lnch_sends {s u : State} {d a : Reg} {wa : Bool} {k1 k2 : Nat} {bs : List Byte} {po : Option Nat} {rels : Rels} {s1 : State}
    (hs1 : s1 = s.consume [(a, wa)]) (strand : coreKind s.cur.core ≠ .monitor) (ready : s.Ready [a] [d]) (aligned : (s.sl.rd a).toNat % 64 = 0)
    (first : s1.check s1.cur .load (s.sl.rd a) (if (s.sl.rd a).toNat % 4096 = 0xFC0 then 64 else 128) 1 = .ok k1)
    (second : (s.sl.rd a).toNat % 4096 = 0xFC0 → s1.check s1.cur .load (s.sl.rd a + 64#64) 64 1 = .ok k2)
    (places : ∀ p ∈ headerParts (s.sl.rd a) k1 k2, (inScr p.1 = true ∨ s1.place p.1 = .stack) ∧ s1.deadOwn p.1 = none ∧
      s1.deadOwn (p.1 + p.2 - 1) = none ∧ s1.barredAt s.cur.core p.1 = false ∧ s1.forwardOf s.cur.core p.1 = none)
    (free : s1.quietFor (.lnch .none (s.sl.rd a) [] none) = true)
    (read : State.readParts s1.sl.party s1.sl.ten ((headerParts (s.sl.rd a) k1 k2).flatMap fun p => groups32 5 p.1 p.2) (s1.released s1.sl.party) =
      .val bs po rels u) :
    exec (.lnch d a wa) s = .next (s1.lnchSent d (s.sl.rd a) bs po rels u) := by
  have four := ready.slot
  have cur : s1.cur = s.cur := by rw [hs1, s.consume_cur]
  have rd : s1.sl.rd a = s.sl.rd a := by rw [hs1, s.consume_rd _ four]
  have seen : s1.Seen u := (s1.seen_released _).trans (State.seen_readParts read)
  have retired : (s1.lnchSent d (s.sl.rd a) bs po rels u).sl.retired = s.sl.retired + 1#64 := by
    have base : ∀ v, s1.Seen v → ∀ act, (v.produce d act (s1.relSet s1.sl.party)).sl.retired = s.sl.retired + 1#64 := by
      intro v hv act
      have := (State.starts_produce (s := v) (by rw [hv.cur, cur]; exact four) d act (s1.relSet s1.sl.party)).slot.count
      rw [this, hv.sl, hs1, s.retired_consume _ four]
    unfold State.lnchSent
    split
    · exact base u seen _
    · exact base _ (seen.trans (u.seen_pending _ _)) _
  change execLnch d a wa s = _
  rw [execLnch, State.needs_of_strand strand]
  refine congrArg Host.Outcome.next (State.issue_goes (src := [(a, wa)]) ready ?_ retired)
  dsimp only
  rw [← hs1, rd, if_neg (by simp [aligned]), State.onSpan_header aligned first second,
    State.atPlaces_ok (fun p hp => by simpa using (places p hp).1) (fun p hp => ⟨(places p hp).2.1, (places p hp).2.2.1⟩), free, if_neg (by decide), cur]
  have open_ : ((headerParts (s.sl.rd a) k1 k2).any fun p => s1.barredAt s.cur.core p.1) = false :=
    List.any_eq_false.mpr fun p hp => by simp [(places p hp).2.2.2.1]
  rw [open_, if_neg (by decide), State.redirectParts_still (s := s1.released s1.sl.party) fun p hp => (places p hp).2.2.2.2]
  dsimp only
  rw [List.nil_append, read]
  unfold State.lnchSent
  cases po <;> rfl

/-! ## TTQ (R145, R304) -/

/-- What TTQ does with a record that passes its checks: the cluster's list takes it, or is full. -/
def State.ttqTaken (s : State) (a d : Reg) : State :=
  let cl := s.clusterOf s.cur.core
  if 64 ≤ (s.cluster cl).tileTasks.length then (s.released s.sl.party).setD d 1#64
  else ((s.released s.sl.party).modCluster cl fun k => { k with tileTasks := k.tileTasks ++ [
    { addr := s.sl.rd a, who := s.cur, core := s.cur.core, party := s.sl.party, ten := s.sl.ten, level := s.sl.level, queue := s.sl.queue
      rel := s.relSet s.sl.party }] }).setD d 0#64

/-- A result that lands in a machine whose issuing slot is that of a strand which has consumed its values: the slot retires. -/
theorem State.retires_setD {s u : State} {src : List (Reg × Bool)} (four : s.cur.slot < 4) (cur : u.cur = s.cur) (sl : u.sl = (s.consume src).sl)
    (d : Reg) (v : Word) : s.sl.Retires (u.setD d v).sl [d] s.sl.after ∧ (u.setD d v).sl.Holds d v := by
  have same : (u.setD d v).sl = ((s.consume src).setD d v).sl := by
    rw [State.sl_setD (by rwa [cur]), State.sl_setD (State.four_consume four src), sl]
  obtain ⟨computes, holds⟩ := s.computes_setD src four d v
  rw [same]
  exact ⟨computes.slot, holds⟩

theorem State.mem_setD (s : State) (d : Reg) (v : Word) : (s.setD d v).mem = s.mem := rfl

theorem State.cluster_setD (s : State) (d : Reg) (v : Word) (k : Nat) : (s.setD d v).cluster k = s.cluster k := rfl

/-- What TTQ leaves (R145, R304): a list of 64 records takes no more and answers 1; another takes the record and answers 0. -/
theorem State.ttqTaken_leaves {s s1 : State} {a d : Reg} {src : List (Reg × Bool)} (hs1 : s1 = s.consume src) (four : s.cur.slot < 4) {cl : Nat}
    (hcl : cl = s.clusterOf s.cur.core) :
    s.sl.Retires (s1.ttqTaken a d).sl [d] s.sl.after ∧ (s1.ttqTaken a d).mem = s.mem ∧
      (64 ≤ (s.cluster cl).tileTasks.length → (s1.ttqTaken a d).sl.Holds d 1#64 ∧ ((s1.ttqTaken a d).cluster cl).tileTasks = (s.cluster cl).tileTasks) ∧
      ((s.cluster cl).tileTasks.length < 64 → (s1.ttqTaken a d).sl.Holds d 0#64 ∧
        ∃ k : TileTask, ((s1.ttqTaken a d).cluster cl).tileTasks = (s.cluster cl).tileTasks ++ [k] ∧ k.addr = s.sl.rd a ∧ k.who = s.cur ∧
          k.core = s.cur.core ∧ k.ten = s.sl.ten ∧ k.rel = (s1.party s.sl.party).floor) := by
  obtain ⟨clusters, -, mem, places⟩ := s.rest_consume src
  obtain ⟨party, ten⟩ := s.strand_consume src four
  have cur := s.consume_cur src
  have rd := s.consume_rd src four a
  rw [← hs1] at clusters mem places party ten cur rd
  have here : s1.clusterOf s1.cur.core = cl := by rw [places, cur, hcl]
  have same : s1.cluster cl = s.cluster cl := by rw [State.cluster, clusters, State.cluster]
  have landed : ∀ u : State, u.cur = s.cur → u.sl = s1.sl → ∀ v, s.sl.Retires (u.setD d v).sl [d] s.sl.after ∧ (u.setD d v).sl.Holds d v :=
    fun u hu hsl v => State.retires_setD (src := src) four hu (by rw [hsl, hs1]) d v
  unfold State.ttqTaken
  dsimp only
  rw [here, same]
  by_cases full : 64 ≤ (s.cluster cl).tileTasks.length
  · rw [if_pos full]
    obtain ⟨retires, holds⟩ := landed (s1.released s1.sl.party) cur rfl 1#64
    exact ⟨retires, (State.mem_setD ..).trans mem, fun _ => ⟨holds, congrArg Cluster.tileTasks same⟩, fun room => absurd full (by omega)⟩
  · rw [if_neg full]
    let k : TileTask := { addr := s1.sl.rd a, who := s1.cur, core := s1.cur.core, party := s1.sl.party, ten := s1.sl.ten, level := s1.sl.level
                          queue := s1.sl.queue, rel := s1.relSet s1.sl.party }
    obtain ⟨retires, holds⟩ := landed ((s1.released s1.sl.party).modCluster cl fun c => { c with tileTasks := c.tileTasks ++ [k] }) cur rfl 0#64
    refine ⟨retires, (State.mem_setD ..).trans mem, fun h => absurd h full, fun _ => ⟨holds, k, ?_, rd, cur, congrArg SlotRef.core cur, ten, ?_⟩⟩
    · rw [State.cluster_setD, State.cluster_modCluster_same, ← same]
      rfl
    · rw [← party]
      rfl

/-- A TTQ whose record passes its checks is answered at once (R304). -/
theorem exec_ttq_taken {s : State} {a d : Reg} {key : Nat} {s1 : State} (hs1 : s1 = s.consume [(a, s.wmode)])
    (compute : coreKind s.cur.core = .compute) (ready : s.Ready [a] [d]) (owned : s1.engOwned .matrix true = true)
    (check : s1.check s1.cur .load (s.sl.rd a) 64 64 = .ok key) (place : inScr key = true ∨ s1.place key = .stack) (quiet : s1.quiet = true) :
    exec (.ttq a d) s = .next (s1.ttqTaken a d) := by
  have four := ready.slot
  have cur : s1.cur = s.cur := by rw [hs1, s.consume_cur]
  have rd : s1.sl.rd a = s.sl.rd a := by rw [hs1, s.consume_rd _ four]
  have present : engPresent (coreKind s.cur.core) .matrix = true := by rw [compute]; rfl
  have retired : (s1.ttqTaken a d).sl.retired = s.sl.retired + 1#64 := by
    have count : ∀ u : State, u.cur = s.cur → u.sl = s1.sl → ∀ v, (u.setD d v).sl.retired = s.sl.retired + 1#64 := fun u hu hsl v =>
      (State.retires_setD (src := [(a, s.wmode)]) four hu (by rw [hsl, hs1]) d v).1.count
    unfold State.ttqTaken
    dsimp only
    split
    · exact count _ cur rfl _
    · exact count _ cur rfl _
  change execTtq a d s = _
  rw [execTtq, s.onEngine_of_present .matrix _ present (by simp)]
  refine congrArg Host.Outcome.next (State.issue_goes (src := [(a, s.wmode)]) ready ?_ retired)
  dsimp only
  rw [← hs1, owned, if_neg (by decide), rd, State.onAddr_ok _ _ _ check, if_neg (by rcases place with h | h <;> simp [h]), quiet, if_neg (by decide)]
  unfold State.ttqTaken
  rw [rd]

/-! ## SPAWN (R249) -/

/-- With no bank retained there is none to turn Off. -/
theorem State.dropRetained_of_none {s : State} (h : ∀ c ∈ s.cores, c.2.retained = []) (ten : Nat) (handle : Word) : s.dropRetained ten handle = s := by
  unfold State.dropRetained
  refine List.foldlRecOn (motive := fun t => t = s) s.cores _ rfl fun t ht c hc => ?_
  rw [h c hc, ht]
  rfl

/-- A field that is set: what stands above it, in it and below it. -/
theorem toNat_setFld {w : Word} {h l v : Nat} (hl : l ≤ h) (hh : h < 64) :
    (setFld w h l v).toNat / 2 ^ (h + 1) = w.toNat / 2 ^ (h + 1) ∧ (setFld w h l v).toNat / 2 ^ l % 2 ^ (h + 1 - l) = v % 2 ^ (h + 1 - l) ∧
      (setFld w h l v).toNat % 2 ^ l = w.toNat % 2 ^ l := by
  let P := 2 ^ l
  let N := 2 ^ (h + 1 - l)
  let q := w.toNat / P / N
  have hP : 0 < P := Nat.two_pow_pos l
  have hN : 0 < N := Nat.two_pow_pos _
  have pow : 2 ^ (h + 1) = P * N := by rw [← Nat.pow_add, Nat.add_sub_cancel' (by omega)]
  have whole : 2 ^ 64 = P * N * 2 ^ (63 - h) := by rw [← pow, ← Nat.pow_add]; congr 1; omega
  let V := (q * N + v % N) * P + w.toNat % P
  have low : V % P = w.toNat % P := by rw [Nat.mul_add_mod_self_right, Nat.mod_mod]
  have high : V / P = q * N + v % N := by
    change ((q * N + v % N) * P + w.toNat % P) / P = _
    rw [Nat.mul_comm (q * N + v % N) P, Nat.mul_add_div hP, Nat.div_eq_of_lt (Nat.mod_lt _ hP), Nat.add_zero]
  have mid : V / P % N = v % N := by rw [high, Nat.mul_add_mod_self_right, Nat.mod_mod]
  have top : V / (P * N) = q := by
    rw [← Nat.div_div_eq_div_mul, high, Nat.mul_comm q N, Nat.mul_add_div hN, Nat.div_eq_of_lt (Nat.mod_lt _ hN), Nat.add_zero]
  have small : V < 2 ^ 64 := by
    have hq : q < 2 ^ (63 - h) := by
      have := w.isLt
      rw [whole] at this
      change w.toNat / P / N < _
      rw [Nat.div_div_eq_div_mul]
      exact Nat.div_lt_of_lt_mul this
    rw [← top] at hq
    rw [whole, Nat.mul_comm]
    exact (Nat.div_lt_iff_lt_mul (Nat.mul_pos hP hN)).mp hq
  have value : (setFld w h l v).toNat = V := by
    have parts : w.toNat = (q * N + w.toNat / P % N) * P + w.toNat % P := by
      rw [Nat.mul_comm q N, Nat.div_add_mod, Nat.mul_comm, Nat.div_add_mod]
    have raw : w.toNat - bits w.toNat h l * 2 ^ l + v % 2 ^ (h + 1 - l) * 2 ^ l = V := by
      change w.toNat - w.toNat / P % N * P + v % N * P = (q * N + v % N) * P + w.toNat % P
      generalize w.toNat / P % N = f at parts ⊢
      rw [Nat.add_mul] at parts ⊢
      omega
    rw [setFld, BitVec.toNat_ofNat, raw, Nat.mod_eq_of_lt small]
  rw [value, pow]
  exact ⟨top.trans (Nat.div_div_eq_div_mul ..), mid, low⟩

/-- What stands above a bit is what stands above a lower one, further up. -/
theorem div_two_pow_mono {p q a b : Nat} (hab : a ≤ b) (h : p / 2 ^ a = q / 2 ^ a) : p / 2 ^ b = q / 2 ^ b := by
  obtain ⟨n, rfl⟩ := Nat.exists_eq_add_of_le hab
  rw [Nat.pow_add, ← Nat.div_div_eq_div_mul, ← Nat.div_div_eq_div_mul, h]

/-- What stands below a bit is what stands below a higher one, further down. -/
theorem mod_two_pow_mono {p q a b : Nat} (hab : a ≤ b) (h : p % 2 ^ b = q % 2 ^ b) : p % 2 ^ a = q % 2 ^ a := by
  rw [← Nat.mod_mod_of_dvd p (Nat.pow_dvd_pow 2 hab), h, Nat.mod_mod_of_dvd q (Nat.pow_dvd_pow 2 hab)]

/-- The state word that SPAWN writes (R249): RETAIN and HOMECORE cleared, and a memory core's marked with its number. -/
theorem spawnState {st : Word} {m : Bool} {c : Nat} {st' : Nat}
    (h : st' = (setFld (setFld (setFld st 37 27 0) 26 26 (b01 m)) 25 21 (if m then c else fld st 25 21)).toNat) :
    st' / 2 ^ 38 = st.toNat / 2 ^ 38 ∧ st' / 2 ^ 27 % 2 ^ 11 = 0 ∧ st' / 2 ^ 26 % 2 = (if m then 1 else 0) ∧
      st' / 2 ^ 21 % 32 = (if m then c % 32 else st.toNat / 2 ^ 21 % 32) ∧ st' % 2 ^ 21 = st.toNat % 2 ^ 21 := by
  obtain ⟨a1, b1, c1⟩ := toNat_setFld (w := st) (h := 37) (l := 27) (v := 0) (by decide) (by decide)
  obtain ⟨a2, b2, c2⟩ := toNat_setFld (w := setFld st 37 27 0) (h := 26) (l := 26) (v := b01 m) (by decide) (by decide)
  obtain ⟨a3, b3, c3⟩ := toNat_setFld (w := setFld (setFld st 37 27 0) 26 26 (b01 m)) (h := 25) (l := 21) (v := if m then c else fld st 25 21)
    (by decide) (by decide)
  rw [← h] at a3 b3 c3
  have above := (div_two_pow_mono (a := 26) (b := 27) (by decide) a3).trans a2
  refine ⟨(div_two_pow_mono (a := 27) (b := 38) (by decide) above).trans a1, ?_, ?_, ?_, ?_⟩
  · rw [above]
    exact b1
  · rw [a3]
    refine b2.trans ?_
    cases m <;> rfl
  · refine b3.trans ?_
    cases m
    · simp [fld, bits]
    · rfl
  · exact c3.trans ((mod_two_pow_mono (a := 21) (b := 26) (by decide) c2).trans (mod_two_pow_mono (a := 21) (b := 27) (by decide) c1))
/-- No bank of a core lies below LPDDR. -/
theorem State.deadOwn_of_lt_lpBase (s : State) {k : Nat} (low : k < lpBase) : s.deadOwn k = none := by
  have : ownBank s.cur.core k = none := by
    unfold ownBank
    rw [if_neg (by simp [not_chipBit_le_of_lt_lpBase low])]
  rw [State.deadOwn, this]

/-- A write of a composite operation to plain memory stores its bytes. -/
theorem State.stores_writeNow {s : State} {k : Nat} (low : k < stackEnd) (p ten : Nat) (bs : List Byte) (rel : Rels) :
    s.Stores (s.writeNow p ten k bs rel) k bs := by
  have low0 := low.trans_le stackEnd_le_lpBase
  have written : s.writeNow p ten k bs rel = s.write p ten k bs rel := by
    unfold State.writeNow
    rw [isWindow_of_lt_lpBase low0, if_neg (by decide), if_neg (not_chipBit_le_of_lt_lpBase low0)]
    dsimp only
    rw [State.maccStore, isMacc_of_lt_lpBase low0]
    rfl
  rw [written]
  exact State.stores_write (.inr (s.place_of_lt_stackEnd low)) (by unfold stackEnd at low; unfold farBit; omega) p ten bs rel

/-- The entry that SPAWN sends to a run list (R249). -/
def State.spawnEntry (s : State) (va st : Word) : RunEntry :=
  { work := .record va, prio := stPrio st, stamp := s.cycle, ten := s.sl.ten, queue := stQueue st, st := st }

/-- The state word that SPAWN writes (R249). -/
def State.spawnWord (s : State) (st : Word) : Word :=
  setFld (setFld (setFld st 37 27 0) 26 26 (b01 (coreKind s.cur.core == .memory))) 25 21
    (if coreKind s.cur.core == .memory then coreNum s.cur.core else fld st 25 21)

/-- A SPAWN of a lawful record in stack memory: its state word is rewritten and its entry sent, and nothing else changes of what is told here (R249). -/
theorem exec_spawn_sends {s : State} {a : Reg} {wa : Bool} {key : Nat} {s1 : State} (hs1 : s1 = s.consume [(a, wa)])
    (strand : coreKind s.cur.core ≠ .monitor) (ready : s.Ready [a] []) (check : s1.check s1.cur .atomic (s.sl.rd a) 64 64 = .ok key)
    (low : key + 64 ≤ stackEnd) (free : s1.quietFor (.enqueue (s1.spawnEntry (s.sl.rd a) 0#64) (listOf s.cur.core)) = true) (clean : s.poison = [])
    (unretained : ∀ c ∈ s.cores, c.2.retained = []) {st : Word}
    (hst : st = wd (leNat (s1.read s1.sl.party s1.sl.ten (key + 48) 8 (s1.turnView (key + 48) 8)).1))
    (lawful : stPrio st < 48 ∧ stSbanks st < 49 ∧ (coreKind s.cur.core = .memory → stTiles st = 0 ∧ stSbanks st = 0)) :
    ∃ u : State, exec (.spawn a wa) s =
        .next ((u.launchFlight s.cur (.enqueue (s1.spawnEntry (s.sl.rd a) (s1.spawnWord st)) (listOf s.cur.core))).done id) ∧
      s1.Stores u (key + 48) (leBytes 8 (s1.spawnWord st).toNat) := by
  have four := ready.slot
  have cur : s1.cur = s.cur := by rw [hs1, s.consume_cur]
  have rd : s1.sl.rd a = s.sl.rd a := by rw [hs1, s.consume_rd _ four]
  have clean1 : s1.poison = [] := by
    rcases s.consume_cases [(a, wa)] with h | ⟨ps, h⟩
    · rw [hs1, h, clean]
    · rw [hs1, h]
      exact clean
  have unretained1 : ∀ c ∈ s1.cores, c.2.retained = [] := by
    rcases s.consume_cases [(a, wa)] with h | ⟨ps, h⟩
    · rw [hs1, h]
      exact unretained
    · rw [hs1, h]
      intro c hc
      rcases AMap.mem_put hc with hc | rfl
      · exact unretained c hc
      · rcases AMap.get_cases ({} : Core) s.cores s.cur.core with ⟨e, he, hv⟩ | hd
        · exact (congrArg Core.retained hv.symm).trans (unretained e he)
        · exact congrArg Core.retained hd
  have end_ := stackEnd_le_lpBase
  let s0 : State := (s1.read s1.sl.party s1.sl.ten (key + 48) 8 (s1.turnView (key + 48) 8)).2.2
  let rels := (s1.read s1.sl.party s1.sl.ten (key + 48) 8 (s1.turnView (key + 48) 8)).2.1
  let s2 : State := s0.pending s1.sl.party rels
  let s3 : State := s2.writeNow s1.sl.party s1.sl.ten (key + 48) (leBytes 8 (s1.spawnWord st).toNat) (s2.relOf s1.sl.party 3)
  let u : State := s3.released s1.sl.party
  have seen : s1.Seen s2 := (s1.seen_read ..).trans (s0.seen_pending ..)
  have wrote : s2.Stores s3 (key + 48) (leBytes 8 (s1.spawnWord st).toNat) := State.stores_writeNow (by omega) ..
  have stores : s1.Stores u (key + 48) (leBytes 8 (s1.spawnWord st).toNat) := by
    obtain ⟨ps, out, e⟩ := seen
    rw [e] at wrote
    exact { wrote with }
  have kept : u.dropRetained s1.sl.ten (s.sl.rd a) = u := State.dropRetained_of_none (by rw [stores.cores]; exact unretained1) _ _
  have starts := State.starts_launch (s := u) (by rw [stores.cur, cur]; exact four)
    (.enqueue (s1.spawnEntry (s.sl.rd a) (s1.spawnWord st)) (listOf s.cur.core)) []
  have sl : u.sl = s1.sl := by
    rw [State.sl, stores.cur]
    exact State.slot_congr stores.cores _
  rw [stores.cur, cur] at starts
  refine ⟨u, ?_, stores⟩
  change execSpawn a wa s = _
  rw [execSpawn, State.needs_of_strand strand]
  refine congrArg Host.Outcome.next (State.issue_goes (src := [(a, wa)]) ready ?_
    (by rw [starts.slot.count, sl, hs1, s.retired_consume _ four]))
  have accepted : ¬ (48 ≤ stPrio st || 49 ≤ stSbanks st ||
      (coreKind s.cur.core == .memory && (stTiles st != 0 || stSbanks st != 0))) = true := by
    obtain ⟨prio, sbanks, mem⟩ := lawful
    by_cases hm : coreKind s.cur.core = .memory
    · obtain ⟨t0, b0⟩ := mem hm
      simp [hm, t0, b0]
      omega
    · simp [hm]
      omega
  unfold State.spawnEntry at free
  dsimp only
  rw [← hs1, rd, State.onAddr_ok _ _ _ check, State.atPlace_ok (by simp [s1.place_of_lt_stackEnd (k := key) (by omega)])
    (s1.deadOwn_of_lt_lpBase (by omega)), cur, free, if_neg (by decide), s1.barredAt_of_lt_lpBase _ (by omega), if_neg (by decide),
    s1.redirect_of_lt_lpBase _ (by omega)]
  dsimp only
  rw [State.readAt_of_lt_lpBase clean1 (by omega)]
  dsimp only
  rw [← cur] at accepted
  rw [← hst, if_neg accepted]
  change ((u.dropRetained s1.sl.ten (s.sl.rd a)).launchFlight s1.cur
    (.enqueue (s1.spawnEntry (s.sl.rd a) (s1.spawnWord st)) (listOf s.cur.core))).done id = _
  rw [kept, cur]

/-- What an instruction that sends an operation after its values are consumed leaves of the slot. -/
theorem State.retires_consume {s : State} (src : List (Reg × Bool)) (four : s.cur.slot < 4) {y : Slot} {ds : List Reg} {pc : Word}
    (h : (s.consume src).sl.Retires y ds pc) : s.sl.Retires y ds pc := by
  rcases s.consume_sl src four with e | e
  · rwa [e] at h
  · rw [e] at h
    exact ⟨h.pc, h.count, h.regs, h.armed, h.rest⟩

/-- SPAWN leaves the priority and the queue of the record's state word. -/
theorem State.spawnWord_high (s : State) (st : Word) : stPrio (s.spawnWord st) = fld st 63 58 ∧ stQueue (s.spawnWord st) = fld st 57 48 := by
  obtain ⟨above, -⟩ := spawnState (st := st) (m := coreKind s.cur.core == .memory) (c := coreNum s.cur.core) (st' := (s.spawnWord st).toNat) rfl
  have prio := div_two_pow_mono (a := 38) (b := 58) (by decide) above
  have queue := div_two_pow_mono (a := 38) (b := 48) (by decide) above
  exact ⟨congrArg (· % 2 ^ 6) prio, congrArg (· % 2 ^ 10) queue⟩

/-- The number of a memory core in its own series (R12). -/
theorem coreNum_of_memory {k : Nat} (h : coreKind k = .memory) : coreNum k = k - 1024 := by
  unfold coreKind at h
  unfold coreNum
  split at h
  · exact absurd h nofun
  · next high =>
    split at h
    · next low => rw [if_neg high, if_pos low]
    · exact absurd h nofun

/-- The number that stands where its bytes were stored. -/
theorem leNat_of_setBytes {m t : Memory} (ok : Memory.wf m = true) {k n v : Nat}
    (h : ∀ a, Memory.get t a = Memory.get (Memory.setBytes m k (leBytes n v)) a) :
    leNat ((List.range n).map fun j => Memory.get t (k + j)) = v % 2 ^ (8 * n) := by
  have bytes : ((List.range n).map fun j => Memory.get t (k + j)) = leBytes n v := by
    refine List.ext_getElem (by simp) fun j h1 h2 => ?_
    have hj : j < n := by simpa using h1
    simp only [List.getElem_map, List.getElem_range]
    rw [h, Memory.get_setBytes_in _ _ _ _ ok (by simpa using hj), List.getD_eq_getElem _ _ h2]
  rw [bytes, leNat_leBytes]

/-- What SPAWN leaves (R249). -/
theorem exec_spawn_leaves {s : State} {a : Reg} {wa : Bool} {key : Nat} {s1 : State} (hs1 : s1 = s.consume [(a, wa)])
    (strand : coreKind s.cur.core ≠ .monitor) (ready : s.Ready [a] []) (check : s1.check s1.cur .atomic (s.sl.rd a) 64 64 = .ok key)
    (low : key + 64 ≤ stackEnd) (free : s1.quietFor (.enqueue (s1.spawnEntry (s.sl.rd a) 0#64) (listOf s.cur.core)) = true) (clean : s.poison = [])
    (unretained : ∀ c ∈ s.cores, c.2.retained = []) {st : Word}
    (hst : st = wd (leNat (s1.read s1.sl.party s1.sl.ten (key + 48) 8 (s1.turnView (key + 48) 8)).1))
    (lawful : stPrio st < 48 ∧ stSbanks st < 49 ∧ (coreKind s.cur.core = .memory → stTiles st = 0 ∧ stSbanks st = 0)) :
    ∃ (t : State) (f : Flight), exec (.spawn a wa) s = .next t ∧ s.sl.Retires t.sl [] s.sl.after ∧ t.flights = s.flights ++ [f] ∧
      f.act = .enqueue (s1.spawnEntry (s.sl.rd a) (s1.spawnWord st)) (listOf s.cur.core) ∧ f.who = s.cur ∧
      ∀ n, Memory.get t.mem n = Memory.get (Memory.setBytes s.mem (key + 48) (leBytes 8 (s1.spawnWord st).toNat)) n := by
  have four := ready.slot
  obtain ⟨u, run, stores⟩ := exec_spawn_sends hs1 strand ready check low free clean unretained hst lawful
  obtain ⟨-, flights, stands, -⟩ := s.rest_consume [(a, wa)]
  have cur : u.cur = s.cur := by rw [stores.cur, hs1, s.consume_cur]
  have sl : u.sl = s1.sl := by
    rw [State.sl, stores.cur]
    exact State.slot_congr stores.cores _
  have starts := State.starts_launch (s := u) (by rwa [cur]) (.enqueue (s1.spawnEntry (s.sl.rd a) (s1.spawnWord st)) (listOf s.cur.core)) []
  rw [cur] at starts
  obtain ⟨f, hf, -, who, -, -, -, act, -⟩ := starts.flight
  have retires := starts.slot
  rw [sl, hs1] at retires
  have after : s.sl.pc + 4#64 = (s.consume [(a, wa)]).sl.pc + 4#64 := by rw [s.consume_pc _ four]
  refine ⟨_, f, run, ?_, ?_, act, who.trans cur, fun n => ?_⟩
  · rw [Slot.after, after, hs1]
    exact State.retires_consume [(a, wa)] four retires
  · rw [← flights, ← hs1, ← stores.flights]
    exact hf
  · rw [← stands, ← hs1, ← stores.mem]
    exact starts.memory n

end Sys2Proof.Machine

open Sys2Proof Sys2Proof.Machine

/-- Settles O23: each instruction is issued as what it does with its values consumed, and what it sends or enters is read off. -/
theorem cellOperationsTileTasksAndSpawns : Obligations.CellOperationsTileTasksAndSpawns := by
  unfold Obligations.CellOperationsTileTasksAndSpawns
  refine ⟨⟨?cells, ?lnch, ?ttq⟩, ?spawn⟩
  case cells =>
    intro s d a b wa wb key s2 s1
    exact ⟨exec_decr_sends, exec_taskq_sends, exec_cbar_sends⟩
  case lnch =>
    intro s u d a wa k1 k2 bs po rels strand ready s1 va two parts aligned first second places free read
    have four : s1.cur.slot < 4 := State.four_consume ready.slot _
    have run := exec_lnch_sends (s1 := s1) rfl strand ready aligned first second places (free []) read
    have seen : s1.Seen u := (s1.seen_released _).trans (State.seen_readParts read)
    refine ⟨_, run, ?_, ?_⟩
    · unfold State.lnchSent
      cases po with
      | none => exact congrArg _ (List.getLast?_concat)
      | some g => exact congrArg _ (List.getLast?_concat)
    · cases po with
      | none => exact State.starts_produce (by rw [(seen.trans (u.seen_pending _ _)).cur]; exact four) d _ _
      | some g => exact State.starts_produce (by rw [seen.cur]; exact four) d _ _
  case ttq =>
    intro s a d key compute ready s1 owned check place quiet cl
    exact ⟨_, exec_ttq_taken rfl compute ready owned check place quiet, State.ttqTaken_leaves rfl ready.slot rfl⟩
  case spawn =>
    intro s a wa key ok strand ready s1 list check low free clean unretained st mem prio sbanks tiles
    have four := ready.slot
    have cur : s1.cur = s.cur := s.consume_cur _
    have lawful : stPrio st < 48 ∧ stSbanks st < 49 ∧ (coreKind s.cur.core = .memory → stTiles st = 0 ∧ stSbanks st = 0) := ⟨prio, sbanks, tiles⟩
    obtain ⟨t, f, run, retires, flights, act, who, mem'⟩ :=
      exec_spawn_leaves (s1 := s1) rfl strand ready check low (free _) clean unretained (st := st) rfl lawful
    have ten : s1.sl.ten = s.sl.ten := (s.strand_consume [(a, wa)] four).2
    have number := leNat_of_setBytes ok mem'
    rw [Nat.mod_eq_of_lt (s1.spawnWord st).isLt] at number
    refine ⟨t, _, f, run, retires, flights, act, who, rfl, ?_, ?_, ten, ?_, fun n hn => ?_⟩
    · exact (State.spawnWord_high s1 st).1
    · exact (State.spawnWord_high s1 st).2
    · dsimp only
      rw [number]
      obtain ⟨above, retain, mark, home, below⟩ := spawnState (st := st) (m := coreKind s1.cur.core == .memory) (c := coreNum s1.cur.core)
        (st' := (s1.spawnWord st).toNat) rfl
      refine ⟨above, retain, ?_, ?_, below⟩
      · rw [mark, cur]
        exact if_congr (by simp [mem]) rfl rfl
      · rw [home, cur]
        by_cases hm : mem
        · have kind : coreKind s.cur.core = .memory := hm
          rw [if_pos hm, if_pos (by simp [kind]), coreNum_of_memory kind]
        · have kind : coreKind s.cur.core ≠ .memory := hm
          rw [if_neg hm, if_neg (by simpa using kind)]
    · rw [mem']
      exact Memory.get_setBytes_out _ _ _ _ (by rw [length_leBytes]; omega)
end

section
/-! PROOFS. Messages at their target (R191 to R193, R361, R391): what a built-in finds, what its answer leaves. -/

namespace Sys2Proof.Machine

/-! ## Bytes of words -/

/-- A byte of a number. -/
theorem getD_leBytes {n j : Nat} (v : Nat) (h : j < n) : (leBytes n v).getD j 0#8 = BitVec.ofNat 8 (v / 2 ^ (8 * j)) := by
  induction n generalizing v j with
  | zero => omega
  | succ n ih =>
    cases j with
    | zero => simp [leBytes]
    | succ j =>
      rw [leBytes, List.getD_cons_succ, ih _ (by omega), Nat.div_div_eq_div_mul, Nat.mul_add, Nat.pow_add, Nat.mul_comm]

/-- The bytes of the number that bytes make are those bytes. -/
theorem take_leBytes_leNat {m : Nat} {bs : List Byte} (h : bs.length ≤ m) : (leBytes m (leNat bs)).take bs.length = bs := by
  induction bs generalizing m with
  | nil => rfl
  | cons b bs ih =>
    obtain ⟨m, rfl⟩ : ∃ k, m = k + 1 := ⟨m - 1, by simp at h; omega⟩
    have low : (b.toNat + 256 * leNat bs) / 256 = leNat bs := by have := b.isLt; omega
    have byte : BitVec.ofNat 8 (b.toNat + 256 * leNat bs) = b := by
      apply BitVec.eq_of_toNat_eq
      have := b.isLt
      simp
      omega
    simp only [leBytes, leNat, List.length_cons, List.take_succ_cons, low]
    rw [ih (by simpa using h)]
    exact congrArg (· :: bs) byte

/-- A byte of the bytes of words. -/
theorem getD_flatMap_leBytes (ws : List Word) (j : Nat) :
    (ws.flatMap fun w => leBytes 8 w.toNat).getD j 0#8 = (wordAt ws (j / 8)).extractLsb' (8 * (j % 8)) 8 := by
  induction ws generalizing j with
  | nil => simp [wordAt]
  | cons w ws ih =>
    rw [List.flatMap_cons]
    by_cases first : j < 8
    · rw [List.getD_append _ _ _ _ (by simpa using first), getD_leBytes _ first, Nat.div_eq_of_lt first, Nat.mod_eq_of_lt first]
      apply BitVec.eq_of_toNat_eq
      simp [wordAt, Nat.shiftRight_eq_div_pow]
    · obtain ⟨i, rfl⟩ : ∃ i, j = i + 8 := ⟨j - 8, by omega⟩
      rw [List.getD_append_right _ _ _ _ (by simp), length_leBytes, Nat.add_sub_cancel, ih, Nat.add_mod_right,
        Nat.add_div_right _ (by decide)]
      simp [wordAt]

theorem length_flatMap_leBytes (ws : List Word) : (ws.flatMap fun w => leBytes 8 w.toNat).length = 8 * ws.length := by
  induction ws with
  | nil => rfl
  | cons w ws ih =>
    rw [List.flatMap_cons, List.length_append, length_leBytes, ih, List.length_cons]
    omega

/-! ## Counts of packets (R175) -/

/-- From `s` to `t` packets have been counted, and nothing else has changed. -/
def State.Counts (s t : State) : Prop := ∃ cores, t = { s with cores := cores } ∧ ∀ k, ∃ m n, t.core k = { s.core k with sent := m, recv := n }

theorem State.Counts.refl (s : State) : s.Counts s := ⟨s.cores, rfl, fun k => ⟨(s.core k).sent, (s.core k).recv, rfl⟩⟩

theorem State.Counts.trans {s t u : State} (h : s.Counts t) (g : t.Counts u) : s.Counts u := by
  obtain ⟨cores, rfl, hc⟩ := h
  obtain ⟨cores', rfl, gc⟩ := g
  refine ⟨cores', rfl, fun k => ?_⟩
  obtain ⟨m, n, e⟩ := hc k
  obtain ⟨m', n', e'⟩ := gc k
  exact ⟨m', n', by rw [e', e]⟩

theorem State.counts_countPkt (s : State) (core cls : Nat) (sent : Bool) : s.Counts (s.countPkt core cls sent) := by
  unfold State.countPkt
  split
  · exact .refl s
  · refine ⟨_, rfl, fun k => ?_⟩
    by_cases h : k = core
    · subst h
      rw [State.modCore, State.core_setCore_same]
      split
      · exact ⟨_, _, rfl⟩
      · exact ⟨_, _, rfl⟩
    · rw [State.modCore, State.core_setCore_ne _ _ h]
      exact ⟨(s.core k).sent, (s.core k).recv, rfl⟩

theorem State.counts_deliver (s : State) (t : Option Nat) (cls : Nat) : s.Counts (s.deliver t cls) := by
  unfold State.deliver
  split
  · exact s.counts_countPkt ..
  · exact .refl s

/-- Slots stand while packets are counted. -/
theorem State.Counts.slot {s t : State} (h : s.Counts t) (r : SlotRef) : t.slot r = s.slot r := by
  obtain ⟨cores, -, each⟩ := h
  obtain ⟨m, n, e⟩ := each r.core
  unfold State.slot
  rw [e]
  rfl

theorem State.Counts.flights {s t : State} (h : s.Counts t) : t.flights = s.flights := by
  obtain ⟨cores, rfl, -⟩ := h
  rfl

theorem State.Counts.mem {s t : State} (h : s.Counts t) : t.mem = s.mem := by
  obtain ⟨cores, rfl, -⟩ := h
  rfl

/-! ## Answers (R193) -/

theorem State.slot_setAct (s : State) (id : Nat) (a : Act) (r : SlotRef) : (s.setAct id a).slot r = s.slot r := rfl
theorem State.mem_setAct (s : State) (id : Nat) (a : Act) : (s.setAct id a).mem = s.mem := rfl

/-- What the acknowledgement of a message of this device leaves: the flight `f` is on its way back. -/
def State.Acked (t : State) (f : Flight) : Prop := ∃ h w o, t.flight? f.id = some { f with act := .ack, hop := h, gather := w, owed := o }

/-- A flight whose message was served is on its way back. -/
theorem State.acked_setAct {s : State} {f : Flight} {w : Row} (found : s.flight? f.id = some { f with gather := w }) :
    (s.setAct f.id .ack).Acked f := by
  unfold State.Acked
  rw [State.setAct, State.flight?_modFlight found fun y => by split <;> rfl]
  split
  · exact ⟨_, w, _, rfl⟩
  · exact ⟨f.hop, w, f.owed, rfl⟩

/-- The answer to a message of this device: packets are counted, the sender takes the fault that the answer brings, and the flight is on its way
back. -/
theorem State.answer_here (s : State) {f : Flight} (pkt : f.pkt = none) (ws : List Word) (code : Nat) (data : List Word) :
    ∃ u, s.Counts u ∧ s.answer f ws code data = (u.answered f ws code).setAct f.id .ack := by
  have counted := s.counts_deliver (msgPeer ws) (msgClass ws)
  unfold State.answer
  rw [pkt]
  dsimp only
  split
  · exact ⟨_, counted.trans (State.counts_countPkt ..), rfl⟩
  · exact ⟨_, counted, rfl⟩

/-- A reply that lies in one row of 32 bytes is one piece. -/
theorem msgPieces_row {k : Nat} {bs : List Byte} (some_ : bs ≠ []) (row : k % 32 + bs.length ≤ 32) : msgPieces false false k bs = [(k, bs)] := by
  have rest : ∀ i, bs.drop (32 - k % 32 + 32 * i) = [] := fun i => List.drop_eq_nil_of_le (by omega)
  have whole : bs.take (32 - k % 32) = bs := List.take_of_length_le (by omega)
  unfold msgPieces
  simp [rest, whole, some_]

/-- Is there a deposit of `bs` at `va` under way that replies to `f`? -/
def State.Replied (t : State) (f : Flight) (va : Word) (bs : List Byte) : Prop :=
  ∃ g ∈ t.flights, g.act = .store va va.toNat bs .rel .none ∧ g.who = f.who ∧ g.ten = f.ten

/-- Operations that are sent one after another stand last among the flights. -/
theorem State.foldl_sends {α : Type} (g : Nat → α → Flight) (es : List α) (s : State) :
    ∃ n fs, es.foldl (fun t e => { t with fresh := t.fresh + 1, flights := t.flights ++ [g t.fresh e] }) s =
      { s with fresh := n, flights := s.flights ++ fs } := by
  induction es generalizing s with
  | nil => exact ⟨s.fresh, [], by simp⟩
  | cons e es ih =>
    obtain ⟨n, fs, h⟩ := ih { s with fresh := s.fresh + 1, flights := s.flights ++ [g s.fresh e] }
    exact ⟨n, g s.fresh e :: fs, by simp [h]⟩

/-- A reply adds flights; in one row of 32 bytes, the deposit. -/
theorem State.reply_adds (s : State) (f : Flight) (p src : Nat) (va : Word) (bs : List Byte) :
    ∃ n fs, s.reply f p src false va bs = { s with fresh := n, flights := s.flights ++ fs } ∧
      (bs ≠ [] → va.toNat % 32 + bs.length ≤ 32 → (s.reply f p src false va bs).Replied f va bs) := by
  obtain ⟨n, fs, h⟩ := State.foldl_sends (fun id e => { id := id, who := f.who, party := p, ten := f.ten, level := .m, queue := f.queue
                                                        born := f.born, act := .store (wd e.1) e.1 e.2 .rel .none, reply := true
                                                        owed := s.timed? f, hop := (s.keyPos 4096 e.1).bind fun d => hopFrom src d 1 false 1 })
    (msgPieces false false va.toNat bs) s
  refine ⟨n, fs, h, fun some_ row => ?_⟩
  unfold State.reply
  rw [msgPieces_row some_ row]
  refine ⟨_, List.mem_append_right _ (List.mem_singleton.mpr rfl), ?_, rfl, rfl⟩
  dsimp only
  rw [wd, BitVec.ofNat_toNat, BitVec.setWidth_eq]

/-- A flight that is on its way back stays so while others are sent. -/
theorem State.Acked.append {s : State} {f : Flight} (h : s.Acked f) (n : Nat) (fs : List Flight) :
    ({ s with fresh := n, flights := s.flights ++ fs } : State).Acked f := by
  obtain ⟨hop, w, o, found⟩ := h
  refine ⟨hop, w, o, ?_⟩
  unfold State.flight? at found ⊢
  rw [List.find?_append, found]
  rfl

/-- The reply to a message leaves its flight on its way back, and sends the deposit. -/
theorem State.Acked.reply {a b : State} {f : Flight} (h : a.Acked f) (counts : a.Counts b) (p src : Nat) (va : Word) (bs : List Byte) :
    (b.reply f p src false va bs).Acked f ∧ (b.reply f p src false va bs).mem = a.mem ∧ (b.reply f p src false va bs).clusters = a.clusters ∧
      (bs ≠ [] → va.toNat % 32 + bs.length ≤ 32 → (b.reply f p src false va bs).Replied f va bs) := by
  obtain ⟨cores, rfl, -⟩ := counts
  obtain ⟨n, fs, sent, replied⟩ := State.reply_adds { a with cores := cores } f p src va bs
  refine ⟨?_, ?_, ?_, replied⟩
  · rw [sent]
    exact State.Acked.append (s := { a with cores := cores }) h n fs
  · rw [sent]
  · rw [sent]

/-- The service of a message of this device: the flight is on its way back, the reply that was asked for is under way, and nothing else has changed of
what is told here. -/
theorem State.served_here {s : State} {f : Flight} {w : Row} (pkt : f.pkt = none) (found : s.flight? f.id = some { f with gather := w })
    (ws : List Word) (p : Nat) (bs : List Byte) :
    (s.served f ws p bs).Acked f ∧ (s.served f ws p bs).mem = s.mem ∧ (s.served f ws p bs).clusters = s.clusters ∧
      ∀ va, msgReply ws = some va → bs ≠ [] → va.toNat % 32 + bs.length ≤ 32 → (s.served f ws p bs).Replied f va bs := by
  obtain ⟨u, ⟨cores, rfl, -⟩, answered⟩ := s.answer_here pkt ws 0 (if (msgReply ws).isSome then leWords (bs ++ List.replicate 32 0#8) 4 else [])
  have acked : (({ s with cores := cores } : State).setAct f.id .ack).Acked f := State.acked_setAct found
  unfold State.served
  rw [answered, pkt]
  dsimp only [State.answered]
  split
  · next va _ asked =>
    have only : ∀ v, some va = some v → va = v := fun v h => Option.some.inj h
    split
    · obtain ⟨h1, h2, h3, h4⟩ := acked.reply (State.counts_countPkt ..) p ((s.goal f.who.core f.act).getD (s.seatPos f.who.core)) va bs
      exact ⟨h1, h2, h3, fun v hv => only v (asked.symm.trans hv) ▸ h4⟩
    · obtain ⟨h1, h2, h3, h4⟩ := acked.reply (.refl _) p ((s.goal f.who.core f.act).getD (s.seatPos f.who.core)) va bs
      exact ⟨h1, h2, h3, fun v hv => only v (asked.symm.trans hv) ▸ h4⟩
  · next none_ => exact ⟨acked, rfl, rfl, fun va asked => absurd asked (none_ va rfl)⟩

/-! ## The message at its target -/

/-- A message that is served is a SEND that has reached this device and is due. -/
theorem State.message?_eq {s : State} {id : Nat} {f : Flight} {ws : List Word} (h : s.message? id = some (f, ws)) :
    s.flight? id = some f ∧ f.act = .send ws ∧ s.performable f = true ∧ msgDev ws = s.dev := by
  unfold State.message? at h
  split at h
  · next g found =>
    split at h
    · next ws' act =>
      split at h
      · next here =>
        cases h
        simp only [Bool.and_eq_true, beq_iff_eq] at here
        exact ⟨found, act, here⟩
      · exact absurd h nofun
    · exact absurd h nofun
  · exact absurd h nofun

/-- A request whose turn at its location has come is performed. -/
theorem State.onTurn_due {s : State} {f : Flight} {l : Nat × Nat} (due : s.performable f = true) (loc : s.locationOf f = some l)
    (reached : f.reached.isSome = true) (turn : s.itsTurn f l = true) (k : State → State) :
    s.onTurn f k = k { s with servedAt := l :: s.servedAt } := by
  unfold State.onTurn
  rw [due, loc]
  dsimp only
  rw [turn]
  simp [Option.isSome_iff_ne_none.mp reached]

/-- A built-in whose target is plain memory reaches it. -/
theorem State.onMsg_low {s : State} {f : Flight} {ws : List Word} {acc : Acc} {k : Nat} (checked : s.msgCheck f acc ws = .ok k) (low : k < lpBase)
    (op : Nat → State → State) : s.onMsg f ws acc op = op k s := by
  have near : ¬ farBit ≤ k := by
    unfold lpBase at low
    unfold farBit
    omega
  unfold State.onMsg
  rw [checked]
  dsimp only
  rw [s.barredAt_of_lt_lpBase _ low, s.redirect_of_lt_lpBase _ low]
  dsimp only
  rw [if_neg (by simp), if_neg near]

/-- Of one piece the turn performs that one. -/
theorem State.partOf_one (s : State) (f : Flight) : s.partOf f 1 = 0 := by
  unfold State.partOf
  have first : ∀ i ∈ (List.range 1).filter fun i => !f.parts.contains i, i = 0 := fun i hi => by
    have := List.mem_range.mp (List.mem_filter.mp hi).1
    omega
  dsimp only
  generalize (List.range 1).filter (fun i => !f.parts.contains i) = left at first
  split
  · next named =>
    simp only [Bool.and_eq_true, List.contains_iff_mem] at named
    exact first _ named.2
  · cases left with
    | nil => rfl
    | cons i _ => exact first i (List.mem_cons_self ..)

theorem State.pieceDone_one (s : State) (f : Flight) (i : Nat) (last : State → State) : s.pieceDone f i 1 last = last s := if_neg (by omega)

theorem State.seen_builtin (s : State) (f : Flight) : s.Seen (s.builtin f) := s.seen_acquire ..

/-- A write of a party below LPDDR is performed at once. -/
theorem State.writeAt_of_lt_lpBase (s : State) (p ten : Nat) {k : Nat} (low : k < lpBase) (bs : List Byte) (rels : Rels) :
    s.writeAt p ten k bs rels = (some (s.write p ten k bs rels), s) := by
  unfold State.writeAt
  rw [isWindow_of_lt_lpBase low, if_neg (by decide), if_neg (not_chipBit_le_of_lt_lpBase low)]

theorem isDeposit_of_lt_lpBase {k : Nat} (low : k < lpBase) : isDeposit k = false := by
  simp [isDeposit, not_chipBit_le_of_lt_lpBase low]

/-- What a STORE writes. -/
def storeBytes (ws : List Word) : List Byte := ((ws.drop 2).flatMap fun w => leBytes 8 w.toNat).take (msgBytes ws)

theorem length_storeBytes {ws : List Word} (six : ws.length = 6) (small : msgBytes ws ≤ 32) : (storeBytes ws).length = msgBytes ws := by
  rw [storeBytes, List.length_take, length_flatMap_leBytes, List.length_drop, six]
  omega

/-- The bytes that a STORE writes are those of its words from m2 on. -/
theorem getD_storeBytes (ws : List Word) {j : Nat} (h : j < msgBytes ws) :
    (storeBytes ws).getD j 0#8 = (wordAt ws (2 + j / 8)).extractLsb' (8 * (j % 8)) 8 := by
  have word : wordAt (ws.drop 2) (j / 8) = wordAt ws (2 + j / 8) := by simp [wordAt]
  rw [← word, ← getD_flatMap_leBytes, storeBytes, List.getD_eq_getElem?_getD, List.getElem?_take_of_lt h, ← List.getD_eq_getElem?_getD]

/-- A STORE into one row of stack memory writes its bytes, and is served. -/
theorem State.storeMsg_stack {s : State} {f : Flight} {ws : List Word} {k : Nat} (pkt : f.pkt = none) (low : k < stackEnd)
    (some_ : storeBytes ws ≠ []) (row : k % 32 + (storeBytes ws).length ≤ 32) :
    ∃ u, s.Stores u k (storeBytes ws) ∧ s.storeMsg f ws k = u.served f ws f.id [] := by
  obtain ⟨ps, out, seen⟩ := s.seen_builtin f
  have stack : s.place k = .stack := s.place_of_lt_stackEnd low
  have low0 : k < lpBase := low.trans_le stackEnd_le_lpBase
  refine ⟨(s.builtin f).write f.id f.ten k (storeBytes ws) [], ?_, ?_⟩
  · rw [seen]
    have := State.stores_write (s := { s with parties := ps, out := out }) (k := k) (.inr stack) (by unfold stackEnd at low; unfold farBit; omega)
      f.id f.ten (storeBytes ws) []
    exact { this with }
  · have one : msgPieces f.pkt.isSome (s.place k == .host) k (storeBytes ws) = [(k, storeBytes ws)] := by
      rw [pkt, stack]
      exact msgPieces_row some_ row
    unfold State.storeMsg
    dsimp only
    unfold storeBytes at one ⊢
    rw [one]
    dsimp only [List.length_singleton]
    rw [s.partOf_one, State.msgWrite, List.getD_cons_zero, isDeposit_of_lt_lpBase low0, if_neg (by decide), State.writeAt_of_lt_lpBase _ _ _ low0]
    exact State.pieceDone_one _ _ _ _

/-- The bytes of a row that holds nothing but the number of some bytes. -/
theorem rowBytes_leNat {bs : List Byte} (h : bs.length ≤ 32) (k : Nat) :
    (rowBytes (0#256 ||| (BitVec.ofNat 256 (leNat bs) <<< (8 * (k - k))))).take bs.length = bs := by
  have small : leNat bs < 2 ^ 256 := (leNat_lt bs).trans_le (Nat.pow_le_pow_right (by decide) (by omega))
  have whole : (0#256 ||| (BitVec.ofNat 256 (leNat bs) <<< (8 * (k - k)))).toNat = leNat bs := by
    simpa using small
  rw [rowBytes, whole, take_leBytes_leNat h]

/-- A LOAD of one row of stack memory is served with the bytes that stand there. -/
theorem State.loadMsg_stack {s : State} {f : Flight} {ws : List Word} {k n : Nat} (found : s.flight? f.id = some f) (pkt : f.pkt = none)
    (clean : s.poison = []) (low : k < stackEnd) (hn : msgBytes ws = n) (n0 : 0 < n) (row : k % 32 + n ≤ 32) (fresh : f.gather = 0#256)
    (settled : s.settled k n) :
    ∃ (u : State) (w : Row), u.flight? f.id = some { f with gather := w } ∧ u.mem = s.mem ∧
      s.loadMsg f ws k = u.served f ws f.id ((List.range n).map fun j => Memory.get s.mem (k + j)) := by
  have stack : s.place k = .stack := s.place_of_lt_stackEnd low
  have low0 : k < lpBase := low.trans_le stackEnd_le_lpBase
  have within : ∀ j < n, k + j < lpBase := fun j hj => by unfold stackEnd at low; unfold lpBase; omega
  have some_ : List.replicate n (0#8) ≠ [] := by simpa using Nat.ne_of_gt n0
  obtain ⟨ps, out, seen⟩ := s.seen_builtin f
  let s0 : State := { s with parties := ps, out := out }
  have bytes : (s0.read f.id f.ten k n (s0.turnView k n)).1 = (List.range n).map fun j => Memory.get s.mem (k + j) := by
    rw [State.read_settled (s := s0) settled]
    exact List.map_congr_left fun j hj => s0.rdByte_of_lt_lpBase f.ten (within j (List.mem_range.mp hj))
  obtain ⟨ps', out', e⟩ := (s0.seen_read f.id f.ten k n (s0.turnView k n)).trans (State.seen_pending _ f.id
    (s0.read f.id f.ten k n (s0.turnView k n)).2.1)
  let bs := (List.range n).map fun j => Memory.get s.mem (k + j)
  let got : Row := f.gather ||| (BitVec.ofNat 256 (leNat bs) <<< (8 * (k - k)))
  have length : bs.length = n := by simp [bs]
  have took : (rowBytes got).take n = bs := by
    dsimp only [got]
    rw [fresh, ← length]
    exact rowBytes_leNat (by omega) k
  let u : State := ({ s0 with parties := ps', out := out' } : State).modFlight f.id fun g => { g with gather := got }
  refine ⟨u, got, State.flight?_modFlight found fun _ => rfl, rfl, ?_⟩
  have one : msgPieces f.pkt.isSome (s.place k == .host) k (List.replicate n 0#8) = [(k, List.replicate n 0#8)] := by
    rw [pkt, stack]
    exact msgPieces_row some_ (by simpa using row)
  unfold State.loadMsg
  rw [hn, seen]
  dsimp only
  rw [one]
  dsimp only [List.length_singleton]
  rw [s.partOf_one, List.getD_cons_zero]
  dsimp only
  rw [List.length_replicate, State.readAt_of_lt_lpBase (s := s0) clean low0]
  dsimp only
  rw [bytes, e]
  refine (State.pieceDone_one _ _ _ _).trans ?_
  exact congrArg (u.served f ws f.id) took

/-- An ATOMIC adding eight bytes of stack memory stores the sum, and is served with the old value. -/
theorem State.atomicMsg_stack {s : State} {f : Flight} {ws : List Word} {k : Nat}
    (clean : s.poison = []) (low : k < stackEnd) (hn : msgBytes ws = 8) (add : fld (wordAt ws 2) 3 0 = 0) :
    ∃ u : State, u.flights = s.flights ∧ u.mem = Memory.setBytes s.mem k (leBytes 8 ((s.num k 8 + (wordAt ws 3).toNat) % 2 ^ 64)) ∧
      s.atomicMsg f ws k = u.served f ws f.id (leBytes 8 (s.num k 8)) := by
  have low0 : k < lpBase := low.trans_le stackEnd_le_lpBase
  obtain ⟨ps, out, seen⟩ := s.seen_builtin f
  let s0 : State := { s with parties := ps, out := out }
  obtain ⟨ps1, out1, e1⟩ := s0.seen_read f.id f.ten k 8 (s0.homeView k 8)
  let s1 : State := { s0 with parties := ps1, out := out1 }
  let rels := (s0.read f.id f.ten k 8 (s0.homeView k 8)).2.1
  obtain ⟨ps2, out2, e2⟩ := s1.seen_pending f.id rels
  let s2 : State := { s1 with parties := ps2, out := out2 }
  have old : leNat (s1.rdBytes f.ten k 8) = s.num k 8 :=
    s1.leNat_rdBytes_of_lt_lpBase f.ten (by unfold stackEnd at low; unfold lpBase; omega)
  have operand : (wordAt ws 3).toNat % 2 ^ (8 * 8) = (wordAt ws 3).toNat := Nat.mod_eq_of_lt (wordAt ws 3).isLt
  let sum := (s.num k 8 + (wordAt ws 3).toNat) % 2 ^ 64
  have stores := State.stores_write (s := s2) (k := k) (.inr (s2.place_of_lt_stackEnd low)) (by unfold stackEnd at low; unfold farBit; omega)
    f.id f.ten (leBytes 8 sum) rels
  refine ⟨s2.write f.id f.ten k (leBytes 8 sum) rels, stores.flights, stores.mem, ?_⟩
  unfold State.atomicMsg
  rw [hn, seen]
  dsimp only
  rw [State.readAt_of_lt_lpBase (s := s0) clean low0]
  dsimp only
  rw [e1, old, add]
  rw [if_neg (by decide), operand, e2]
  rfl

/-- A DECR at a lawful cell whose bank is Full, which it leaves above zero, is served. -/
theorem State.decrMsg_full {s : State} {f : Flight} {ws : List Word} {cell : Word} (here : CellPlace cell) (clean : s.poison = [])
    (full : (s.core (chipOf cell.toNat).core).bank (16 + (chipOf cell.toNat).off / 0x2000) = 2)
    (quiet : wordAt ws 2 < wd (s.num cell.toNat 8)) :
    ∃ (u : State) (waiter : Word), u.flights = s.flights ∧
      u.mem = Memory.setBytes s.mem cell.toNat (cellBytes (leftOf (wd (s.num cell.toNat 8)) (wordAt ws 2)) waiter) ∧
      waiter = wd (s.num (cell.toNat + 8) 8) ∧ s.decrMsg f ws cell.toNat = u.served f ws f.id [] := by
  obtain ⟨ps, out, seen⟩ := s.seen_builtin f
  obtain ⟨rels, ps', words⟩ := State.cellAt_full (s := { s with parties := ps, out := out }) here clean full f.id f.ten
  obtain ⟨mem, flights⟩ := State.decrCell_quiet (s := { s with parties := ps', out := out }) here (waiter := wd (s.num (cell.toNat + 8) 8))
    (.inr (.inl quiet)) f.id f.ten (rels ++ ({ s with parties := ps', out := out } : State).relOf f.id 4)
  refine ⟨_, _, flights, mem, rfl, ?_⟩
  unfold State.decrMsg
  rw [seen]
  dsimp only
  rw [words]
  rfl

/-- A cell whose waiter is stored as it stands changes in its count alone. -/
theorem State.onlyAt_of_count {s t : State} {k : Nat} {count : Word} (ok : s.memOk)
    (hm : t.mem = Memory.setBytes s.mem k (cellBytes count (wd (s.num (k + 8) 8)))) : s.onlyAt t k 8 := by
  have waiter : leBytes 8 (wd (s.num (k + 8) 8)).toNat = (List.range 8).map fun j => Memory.get s.mem (k + 8 + j) := by
    have length : ((List.range 8).map fun j => Memory.get s.mem (k + 8 + j)).length = 8 := by simp
    have all := take_leBytes_leNat (m := 8) length.le
    rw [length, List.take_of_length_le (length_leBytes _ _).le] at all
    rw [State.num, toNat_wd_leNat length.le, all]
  intro a ha
  by_cases inside : k ≤ a ∧ a < k + 16
  · obtain ⟨j, rfl⟩ : ∃ j, a = k + (8 + j) := ⟨a - k - 8, by omega⟩
    have hj : j < 8 := by omega
    rw [hm, Memory.get_setBytes_in _ _ _ _ ok (by simp [cellBytes]; omega), cellBytes, waiter,
      List.getD_append_right _ _ _ _ (by simp), length_leBytes, Nat.add_sub_cancel_left]
    rw [List.getD_eq_getElem _ _ (by simpa using hj)]
    simp [Nat.add_assoc]
  · rw [hm]
    exact Memory.get_setBytes_out _ _ _ _ (by simp [cellBytes]; omega)

/-! ## Posts (R100, R105) -/

/-- The entry of a key that is replaced. -/
theorem Cluster.fentry_setEntry {c : Cluster} {dk : Nat} {key : Word} {e g : FEntry} (found : c.fentry dk key = some e) (dom : g.dom = e.dom)
    (same : g.key = e.key) : (c.setEntry dk key fun _ => g).fentry dk key = some g := by
  unfold Cluster.fentry Cluster.setEntry at *
  have named : e.dom = dk ∧ e.key = key := by simpa using List.find?_some found
  have kept : ((fun x : FEntry => x.dom == dk && x.key == key) ∘ fun x => if x.dom = dk ∧ x.key = key then g else x) =
      fun x => x.dom == dk && x.key == key := by
    funext x
    by_cases h : x.dom = dk ∧ x.key = key
    · simp [h, dom, same, named]
    · simp [h]
  rw [List.find?_map, kept, found]
  simp [named]

/-- To change a domain leaves the entries of a fold store. -/
theorem Cluster.fentry_modDom (c : Cluster) (d : Nat) (f : FDomain → FDomain) (dk : Nat) (key : Word) : (c.modDom d f).fentry dk key = c.fentry dk key := rfl

/-- A sum notes no flag. -/
theorem foldVal_sum (v : BitVec 128) (nan : Bool) (x : Word) :
    foldVal 1 false v nan x = (BitVec.ofNat 128 ((v.toNat % 2 ^ 64 + x.toNat) % 2 ^ 64), false, false) := rfl

/-- A POST of a sum to a key whose entry waits adds to its value (R100). -/
theorem State.foldInto_waiting {s : State} {ten k dk bank : Nat} {key x : Word} {e : FEntry} (rel : List Nat) (logged : Bool)
    (sum : ((s.cluster k).dom dk).op = 1) (found : (s.cluster k).fentry dk key = some e) (waits : e.st = .waiting) :
    ∃ (g : FEntry) (m : FDomain → FDomain),
      s.foldInto ten k dk bank key x rel logged = some ((s.modCluster k fun c => c.setEntry dk key fun _ => g).modCluster k fun c => c.modDom dk m) ∧
      g.val = BitVec.ofNat 128 ((e.val.toNat % 2 ^ 64 + x.toNat) % 2 ^ 64) ∧ g.dom = e.dom ∧ g.key = e.key := by
  have old : (e.st == .claimed) = false := by rw [waits]; rfl
  unfold State.foldInto
  dsimp only
  rw [found, sum]
  dsimp only
  rw [old, foldVal_sum]
  refine ⟨_, _, rfl, ?_⟩
  exact iteInduction (motive := fun g : FEntry => g.val = _ ∧ g.dom = e.dom ∧ g.key = e.key) (fun _ => ⟨rfl, rfl, rfl⟩) fun _ => ⟨rfl, rfl, rfl⟩

/-- A POST within the slice of its tenant to a key whose entry waits: its status is 0, and fold stores alone change. -/
theorem State.foldPost_waiting {s : State} {ten dom k bank : Nat} {key x : Word} {e : FEntry} (rel : List Nat)
    (home : s.foldHome ten (ten * 16 + dom) key = (k, bank)) (inside : s.outOfSlice ten k = false)
    (sum : ((s.cluster k).dom (ten * 16 + dom)).op = 1) (found : (s.cluster k).fentry (ten * 16 + dom) key = some e)
    (waits : e.st = .waiting) (sound : e.poison = false) :
    ∃ (cs : AMap Cluster) (g : FEntry), s.foldPost ten dom key x rel = (0, { s with clusters := cs }) ∧
      (({ s with clusters := cs } : State).cluster k).fentry (ten * 16 + dom) key = some g ∧
      g.val = BitVec.ofNat 128 ((e.val.toNat % 2 ^ 64 + x.toNat) % 2 ^ 64) := by
  obtain ⟨g, m, into, val, gdom, gkey⟩ := State.foldInto_waiting (ten := ten) (bank := bank) (x := x) rel false sum found waits
  let u : State := (s.modCluster k fun c => c.setEntry (ten * 16 + dom) key fun _ => g).modCluster k fun c => c.modDom (ten * 16 + dom) m
  let t : State := u.modCluster k fun c => c.modDom (ten * 16 + dom) fun d => { d with posted := true }
  refine ⟨t.clusters, g, ?_, ?_, val⟩
  · unfold State.foldPost
    dsimp only
    rw [home]
    dsimp only
    rw [inside, if_neg (by decide), found]
    dsimp only
    rw [sound, if_neg (by decide), into]
    rfl
  · change (t.cluster k).fentry _ _ = _
    dsimp only [t, u]
    rw [State.cluster_modCluster_same, Cluster.fentry_modDom, State.cluster_modCluster_same, Cluster.fentry_modDom, State.cluster_modCluster_same]
    exact Cluster.fentry_setEntry found gdom gkey

/-! ## Handler messages (R192, R361) -/

/-- A queue that nothing waits to refill stays as it is. -/
theorem State.refill_still {s : State} {core : Nat} (h : s.nextSpilled core = none) (n : Nat) : s.refill core n = s := by
  cases n with
  | zero => rfl
  | succ n =>
    unfold State.refill
    rw [h]
    split <;> rfl

/-- The use of a forwarding entry is noted in the core that it leaves. -/
theorem State.usedBy_eq (s : State) (ten core : Nat) (dst : Option Nat × Nat) :
    ∃ cores, s.usedBy ten core dst = { s with cores := cores } ∧ ∀ k, k ≠ core → (s.usedBy ten core dst).core k = s.core k :=
  ⟨_, rfl, fun _ h => s.core_setCore_ne _ h⟩

/-- A handler message of a core of its sender's tenant that has room joins the core's inbound queue. -/
theorem State.handlerMessage_joins {s : State} {f : Flight} {ws : List Word} {core : Nat} (pkt : f.pkt = none)
    (message : s.message? f.id = some (f, ws)) (handler : msgBuiltin ws = false) (dst : s.messageCore f.ten (msgCore ws) = (none, core))
    (mine : s.coreOf f.ten core = true) (live : (s.core core).fenced = false) (room : (s.core core).inbound.length < 32)
    (none_ : s.nextSpilled core = none) (ring : (s.tenant f.ten).spill.get [] core = []) :
    ∃ u : State, u.flights = s.flights ∧ u.mem = s.mem ∧ (u.core core).inbound = (s.core core).inbound ++
        [{ ten := f.ten, prio := msgPrio ws, stamp := s.cycle, pc := wd (msgHandler ws), src := s.srcId f.who, args := ws.drop 2, queue := f.queue
           rel := [(4, f.rel)] }] ∧
      exec (.handlerMessageArrival f.id) s = .next (u.answer f ws 0 []) := by
  obtain ⟨s1, hs1, ⟨cores, eq⟩, here⟩ : ∃ s1 : State, (if core = msgCore ws then s else s.usedBy f.ten (msgCore ws) (none, core)) = s1 ∧
      (∃ cores, s1 = { s with cores := cores }) ∧ s1.core core = s.core core := by
    by_cases same : core = msgCore ws
    · exact ⟨s, if_pos same, ⟨s.cores, rfl⟩, rfl⟩
    · obtain ⟨cores, eq, others⟩ := s.usedBy_eq f.ten (msgCore ws) (none, core)
      exact ⟨_, if_neg same, ⟨cores, eq⟩, others _ same⟩
  have src : s.msgSrc f = s.srcId f.who := by
    unfold State.msgSrc
    rw [pkt]
  have ring1 : (s1.tenant f.ten).spill.get [] core = [] := by rw [eq]; exact ring
  let m : HMsg := { ten := f.ten, prio := msgPrio ws, stamp := s.cycle, pc := wd (msgHandler ws), src := s.srcId f.who, args := ws.drop 2
                    queue := f.queue, rel := [(4, f.rel)] }
  refine ⟨s1.modCore core fun c => { c with inbound := c.inbound ++ [m] }, ?_, ?_, ?_, ?_⟩
  rotate_right
  · change execHandlerMessageArrival f.id s = _
    unfold execHandlerMessageArrival
    rw [message]
    dsimp only
    rw [handler, dst]
    dsimp only
    rw [mine, State.refill_still none_, hs1, here, live, ring1, src]
    simp only [room, Bool.not_false, Bool.true_and, decide_true, List.isEmpty_nil, if_true, Option.isSome_none, Bool.false_eq_true, if_false,
      Bool.not_true]
    rfl
  · rw [eq]
    rfl
  · rw [eq]
    rfl
  · rw [State.modCore, State.core_setCore_same, here]

/-- A handler message of a core of its sender's tenant that has room is acknowledged. -/
theorem exec_handlerMessage_joins {s : State} {f : Flight} {ws : List Word} {core : Nat} (pkt : f.pkt = none)
    (message : s.message? f.id = some (f, ws)) (handler : msgBuiltin ws = false) (dst : s.messageCore f.ten (msgCore ws) = (none, core))
    (mine : s.coreOf f.ten core = true) (live : (s.core core).fenced = false) (room : (s.core core).inbound.length < 32)
    (none_ : s.nextSpilled core = none) (ring : (s.tenant f.ten).spill.get [] core = []) :
    ∃ t, exec (.handlerMessageArrival f.id) s = .next t ∧ t.Acked f ∧ t.mem = s.mem ∧ (t.core core).inbound = (s.core core).inbound ++
        [{ ten := f.ten, prio := msgPrio ws, stamp := s.cycle, pc := wd (msgHandler ws), src := s.srcId f.who, args := ws.drop 2, queue := f.queue
           rel := [(4, f.rel)] }] := by
  obtain ⟨found, -⟩ := State.message?_eq message
  obtain ⟨u, flights, mem, inbound, run⟩ := State.handlerMessage_joins pkt message handler dst mine live room none_ ring
  obtain ⟨v, counts, answered⟩ := u.answer_here pkt ws 0 []
  obtain ⟨-, -, each⟩ := id counts
  obtain ⟨m, n, counted⟩ := each core
  have found' : v.flight? f.id = some { f with gather := f.gather } :=
    ((State.flight?_congr counts.flights _).trans (State.flight?_congr flights f.id)).trans found
  refine ⟨_, run, ?_, ?_, ?_⟩
  · rw [answered]
    exact State.acked_setAct found'
  · rw [answered]
    exact counts.mem.trans mem
  · rw [answered]
    exact (congrArg Core.inbound counted).trans inbound

/-- A handler message of another tenant's core brings its sender fault 0x06. -/
theorem exec_handlerMessage_foreign {s : State} {f : Flight} {ws : List Word} {core : Nat} (pkt : f.pkt = none)
    (message : s.message? f.id = some (f, ws)) (handler : msgBuiltin ws = false) (dst : s.messageCore f.ten (msgCore ws) = (none, core))
    (other : s.coreOf f.ten core = false) (holds : s.holds f.who f.party = true) (thawed : (s.slot f.who).frozen = false) (four : f.who.slot < 4)
    (own : f.own = false) (outlived : f.outlived = false) :
    ∃ t, exec (.handlerMessageArrival f.id) s = .next t ∧ t.Acked f ∧ t.mem = s.mem ∧
      (t.slot f.who).pend = (s.slot f.who).pend ++ [{ code := 6, tval := wordAt ws 1, handler := f.inh }] := by
  obtain ⟨found, -⟩ := State.message?_eq message
  obtain ⟨v, counts, answered⟩ := s.answer_here pkt ws 1 []
  have slot := counts.slot f.who
  have held : v.holds f.who f.party = true := by
    unfold State.holds at holds ⊢
    rwa [slot]
  have faulted := State.flightFault_held held (by rw [slot]; exact thawed) own pkt outlived 6 (wordAt ws 1)
  have run : exec (.handlerMessageArrival f.id) s = .next ((v.flightFault f 6 (wordAt ws 1)).setAct f.id .ack) := by
    change execHandlerMessageArrival f.id s = _
    unfold execHandlerMessageArrival
    rw [message]
    dsimp only
    rw [handler, dst]
    dsimp only
    rw [other, answered]
    rfl
  refine ⟨_, run, State.acked_setAct (w := f.gather) ?_, ?_, ?_⟩
  · rw [faulted, State.flight?_congr (State.modSlot_flights ..), State.flight?_congr counts.flights]
    exact found
  · rw [State.mem_setAct, faulted, State.modSlot_mem, counts.mem]
  · rw [State.slot_setAct, faulted, State.slot_modSlot_same _ _ four, slot]

/-! ## Built-ins (R191) -/

/-- A flight whose message is served as it is. -/
theorem State.flight?_served {s u : State} {id : Nat} {f : Flight} {ws : List Word} (message : s.message? id = some (f, ws))
    (same : u.flights = s.flights) : u.flight? id = some { f with gather := f.gather } :=
  (State.flight?_congr same id).trans (State.message?_eq message).1

theorem exec_builtinStore_stack {s : State} {f : Flight} {ws : List Word} {k : Nat} (pkt : f.pkt = none)
    (message : s.message? f.id = some (f, ws)) (ok : s.memOk) (six : ws.length = 6) (handler : msgHandler ws = 0x00)
    (checked : s.msgCheck f .store ws = .ok k) (stack : s.place k = .stack) (row : k % 32 + msgPrio ws < 32) :
    ∃ t, exec (.builtinStore f.id) s = .next t ∧ t.Acked f ∧ s.onlyAt t k (msgPrio ws + 1) ∧
      ∀ j < msgPrio ws + 1, Memory.get t.mem (k + j) = (wordAt ws (2 + j / 8)).extractLsb' (8 * (j % 8)) 8 := by
  have low := State.lt_stackEnd_of_place stack
  have size : msgBytes ws = msgPrio ws + 1 := by
    unfold msgBytes
    rw [handler]
    rfl
  have length : (storeBytes ws).length = msgPrio ws + 1 := (length_storeBytes six (by omega)).trans size
  obtain ⟨u, stores, served⟩ := State.storeMsg_stack (s := s) (ws := ws) pkt low (List.ne_nil_of_length_pos (by omega)) (by omega)
  obtain ⟨acked, mem, -, -⟩ := State.served_here pkt (State.flight?_served message stores.flights) ws f.id []
  have stored := mem.trans stores.mem
  refine ⟨_, ?_, acked, State.onlyAt_of_setBytes stored length, fun j hj => ?_⟩
  · change execBuiltinStore f.id s = _
    unfold execBuiltinStore
    rw [message]
    dsimp only
    rw [if_neg (not_not.mpr handler), State.onMsg_low checked (low.trans_le stackEnd_le_lpBase), served]
  · rw [stored, Memory.get_setBytes_in _ _ _ _ ok (length.symm ▸ hj), getD_storeBytes ws (size.symm ▸ hj)]

theorem exec_builtinLoad_stack {s : State} {f : Flight} {ws : List Word} {k : Nat} (pkt : f.pkt = none)
    (message : s.message? f.id = some (f, ws)) (clean : s.poison = []) (handler : msgHandler ws = 0x10)
    (checked : s.msgCheck f .load ws = .ok k) (stack : s.place k = .stack) (row : k % 32 + msgPrio ws < 32)
    (reply : (wordAt ws 2).toNat % 32 + msgPrio ws < 32) (fresh : f.gather = 0#256) (settled : s.settled k (msgPrio ws + 1)) :
    ∃ t, exec (.builtinLoad f.id) s = .next t ∧ t.Acked f ∧ t.mem = s.mem ∧
      t.Replied f (wordAt ws 2) ((List.range (msgPrio ws + 1)).map fun j => Memory.get s.mem (k + j)) := by
  have low := State.lt_stackEnd_of_place stack
  have size : msgBytes ws = msgPrio ws + 1 := by
    unfold msgBytes
    rw [handler]
    rfl
  obtain ⟨u, w, found, mem, served⟩ := State.loadMsg_stack (State.message?_eq message).1 pkt clean low size (by omega) (by omega) fresh settled
  obtain ⟨acked, mem', -, replied⟩ := State.served_here pkt found ws f.id ((List.range (msgPrio ws + 1)).map fun j => Memory.get s.mem (k + j))
  have asked : msgReply ws = some (wordAt ws 2) := by
    unfold msgReply
    rw [handler]
    rfl
  refine ⟨_, ?_, acked, mem'.trans mem, replied _ asked (by simp) (by simp; omega)⟩
  change execBuiltinLoad f.id s = _
  unfold execBuiltinLoad
  rw [message]
  dsimp only
  rw [if_neg (not_not.mpr handler), State.onMsg_low checked (low.trans_le stackEnd_le_lpBase), served]

/-- The eight bytes of a reply to an aligned address lie in one row. -/
theorem leBytes_row {va : Word} (row : va.toNat % 8 = 0) (v : Nat) : leBytes 8 v ≠ [] ∧ va.toNat % 32 + (leBytes 8 v).length ≤ 32 :=
  ⟨by simp [leBytes], by rw [length_leBytes]; omega⟩

theorem exec_builtinAtomic_stack {s : State} {f : Flight} {ws : List Word} {k : Nat} (pkt : f.pkt = none)
    (message : s.message? f.id = some (f, ws)) (ok : s.memOk) (clean : s.poison = []) (handler : msgHandler ws = 0x20)
    (add : fld (wordAt ws 2) 3 0 = 0) (dbl : bit (wordAt ws 2) 4 = true) (checked : s.msgCheck f .atomic ws = .ok k) (stack : s.place k = .stack)
    (reached : f.reached.isSome = true) (turn : ∀ l, s.locationOf f = some l → s.itsTurn f l = true) :
    ∃ t, exec (.builtinAtomic f.id) s = .next t ∧ t.Acked f ∧ s.onlyAt t k 8 ∧ t.num k 8 = (s.num k 8 + (wordAt ws 3).toNat) % 2 ^ 64 ∧
      (wordAt ws 5 ≠ 0#64 → (wordAt ws 5).toNat % 8 = 0 → t.Replied f (wordAt ws 5) (leBytes 8 (s.num k 8))) := by
  obtain ⟨-, act, ready, dev⟩ := State.message?_eq message
  have low := State.lt_stackEnd_of_place stack
  have size : msgBytes ws = 8 := by
    unfold msgBytes
    rw [if_pos handler, if_pos dbl]
  have loc : s.locationOf f = some (k, 8) := by
    unfold State.locationOf
    rw [act]
    dsimp only
    rw [if_neg (not_not.mpr dev), if_pos handler, checked]
    dsimp only
    rw [s.redirect_of_lt_lpBase _ (low.trans_le stackEnd_le_lpBase), size]
  let s1 : State := { s with servedAt := (k, 8) :: s.servedAt }
  obtain ⟨u, flights, mem, served⟩ := State.atomicMsg_stack (s := s1) (f := f) clean low size add
  obtain ⟨acked, mem', -, replied⟩ := State.served_here pkt (State.flight?_served message flights) ws f.id (leBytes 8 (s.num k 8))
  have stored := mem'.trans mem
  have sum := leNat_of_setBytes ok fun a => congrArg (Memory.get · a) stored
  rw [Nat.mod_mod] at sum
  refine ⟨_, ?_, acked, State.onlyAt_of_setBytes stored (length_leBytes _ _), sum, fun asks row => ?_⟩
  · change execBuiltinAtomic f.id s = _
    unfold execBuiltinAtomic
    rw [message]
    dsimp only
    rw [if_neg (not_not.mpr handler), State.onMsg_low checked (low.trans_le stackEnd_le_lpBase)]
    rw [stack, State.onTurn_due ready loc reached (turn _ loc)]
    simp only [Bool.or_true, Bool.not_true, Bool.false_eq_true, if_false]
    exact congrArg Host.Outcome.next served
  · refine replied _ ?_ (leBytes_row row _).1 (leBytes_row row _).2
    unfold msgReply
    rw [handler]
    exact if_neg asks

theorem exec_builtinPost_waiting {s : State} {f : Flight} {ws : List Word} {k bank : Nat} {e : FEntry} (pkt : f.pkt = none)
    (message : s.message? f.id = some (f, ws)) (handler : msgHandler ws = 0x30) (folds : (s.tenant f.ten).fold ≠ 0#64)
    (home : s.foldHome f.ten (f.ten * 16 + fld (wordAt ws 2) 3 0) (wordAt ws 3) = (k, bank)) (open_ : s.foldOpen k = true)
    (inside : s.outOfSlice f.ten k = false) (sum : fld ((s.cluster k).dom (f.ten * 16 + fld (wordAt ws 2) 3 0)).dctl 19 17 = 1)
    (found : (s.cluster k).fentry (f.ten * 16 + fld (wordAt ws 2) 3 0) (wordAt ws 3) = some e) (waits : e.st = .waiting)
    (sound : e.poison = false) :
    ∃ t g, exec (.builtinPost f.id) s = .next t ∧ t.Acked f ∧ t.mem = s.mem ∧
      (t.cluster k).fentry (f.ten * 16 + fld (wordAt ws 2) 3 0) (wordAt ws 3) = some g ∧
      g.val = BitVec.ofNat 128 ((e.val.toNat % 2 ^ 64 + (wordAt ws 4).toNat) % 2 ^ 64) ∧
      (wordAt ws 5 ≠ 0#64 → (wordAt ws 5).toNat % 8 = 0 → t.Replied f (wordAt ws 5) (leBytes 8 0)) := by
  obtain ⟨ps, out, seen⟩ := s.seen_builtin f
  obtain ⟨cs, g, posted, entry, val⟩ := State.foldPost_waiting (s := { s with parties := ps, out := out }) (x := wordAt ws 4) f.rel home inside
    sum found waits sound
  obtain ⟨acked, mem, clusters, replied⟩ := State.served_here (s := { s with parties := ps, out := out, clusters := cs }) pkt
    (State.flight?_served message rfl) ws f.id (leBytes 8 0)
  refine ⟨_, g, ?_, acked, mem, ?_, val, fun asks row => ?_⟩
  · change execBuiltinPost f.id s = _
    unfold execBuiltinPost
    rw [message]
    dsimp only
    rw [if_neg (not_not.mpr handler), if_neg folds, home, open_, if_neg (by decide), seen, posted]
    rfl
  · unfold State.cluster
    rw [clusters]
    exact entry
  · refine replied _ ?_ (leBytes_row row _).1 (leBytes_row row _).2
    unfold msgReply
    rw [handler]
    exact if_neg asks

theorem exec_builtinDecr_full {s : State} {f : Flight} {ws : List Word} (pkt : f.pkt = none)
    (message : s.message? f.id = some (f, ws)) (ok : s.memOk) (clean : s.poison = []) (handler : msgHandler ws = 0x40)
    (lawful : s.cellFault f.ten (msgVa ws) = none) (open_ : s.barredAt f.who.core (msgVa ws).toNat = false)
    (direct : s.forwardOf f.who.core (msgVa ws).toNat = none)
    (reached : f.reached.isSome = true) (turn : ∀ l, s.locationOf f = some l → s.itsTurn f l = true)
    (full : (s.core (chipOf (msgVa ws).toNat).core).bank (16 + (chipOf (msgVa ws).toNat).off / 0x2000) = 2)
    (quiet : wordAt ws 2 < wd (s.num (msgVa ws).toNat 8)) :
    ∃ t, exec (.builtinDecr f.id) s = .next t ∧ t.Acked f ∧ s.onlyAt t (msgVa ws).toNat 8 ∧
      t.num (msgVa ws).toNat 8 = (wd (s.num (msgVa ws).toNat 8)).toNat - (wordAt ws 2).toNat := by
  obtain ⟨-, act, ready, dev⟩ := State.message?_eq message
  have here := State.cellPlace lawful
  have near : ¬ farBit ≤ (msgVa ws).toNat := by
    have := here.near
    omega
  have from_ : f.from? = f.who.core := by
    unfold Flight.from?
    rw [pkt]
    rfl
  have loc : s.locationOf f = some ((msgVa ws).toNat, 16) := by
    unfold State.locationOf
    rw [act]
    dsimp only
    rw [if_neg (not_not.mpr dev), handler, if_neg (by decide), if_pos rfl, from_, State.redirect_of_forwardOf direct]
  let s1 : State := { s with servedAt := ((msgVa ws).toNat, 16) :: s.servedAt }
  have stays : s1.redirect f.who.core (msgVa ws).toNat = ((msgVa ws).toNat, s1) := State.redirect_of_forwardOf (s := s1) direct
  obtain ⟨u, waiter, flights, mem, same, served⟩ := State.decrMsg_full (s := s1) (f := f) here clean full quiet
  obtain ⟨acked, mem', -, -⟩ := State.served_here pkt (State.flight?_served message flights) ws f.id []
  have stored := mem'.trans mem
  obtain ⟨count, -, -⟩ := State.cell_of_setBytes stored ok
  subst same
  refine ⟨_, ?_, acked, State.onlyAt_of_count ok stored, count.trans (toNat_leftOf _ _)⟩
  change execBuiltinDecr f.id s = _
  unfold execBuiltinDecr
  rw [message]
  dsimp only
  rw [if_neg (not_not.mpr handler), lawful, from_, open_, State.onTurn_due ready loc reached (turn _ loc), stays]
  dsimp only
  rw [if_neg near, served]
  rfl

/-- The acknowledgement of a message of a strand that still runs gives a place in its window back. -/
theorem exec_sendAck_held {s : State} {f : Flight} (found : s.flight? f.id = some f) (act : f.act = .ack) (arrived : f.hop = none)
    (late : f.late = false) (outlived : f.outlived = false) (holds : s.holds f.who f.party = true) (live : (s.slot f.who).halted = false)
    (four : f.who.slot < 4) :
    ∃ t, exec (.sendAck f.id) s = .next t ∧ t.flight? f.id = none ∧ (t.slot f.who).unacc = (s.slot f.who).unacc - 1 ∧ t.mem = s.mem := by
  have counts := s.counts_countPkt f.who.core 1 false
  have slot : ((s.countPkt f.who.core 1 false).dropFlight f.id).slot f.who = s.slot f.who := counts.slot f.who
  let t : State := ((s.countPkt f.who.core 1 false).dropFlight f.id).modSlot f.who fun x => { x with unacc := x.unacc - 1 }
  have run : exec (.sendAck f.id) s = .next t := by
    change execSendAck f.id s = _
    unfold execSendAck
    rw [found]
    dsimp only
    rw [act, arrived]
    dsimp only
    rw [late, holds, outlived, live]
    rfl
  refine ⟨t, run, ?_, ?_, ?_⟩
  · rw [State.flight?_congr (State.modSlot_flights ..)]
    exact State.flight?_dropFlight _ _
  · rw [State.slot_modSlot_same _ _ four, slot]
  · exact counts.mem

end Sys2Proof.Machine

open Sys2Proof Sys2Proof.Machine

/-- Settles O46: what each handler does at its target (`State.storeMsg_stack` and those beside it), and what its service leaves
(`State.served_here`). -/
theorem messagesAreServedAndAcknowledged : Obligations.MessagesAreServedAndAcknowledged := by
  unfold Obligations.MessagesAreServedAndAcknowledged
  intro s f ws pkt acked replied turn
  refine ⟨fun message handler core dst => ⟨exec_handlerMessage_joins pkt message handler dst, exec_handlerMessage_foreign pkt message handler dst⟩,
    fun message ok clean six => ⟨?store, ?load, ?atomic, ?post, ?decr⟩, exec_sendAck_held⟩
  case store => exact fun k => exec_builtinStore_stack pkt message ok six
  case load => exact fun k => exec_builtinLoad_stack pkt message clean
  case atomic =>
    rintro k handler add dbl checked stack ⟨reached, its⟩
    exact exec_builtinAtomic_stack pkt message ok clean handler add dbl checked stack reached its
  case post => exact fun k bank e => exec_builtinPost_waiting pkt message
  case decr =>
    rintro cell c handler lawful open_ direct ⟨reached, its⟩ full quiet
    exact exec_builtinDecr_full pkt message ok clean handler lawful open_ direct reached its full quiet
end

section
/-! PROOFS. The starts of engine operations (R87, R302). -/

namespace Sys2Proof.Machine

theorem mem_unionIds {a b : List Nat} {i : Nat} : i ∈ unionIds a b ↔ i ∈ a ∨ i ∈ b := by
  induction b generalizing a with
  | nil => simp [unionIds]
  | cons x b ih =>
    rw [unionIds, ih]
    by_cases h : x ∈ a
    · simp only [List.contains_iff_mem, h, if_true, List.mem_cons]
      constructor
      · rintro (m | m)
        · exact .inl m
        · exact .inr (.inr m)
      · rintro (m | rfl | m)
        · exact .inl m
        · exact .inl h
        · exact .inr m
    · rw [if_neg (by simpa using h), List.mem_append, List.mem_singleton, List.mem_cons, or_assoc]

/-- A party that acquires a release set at device scope has seen what it holds. -/
theorem State.floor_acquireIds (s : State) (q : Nat) {ids : List Nat} {i : Nat} (h : i ∈ ids) : i ∈ ((s.acquireIds q ids).party q).floor := by
  unfold State.acquireIds State.acquire State.modParty State.party
  dsimp only
  rw [AMap.get_put_same]
  refine mem_unionIds.mpr (.inr (List.mem_flatMap.mpr ⟨(3, ids), List.mem_filter.mpr ⟨?_, ?_⟩, h⟩))
  · exact List.mem_append_left _ (List.mem_singleton.mpr rfl)
  · simp [State.scopeHas]

/-- What stands in the list of a queue, markers among it. -/
def State.listOps (s : State) : EngQueue → List EngOp
  | .matrix k a => ((s.cluster k).array a).queue
  | q => s.queueOps q

/-- An operation at the head of a queue lets no marker pass. -/
theorem State.passMarkers_still {s : State} {q : EngQueue} {o : EngOp} {os : List EngOp} (head : s.listOps q = o :: os)
    (op : o.isMarker = false) (n : Nat) : s.passMarkers q n = s := by
  cases n with
  | zero => rfl
  | succ n =>
    unfold State.passMarkers
    cases q <;> unfold State.listOps at head <;> dsimp only at head ⊢ <;> rw [head] <;> simp [op]

/-- A queue in which the operation has started. -/
def EngOp.startIn (o : EngOp) (l : List EngOp) : List EngOp := l.map fun p => if p.id = o.id then { p with started := true } else p

theorem EngOp.head?_startIn (o : EngOp) (os : List EngOp) : (o.startIn (o :: os)).head? = some { o with started := true } := by
  simp [EngOp.startIn]

theorem Cluster.array_modArray {c : Cluster} {a : Nat} (ha : a < 2) (f : MArray → MArray) : (c.modArray a f).array a = f (c.array a) := by
  unfold Cluster.modArray Cluster.array
  simp [ha]

section
variable {s : State} {o : EngOp} {os : List EngOp} (idle : o.started = false) (op : o.isMarker = false)
include idle op

theorem exec_engineOpStart_copy {c : Nat} (queue : (s.core c).queue = o :: os) (thawed : (s.core c).freeze = false) :
    ∃ t, exec (.engineOpStart (.copy c)) s = .next t ∧ (t.core c).queue.head? = some { o with started := true } ∧
      (∀ n, n ≠ 7 → (t.core c).active.get 0#64 n = o.eps.get 0#64 n) ∧ (∀ i ∈ o.rel, i ∈ (t.party (engPartyId (.copy c))).floor) ∧
      t.mem = s.mem := by
  have still : s.passMarkers (.copy c) 16 = s := State.passMarkers_still (q := .copy c) queue op 16
  have frozen : s.engFrozen (.copy c) = false := thawed
  let u : State := s.acquireIds (engPartyId (.copy c)) o.rel
  let t : State := (u.modCore c fun k => { k with queue := o.startIn k.queue }).modCore c fun k => { k with active := o.eps.put 7 0#64 }
  have run : exec (.engineOpStart (.copy c)) s = .next t := by
    change execEngineOpStart (.copy c) s = _
    unfold execEngineOpStart
    rw [still]
    dsimp only [State.queueOps]
    rw [queue]
    dsimp only
    rw [idle, op, frozen]
    rfl
  have core : t.core c = { s.core c with queue := o.startIn (s.core c).queue, active := o.eps.put 7 0#64 } := by
    dsimp only [t]
    rw [State.modCore, State.core_setCore_same, State.modCore, State.core_setCore_same]
    rfl
  refine ⟨t, run, ?_, fun n hn => ?_, fun i hi => s.floor_acquireIds _ hi, rfl⟩
  · rw [core, queue]
    exact o.head?_startIn os
  · rw [core]
    exact AMap.get_put_ne _ _ _ hn

theorem exec_engineOpStart_stream {c : Nat} (queue : (s.core c).queue = o :: os) (thawed : (s.core c).freeze = false) :
    ∃ t, exec (.engineOpStart (.stream c)) s = .next t ∧ (t.core c).queue.head? = some { o with started := true } ∧
      (t.core c).active = o.eps ∧ (∀ i ∈ o.rel, i ∈ (t.party (engPartyId (.stream c))).floor) ∧ t.mem = s.mem := by
  have still : s.passMarkers (.stream c) 16 = s := State.passMarkers_still (q := .stream c) queue op 16
  have frozen : s.engFrozen (.stream c) = false := thawed
  let u : State := s.acquireIds (engPartyId (.stream c)) o.rel
  let t : State := (u.modCore c fun k => { k with queue := o.startIn k.queue }).modCore c fun k => { k with active := o.eps }
  have run : exec (.engineOpStart (.stream c)) s = .next t := by
    change execEngineOpStart (.stream c) s = _
    unfold execEngineOpStart
    rw [still]
    dsimp only [State.queueOps]
    rw [queue]
    dsimp only
    rw [idle, op, frozen]
    rfl
  have core : t.core c = { s.core c with queue := o.startIn (s.core c).queue, active := o.eps } := by
    dsimp only [t]
    rw [State.modCore, State.core_setCore_same, State.modCore, State.core_setCore_same]
    rfl
  refine ⟨t, run, ?_, ?_, fun i hi => s.floor_acquireIds _ hi, rfl⟩
  · rw [core, queue]
    exact o.head?_startIn os
  · rw [core]

theorem exec_engineOpStart_task {k : Nat} (queue : (s.cluster k).tqueue = o :: os) (thawed : s.clusterFrozen k = false) :
    ∃ t, exec (.engineOpStart (.task k)) s = .next t ∧ (t.cluster k).tqueue.head? = some { o with started := true } ∧
      (t.cluster k).tactive = o.eps ∧ (∀ i ∈ o.rel, i ∈ (t.party (engPartyId (.task k))).floor) ∧ t.mem = s.mem := by
  have still : s.passMarkers (.task k) 16 = s := State.passMarkers_still (q := .task k) queue op 16
  have frozen : s.engFrozen (.task k) = false := thawed
  let u : State := s.acquireIds (engPartyId (.task k)) o.rel
  let t : State := (u.modCluster k fun c => { c with tqueue := o.startIn c.tqueue }).modCluster k fun c => { c with tactive := o.eps }
  have run : exec (.engineOpStart (.task k)) s = .next t := by
    change execEngineOpStart (.task k) s = _
    unfold execEngineOpStart
    rw [still]
    dsimp only [State.queueOps]
    rw [queue]
    dsimp only
    rw [idle, op, frozen]
    rfl
  have cluster : t.cluster k = { s.cluster k with tqueue := o.startIn (s.cluster k).tqueue, tactive := o.eps } := by
    dsimp only [t]
    rw [State.cluster_modCluster_same, State.cluster_modCluster_same]
    rfl
  refine ⟨t, run, ?_, ?_, fun i hi => s.floor_acquireIds _ hi, rfl⟩
  · rw [cluster, queue]
    exact o.head?_startIn os
  · rw [cluster]

omit idle in
theorem exec_engineOpStart_matrix {k a : Nat} (ha : a < 2) (queue : ((s.cluster k).array a).queue = o :: os)
    (free : ((s.cluster k).array a).run = none) (thawed : s.clusterFrozen k = false) :
    ∃ t, exec (.engineOpStart (.matrix k a)) s = .next t ∧ ((t.cluster k).array a).queue = os ∧
      ((t.cluster k).array a).run = some { op := { o with started := true }, recd := none } ∧
      fld (((t.cluster k).array a).active.get 0#64 15) 63 62 = 1 ∧ (∀ i ∈ o.rel, i ∈ (t.party (engPartyId (.matrix k a))).floor) ∧
      t.mem = s.mem := by
  have still : s.passMarkers (.matrix k a) 16 = s := State.passMarkers_still (q := .matrix k a) queue op 16
  have frozen : s.engFrozen (.matrix k a) = false := thawed
  let u : State := s.acquireIds (engPartyId (.matrix k a)) o.rel
  let t : State := u.modCluster k fun c => c.modArray a fun m =>
    { m with queue := os, active := o.eps.put 15 0x4000000000000000#64, run := some { op := { o with started := true }, recd := none } }
  have run : exec (.engineOpStart (.matrix k a)) s = .next t := by
    change execEngineOpStart (.matrix k a) s = _
    unfold execEngineOpStart
    rw [still]
    dsimp only
    rw [free, queue]
    dsimp only
    rw [op, frozen]
    rfl
  have array : (t.cluster k).array a = { (s.cluster k).array a with
      queue := os, active := o.eps.put 15 0x4000000000000000#64, run := some { op := { o with started := true }, recd := none } } := by
    dsimp only [t]
    rw [State.cluster_modCluster_same, Cluster.array_modArray ha]
    rfl
  refine ⟨t, run, ?_, ?_, ?_, fun i hi => s.floor_acquireIds _ hi, rfl⟩
  · rw [array]
  · rw [array]
  · rw [array, AMap.get_put_same]
    decide

end

end Sys2Proof.Machine
end

section
/-! PROOFS. The TASK engine, copies and streams (R49, R52, R53, R305, R306). -/

namespace Sys2Proof.Machine

/-! ## What an engine reads -/

/-- With nothing poisoned and no key lost, bytes off the chip read clean. -/
theorem State.cleaned_of_kept {s : State} (clean : s.poison = []) {ten k : Nat} (off : ¬ chipBit ≤ k) (kept : s.lostKey ten k = false)
    (bs : List Byte) : s.cleaned ten k bs = bs := by
  have notMacc : isMacc k = false := by simp [isMacc, off]
  unfold State.cleaned
  rw [notMacc, kept, clean]
  refine List.ext_getElem (by simp) fun i h1 h2 => ?_
  simp [h2]

/-- An access off the chip that no write holds back reads the bytes as they stand. -/
theorem State.readAt_settled {s : State} (clean : s.poison = []) {ten k n : Nat} (off : ¬ chipBit ≤ k) (kept : s.lostKey ten k = false)
    (settled : s.settled k n) (p : Nat) (view : List Nat) :
    ∃ rels u, s.Seen u ∧ s.readAt p ten k n view = .val ((List.range n).map fun j => s.rdByte ten (k + j)) none rels u := by
  have notWindow : isWindow k = false := by simp [isWindow, off]
  have sound : s.poisoned ten k n = none := by simp [State.poisoned, kept, clean]
  refine ⟨(s.read p ten k n view).2.1, _, s.seen_read p ten k n view, ?_⟩
  unfold State.readAt
  rw [notWindow, if_neg (by decide), if_neg off]
  dsimp only
  rw [State.cleaned_of_kept clean off kept, sound, State.read_settled settled]

/-- In stack memory, as memory holds them. -/
theorem State.readAt_stack {s : State} (clean : s.poison = []) {k n : Nat} (low : k + n ≤ lpBase) (n0 : 0 < n) (settled : s.settled k n)
    (p ten : Nat) (view : List Nat) :
    ∃ rels u, s.Seen u ∧ s.readAt p ten k n view = .val ((List.range n).map fun j => Memory.get s.mem (k + j)) none rels u := by
  have low0 : k < lpBase := by omega
  obtain ⟨rels, u, seen, read⟩ := State.readAt_settled clean (not_chipBit_le_of_lt_lpBase low0) (s.lostKey_of_lt_lpBase ten low0) settled p view
  refine ⟨rels, u, seen, read.trans ?_⟩
  congr 1
  exact List.map_congr_left fun j hj => s.rdByte_of_lt_lpBase ten (by have := List.mem_range.mp hj; omega)

/-! ## The TASK engine (R306) -/

/-- What the device sends as an operation of its own stands last among the flights. -/
theorem State.sendOwn_sends (s : State) (core party ten q : Nat) (act : Act) (rel : List Nat) :
    ∃ (u : State) (f : Flight), s.sendOwn core party ten q act rel = u ∧ u.flights = s.flights ++ [f] ∧ f.act = act ∧ f.who.core = core ∧
      f.ten = ten ∧ u.mem = s.mem ∧ u.clusters = s.clusters := by
  obtain ⟨cores, injected⟩ := s.inject_eq core act
  let f : Flight := { id := s.fresh, who := ⟨core, 0⟩, party := party, ten := ten, level := .u, queue := q, born := s.cycle, act := act, rel := rel
                      hop := s.hopFor core act }
  refine ⟨_, f, rfl, ?_, rfl, rfl, rfl, ?_, ?_⟩
  · unfold State.sendOwn
    rw [injected]
  · unfold State.sendOwn
    rw [injected]
  · unfold State.sendOwn
    rw [injected]

/-- The next handle of a TASK operation is read, and its TASKQ sent. -/
theorem State.nextTaskq_sends {s : State} {k p : Nat} {o : EngOp} (clean : s.poison = [])
    (checked : s.checkUnit o.id k o.ten o.level .load true (wd (fld (o.eps.get 0#64 0) 56 3 * 8 + 8 * o.done)) 8 = .ok p)
    (stack : s.place p = .stack) (settled : s.settled p 8) :
    ∃ (u : State) (f : Flight), s.nextTaskq k o = .ok (u.mapQueue (.task k) fun l => l.map fun x => if x.id = o.id then { x with done := o.done + 1 } else x) ∧
      u.flights = s.flights ++ [f] ∧ f.act = .taskq (wd (s.num p 8)) ∧ f.who.core = unitKey k 0 ∧ f.ten = o.ten ∧ u.mem = s.mem ∧
      u.clusters = s.clusters := by
  have low := State.lt_stackEnd_of_place stack
  have low0 : p < lpBase := low.trans_le stackEnd_le_lpBase
  obtain ⟨rels, v, ⟨ps, out, rfl⟩, read⟩ := State.readAt_stack clean (k := p) (n := 8) (by unfold stackEnd at low; unfold lpBase; omega) (by decide)
    settled (engPartyId (.task k)) o.ten (s.turnView p 8)
  obtain ⟨ps', out', pend⟩ := ({ s with parties := ps, out := out } : State).seen_pending (engPartyId (.task k)) rels
  obtain ⟨u, f, sent, flights, act, who, ten, mem, clusters⟩ := State.sendOwn_sends { s with parties := ps', out := out' } (unitKey k 0)
    (engPartyId (.task k)) o.ten o.queue (.taskq (wd (s.num p 8))) o.rel
  refine ⟨u, f, ?_, flights, act, who, ten, mem, clusters⟩
  unfold State.nextTaskq
  dsimp only
  rw [checked]
  dsimp only [State.checked]
  rw [stack, s.goneAt_of_lt_lpBase _ low0, s.redirect_of_lt_lpBase _ low0]
  dsimp only
  rw [read]
  dsimp only
  rw [pend, ← sent]
  simp only [decide_true, Bool.or_true, Bool.not_true, Bool.false_or, Bool.false_eq_true, if_false]
  rfl

/-- A TASK operation whose last handle has been sent sends no more. -/
theorem State.bulkTaskq_spent {s : State} {k : Nat} {o : EngOp} {os : List EngOp} (queue : (s.cluster k).tqueue = o :: os)
    (spent : fld (o.eps.get 0#64 1) 16 0 ≤ o.done) (n : Nat) : State.bulkTaskq k n s = (s, none) := by
  cases n with
  | zero => rfl
  | succ n =>
    unfold State.bulkTaskq
    rw [queue]
    exact if_pos spent

/-- A DECR to no cell is not sent. -/
theorem State.endOp_silent (s : State) (core : Nat) (q : EngQueue) (o : EngOp) :
    s.endOp core q o 0#64 = s.completeOp q o (s.relSet (engPartyId q)) := by
  unfold State.endOp State.sendDecr
  exact if_pos rfl

theorem exec_taskEngineComplete_sends {s : State} {k p : Nat} {o : EngOp} {os : List EngOp} (clean : s.poison = [])
    (queue : (s.cluster k).tqueue = o :: os) (started : o.started = true) (free : o.held = false) (thawed : s.clusterFrozen k = false)
    (live : o.abandoned = false) (one : fld (o.eps.get 0#64 1) 16 0 = 1) (first : o.done = 0)
    (checked : s.checkUnit o.id k o.ten o.level .load true (wd (fld (o.eps.get 0#64 0) 56 3 * 8)) 8 = .ok p)
    (stack : s.place p = .stack) (settled : s.settled p 8) :
    ∃ t f, exec (.taskEngineComplete k) s = .next t ∧ t.flights = s.flights ++ [f] ∧ f.act = .taskq (wd (s.num p 8)) ∧
      f.who.core = unitKey k 0 ∧ f.ten = o.ten ∧ (t.cluster k).tqueue.head? = some { o with done := 1 } ∧ t.mem = s.mem := by
  obtain ⟨u, f, next, flights, act, who, ten, mem, clusters⟩ := State.nextTaskq_sends (o := o) (k := k) clean (by rw [first]; exact checked) stack settled
  let t : State := u.mapQueue (.task k) fun l => l.map fun x => if x.id = o.id then { x with done := o.done + 1 } else x
  let x : EngOp := { o with done := o.done + 1 }
  obtain ⟨xs, entries⟩ : ∃ xs, (t.cluster k).tqueue = x :: xs := by
    refine ⟨os.map fun x => if x.id = o.id then { x with done := o.done + 1 } else x, ?_⟩
    dsimp only [t, State.mapQueue]
    rw [State.cluster_modCluster_same, State.cluster, clusters]
    change (s.cluster k).tqueue.map _ = _
    rw [queue]
    exact congrArg (· :: _) (if_pos rfl)
  have count : x.done = 1 := by rw [show x.done = o.done + 1 from rfl, first]
  obtain ⟨n, hn⟩ : ∃ n, (if s.part = 0 then 65536 else 1) = n + 1 := by
    split
    · exact ⟨65535, rfl⟩
    · exact ⟨0, rfl⟩
  have sends : State.bulkTaskq k (n + 1) s = (t, none) := by
    rw [State.bulkTaskq, queue]
    dsimp only
    rw [one, first, if_neg (by decide), next]
    exact State.bulkTaskq_spent entries (by rw [count]; exact one.le) n
  have underWay : t.taskqUnderWay k = true := by
    unfold State.taskqUnderWay
    refine List.any_eq_true.mpr ⟨f, ?_, ?_⟩
    · rw [show t.flights = u.flights from rfl, flights]
      exact List.mem_append_right _ (List.mem_singleton.mpr rfl)
    · rw [who, act]
      simp
  have frozen : s.engFrozen (.task k) = false := thawed
  refine ⟨t, f, ?_, flights, act, who, ten, ?_, mem⟩
  · change execTaskEngineComplete k s = _
    unfold execTaskEngineComplete State.runTasks
    rw [queue]
    dsimp only
    rw [started, free, frozen, live, hn, sends]
    dsimp only
    rw [entries, underWay]
    simp
  · rw [entries, List.head?_cons]
    dsimp only [x]
    rw [first]

theorem exec_taskEngineComplete_ends {s : State} {k : Nat} {o : EngOp} {os : List EngOp}
    (queue : (s.cluster k).tqueue = o :: os) (started : o.started = true) (free : o.held = false) (thawed : s.clusterFrozen k = false)
    (live : o.abandoned = false) (last : o.done = fld (o.eps.get 0#64 1) 16 0) (ended : s.taskqUnderWay k = false)
    (silent : fld (o.eps.get 0#64 2) 56 4 = 0) :
    ∃ t, exec (.taskEngineComplete k) s = .next t ∧ (∀ q ∈ (t.cluster k).tqueue, q.id ≠ o.id) ∧ t.mem = s.mem := by
  have frozen : s.engFrozen (.task k) = false := thawed
  have cell : wd (fld (o.cell 2) 56 4 * 16) = 0#64 := by
    have : fld (o.cell 2) 56 4 = fld (o.eps.get 0#64 2) 56 4 := by
      unfold EngOp.cell fld bits wd
      rw [BitVec.toNat_ofNat]
      omega
    rw [this, silent]
    rfl
  refine ⟨s.completeOp (.task k) o (s.relSet (engPartyId (.task k))), ?_, fun q hq => ?_, rfl⟩
  · change execTaskEngineComplete k s = _
    unfold execTaskEngineComplete State.runTasks
    rw [queue]
    dsimp only
    rw [started, free, frozen, live, State.bulkTaskq_spent queue last.ge, cell, State.endOp_silent]
    dsimp only
    rw [queue]
    dsimp only
    rw [ended, last, State.endOp_silent]
    simp
  · have kept : (((s.completeOp (.task k) o (s.relSet (engPartyId (.task k)))).cluster k)).tqueue =
        (s.cluster k).tqueue.filter fun p => p.id != o.id := by
      change (State.cluster (s.mapQueue (.task k) _) k).tqueue = _
      exact congrArg Cluster.tqueue (s.cluster_modCluster_same k _)
    rw [kept] at hq
    simpa using (List.mem_filter.mp hq).2

/-! ## Where an engine writes at once -/

/-- A key at which a write is performed at once: in stack memory, or in a scratch bank that is Full. -/
def State.TakesWrite (s : State) (k : Nat) : Prop :=
  k < stackEnd ∨ inScr k = true ∧ (s.core (chipOf k).core).bank (16 + (chipOf k).off / 0x2000) = 2

/-- Where scratch lies: in a region of bytes of a core of this device. -/
theorem inScr_iff {k : Nat} : inScr k = true ↔ chipBit ≤ k ∧ (chipOf k).unit < 16 ∧ (chipOf k).region = 0 := by
  simp [inScr, and_assoc]

theorem lt_farBit_of_inScr {k : Nat} (h : inScr k = true) : k < farBit := by
  obtain ⟨-, unit, -⟩ := inScr_iff.mp h
  by_contra far
  rw [chipOf, if_neg far] at unit
  exact absurd unit (by decide)

theorem State.TakesWrite.plain {s : State} {k : Nat} (h : s.TakesWrite k) : s.place k = .chip ∨ s.place k = .stack := by
  rcases h with low | ⟨scr, -⟩
  · exact .inr (s.place_of_lt_stackEnd low)
  · exact .inl (s.place_of_chip (inScr_iff.mp scr).1)

theorem State.TakesWrite.near {s : State} {k : Nat} (h : s.TakesWrite k) : k < farBit := by
  rcases h with low | ⟨scr, -⟩
  · unfold stackEnd at low
    unfold farBit
    omega
  · exact lt_farBit_of_inScr scr

theorem State.TakesWrite.notWindow {s : State} {k : Nat} (h : s.TakesWrite k) : isWindow k = false := by
  rcases h with low | ⟨scr, -⟩
  · exact isWindow_of_lt_lpBase (low.trans_le stackEnd_le_lpBase)
  · obtain ⟨-, unit, region⟩ := inScr_iff.mp scr
    simp [isWindow, unit, region]

theorem State.TakesWrite.noDeposit {s : State} {k : Nat} (h : s.TakesWrite k) : isDeposit k = false := by
  rcases h with low | ⟨scr, -⟩
  · exact isDeposit_of_lt_lpBase (low.trans_le stackEnd_le_lpBase)
  · obtain ⟨-, -, region⟩ := inScr_iff.mp scr
    simp [isDeposit, region]

theorem State.TakesWrite.congr {s t : State} {k : Nat} (h : s.TakesWrite k) (banks : ∀ c, (t.core c).bank = (s.core c).bank) : t.TakesWrite k := by
  unfold State.TakesWrite at h ⊢
  rwa [banks]

theorem State.TakesWrite.writeAt {s : State} {k : Nat} (h : s.TakesWrite k) (p ten : Nat) (bs : List Byte) (rels : Rels) :
    s.writeAt p ten k bs rels = (some (s.write p ten k bs rels), s) := by
  rcases h with low | ⟨scr, full⟩
  · exact s.writeAt_of_lt_lpBase p ten (low.trans_le stackEnd_le_lpBase) bs rels
  · obtain ⟨chip, unit, region⟩ := inScr_iff.mp scr
    have bank : (chipOf k).bank? = some (16 + (chipOf k).off / 0x2000) := by simp [Chip.bank?, unit, region]
    have ready : s.bankWrite (chipOf k).core (16 + (chipOf k).off / 0x2000) = (.ok, s) := by simp only [State.bankWrite, full]
    unfold State.writeAt
    rw [State.TakesWrite.notWindow (s := s) (.inr ⟨scr, full⟩), if_neg (by decide), if_pos chip, bank]
    dsimp only
    rw [ready]

theorem State.TakesWrite.stores {s : State} {k : Nat} (h : s.TakesWrite k) (p ten : Nat) (bs : List Byte) (rels : Rels) :
    s.Stores (s.write p ten k bs rels) k bs := State.stores_write h.plain h.near p ten bs rels

theorem State.Counts.bank {s t : State} (h : s.Counts t) (c : Nat) : (t.core c).bank = (s.core c).bank := by
  obtain ⟨-, -, each⟩ := h
  obtain ⟨m, n, e⟩ := each c
  rw [e]
  rfl

theorem State.Counts.queue {s t : State} (h : s.Counts t) (c : Nat) : (t.core c).queue = (s.core c).queue := by
  obtain ⟨-, -, each⟩ := h
  obtain ⟨m, n, e⟩ := each c
  rw [e]

theorem State.Counts.deposits {s t : State} (h : s.Counts t) : t.deposits = s.deposits := by
  obtain ⟨cores, rfl, -⟩ := h
  rfl

theorem State.counts_countFar (s : State) (core k : Nat) (reads : Bool) : s.Counts (s.countFar core k reads) := by
  unfold State.countFar
  split
  · exact .refl s
  · next t _ =>
    have request := (s.counts_countPkt core 0 true).trans (State.counts_deliver _ t 0)
    split
    · refine request.trans ?_
      unfold State.countResponse
      split
      · exact (State.counts_countPkt ..).trans (State.counts_countPkt ..)
      · exact State.counts_countPkt ..
    · exact request

/-! ## One row of a copy or stream (R305) -/

/-- An operation of one row of 32 bytes whose four groups are done is over. -/
theorem EngOp.addParts_row {o : EngOp} (row : o.perRow = 1) (first : o.done = 0) (none_ : o.parts = []) :
    o.addParts [0, 1, 2, 3] = { o with done := 1, parts := [] } := by
  have width : ∀ (d : Nat) (ps : List Nat), ({ o with done := d, parts := ps } : EngOp).perRow = 1 := fun _ _ => row
  have all : ({ o with done := 0, parts := [0, 1, 2, 3] } : EngOp).rowDone 0 = true := by
    unfold EngOp.rowDone
    rw [width]
    rfl
  have named : ({ o with parts := [] ++ [0, 1, 2, 3] } : EngOp) = { o with done := 0, parts := [0, 1, 2, 3] } := by rw [← first]; rfl
  unfold EngOp.addParts
  rw [none_, named]
  unfold EngOp.settle
  dsimp only [List.length_nil, List.length_cons, Nat.zero_add, Nat.reduceAdd]
  rw [width, all, if_pos (by simp)]
  unfold EngOp.settle
  dsimp only
  rw [width]
  exact if_neg (by simp)

/-- The operation of a queue, after its number. -/
theorem find?_head {o : EngOp} {os l : List EngOp} (h : l = o :: os) : (l.find? fun x => x.id == o.id) = some o := by
  rw [h]
  exact List.find?_cons_of_pos (by simp)

/-- The queue of a core in which groups of an operation are done. -/
def EngOp.partsIn (o : EngOp) (ps : List Nat) (l : List EngOp) : List EngOp := l.map fun x => if x.id = o.id then x.addParts ps else x

/-- What the write of a row of a copy leaves: the bytes stand at `k`, the operation has done its groups, and nothing else has changed of what is told
here but that flights may be over. -/
structure State.MovesRow (s t : State) (core : Nat) (o : EngOp) (k : Nat) (bs : List Byte) : Prop where
  mem : t.mem = Memory.setBytes s.mem k bs
  flights : ∀ g ∈ t.flights, g ∈ s.flights
  deposits : t.deposits = s.deposits
  queue : (t.core core).queue = o.partsIn [0, 1, 2, 3] (s.core core).queue

/-- Groups that are done are noted in the queue of a core alone. -/
theorem State.modCopy_eq (s : State) (core id : Nat) (f : EngOp → EngOp) : ∃ cores, s.modCopy core id f = { s with cores := cores } := ⟨_, rfl⟩

theorem State.queue_modCopy (s : State) (core : Nat) (o : EngOp) (ps : List Nat) :
    ((s.modCopy core o.id fun x => x.addParts ps).core core).queue = o.partsIn ps (s.core core).queue := by
  unfold State.modCopy State.modCore
  rw [State.core_setCore_same]
  rfl

/-- The write of a piece of a copy where it is performed at once. -/
theorem State.landPiece_takes {s : State} {k : Nat} (takes : s.TakesWrite k) (core party : Nat) (o : EngOp) (bs : List Byte) (parts : List Nat)
    (rels : Rels) :
    ∃ t, s.landPiece core party o k bs [] parts rels = (some t, s) ∧ t.mem = Memory.setBytes s.mem k bs ∧ t.flights = s.flights ∧
      t.deposits = s.deposits ∧ (t.core core).queue = o.partsIn parts (s.core core).queue := by
  obtain ⟨keep, ws, ps, n, written⟩ := State.write_plain takes.plain takes.near party o.ten bs rels
  let u : State := { s with mem := Memory.setBytes s.mem k bs, poison := unionIds (s.poison.filter keep) [], writes := ws, parties := ps, fresh := n }
  obtain ⟨cores, noted⟩ := u.modCopy_eq core o.id fun x => x.addParts parts
  refine ⟨u.modCopy core o.id fun x => x.addParts parts, ?_, ?_, ?_, ?_, u.queue_modCopy core o parts⟩
  · unfold State.landPiece
    rw [takes.noDeposit, takes.writeAt, written]
    rfl
  all_goals rw [noted]

/-- The write of a row that a copy or stream has read. -/
theorem State.landCopy_row {s : State} {f : Flight} {core k : Nat} {o : EngOp} {va : Word} {last : Bool}
    (act : f.act = .copyRead core o.id 0 va k [] last) (whole : f.parts = [])
    (found : ((s.core core).queue.find? fun x => x.id == o.id) = some o) (takes : s.TakesWrite k) :
    s.MovesRow (s.landCopy f) core o k ((rowBytes f.gather).take 32) ∧ ∀ g ∈ (s.landCopy f).flights, g.id ≠ f.id := by
  obtain ⟨u, piece, mem, flights, deposits, queue⟩ := State.landPiece_takes takes core f.party o ((rowBytes f.gather).take 32) [0, 1, 2, 3]
    (if last then s.relOf f.party 3 else [])
  have landed : s.landCopy f = u.dropFlight f.id := by
    have groups : (List.range 4).map (0 / 4 * 4 + ·) = [0, 1, 2, 3] := rfl
    unfold State.landCopy
    rw [act]
    dsimp only
    rw [found, whole]
    simp only [List.length_nil, Nat.reduceEqDiff, if_false, groups, piece]
  rw [landed]
  refine ⟨⟨mem, fun g hg => flights ▸ (List.mem_filter.mp hg).1, deposits, queue⟩, fun g hg => ?_⟩
  simpa using (List.mem_filter.mp hg).2

/-- The bytes of the row of some bytes. -/
theorem rowBytes_rowOf {bs : List Byte} (h : bs.length = 32) : (rowBytes (rowOf bs)).take 32 = bs := by
  have small : leNat bs < 2 ^ 256 := (leNat_lt bs).trans_le (Nat.pow_le_pow_right (by decide) (by omega))
  have whole : (rowOf bs).toNat = leNat bs := by
    rw [rowOf, BitVec.toNat_ofNat]
    exact Nat.mod_eq_of_lt small
  have all := take_leBytes_leNat (m := 32) h.le
  rw [h] at all
  rw [rowBytes, whole, all]

/-- A row of a copy or stream that is moved at once: its bytes as the tenant reads them stand at its destination. -/
theorem State.movePiece_row {s : State} {core sk dk : Nat} {o : EngOp} {stream : Option Nat} (clean : s.poison = [])
    (found : ((s.core core).queue.find? fun x => x.id == o.id) = some o) (keys : s.pieceKeys core o stream 0 = .ok (sk, dk, s))
    (off : ¬ chipBit ≤ sk) (notHost : s.place sk ≠ .host) (kept : s.lostKey o.ten sk = false) (settled : s.settled sk 32) (takes : s.TakesWrite dk) :
    ∃ t, s.movePiece core o stream 0 false = .ok t ∧ s.MovesRow t core o dk ((List.range 32).map fun j => s.rdByte o.ten (sk + j)) := by
  let p := engPartyId (copyQueue core stream)
  let bs := (List.range 32).map fun j => s.rdByte o.ten (sk + j)
  obtain ⟨rels, v, ⟨ps, out, rfl⟩, read⟩ := State.readAt_settled clean off kept settled p (s.turnView sk 32)
  obtain ⟨ps', out', pend⟩ := ({ s with parties := ps, out := out } : State).seen_pending p rels
  let u : State := { s with parties := ps', out := out' }
  let w : State := (u.countFar core sk true).countFar core dk false
  have counts : u.Counts w := (u.counts_countFar core sk true).trans (State.counts_countFar _ core dk false)
  let f : Flight :=
    { id := w.fresh, who := o.who, party := p, ten := o.ten, level := o.level, queue := o.queue, born := s.cycle
      act := .copyRead core o.id 0 (o.pieceDst 0 + wd 0) dk [] (o.lastRel 0), gather := rowOf bs }
  let x : State := { w with fresh := w.fresh + 1, flights := w.flights ++ [f] }
  have takes' : x.TakesWrite dk := takes.congr (t := x) counts.bank
  obtain ⟨⟨mem, flights, deposits, queue⟩, gone⟩ := State.landCopy_row (s := x) (f := f) (core := core) rfl rfl
    (by rw [show (x.core core).queue = (s.core core).queue from counts.queue core]; exact found) takes'
  have near : (s.place sk == .host || s.place dk == .host) = false := by
    rcases takes.plain with h | h <;> simp [notHost, h]
  have noBad : (if isWindow dk then [] else (List.range ((32 + 15) / 16)).filterMap fun i =>
      if s.lostKey o.ten sk || s.poison.contains (granule (sk + 16 * i)) then some (granule (dk + 16 * i)) else none) = [] := by
    rw [takes.notWindow, kept, clean]
    rfl
  refine ⟨x.landCopy f, ?_, ?_, fun g hg => ?_, ?_, ?_⟩
  · unfold State.movePiece
    dsimp only
    rw [Nat.zero_div, keys]
    dsimp only
    rw [near]
    simp only [Bool.false_eq_true, if_false, Nat.add_zero]
    rw [read]
    dsimp only
    rw [pend, noBad]
  · rw [mem, rowBytes_rowOf (bs := bs) (by simp [bs])]
    exact congrArg (Memory.setBytes · dk bs) counts.mem
  · rcases List.mem_append.mp (flights g hg) with h | h
    · rwa [counts.flights] at h
    · exact absurd (congrArg Flight.id (List.mem_singleton.mp h)) (gone g hg)
  · rw [deposits]
    exact counts.deposits
  · rw [queue]
    exact congrArg _ (counts.queue core)

/-- Groups that are not to be moved are passed over. -/
theorem State.moveAll_skips {s : State} {core id : Nat} {o : EngOp} {stream : Option Nat}
    (found : ((s.core core).queue.find? fun x => x.id == id) = some o) (n : Nat) :
    ∀ m, (∀ i, m ≤ i → i < m + n → s.partDue o i = false) → State.moveAll core id stream n m s = (s, none) := by
  induction n with
  | zero => exact fun _ _ => rfl
  | succ n ih =>
    intro m h
    unfold State.moveAll
    rw [found]
    dsimp only
    rw [h m (by omega) (by omega)]
    exact ih (m + 1) fun i hi hn => h i (by omega) (by omega)

/-- No group of the operation is on its way. -/
def EngOp.Still (o : EngOp) (fs : List Flight) : Prop := ∀ f ∈ fs, ∀ c n va k bad l, f.act ≠ .copyRead c o.id n va k bad l

theorem State.partDue_first {s : State} {o : EngOp} (row : o.perRow = 1) (one : o.rows = 1) (first : o.done = 0) (none_ : o.parts = [])
    (still : o.Still s.flights) : s.partDue o 0 = true := by
  unfold State.partDue
  rw [Bool.and_eq_true, row, one, first, none_]
  refine ⟨by simp, ?_⟩
  rw [Bool.not_eq_true', List.any_eq_false]
  intro f hf
  split
  · next act =>
    have other := still f hf
    intro h
    simp only [Bool.and_eq_true, beq_iff_eq] at h
    obtain ⟨same, -⟩ := h
    subst same
    exact other _ _ _ _ _ _ act
  · decide

theorem State.copyOver_still {s : State} {o : EngOp} (last : o.done = o.rows) (landed : ∀ d ∈ s.deposits, d.op ≠ o.id) (still : o.Still s.flights) :
    s.copyOver o = true := by
  have none_ : (s.deposits.any fun d => d.op == o.id) = false := List.any_eq_false.mpr fun d hd => by simpa using landed d hd
  unfold State.copyOver
  rw [Bool.and_eq_true, none_, last]
  refine ⟨by simp, ?_⟩
  rw [Bool.not_eq_true', List.any_eq_false]
  intro f hf
  split
  · next act =>
    have other := still f hf
    intro h
    simp only [beq_iff_eq] at h
    subst h
    exact other _ _ _ _ _ _ act
  · decide

/-- An operation that completes leaves the queue of its core. -/
theorem State.queue_completeOp (s : State) (core : Nat) (stream : Option Nat) (o : EngOp) (rel : List Nat) :
    ∀ p ∈ ((s.completeOp (copyQueue core stream) o rel).core core).queue, p.id ≠ o.id := by
  have kept : ((s.completeOp (copyQueue core stream) o rel).core core).queue = (s.core core).queue.filter fun p => p.id != o.id := by
    cases stream <;> exact congrArg Core.queue (s.core_setCore_same core _)
  intro p hp
  rw [kept] at hp
  simpa using (List.mem_filter.mp hp).2

theorem State.mem_completeOp (s : State) (core : Nat) (stream : Option Nat) (o : EngOp) (rel : List Nat) :
    (s.completeOp (copyQueue core stream) o rel).mem = s.mem := by
  cases stream <;> rfl

/-- At the head of a core's queue stands a started operation of one row of 32 bytes, without a rotation and without a cell, of which nothing is done and
nothing is on its way; the turn names no part of it, and no byte of memory is poisoned. -/
structure State.RowDue (s : State) (core : Nat) (o : EngOp) (os : List EngOp) : Prop where
  clean : s.poison = []
  queue : (s.core core).queue = o :: os
  started : o.started = true
  free : o.held = false
  thawed : (s.core core).freeze = false
  running : (s.slot o.who).halted = false
  live : o.abandoned = false
  first : o.done = 0
  none_ : o.parts = []
  whole : s.part = 0
  landed : ∀ d ∈ s.deposits, d.op ≠ o.id
  still : o.Still s.flights
  width : fld (o.eps.get 0#64 2) 47 32 = 32
  one : o.rows = 1
  code : fld (o.eps.get 0#64 5) 2 0 = 0
  silent : fld (o.eps.get 0#64 6) 56 0 = 0

theorem State.RowDue.row {s : State} {core : Nat} {o : EngOp} {os : List EngOp} (h : s.RowDue core o os) : o.perRow = 1 := by
  rw [EngOp.perRow, h.width]

/-- An operation of one row of 32 bytes without a cell is performed and completes. -/
theorem State.runCopy_row {s : State} {core sk dk : Nat} {o : EngOp} {os : List EngOp} {stream : Option Nat} {cellOf : EngOp → Word}
    (due : s.RowDue core o os) (silent : cellOf o = 0#64) (keys : s.pieceKeys core o stream 0 = .ok (sk, dk, s))
    (off : ¬ chipBit ≤ sk) (notHost : s.place sk ≠ .host) (kept : s.lostKey o.ten sk = false) (settled : s.settled sk 32) (takes : s.TakesWrite dk) :
    (s.runCopy core stream (copyQueue core stream) cellOf).mem = Memory.setBytes s.mem dk ((List.range 32).map fun j => s.rdByte o.ten (sk + j)) ∧
      ∀ p ∈ ((s.runCopy core stream (copyQueue core stream) cellOf).core core).queue, p.id ≠ o.id := by
  have row := due.row
  obtain ⟨clean, queue, started, free, thawed, running, live, first, none_, whole, landed, still, -, one, -, -⟩ := due
  have found := find?_head queue
  obtain ⟨t, moved, moves⟩ := State.movePiece_row clean found keys off notHost kept settled takes
  let x : EngOp := { o with done := 1, parts := [] }
  have found' : ((t.core core).queue.find? fun y => y.id == o.id) = some x := by
    have head : (if o.id = o.id then o.addParts [0, 1, 2, 3] else o) = x := (if_pos rfl).trans (EngOp.addParts_row row first none_)
    rw [moves.queue, queue, EngOp.partsIn, List.map_cons, head]
    exact List.find?_cons_of_pos (by simp [x])
  have still' : x.Still t.flights := fun f hf => still f (moves.flights f hf)
  have all : State.moveAll core o.id stream 4 0 s = (t, none) := by
    unfold State.moveAll
    rw [found]
    dsimp only
    rw [State.partDue_first row one first none_ still]
    unfold State.tryPiece
    rw [moved]
    refine State.moveAll_skips found' 3 1 fun i _ hi => ?_
    unfold State.partDue
    rw [show x.perRow = 1 from row]
    simp [x]
    omega
  have frozen : s.engFrozen (copyQueue core stream) = false := by cases stream <;> exact thawed
  have over_ : t.copyOver x = true := State.copyOver_still (by rw [show x.rows = 1 from one]) (fun d hd => landed d (moves.deposits ▸ hd)) still'
  have run : s.runCopy core stream (copyQueue core stream) cellOf =
      t.completeOp (copyQueue core stream) x (t.relSet (engPartyId (copyQueue core stream))) := by
    unfold State.runCopy
    rw [queue]
    dsimp only
    rw [started, free, frozen, running, live, whole, row, one, first]
    simp only [Bool.not_true, Bool.or_self, Bool.false_and, Bool.false_eq_true, if_false, if_true, Nat.sub_zero, Nat.mul_one, Nat.mul_zero, all,
      found', over_, silent, State.endOp_silent]
  rw [run]
  refine ⟨(t.mem_completeOp core stream x _).trans moves.mem, t.queue_completeOp core stream x _⟩

/-- An on-chip address that passes its check is its own key. -/
theorem State.addrCheck_chip {s : State} {ten n k : Nat} {lv : Level} {va : Word} {tr : Chk} (h : s.addrCheck ten lv va n tr = .ok k)
    (chip : bit va 56 = true) : k = va.toNat := by
  unfold State.addrCheck at h
  rw [chip] at h
  dsimp only at h
  split at h
  · exact absurd h nofun
  · simp only [if_true] at h
    split at h
    · exact absurd h nofun
    · split at h
      · exact absurd h nofun
      · split at h
        · exact absurd h nofun
        · exact (Chk.ok.inj h).symm

/-- The keys of the one row of an operation whose sides lie where they may. -/
theorem State.pieceKeys_row {s : State} {core sk dk : Nat} {o : EngOp} {stream : Option Nat} (row : o.perRow = 1) (code : fld (o.eps.get 0#64 5) 2 0 = 0)
    (src : s.checkUnit o.id (s.clusterOf core) o.ten o.level .load stream.isNone (wd (fld (o.eps.get 0#64 0) 56 0)) 32 = .ok sk)
    (dst : s.checkUnit o.id (s.clusterOf core) o.ten o.level .store stream.isNone (wd (fld (o.eps.get 0#64 1) 56 0)) 32 = .ok dk)
    (takes : s.TakesWrite dk) (sides : s.sidesBad stream sk dk = none) (here : ¬ chipBit ≤ sk) (there : s.goneAt core dk = false)
    (direct : s.forwardOf core dk = none) : s.pieceKeys core o stream 0 = .ok (sk, dk, s) := by
  have from_ : o.pieceSrc 0 = wd (fld (o.eps.get 0#64 0) 56 0) := by
    unfold EngOp.pieceSrc
    simp [row]
  have to_ : o.pieceDst 0 = wd (fld (o.eps.get 0#64 1) 56 0) := by
    unfold EngOp.pieceDst rotated
    simp [row, code]
  have bytes : (bit (wd (fld (o.eps.get 0#64 1) 56 0)) 56 && isWindow (wd (fld (o.eps.get 0#64 1) 56 0)).toNat) = false := by
    cases chip : bit (wd (fld (o.eps.get 0#64 1) 56 0)) 56
    · rfl
    · rw [← State.addrCheck_chip dst chip, takes.notWindow]
      rfl
  have stays : s.forwardOf core sk = none := by
    unfold State.forwardOf
    rw [if_pos (by simp [Nat.lt_of_not_le here])]
  have present : s.goneAt core sk = false := by simp [State.goneAt, here]
  unfold State.pieceKeys State.pieceCheck
  dsimp only
  rw [from_, to_, bytes]
  simp only [Bool.and_false, Bool.false_and, Bool.false_eq_true, if_false, show (Acc.load == Acc.store) = false from rfl, src, dst, State.checked, sides,
    present, there, State.redirect_of_forwardOf stays, State.redirect_of_forwardOf direct]

theorem exec_copyComplete_row {s : State} {core sk dk : Nat} {o : EngOp} {os : List EngOp} (ok : s.memOk)
    (due : s.RowDue core o os) (settled : s.settled sk 32) (kind : coreKind core = .compute)
    (src : s.checkUnit o.id (s.clusterOf core) o.ten o.level .load true (wd (fld (o.eps.get 0#64 0) 56 0)) 32 = .ok sk)
    (dst : s.checkUnit o.id (s.clusterOf core) o.ten o.level .store true (wd (fld (o.eps.get 0#64 1) 56 0)) 32 = .ok dk)
    (stack : s.place sk = .stack) (stack' : s.place dk = .stack) :
    ∃ t, exec (.copyComplete core) s = .next t ∧ (∀ j < 32, Memory.get t.mem (dk + j) = Memory.get s.mem (sk + j)) ∧ s.onlyAt t dk 32 ∧
      ∀ p ∈ (t.core core).queue, p.id ≠ o.id := by
  have low := State.lt_stackEnd_of_place stack
  have low0 : sk < lpBase := low.trans_le stackEnd_le_lpBase
  have takes : s.TakesWrite dk := .inl (State.lt_stackEnd_of_place stack')
  have dk0 : dk < lpBase := (State.lt_stackEnd_of_place stack').trans_le stackEnd_le_lpBase
  have keys := State.pieceKeys_row (stream := none) due.row due.code src dst takes (by simp [State.sidesBad, stack, stack'])
    (not_chipBit_le_of_lt_lpBase low0) (s.goneAt_of_lt_lpBase core dk0) (s.forwardOf_of_lt_lpBase core dk0)
  have cell : wd (fld (o.cell 6) 56 4 * 16) = 0#64 := by
    rw [EngOp.cell, due.silent]
    rfl
  obtain ⟨mem, over_⟩ := State.runCopy_row (stream := none) (cellOf := fun o => wd (fld (o.cell 6) 56 4 * 16)) due cell keys (not_chipBit_le_of_lt_lpBase low0) (by simp [stack]) (s.lostKey_of_lt_lpBase _ low0) settled takes
  refine ⟨_, ?_, fun j hj => ?_, State.onlyAt_of_setBytes mem (by simp), over_⟩
  · change execCopyComplete core s = _
    unfold execCopyComplete
    rw [if_pos kind]
    rfl
  · rw [mem, Memory.get_setBytes_in _ _ _ _ ok (by simpa using hj), List.getD_eq_getElem _ _ (by simpa using hj)]
    simp only [List.getElem_map, List.getElem_range]
    exact s.rdByte_of_lt_lpBase _ (by unfold stackEnd at low; unfold lpBase; omega)

theorem State.place_lpddr {s : State} {k m : Nat} (h : s.place k = .lpddr m) : ¬ chipBit ≤ k := by
  intro chip
  rw [s.place_of_chip chip] at h
  exact absurd h nofun

theorem exec_streamComplete_row {s : State} {core sk dk : Nat} {o : EngOp} {os : List EngOp} (ok : s.memOk)
    (due : s.RowDue core o os) (settled : s.settled sk 32) (kind : coreKind core = .memory)
    (src : s.checkUnit o.id (s.clusterOf core) o.ten o.level .load false (wd (fld (o.eps.get 0#64 0) 56 0)) 32 = .ok sk)
    (dst : s.checkUnit o.id (s.clusterOf core) o.ten o.level .store false (wd (fld (o.eps.get 0#64 1) 56 0)) 32 = .ok dk)
    (channel : s.place sk = .lpddr (coreNum core)) (kept : s.lostKey o.ten sk = false) (scr : inScr dk = true) (there : s.goneAt core dk = false)
    (direct : s.forwardOf core dk = none) (full : (s.core (chipOf dk).core).bank (16 + (chipOf dk).off / 0x2000) = 2) :
    ∃ t, exec (.streamComplete core) s = .next t ∧ (∀ j < 32, Memory.get t.mem (dk + j) = s.rdByte o.ten (sk + j)) ∧ s.onlyAt t dk 32 ∧
      ∀ p ∈ (t.core core).queue, p.id ≠ o.id := by
  have takes : s.TakesWrite dk := .inr ⟨scr, full⟩
  have onChip : s.place dk = .chip := s.place_of_chip (inScr_iff.mp scr).1
  have keys := State.pieceKeys_row (stream := some (coreNum core)) due.row due.code src dst takes (by simp [State.sidesBad, channel, onChip])
    (State.place_lpddr channel) there direct
  have cell : o.cell 6 = 0#64 := by
    rw [EngOp.cell, due.silent]
    rfl
  obtain ⟨mem, over_⟩ := State.runCopy_row (stream := some (coreNum core)) (cellOf := fun o => o.cell 6) due cell keys (State.place_lpddr channel) (by simp [channel]) kept settled takes
  refine ⟨_, ?_, fun j hj => ?_, State.onlyAt_of_setBytes mem (by simp), over_⟩
  · change execStreamComplete core s = _
    unfold execStreamComplete
    rw [if_pos kind]
    rfl
  · rw [mem, Memory.get_setBytes_in _ _ _ _ ok (by simpa using hj), List.getD_eq_getElem _ _ (by simpa using hj)]
    simp only [List.getElem_map, List.getElem_range]

end Sys2Proof.Machine

open Sys2Proof Sys2Proof.Machine

/-- Settles O44: each event takes the branch that its hypotheses choose; a copy or stream of one row by `State.runCopy_row`. -/
theorem engineOperationsStartAndComplete : Obligations.EngineOperationsStartAndComplete := by
  unfold Obligations.EngineOperationsStartAndComplete
  refine ⟨?starts, ?copies, ?tasks⟩
  case starts =>
    intro s o os idle op acquired
    exact ⟨fun c queue thawed => ⟨exec_engineOpStart_copy idle op queue thawed, exec_engineOpStart_stream idle op queue thawed⟩,
      fun k => exec_engineOpStart_task idle op, fun k a => exec_engineOpStart_matrix op⟩
  case copies =>
    intro s core o os sk dk ok clean queue started free thawed running live first none_ whole landed still g src dst cl width one code silent settled
    have due : s.RowDue core o os :=
      ⟨clean, queue, started, free, thawed, running, live, first, none_, whole, landed, still, width, one, code, silent⟩
    exact ⟨exec_copyComplete_row ok due settled, exec_streamComplete_row ok due settled⟩
  case tasks =>
    intro s k o os ok clean queue started free thawed live g
    exact ⟨fun p => exec_taskEngineComplete_sends clean queue started free thawed live, exec_taskEngineComplete_ends queue started free thawed live⟩
end

section
/-! PROOFS. Deposits into scalar registers (R62 to R64). -/

namespace Sys2Proof.Machine

/-- A key that names a scalar register of a slot on this device (R45). -/
structure ScalarKey (k : Nat) : Prop where
  chip : chipBit ≤ k
  unit : (chipOf k).unit < 16
  region : (chipOf k).region = 2
  scalar : (chipOf k).off < 0x400

/-- The slot whose register a key names. -/
def keySlot (k : Nat) : SlotRef := ⟨(chipOf k).core, (chipOf k).off / 0x100⟩
/-- The register that a key names. -/
def keyReg (k : Nat) : Reg := BitVec.ofNat 5 ((chipOf k).off % 0x100 / 8)

theorem ScalarKey.four {k : Nat} (h : ScalarKey k) : (keySlot k).slot < 4 := by
  have := h.scalar
  change (chipOf k).off / 0x100 < 4
  omega

theorem ScalarKey.noBank {k : Nat} (h : ScalarKey k) : (chipOf k).bank? = none := by
  simp [Chip.bank?, h.unit, h.region]

theorem ScalarKey.deposit {k : Nat} (h : ScalarKey k) : isDeposit k = true := by
  simp [isDeposit, h.chip, h.unit, h.region]

theorem ScalarKey.window {k : Nat} (h : ScalarKey k) : isWindow k = true := by
  simp [isWindow, h.chip, h.unit, h.region]

/-! ## What a deposit leaves of its slot -/

theorem Slot.holds_depositReg (x : Slot) (r : Reg) (v : Word) (rels : Rels) : (x.depositReg r v rels).Holds r v := by
  unfold Slot.depositReg
  by_cases zero : r = 0#5
  · rw [if_pos zero, zero]
    exact ⟨rfl, rfl⟩
  · rw [if_neg zero]
    exact ⟨x.rd_setS_same r v, x.isFull_setS_same r v⟩

theorem Slot.depositReg_ne (x : Slot) {r q : Reg} (v : Word) (rels : Rels) (h : q ≠ r) :
    (x.depositReg r v rels).rd q = x.rd q ∧ (x.depositReg r v rels).isFull q = x.isFull q := by
  unfold Slot.depositReg
  by_cases zero : r = 0#5
  · rw [if_pos zero]
    exact ⟨rfl, rfl⟩
  · rw [if_neg zero]
    exact ⟨x.rd_setS_ne v h, x.isFull_setS_ne v h⟩

/-- A write of eight bytes into a scalar register: the slot takes the word, and nothing else has changed of what is told here. -/
theorem State.writeWin_scalar {s : State} {k : Nat} (here : ScalarKey k) (p ten : Nat) {bs : List Byte} (eight : bs.length = 8) (rels : Rels) :
    ∃ ws ps fr rels', s.writeWin p ten k bs rels = ({ s with writes := ws, parties := ps, fresh := fr } : State).modSlot (keySlot k) fun x =>
      x.depositReg (keyReg k) (wd (leNat bs)) rels' := by
  obtain ⟨ws, ps, fr, noted⟩ := s.noteWrite_eq p ten k bs rels
  refine ⟨ws, ps, fr, rels ++ (s.party p).fence, ?_⟩
  have word : leWords bs (bs.length / 8) = [wd (leNat bs)] := by
    rw [eight]
    simp [leWords, List.take_of_length_le eight.le]
  unfold State.writeWin
  rw [noted, word]
  unfold State.winStores State.winStores State.winStore
  dsimp only
  rw [if_pos here.unit, here.region]
  rw [if_pos here.scalar]
  rfl

/-! ## The store that is a deposit -/

theorem State.counts_exchanged (s : State) (f : Flight) : s.Counts (s.exchanged f) := by
  unfold State.exchanged
  split
  · exact s.counts_deliver ..
  · split
    · exact .refl s
    · next c t _ =>
      split
      · exact s.counts_deliver t c
      · refine (s.counts_deliver t c).trans ?_
        unfold State.countResponse
        split
        · exact (State.counts_countPkt ..).trans (State.counts_countPkt ..)
        · exact State.counts_countPkt ..

/-- Without a last-use hint nothing is to take effect. -/
theorem State.applyHint_none (s : State) (f : Flight) (k n : Nat) (store : Bool) : s.applyHint f k n store .none = s := by
  unfold State.applyHint
  split
  · split
    · rfl
    · rfl
  · rfl

/-- The store into a scalar register that lands. -/
theorem State.performStore_scalar {s : State} {f : Flight} {va : Word} {k : Nat} {bs : List Byte} (here : ScalarKey k)
    (act : f.act = .store va k bs .plain .none) (open_ : s.barredAt f.who.core k = false) (direct : s.forwardOf f.who.core k = none)
    (eight : bs.length = 8) :
    (∃ rels, (s.performStore f).slot (keySlot k) = (s.slot (keySlot k)).depositReg (keyReg k) (wd (leNat bs)) rels) ∧
      (s.performStore f).mem = s.mem ∧ (s.performStore f).flight? f.id = none ∧ (s.performStore f).deposits = s.deposits := by
  obtain ⟨ws, ps, fr, rels, written⟩ := State.writeWin_scalar (s := s) here f.party f.ten eight []
  let u : State := { s with writes := ws, parties := ps, fresh := fr }
  let v : State := u.modSlot (keySlot k) fun x => x.depositReg (keyReg k) (wd (leNat bs)) rels
  have counts := v.counts_exchanged f
  have run : s.performStore f = (v.exchanged f).dropFlight f.id := by
    unfold State.performStore
    rw [act]
    dsimp only
    rw [open_, State.redirect_of_forwardOf direct, s.place_of_chip here.chip]
    simp only [Bool.false_eq_true, if_false, reduceCtorEq, decide_false, Bool.false_and, ordRel, ordAcq]
    unfold State.writeAt
    rw [if_pos here.window, written]
    dsimp only
    rw [State.applyHint_none]
  have slot : v.slot (keySlot k) = (s.slot (keySlot k)).depositReg (keyReg k) (wd (leNat bs)) rels := u.slot_modSlot_same _ here.four
  rw [run]
  exact ⟨⟨rels, (counts.slot _).trans slot⟩, counts.mem, State.flight?_dropFlight _ _, counts.deposits⟩

theorem exec_deposit_scalar {s : State} {f : Flight} {va : Word} {k : Nat} {bs : List Byte} (here : ScalarKey k)
    (found : s.flight? f.id = some f) (act : f.act = .store va k bs .plain .none) (open_ : s.barredAt f.who.core k = false)
    (direct : s.forwardOf f.who.core k = none) (due : s.performable f = true) :
    ∃ t, exec (.deposit f.id) s = .next t ∧ t.slot (keySlot k) = s.slot (keySlot k) ∧ t.mem = s.mem ∧
      t.flight? f.id = some { f with landing := true } ∧
      t.deposits = s.deposits ++ [{ op := f.id, party := f.party, ten := f.ten, rank := s.reqRank f k, key := k, data := bs }] := by
  have free : s.heldAtBank f = false := by
    unfold State.heldAtBank
    rw [act]
    simp [Act.range, here.noBank]
  let t : State := (s.modFlight f.id fun g => { g with landing := true }).queueLanding
    { op := f.id, party := f.party, ten := f.ten, rank := s.reqRank f k, key := k, data := bs }
  have run : exec (.deposit f.id) s = .next t := by
    change execDeposit f.id s = _
    unfold execDeposit
    rw [found]
    dsimp only
    rw [due, free, act]
    dsimp only
    rw [here.deposit]
    unfold State.queueDeposit
    rw [act]
    dsimp only
    rw [open_, State.redirect_of_forwardOf direct]
    dsimp only
    rw [here.noBank]
    rfl
  exact ⟨t, run, rfl, rfl, State.flight?_modFlight found fun _ => rfl, rfl⟩

/-! ## The end of a cycle -/

/-- One deposit of an operation that is under way lands. -/
theorem State.landDeposits_one {s : State} {f : Flight} {va : Word} {k : Nat} {bs : List Byte} {e : Deposit} (here : ScalarKey k)
    (found : s.flight? f.id = some f) (act : f.act = .store va k bs .plain .none) (open_ : s.barredAt f.who.core k = false)
    (direct : s.forwardOf f.who.core k = none) (eight : bs.length = 8) (one : s.deposits = [e]) (mine : e.op = f.id) :
    (s.landDeposits.slot (keySlot k)).Holds (keyReg k) (wd (leNat bs)) ∧ s.landDeposits.mem = s.mem ∧ s.landDeposits.flight? f.id = none ∧
      s.landDeposits.deposits = [] ∧ ∀ q, q ≠ keyReg k →
        (s.landDeposits.slot (keySlot k)).rd q = (s.slot (keySlot k)).rd q ∧
          (s.landDeposits.slot (keySlot k)).isFull q = (s.slot (keySlot k)).isFull q := by
  let s0 : State := { s with deposits := [] }
  let u : State := s0.modFlight f.id fun g => { g with landing := false }
  have landed : s.landDeposits = u.performStore { f with landing := false } := by
    have named : s0.flight? e.op = some f := by rw [mine]; exact found
    unfold State.landDeposits
    rw [one]
    change s0.landDeposit e = _
    unfold State.landDeposit
    rw [named, mine]
  obtain ⟨⟨rels, slot⟩, mem, over_, none_⟩ := State.performStore_scalar (s := u) (f := { f with landing := false }) here act open_ direct eight
  have slot' : s.landDeposits.slot (keySlot k) = (s.slot (keySlot k)).depositReg (keyReg k) (wd (leNat bs)) rels := by
    rw [landed]
    exact slot
  refine ⟨?_, ?_, ?_, ?_, fun q hq => ?_⟩
  · rw [slot']
    exact Slot.holds_depositReg ..
  · rw [landed]
    exact mem
  · rw [landed]
    exact over_
  · rw [landed]
    exact none_
  · rw [slot']
    exact Slot.depositReg_ne _ _ _ hq

/-- A deposit whose operation is over lands in its register. -/
theorem State.landDeposit_scalar {s : State} {k : Nat} {e : Deposit} (here : ScalarKey k) (gone : s.flight? e.op = none) (key : e.key = k)
    (eight : e.data.length = 8) :
    ((s.landDeposit e).slot (keySlot k)).Holds (keyReg k) (wd (leNat e.data)) ∧ (s.landDeposit e).flights = s.flights := by
  obtain ⟨ws, ps, fr, rels, written⟩ := State.writeWin_scalar (s := s) here e.party e.ten eight e.rels
  let u : State := { s with writes := ws, parties := ps, fresh := fr }
  let v : State := u.modSlot (keySlot k) fun x => x.depositReg (keyReg k) (wd (leNat e.data)) rels
  have landed : s.landDeposit e = { v with poison := unionIds v.poison e.bad } := by
    unfold State.landDeposit State.writeAt
    rw [gone, key, if_pos here.window, written]
  have slot : v.slot (keySlot k) = (s.slot (keySlot k)).depositReg (keyReg k) (wd (leNat e.data)) rels := u.slot_modSlot_same _ here.four
  rw [landed]
  refine ⟨?_, rfl⟩
  change (v.slot (keySlot k)).Holds _ _
  rw [slot]
  exact Slot.holds_depositReg ..

/-- Of two deposits into one register the later in order remains. -/
theorem State.landDeposits_two {s : State} {k : Nat} {e g : Deposit} (here : ScalarKey k) (two : s.deposits = [e, g])
    (gone : s.flight? e.op = none) (gone' : s.flight? g.op = none) (key : e.key = k) (key' : g.key = k) (eight : e.data.length = 8)
    (eight' : g.data.length = 8) :
    (s.landDeposits.slot (keySlot k)).Holds (keyReg k) (wd (leNat (if g.rank < e.rank then e.data else g.data))) := by
  let s0 : State := { s with deposits := [] }
  unfold State.landDeposits
  rw [two]
  change (((if g.rank < e.rank then [g, e] else [e, g]).foldl State.landDeposit s0).slot (keySlot k)).Holds _ _
  split
  · obtain ⟨-, flights⟩ := State.landDeposit_scalar (s := s0) here gone' key' eight'
    exact (State.landDeposit_scalar here ((State.flight?_congr flights e.op).trans gone) key eight).1
  · obtain ⟨-, flights⟩ := State.landDeposit_scalar (s := s0) here gone key eight
    exact (State.landDeposit_scalar here ((State.flight?_congr flights g.op).trans gone') key' eight').1

end Sys2Proof.Machine
end

section
/-! PROOFS. Arrivals and walks (R58, R88, R369). -/

namespace Sys2Proof.Machine

/-! ## Arrivals (R88) -/

theorem exec_enqueueArrival_entry {s : State} {f : Flight} {e : RunEntry} {l : Nat} (found : s.flight? f.id = some f)
    (due : s.performable f = true) (act : f.act = .enqueue e l) :
    ∃ t, exec (.enqueueArrival f.id) s = .next t ∧ t.flight? f.id = none ∧ t.mem = s.mem ∧
      (l < 1024 → (s.cluster l).banks.length = 8 → t.Listed l { e with rel := s.relOf f.party 3 }) ∧
      (1024 ≤ l → (t.core l).runList = (s.core l).runList ++ [{ e with rel := s.relOf f.party 3, stamp := s.cycle }]) := by
  let u : State := (s.dropFlight f.id).released f.party
  let e' : RunEntry := { e with rel := s.relOf f.party 3 }
  have run : exec (.enqueueArrival f.id) s = .next (u.enterRunList l e') := by
    change execEnqueueArrival f.id s = _
    unfold execEnqueueArrival
    rw [found]
    dsimp only
    rw [due, act]
    rfl
  obtain ⟨cores, clusters, entered⟩ := u.enterRunList_eq l e'
  refine ⟨_, run, ?_, ?_, fun low eight => State.enterRunList_listed (s := u) low eight e', fun far => ?_⟩
  · rw [entered]
    exact s.flight?_dropFlight f.id
  · rw [entered]
    rfl
  · unfold State.enterRunList
    rw [if_neg (by omega), State.modCore, State.core_setCore_same]
    rfl

theorem exec_enqueueArrival_copy {s : State} {f : Flight} {c : Nat} {op : EngOp} (found : s.flight? f.id = some f)
    (due : s.performable f = true) (act : f.act = .engine (.copy c) op) :
    ∃ t, exec (.enqueueArrival f.id) s = .next t ∧ t.flight? f.id = none ∧ t.mem = s.mem ∧
      (t.core c).queue = (s.core c).queue ++ [{ op with rel := s.relSet f.party }] := by
  let u : State := (s.dropFlight f.id).released f.party
  refine ⟨u.mapQueue (.copy c) fun l => l ++ [{ op with rel := s.relSet f.party }], ?_, s.flight?_dropFlight f.id, rfl, ?_⟩
  · change execEnqueueArrival f.id s = _
    unfold execEnqueueArrival
    rw [found]
    dsimp only
    rw [due, act]
    rfl
  · exact congrArg Core.queue (u.core_setCore_same c _)

/-! ## Walks (R58, R369) -/

/-- What a walk finds covers the address of its tenant. -/
theorem State.walkFrom_covers {s : State} {ten va : Nat} {lv : Level} {e : TlbEntry} (ls : List Nat) :
    ∀ table, s.walkFrom ten lv va ls table = .ok e → e.ten = ten ∧ e.covers ten va = true := by
  induction ls with
  | nil => exact fun _ h => absurd h nofun
  | cons l ls ih =>
    intro table h
    unfold State.walkFrom at h
    dsimp only at h
    split at h
    · exact absurd h nofun
    · split at h
      · exact absurd h nofun
      · split at h
        · exact ih _ h
        · split at h
          · exact absurd h nofun
          · split at h
            · exact absurd h nofun
            · obtain rfl := Except.ok.inj h
              refine ⟨rfl, ?_⟩
              unfold TlbEntry.covers
              simp

/-- A TLB holds a translation of an address. -/
def State.Translates (s : State) (c ten va : Nat) : Prop := ∃ g ∈ (s.cluster c).tlb, g.covers ten va = true

theorem State.translates_install {s : State} {e : TlbEntry} {ten va : Nat} (mine : e.ten = ten) (covers : e.covers ten va = true) (c : Nat) :
    (s.install c e va).Translates c ten va := by
  unfold State.Translates State.install
  rw [State.cluster_modCluster_same]
  split
  · next held =>
    obtain ⟨g, hg, covered⟩ := List.any_eq_true.mp held
    exact ⟨g, hg, mine ▸ covered⟩
  · exact ⟨e, List.mem_append_right _ (List.mem_singleton.mpr rfl), covers⟩

theorem State.Translates.install {s : State} {e : TlbEntry} {c ten va : Nat} (h : s.Translates c ten va) (mine : e.ten = ten)
    (covers : e.covers ten va = true) (d : Nat) : (s.install d e va).Translates c ten va := by
  by_cases same : c = d
  · subst same
    exact State.translates_install mine covers c
  · unfold State.Translates State.install
    unfold State.modCluster State.cluster
    rw [AMap.get_put_ne _ _ _ same]
    exact h

/-- A translation that is installed in several TLBs stands in each. -/
theorem State.translates_installs {e : TlbEntry} {ten va : Nat} (mine : e.ten = ten) (covers : e.covers ten va = true) (cs : List Nat) (s : State) :
    (∀ c, c ∈ cs ∨ s.Translates c ten va → (cs.foldl (fun t c => t.install c e va) s).Translates c ten va) ∧
      (cs.foldl (fun t c => t.install c e va) s).mem = s.mem ∧ (cs.foldl (fun t c => t.install c e va) s).walks = s.walks := by
  induction cs generalizing s with
  | nil => exact ⟨fun c h => h.resolve_left (by simp), rfl, rfl⟩
  | cons d cs ih =>
    obtain ⟨all, mem, walks⟩ := ih (s.install d e va)
    refine ⟨fun c h => all c ?_, mem, walks⟩
    rcases h with h | h
    · rcases List.mem_cons.mp h with rfl | h
      · exact .inr (State.translates_install mine covers c)
      · exact .inl h
    · exact .inr (h.install mine covers d)

/-- The requests of a walk are seen outside alone. -/
theorem State.walkRequests_eq (s : State) (ten : Nat) (lv : Level) (root : Word) (va : Nat) :
    ∃ out, s.walkRequests ten lv root va = { s with out := out } := by
  have all : ∀ (ks : List Nat) (t : State), ∃ out, ks.foldl (fun t pa => t.hostReq ten false pa 8) t = { t with out := out } := by
    intro ks
    induction ks with
    | nil => exact fun t => ⟨t.out, rfl⟩
    | cons k ks ih =>
      intro t
      obtain ⟨out, h⟩ := t.hostReq_eq ten false k 8
      obtain ⟨out', h'⟩ := ih (t.hostReq ten false k 8)
      exact ⟨out', h'.trans (by rw [h])⟩
  exact all _ s

/-- Leaves what a walk has found with a strand of its tenant that waits. -/
def Walk.tell (w : Walk) (a : WalkAnswer) (x : Slot) : Slot := if x.ten = w.ten then { x with walk := some a } else x

theorem Walk.ten_tell (w : Walk) (a : WalkAnswer) (x : Slot) : (w.tell a x).ten = x.ten := by
  unfold Walk.tell
  split <;> rfl

theorem Walk.walk_tell {w : Walk} {x : Slot} (a : WalkAnswer) (h : x.ten = w.ten) : (w.tell a x).walk = some a := by
  unfold Walk.tell
  rw [if_pos h]

/-- Each of several strands that wait is told. -/
theorem State.foldl_tell (w : Walk) (a : WalkAnswer) (rs : List SlotRef) (four : ∀ r ∈ rs, r.slot < 4) (s : State) :
    (rs.foldl (fun t r => t.modSlot r (w.tell a)) s).mem = s.mem ∧ (rs.foldl (fun t r => t.modSlot r (w.tell a)) s).walks = s.walks ∧
      ∀ q, (q ∈ rs ∨ (s.slot q).walk = some a) → (s.slot q).ten = w.ten →
        ((rs.foldl (fun t r => t.modSlot r (w.tell a)) s).slot q).walk = some a := by
  induction rs generalizing s with
  | nil => exact ⟨rfl, rfl, fun q h _ => h.resolve_left (by simp)⟩
  | cons r rs ih =>
    obtain ⟨mem, walks, told⟩ := ih (fun q hq => four q (List.mem_cons_of_mem _ hq)) (s.modSlot r (w.tell a))
    have same := s.slot_modSlot_same (w.tell a) (four r List.mem_cons_self)
    refine ⟨mem, walks, fun q h ten => told q ?_ ?_⟩
    · by_cases hq : q = r
      · subst hq
        rw [same]
        exact .inr (w.walk_tell a ten)
      · rw [State.slot_modSlot_ne _ _ hq]
        exact h.imp (fun m => (List.mem_cons.mp m).resolve_left hq) id
    · by_cases hq : q = r
      · subst hq
        rw [same, Walk.ten_tell, ten]
      · rw [State.slot_modSlot_ne _ _ hq, ten]

/-- A walk that a walker runs and that no store of the strands that wait holds up. -/
theorem exec_walkComplete_runs {s : State} {w : Walk} (found : (s.walks.find? fun v => v.id == w.id) = some w) (live : w.dead = false)
    (runs : s.walkRuns w = true) (waiters : ∀ r ∈ w.waiters, s.storesOwed r = false ∧ r.slot < 4) :
    ∃ t, exec (.walkComplete w.id) s = .next t ∧ t.mem = s.mem ∧ (∀ v ∈ t.walks, v.id ≠ w.id) ∧
      (∀ e, s.walk w.ten w.level w.root (w.page * 4096) = .ok e → ∀ c ∈ w.cluster :: w.waiters.map (fun r => s.clusterOf r.core) ++ w.units.map (·.2),
        t.Translates c w.ten (w.page * 4096)) ∧
      (∀ l, s.walk w.ten w.level w.root (w.page * 4096) = .error l → ∀ r ∈ w.waiters, (s.slot r).ten = w.ten →
        (t.slot r).walk = some ⟨w.page, 7, wd (l * 2 ^ 61)⟩) := by
  have paid : w.waiters.any s.storesOwed = false := List.any_eq_false.mpr fun r hr => by simp [(waiters r hr).1]
  obtain ⟨out, asked⟩ := State.walkRequests_eq { s with walks := s.walks.filter fun v => v.id != w.id } w.ten w.level w.root (w.page * 4096)
  let u : State := { s with walks := s.walks.filter fun v => v.id != w.id, out := out }
  have others : ∀ v ∈ u.walks, v.id ≠ w.id := fun v hv => by simpa using (List.mem_filter.mp hv).2
  have run : exec (.walkComplete w.id) s = .next (match s.walk w.ten w.level w.root (w.page * 4096) with
      | .ok e => (w.cluster :: (w.waiters.map fun r => s.clusterOf r.core) ++ w.units.map (·.2)).foldl (fun t c => t.install c e (w.page * 4096)) u
      | .error l => u.answerWalk w ⟨w.page, 7, wd (l * 2 ^ 61)⟩) := by
    change execWalkComplete w.id s = _
    unfold execWalkComplete
    rw [found]
    dsimp only
    rw [paid, runs, live, asked]
    rfl
  cases leaf : s.walk w.ten w.level w.root (w.page * 4096) with
  | ok e =>
    rw [leaf] at run
    obtain ⟨mine, covers⟩ := State.walkFrom_covers _ _ leaf
    obtain ⟨all, mem, walks⟩ := State.translates_installs mine covers
      (w.cluster :: (w.waiters.map fun r => s.clusterOf r.core) ++ w.units.map (·.2)) u
    refine ⟨_, run, mem, fun v hv => others v (walks ▸ hv), fun e' he => ?_, fun l hl => absurd hl nofun⟩
    exact fun c hc => all c (.inl hc)
  | error l =>
    rw [leaf] at run
    let a : WalkAnswer := ⟨w.page, 7, wd (l * 2 ^ 61)⟩
    obtain ⟨mem, walks, told⟩ := State.foldl_tell w a w.waiters (fun r hr => (waiters r hr).2) u
    refine ⟨_, run, mem, fun v hv => others v ?_, fun e he => absurd he nofun, fun l' hl r hr ten => ?_⟩
    · rw [← walks]
      exact hv
    · obtain rfl := Except.error.inj hl
      exact told r (.inl hr) ten

end Sys2Proof.Machine
end

section
/-! PROOFS. Requests to the host that fail (R371). -/

namespace Sys2Proof.Machine

theorem exec_hostRequestFail_load {s : State} {f : Flight} {d : Dest} {va : Word} {k n : Nat} {sg acq : Bool} {h : Hint}
    (found : s.flight? f.id = some f) (host : s.place k = .host) (held : s.holds f.who f.party = true) (thawed : (s.slot f.who).frozen = false)
    (four : f.who.slot < 4) (own : f.own = false) (pkt : f.pkt = none) (outlived : f.outlived = false) (act : f.act = .load d va k n sg acq h) :
    ∃ t h o, exec (.hostRequestFail f.id) s = .next t ∧
      (t.mem = s.mem ∧ (t.slot f.who).pend = (s.slot f.who).pend ++ [{ code := 0x17, tval := va, handler := f.inh }]) ∧
      t.flight? f.id = some { f with act := .result d (BitVec.allOnes 256) none [], hop := h, owed := o } := by
  let u : State := s.setAct f.id (.result d (BitVec.allOnes 256) none [])
  have faulted := State.flightFault_held (s := u) held thawed own pkt outlived 0x17 va
  have run : exec (.hostRequestFail f.id) s = .next (u.flightFault f 0x17 va) := by
    change execHostRequestFail f.id s = _
    unfold execHostRequestFail
    rw [found]
    dsimp only
    rw [act]
    dsimp only
    rw [if_pos host]
  refine ⟨_, s.hopBack f, s.timed? f, run, ⟨?_, ?_⟩, ?_⟩
  · rw [faulted]
    rfl
  · rw [faulted, State.slot_modSlot_same _ _ four]
    rfl
  · rw [faulted, State.flight?_congr (State.modSlot_flights ..)]
    refine (State.flight?_modFlight found fun y => by split <;> rfl).trans ?_
    rw [if_pos (by rw [act]; rfl)]

theorem exec_hostRequestFail_store {s : State} {f : Flight} {va : Word} {k : Nat} {bs : List Byte} {o : Ordering2} {h : Hint}
    (found : s.flight? f.id = some f) (host : s.place k = .host) (held : s.holds f.who f.party = true) (thawed : (s.slot f.who).frozen = false)
    (four : f.who.slot < 4) (own : f.own = false) (pkt : f.pkt = none) (outlived : f.outlived = false) (act : f.act = .store va k bs o h) :
    ∃ t, exec (.hostRequestFail f.id) s = .next t ∧
      (t.mem = s.mem ∧ (t.slot f.who).pend = (s.slot f.who).pend ++ [{ code := 0x17, tval := va, handler := f.inh }]) ∧
      t.flight? f.id = none := by
  let u : State := s.dropFlight f.id
  have faulted := State.flightFault_held (s := u) held thawed own pkt outlived 0x17 va
  have run : exec (.hostRequestFail f.id) s = .next (u.flightFault f 0x17 va) := by
    change execHostRequestFail f.id s = _
    unfold execHostRequestFail
    rw [found]
    dsimp only
    rw [act]
    dsimp only
    rw [if_pos host]
  refine ⟨_, run, ⟨?_, ?_⟩, ?_⟩
  · rw [faulted]
    rfl
  · rw [faulted, State.slot_modSlot_same _ _ four]
    rfl
  · rw [faulted, State.flight?_congr (State.modSlot_flights ..)]
    exact s.flight?_dropFlight f.id

/-! ## What a write leaves of the strands -/

/-- What of a slot says whose strand it holds, and what faults wait for it. -/
def Slot.strand (x : Slot) : Occ × Nat × Bool × List AFault := (x.occ, x.party, x.frozen, x.pend)

/-- From `s` to `t` every slot holds the same strand, with the same faults that wait. -/
structure State.Strands (s t : State) : Prop where
  strand : ∀ r, (t.slot r).strand = (s.slot r).strand

theorem State.Strands.refl (s : State) : s.Strands s := ⟨fun _ => rfl⟩

theorem State.Strands.trans {s t u : State} (h : s.Strands t) (g : t.Strands u) : s.Strands u := ⟨fun r => (g.strand r).trans (h.strand r)⟩

theorem State.Strands.of_cores {s t : State} (h : t.cores = s.cores) : s.Strands t := ⟨fun r => congrArg Slot.strand (State.slot_congr h r)⟩

/-- What leaves the strands leaves those of a machine with the same cores. -/
theorem State.Strands.of_same {s t u : State} (h : t.Strands u) (same : t.cores = s.cores) : s.Strands u := .trans (.of_cores same) h

theorem State.strands_modCore (s : State) (k : Nat) {f : Core → Core} (hf : ∀ c, (f c).slots = c.slots) : s.Strands (s.modCore k f) :=
  ⟨fun r => congrArg Slot.strand (s.slot_modCore k hf r)⟩

theorem State.strands_modSlot (s : State) (r : SlotRef) {f : Slot → Slot} (hf : ∀ x, (f x).strand = x.strand) : s.Strands (s.modSlot r f) := by
  refine ⟨fun q => ?_⟩
  by_cases same : q = r
  · subst same
    by_cases four : q.slot < 4
    · rw [State.slot_modSlot_same _ _ four, hf]
    · rw [State.slot_of_not_lt _ four, State.slot_of_not_lt _ four]
  · rw [State.slot_modSlot_ne _ _ same]

theorem Slot.strand_depositReg (x : Slot) (r : Reg) (v : Word) (rels : Rels) : (x.depositReg r v rels).strand = x.strand := by
  unfold Slot.depositReg
  split
  · rfl
  · obtain ⟨regs, full, rel, set⟩ := x.setS_eq r v
    rw [set]
    rfl

theorem State.strands_winStore (s : State) (k : Nat) (v : Word) (rels : Rels) : s.Strands (s.winStore k v rels) := by
  unfold State.winStore
  dsimp only
  split
  · split
    · split
      · exact s.strands_modSlot _ fun x => x.strand_depositReg ..
      · exact s.strands_modSlot _ fun _ => rfl
    · exact s.strands_modSlot _ fun _ => rfl
    · exact s.strands_modCore _ fun c => by split <;> rfl
    · exact .refl s
  · split
    · exact .of_cores rfl
    · exact .refl s

theorem State.strands_winStores (rels : Rels) (vs : List Word) (s : State) (k : Nat) : s.Strands (s.winStores k rels vs) := by
  induction vs generalizing s k with
  | nil => exact .refl s
  | cons v vs ih => exact (s.strands_winStore k v rels).trans (ih (s.winStore k v rels) (k + 8))

theorem State.strands_writeWin (s : State) (p ten k : Nat) (bs : List Byte) (rels : Rels) : s.Strands (s.writeWin p ten k bs rels) := by
  obtain ⟨ws, ps, fr, noted⟩ := s.noteWrite_eq p ten k bs rels
  unfold State.writeWin
  rw [noted]
  exact (State.strands_winStores ..).of_same rfl

theorem State.cores_rekey (s : State) (ten k : Nat) : (s.rekey ten k).cores = s.cores := by
  unfold State.rekey
  split
  · dsimp only
    split
    · rfl
    · split <;> rfl
  · rfl

theorem State.cores_wrBytes (s : State) (ten k : Nat) (bs : List Byte) : (s.wrBytes ten k bs).cores = s.cores := by
  unfold State.wrBytes
  split
  · rfl
  · exact s.cores_rekey ten k

/-- A write leaves the cores. -/
theorem State.cores_write (s : State) (p ten k : Nat) (bs : List Byte) (rels : Rels) : (s.write p ten k bs rels).cores = s.cores := by
  obtain ⟨ws, ps, fr, noted⟩ := s.noteWrite_eq p ten k bs rels
  unfold State.write
  split
  · rfl
  · rw [State.cores_hostReq, State.cores_wrBytes, noted]

theorem State.cores_maccStore (s : State) (k : Nat) : (s.maccStore k).cores = s.cores := by
  unfold State.maccStore
  split <;> rfl

theorem Core.slots_wake (c : Core) (n : Nat) : (c.wake n).slots = c.slots := by
  unfold Core.wake Core.setBank
  split <;> rfl

theorem State.strands_wake (s : State) (core n : Nat) : s.Strands (s.wake core n) := s.strands_modCore core fun c => c.slots_wake n

theorem State.strands_bankWrite (s : State) (core n : Nat) : s.Strands (s.bankWrite core n).2 := by
  unfold State.bankWrite
  split
  · exact .refl s
  · exact s.strands_wake ..
  · exact s.strands_wake ..

theorem State.strands_writeNow (s : State) (p ten k : Nat) (bs : List Byte) (rels : Rels) : s.Strands (s.writeNow p ten k bs rels) := by
  have after : ∀ t : State, t.Strands ((t.write p ten k bs rels).maccStore k) := fun t =>
    .of_cores ((State.cores_maccStore _ k).trans (t.cores_write p ten k bs rels))
  unfold State.writeNow
  split
  · exact s.strands_writeWin ..
  · dsimp only
    split
    · split
      · split
        · exact after s
        · exact (s.strands_wake ..).trans (after _)
      · exact after s
    · exact after s

/-- A write that is performed leaves the strands. -/
theorem State.strands_writeAt {s t u : State} {p ten k : Nat} {bs : List Byte} {rels : Rels} (h : s.writeAt p ten k bs rels = (some t, u)) :
    s.Strands t := by
  unfold State.writeAt at h
  split at h
  · obtain rfl := Option.some.inj (congrArg Prod.fst h)
    exact s.strands_writeWin ..
  · split at h
    · split at h
      · next b _ =>
        have waked := s.strands_bankWrite (chipOf k).core b
        split at h
        · exact absurd (congrArg Prod.fst h) nofun
        · next s' _ said =>
          rw [said] at waked
          obtain rfl := Option.some.inj (congrArg Prod.fst h)
          exact waked.trans (.of_cores (s'.cores_write ..))
      · obtain rfl := Option.some.inj (congrArg Prod.fst h)
        exact .of_cores ((State.cores_maccStore _ k).trans (s.cores_write ..))
    · obtain rfl := Option.some.inj (congrArg Prod.fst h)
      exact .of_cores (s.cores_write ..)

theorem State.strands_modCopy (s : State) (core id : Nat) (f : EngOp → EngOp) : s.Strands (s.modCopy core id f) :=
  s.strands_modCore core fun _ => rfl

/-- A piece of a copy that is written leaves the strands. -/
theorem State.strands_landPiece {s t u : State} {core p k : Nat} {o : EngOp} {bs : List Byte} {bad parts : List Nat} {rels : Rels}
    (h : s.landPiece core p o k bs bad parts rels = (some t, u)) : s.Strands t := by
  have queued : ∀ d : Deposit, s.Strands ((s.queueLanding d).modCopy core o.id fun x => x.addParts parts) := fun d =>
    ((s.queueLanding d).strands_modCopy core o.id _).of_same rfl
  unfold State.landPiece at h
  dsimp only at h
  split at h
  · split at h
    · split at h
      · exact absurd (congrArg Prod.fst h) nofun
      · obtain rfl := Option.some.inj (congrArg Prod.fst h)
        exact queued _
    · obtain rfl := Option.some.inj (congrArg Prod.fst h)
      exact queued _
  · split at h
    · exact absurd (congrArg Prod.fst h) nofun
    · next v _ wrote =>
      obtain rfl := Option.some.inj (congrArg Prod.fst h)
      exact (State.strands_writeAt wrote).trans ((State.strands_modCopy { v with poison := unionIds v.poison bad } core o.id _).of_same rfl)

/-- All ones in the destination of a copy leave the strands. -/
theorem State.strands_hostOnes (s : State) (p : HostPiece) : s.Strands (s.hostOnes p) := by
  unfold State.hostOnes
  split
  · exact .refl s
  · split
    · next landed => exact State.strands_landPiece landed
    · exact s.strands_writeNow ..

/-! ## A copy whose request fails -/

theorem State.counts_inject (s : State) (core : Nat) (act : Act) : s.Counts (s.inject core act) := by
  unfold State.inject
  split
  · exact s.counts_countPkt ..
  · exact .refl s

/-- What a DECR that is sent leaves. -/
theorem State.sendDecr_leaves (s : State) (core ten q : Nat) (cell : Word) (rel : List Nat) :
    (s.sendDecr core ten q cell rel).mem = s.mem ∧ (∀ r, (s.sendDecr core ten q cell rel).slot r = s.slot r) ∧
      ∀ c, ((s.sendDecr core ten q cell rel).core c).queue = (s.core c).queue := by
  unfold State.sendDecr
  split
  · exact ⟨rfl, fun _ => rfl, fun _ => rfl⟩
  · have counts := s.counts_inject core (.decr .none cell 1#64)
    exact ⟨counts.mem, counts.slot, counts.queue⟩

/-- A copy whose request has failed leaves its queue, and its strand takes the fault. -/
theorem State.hostFailed_held {s : State} {o : EngOp} (held : s.holds o.who o.party = true) (thawed : (s.slot o.who).frozen = false)
    (four : o.who.slot < 4) (core : Nat) (va : Word) :
    (s.hostFailed core o va).mem = s.mem ∧ (∀ x ∈ ((s.hostFailed core o va).core core).queue, x.id ≠ o.id) ∧
      ((s.hostFailed core o va).slot o.who).pend = (s.slot o.who).pend ++ [{ code := 0x17, tval := va }] := by
  let u : State := s.modSlot o.who fun x => { x with pend := x.pend ++ [{ code := 0x17, tval := va }] }
  let v : State := u.completeOp (.copy core) o (u.relSet (engPartyId (.copy core)))
  have faulted : s.opFault o 0x17 va = u := by
    unfold State.opFault State.asyncFault
    simp [held, thawed, u]
  have ended : s.hostFailed core o va =
      v.sendDecr core o.ten o.queue (wd (fld (o.cell 6) 56 4 * 16)) (u.relSet (engPartyId (.copy core))) := by
    unfold State.hostFailed
    rw [faulted]
    rfl
  obtain ⟨mem, slots, queues⟩ := v.sendDecr_leaves core o.ten o.queue (wd (fld (o.cell 6) 56 4 * 16)) (u.relSet (engPartyId (.copy core)))
  rw [ended]
  refine ⟨mem, fun x hx => ?_, ?_⟩
  · rw [queues] at hx
    exact u.queue_completeOp core none o _ x hx
  · have same : v.slot o.who = u.slot o.who :=
      u.slot_modCore core (f := fun k => { k with queue := k.queue.filter fun x => x.id != o.id }) (fun _ => rfl) o.who
    rw [slots, same, State.slot_modSlot_same _ _ four]

theorem exec_hostRequestFail_copy {s : State} {p : HostPiece} (none_ : s.flight? p.op.id = none) (piece : s.hostPiece p.op.id = some p)
    (held : s.holds p.op.who p.op.party = true) (thawed : (s.slot p.op.who).frozen = false) (four : p.op.who.slot < 4) :
    ∃ t, exec (.hostRequestFail p.op.id) s = .next t ∧ (∀ x ∈ (t.core p.core).queue, x.id ≠ p.op.id) ∧
      (t.slot p.op.who).pend = (s.slot p.op.who).pend ++ [{ code := 0x17, tval := p.va }] ∧ (p.dst = none → t.mem = s.mem) ∧
      ∀ k, p.dst = some k → s.memOk → s.place k = .stack → t.num k 8 = 2 ^ 64 - 1 ∧ s.onlyAt t k 8 := by
  have strand := (s.strands_hostOnes p).strand p.op.who
  simp only [Slot.strand, Prod.mk.injEq] at strand
  obtain ⟨occ, party, frozen, pend⟩ := strand
  have held' : (s.hostOnes p).holds p.op.who p.op.party = true := by
    unfold State.holds at held ⊢
    dsimp only
    rwa [occ, party]
  obtain ⟨mem, queue, faults⟩ := State.hostFailed_held held' (frozen.trans thawed) four p.core p.va
  refine ⟨_, ?_, queue, faults.trans (by rw [pend]), fun silent => ?_, fun k dst ok stack => ?_⟩
  · change execHostRequestFail p.op.id s = _
    unfold execHostRequestFail
    rw [none_, piece]
  · rw [mem]
    unfold State.hostOnes
    rw [silent]
  · obtain ⟨t, landed, stored, -⟩ := State.landPiece_takes (s := s) (k := k) (.inl (State.lt_stackEnd_of_place stack)) p.core
      (engPartyId (.copy p.core)) p.op (List.replicate 8 0xFF#8) [p.group] []
    have wrote : ((s.hostOnes p).hostFailed p.core p.op p.va).mem = Memory.setBytes s.mem k (List.replicate 8 0xFF#8) := by
      rw [mem]
      unfold State.hostOnes
      rw [dst]
      dsimp only
      rw [landed]
      exact stored
    refine ⟨?_, State.onlyAt_of_setBytes wrote rfl⟩
    have number := State.num_of_setBytes (i := 0) (n := 8) wrote ok (by simp)
    rw [Nat.add_zero] at number
    rw [number]
    decide

end Sys2Proof.Machine
end

section
/-! PROOFS. The end of a bank's wake (R67, R68, R372). -/

namespace Sys2Proof.Machine

/-! ## Banks -/

/-- One pair of bits is set, and every other stands. -/
theorem fld_set_pair (w : Word) {i code : Nat} (hi : i < 32) (hc : code < 4) (j : Nat) :
    fld (setFld w (2 * i + 1) (2 * i) code) (2 * j + 1) (2 * j) = if j = i then code else fld w (2 * j + 1) (2 * j) := by
  obtain ⟨above, at_, below⟩ := toNat_setFld (w := w) (h := 2 * i + 1) (l := 2 * i) (v := code) (by omega) (by omega)
  have width : ∀ k, 2 * k + 1 + 1 - 2 * k = 2 := fun k => by omega
  unfold fld bits
  rw [width]
  rw [width] at at_
  split
  · next same =>
    subst same
    exact at_.trans (Nat.mod_eq_of_lt hc)
  · next other =>
    by_cases lower : j < i
    · have low : ∀ x : Nat, x / 2 ^ (2 * j) % 2 ^ 2 = x % 2 ^ (2 * j + 2) / 2 ^ (2 * j) := fun x => by
        rw [Nat.pow_add, Nat.mod_mul_right_div_self]
      rw [low, low, mod_two_pow_mono (a := 2 * j + 2) (b := 2 * i) (by omega) below]
    · rw [div_two_pow_mono (a := 2 * i + 1 + 1) (b := 2 * j) (by omega) above]

/-- The state of one bank is set, and every other bank's stands. -/
theorem Core.bank_setBank (c : Core) {b code : Nat} (hb : b < 64) (hc : code < 4) (n : Nat) :
    (c.setBank b code).bank n = if n = b then code else c.bank n := by
  have upper : ∀ k, 32 ≤ k → 2 * k - 63 = 2 * (k - 32) + 1 ∧ 2 * k - 64 = 2 * (k - 32) := fun k hk => ⟨by omega, by omega⟩
  unfold Core.setBank Core.bank
  by_cases hn : n < 32
  · by_cases low : b < 32
    · simp only [hn, low, if_true]
      exact fld_set_pair _ low hc n
    · simp only [hn, low, if_true, if_false]
      rw [if_neg (by omega)]
  · obtain ⟨n1, n0⟩ := upper n (by omega)
    by_cases low : b < 32
    · simp only [hn, low, if_true, if_false]
      rw [if_neg (by omega)]
    · obtain ⟨b1, b0⟩ := upper b (by omega)
      simp only [hn, low, if_false, n1, n0, b1, b0]
      rw [fld_set_pair _ (by omega) hc]
      exact if_congr (by omega) rfl rfl

/-- A bank in some state other than Off is one of the core's 64. -/
theorem Core.lt_of_bank {c : Core} {b : Nat} (h : c.bank b ≠ 0) : b < 64 := by
  by_contra far
  refine h ?_
  unfold Core.bank fld bits
  rw [if_neg (by omega), Nat.div_eq_of_lt, Nat.zero_mod]
  exact c.b1.isLt.trans_le (Nat.pow_le_pow_right (by decide) (show 64 ≤ 2 * b - 64 by omega))

/-- An event at a bank leaves every other bank, the multicast groups and the other cores. -/
theorem State.bankEvent_others (s : State) (core : Nat) {b : Nat} (hb : b < 64) (code : Nat) :
    (∀ n, n ≠ b → ((s.bankEvent core b code).core core).bank n = (s.core core).bank n) ∧ (s.bankEvent core b code).groups = s.groups := by
  have others : ∀ (f : Core → Core), (∀ c n, n ≠ b → (f c).bank n = c.bank n) → ∀ n, n ≠ b →
      ((s.modCore core f).core core).bank n = (s.core core).bank n := fun f hf n hn => by
    rw [State.modCore, State.core_setCore_same]
    exact hf _ n hn
  have set : ∀ v < 4, ∀ c : Core, ∀ n, n ≠ b → (c.setBank b v).bank n = c.bank n := fun v hv c n hn => by
    rw [c.bank_setBank hb hv, if_neg hn]
  unfold State.bankEvent
  dsimp only
  split
  · exact ⟨others _ fun _ _ _ => rfl, rfl⟩
  · split
    · split
      · exact ⟨fun _ _ => rfl, rfl⟩
      · exact ⟨others (fun c => { c.setBank b 0 with hints := c.hints.filter fun h => h.1 != b }) fun c => set 0 (by decide) c, rfl⟩
    · split
      · split
        · exact ⟨others _ fun c => set 1 (by decide) c, rfl⟩
        · exact ⟨fun _ _ => rfl, rfl⟩
      · split
        · exact ⟨fun _ _ => rfl, rfl⟩
        · exact ⟨others _ fun c => set 3 (by decide) c, rfl⟩

/-- So do several, one after another. -/
theorem State.foldl_bankEvent_others (core : Nat) {b : Nat} (hb : b < 64) (due : List (Nat × Nat)) (here : ∀ h ∈ due, h.1 = b) (s : State) :
    (∀ n, n ≠ b → ((due.foldl (fun t h => t.bankEvent core h.1 h.2) s).core core).bank n = (s.core core).bank n) ∧
      (due.foldl (fun t h => t.bankEvent core h.1 h.2) s).groups = s.groups := by
  induction due generalizing s with
  | nil => exact ⟨fun _ _ => rfl, rfl⟩
  | cons h due ih =>
    obtain ⟨banks, groups⟩ := ih (fun g hg => here g (List.mem_cons_of_mem _ hg)) (s.bankEvent core h.1 h.2)
    have first := here h List.mem_cons_self
    obtain ⟨banks1, groups1⟩ := s.bankEvent_others core hb h.2
    rw [← first] at banks1 groups1
    exact ⟨fun n hn => (banks n hn).trans (banks1 n (first ▸ hn)), groups.trans groups1⟩

/-! ## The wake -/

/-- The machine once a bank has woken, before what it held is performed. -/
def State.woken (s : State) (core b : Nat) (sound : Bool) : State :=
  let s0 : State := s.modCore core fun c => c.setBank b 2
  if !sound && (s.core core).kept.getLsbD b then s0.spoilBank core b else s0

/-- What the bank held, in the order in which it is performed. -/
def State.heldThere (s : State) (core b : Nat) : List Flight := (s.flights.filter (s.heldAt core b)).foldl (fun l f => s.insertHeld f l) []

/-- Performs in turn what a bank held. -/
def State.performAll (s : State) (fs : List Flight) : State :=
  fs.foldl (fun t f => match t.flight? f.id with
    | some g => t.performHeld g
    | none => t) s

/-- The hints that waited at a bank take effect. -/
def State.hintsThere (s : State) (core b : Nat) : State :=
  ((s.core core).hints.filter fun h => h.1 == b).foldl (fun t h => t.bankEvent core h.1 h.2)
    (s.modCore core fun c => { c with hints := c.hints.filter fun h => h.1 != b })

theorem exec_bankWakeComplete {s : State} {core b : Nat} (waking : (s.core core).bank b = 3) (sound : Bool) :
    exec (.bankWakeComplete core ⟨b, sound⟩) s =
      .next ((((s.woken core b sound).performAll ((s.woken core b sound).heldThere core b)).hintsThere core b).applyAll) := by
  change execBankWakeComplete core ⟨b, sound⟩ s = _
  unfold execBankWakeComplete
  dsimp only
  rw [if_neg (by simp [waking])]
  rfl

/-- Without multicast groups no store is to be applied. -/
theorem State.applyAll_none {s : State} (h : s.groups = []) : s.applyAll = s := by
  unfold State.applyAll
  rw [h]
  rfl

/-- A wake changes the core's banks and the poison alone. -/
theorem State.woken_eq (s : State) (core b : Nat) (sound : Bool) :
    ∃ po, s.woken core b sound = { s.modCore core fun c => c.setBank b 2 with poison := po } ∧
      (sound = true ∨ (s.core core).kept.getLsbD b = false → po = s.poison) ∧
      (sound = false → (s.core core).kept.getLsbD b = true → ∀ i < bankSize b / 16, bankAddr core b + 16 * i ∈ po) := by
  unfold State.woken
  dsimp only
  split
  · next failed =>
    simp only [Bool.and_eq_true, Bool.not_eq_true'] at failed
    refine ⟨_, rfl, fun h => ?_, fun _ _ i hi => mem_unionIds.mpr (.inr (List.mem_map.mpr ⟨i, List.mem_range.mpr hi, rfl⟩))⟩
    rcases h with h | h
    · rw [h] at failed
      exact absurd failed.1 (by decide)
    · rw [h] at failed
      exact absurd failed.2 (by decide)
  · next passed =>
    refine ⟨s.poison, rfl, fun _ => rfl, fun unsound kept => ?_⟩
    exact absurd (by rw [unsound, kept]; rfl) passed

theorem Core.hints_setBank (c : Core) (b code : Nat) : (c.setBank b code).hints = c.hints := by
  unfold Core.setBank
  split <;> rfl

theorem Core.forwards_setBank (c : Core) (b code : Nat) : (c.setBank b code).forwards = c.forwards := by
  unfold Core.setBank
  split <;> rfl

theorem Core.slots_setBank (c : Core) (b code : Nat) : (c.setBank b code).slots = c.slots := by
  unfold Core.setBank
  split <;> rfl

/-- From `s` to `t` banks and poison have changed, and nothing else of what is told here. -/
structure State.Wakes (s t : State) : Prop where
  slot : ∀ r, t.slot r = s.slot r
  forwards : ∀ c, (t.core c).forwards = (s.core c).forwards
  hints : ∀ c, (t.core c).hints = (s.core c).hints
  groups : t.groups = s.groups
  flights : t.flights = s.flights
  mem : t.mem = s.mem
  writes : t.writes = s.writes
  journal : t.journal = s.journal
  tenants : t.tenants = s.tenants
  routes : t.routes = s.routes
  devloc : t.devloc = s.devloc

theorem State.wakes_woken (s : State) (core b : Nat) (sound : Bool) : s.Wakes (s.woken core b sound) := by
  obtain ⟨po, woken, -, -⟩ := s.woken_eq core b sound
  rw [woken]
  exact ⟨s.slot_modCore core fun c => c.slots_setBank b 2, s.core_modCore_congr core Core.forwards fun c => c.forwards_setBank b 2,
    s.core_modCore_congr core Core.hints fun c => c.hints_setBank b 2, rfl, rfl, rfl, rfl, rfl, rfl, rfl, rfl⟩

theorem State.Wakes.forwardOf {s t : State} (h : s.Wakes t) (from_ k : Nat) : t.forwardOf from_ k = s.forwardOf from_ k := by
  unfold State.forwardOf
  dsimp only
  rw [h.forwards]

theorem State.Wakes.redirect {s t : State} (h : s.Wakes t) (from_ k : Nat) : (t.redirect from_ k).1 = (s.redirect from_ k).1 := by
  unfold State.redirect
  rw [h.forwardOf]
  split
  · rfl
  · dsimp only
    split <;> rfl

theorem State.Wakes.heldAt {s t : State} (h : s.Wakes t) (core b : Nat) : t.heldAt core b = s.heldAt core b := by
  have key : ∀ f, t.waitKey f = s.waitKey f := by
    intro f
    unfold State.waitKey
    split
    · rw [h.slot]
    · rfl
    · rfl
    · rfl
    · rfl
    · rw [State.group, State.group, h.groups]
    · rw [h.redirect]
    · simp only [h.redirect]
  funext f
  unfold State.heldAt
  rw [key]

theorem State.Wakes.barredAt {s t : State} (h : s.Wakes t) (from_ k : Nat) : t.barredAt from_ k = s.barredAt from_ k := by
  have gone : t.goneAt from_ k = s.goneAt from_ k := by
    unfold State.goneAt
    rw [h.forwards, h.forwardOf]
  have cut : t.cutOff from_ k = s.cutOff from_ k := by
    unfold State.cutOff State.reaches State.dev
    rw [h.forwardOf, h.routes, h.devloc]
  have quar : t.quarChip k = s.quarChip k := by
    unfold State.quarChip State.quarBank State.quarPriv State.quarMatrix State.quarFold State.quarAny
    rw [h.journal, h.tenants]
  unfold State.barredAt
  rw [gone, cut, quar]

/-- A range that is forgotten reads as nothing was ever stored there. -/
theorem Memory.get_clear_in (m : Memory) {lo hi a : Nat} (h : lo ≤ a) (h' : a < hi) : (m.clear lo hi).get a = Memory.unlisted := by
  induction m with
  | nil => rfl
  | cons c m ih =>
    obtain ⟨k, v⟩ := c
    unfold Memory.clear at ih ⊢
    by_cases keep : (decide (k < lo) || decide (hi ≤ k)) = true
    · have other : k ≠ a := by
        simp only [Bool.or_eq_true, decide_eq_true_eq] at keep
        omega
      simp only [List.filter_cons, keep, if_true, Memory.get, other, if_false, ih]
    · simp only [List.filter_cons, keep, Bool.false_eq_true, if_false, ih]

/-- The banks of a core whose bank has woken. -/
theorem State.bank_woken (s : State) (core : Nat) {b : Nat} (hb : b < 64) (sound : Bool) (n : Nat) :
    ((s.woken core b sound).core core).bank n = if n = b then 2 else (s.core core).bank n := by
  obtain ⟨po, woken, -, -⟩ := s.woken_eq core b sound
  rw [woken]
  change ((s.modCore core fun c => c.setBank b 2).core core).bank n = _
  rw [State.modCore, State.core_setCore_same, Core.bank_setBank _ hb (by decide)]

/-- The machine in which the hints of a bank have been taken. -/
def State.hintsTaken (s : State) (core b : Nat) : State := s.modCore core fun c => { c with hints := c.hints.filter fun h => h.1 != b }

theorem State.core_hintsTaken (s : State) (core b : Nat) :
    (s.hintsTaken core b).core core = { s.core core with hints := (s.core core).hints.filter fun h => h.1 != b } := State.core_setCore_same ..

section
variable {s : State} {core b : Nat} (waking : (s.core core).bank b = 3) (alone : s.groups = [])
include waking alone

/-- A wake at whose end the bank holds nothing: the hints that waited take effect. -/
theorem exec_bankWakeComplete_quiet (sound : Bool) (none_ : ∀ f ∈ s.flights, s.heldAt core b f = false) :
    exec (.bankWakeComplete core ⟨b, sound⟩) s = .next ((s.woken core b sound).hintsThere core b) ∧
      ∀ n, n ≠ b → (((s.woken core b sound).hintsThere core b).core core).bank n = (s.core core).bank n := by
  have hb : b < 64 := Core.lt_of_bank (by rw [waking]; decide)
  have wakes := s.wakes_woken core b sound
  have empty : (s.woken core b sound).heldThere core b = [] := by
    unfold State.heldThere
    rw [wakes.heldAt, wakes.flights, List.filter_eq_nil_iff.mpr fun f hf => by simp [none_ f hf]]
    rfl
  obtain ⟨banks, groups⟩ := State.foldl_bankEvent_others core hb (((s.woken core b sound).core core).hints.filter fun h => h.1 == b)
    (fun h hh => by simpa using (List.mem_filter.mp hh).2) ((s.woken core b sound).hintsTaken core b)
  refine ⟨?_, fun n hn => (banks n hn).trans ?_⟩
  · rw [exec_bankWakeComplete waking, empty]
    exact congrArg Host.Outcome.next (State.applyAll_none (groups.trans (wakes.groups.trans alone)))
  · rw [State.core_hintsTaken]
    exact (s.bank_woken core hb sound n).trans (if_neg hn)

omit alone in
/-- Where no hint waited at the bank, it is Full. -/
theorem State.hintsThere_none (sound : Bool) (none_ : ((s.core core).hints.filter fun h => h.1 == b) = []) :
    (((s.woken core b sound).hintsThere core b).core core).bank b = 2 ∧ ((s.woken core b sound).hintsThere core b).mem = s.mem ∧
      (sound = true ∨ (s.core core).kept.getLsbD b = false → ((s.woken core b sound).hintsThere core b).poison = s.poison) ∧
      (sound = false → (s.core core).kept.getLsbD b = true → ∀ i < bankSize b / 16,
        bankAddr core b + 16 * i ∈ ((s.woken core b sound).hintsThere core b).poison) := by
  have hb : b < 64 := Core.lt_of_bank (by rw [waking]; decide)
  have wakes := s.wakes_woken core b sound
  have taken : (s.woken core b sound).hintsThere core b = (s.woken core b sound).hintsTaken core b := by
    unfold State.hintsThere
    rw [wakes.hints, none_]
    rfl
  obtain ⟨po, woken, clean, spoiled⟩ := s.woken_eq core b sound
  rw [taken]
  refine ⟨?_, wakes.mem, fun h => ?_, fun unsound kept i hi => ?_⟩
  · rw [State.core_hintsTaken]
    exact (s.bank_woken core hb sound b).trans (if_pos rfl)
  · rw [← clean h]
    exact congrArg State.poison woken
  · have := spoiled unsound kept i hi
    rwa [show ((s.woken core b sound).hintsTaken core b).poison = po from congrArg State.poison woken]

omit alone in
/-- Where one hint waited at the bank, it takes effect at the Full bank. -/
theorem State.hintsThere_one (sound : Bool) {code : Nat} (one : ((s.core core).hints.filter fun h => h.1 == b) = [(b, code)]) :
    (s.woken core b sound).hintsThere core b = ((s.woken core b sound).hintsTaken core b).bankEvent core b code ∧
      (((s.woken core b sound).hintsTaken core b).core core).bank b = 2 := by
  have hb : b < 64 := Core.lt_of_bank (by rw [waking]; decide)
  refine ⟨?_, ?_⟩
  · unfold State.hintsThere
    rw [(s.wakes_woken core b sound).hints, one]
    rfl
  · rw [State.core_hintsTaken]
    exact (s.bank_woken core hb sound b).trans (if_pos rfl)

omit alone in
theorem State.hintsThere_retain (sound : Bool) (one : ((s.core core).hints.filter fun h => h.1 == b) = [(b, 1)]) :
    (((s.woken core b sound).hintsThere core b).core core).bank b = 1 ∧ ((s.woken core b sound).hintsThere core b).mem = s.mem := by
  have hb : b < 64 := Core.lt_of_bank (by rw [waking]; decide)
  obtain ⟨taken, full⟩ := State.hintsThere_one waking sound one
  have retained : (s.woken core b sound).hintsThere core b = ((s.woken core b sound).hintsTaken core b).modCore core fun c => c.setBank b 1 := by
    rw [taken]
    unfold State.bankEvent
    dsimp only
    rw [full]
    rfl
  rw [retained]
  refine ⟨?_, (s.wakes_woken core b sound).mem⟩
  rw [State.modCore, State.core_setCore_same, Core.bank_setBank _ hb (by decide), if_pos rfl]

omit alone in
theorem State.hintsThere_off (sound : Bool) (one : ((s.core core).hints.filter fun h => h.1 == b) = [(b, 0)]) :
    (((s.woken core b sound).hintsThere core b).core core).bank b = 0 ∧
      s.onlyAt ((s.woken core b sound).hintsThere core b) (bankAddr core b) (bankSize b) ∧
      ∀ a, bankAddr core b ≤ a → a < bankAddr core b + bankSize b →
        Memory.get ((s.woken core b sound).hintsThere core b).mem a = Memory.unlisted := by
  obtain ⟨taken, full⟩ := State.hintsThere_one waking sound one
  have off : (s.woken core b sound).hintsThere core b = ((s.woken core b sound).hintsTaken core b).bankOff core b := by
    rw [taken]
    unfold State.bankEvent
    dsimp only
    rw [full]
    rfl
  have mem : ((s.woken core b sound).hintsThere core b).mem = s.mem.clear (bankAddr core b) (bankAddr core b + bankSize b) := by
    rw [off]
    exact congrArg (Memory.clear · _ _) (s.wakes_woken core b sound).mem
  refine ⟨?_, fun a ha => ?_, fun a ha ha' => ?_⟩
  · rw [off]
    exact State.bank_bankOff _ core b b (.inl rfl)
  · rw [mem]
    exact Memory.get_clear_out _ ha
  · rw [mem]
    exact Memory.get_clear_in _ ha ha'

end

end Sys2Proof.Machine
end

section
/-! PROOFS. A load that a bank held while it woke (R67, R68). -/

namespace Sys2Proof.Machine

/-! ## What a loaded value depends on (R282) -/

/-- The low bytes of a number are those of its list. -/
theorem leNat_mod (m : Nat) (bs : List Byte) : leNat bs % 2 ^ (8 * m) = leNat (bs.take m) := by
  induction m generalizing bs with
  | zero => simp [leNat, Nat.mod_one]
  | succ m ih =>
    cases bs with
    | nil => simp [leNat]
    | cons b bs =>
      have low : b.toNat < 256 := b.isLt
      have first : (b.toNat + 256 * leNat bs) % 2 ^ 8 = b.toNat := by omega
      have rest : (b.toNat + 256 * leNat bs) / 2 ^ 8 = leNat bs := by omega
      rw [List.take_succ_cons, leNat, leNat, ← ih bs, Nat.mul_succ, Nat.add_comm (8 * m), Nat.pow_add, Nat.mod_mul, first, rest]

/-- Of a value longer than a row, the bytes of a row alone are kept. -/
theorem extend_congr {n v w : Nat} (long : 32 < n) (same : v % 2 ^ 256 = w % 2 ^ 256) (sg : Bool) : extend sg n v = extend sg n w := by
  have word : v % 2 ^ 64 = w % 2 ^ 64 := by omega
  have low : ∀ x : Nat, BitVec.ofInt 64 (sLane (8 * n) x) = BitVec.ofNat 64 x := fun x => by
    apply BitVec.eq_of_toInt_eq
    rw [sLane, IFmt.val_signed (by omega), BitVec.toInt_ofInt, BitVec.toInt_ofNat', Int.bmod_bmod_of_dvd (pow_dvd_pow 2 (by omega))]
  unfold extend
  cases sg
  · exact BitVec.eq_of_toNat_eq same
  · rw [if_pos rfl, if_pos rfl, low, low]
    exact congrArg _ (BitVec.eq_of_toNat_eq word)

/-- Two lists of bytes that agree on what a row keeps load as one value. -/
theorem extend_leNat_map {f g : Nat → Byte} (h : ∀ i < 32, f i = g i) (sg : Bool) (n : Nat) :
    extend sg n (leNat ((List.range n).map f)) = extend sg n (leNat ((List.range n).map g)) := by
  by_cases short : n ≤ 32
  · rw [List.map_congr_left fun i hi => h i (by have := List.mem_range.mp hi; omega)]
  · refine extend_congr (by omega) ?_ sg
    rw [leNat_mod 32, leNat_mod 32, ← List.map_take, ← List.map_take, List.take_range]
    exact congrArg leNat (List.map_congr_left fun i hi => h i (by have := List.mem_range.mp hi; omega))

/-! ## A bank's own bytes -/

/-- A key in a bank of a core on this device. -/
structure BankKey (k b : Nat) : Prop where
  chip : chipBit ≤ k
  bank : (chipOf k).bank? = some b

theorem BankKey.unit {k b : Nat} (h : BankKey k b) : (chipOf k).unit < 16 := by
  by_contra far
  have none_ : (chipOf k).bank? = none := if_neg far
  rw [h.bank] at none_
  cases none_

theorem BankKey.region {k b : Nat} (h : BankKey k b) : (chipOf k).region < 2 := by
  by_contra other
  have none_ : (chipOf k).bank? = none := by
    unfold Chip.bank?
    rw [if_pos h.unit, if_neg (by omega), if_neg (by omega)]
  rw [h.bank] at none_
  cases none_

theorem BankKey.near {k b : Nat} (h : BankKey k b) : k + 32 ≤ farBit := by
  have unit := h.unit
  have region := h.region
  unfold chipOf at unit region
  split at unit
  · next near =>
    rw [if_pos near] at region
    simp only [bits] at region
    unfold farBit at near ⊢
    omega
  · exact absurd unit (by decide)

theorem BankKey.notWindow {k b : Nat} (h : BankKey k b) : isWindow k = false := by
  have := h.region
  simp [isWindow, h.unit]
  omega

theorem BankKey.notMacc {k b : Nat} (h : BankKey k b) : isMacc k = false := by
  have := h.unit
  simp only [isMacc, Bool.and_eq_false_iff, decide_eq_false_iff_not]
  exact .inl (.inl (.inr (by omega)))

/-- With nothing poisoned, what a bank holds reads clean. -/
theorem BankKey.cleaned {k b : Nat} (h : BankKey k b) {s : State} (clean : s.poison = []) (ten : Nat) (bs : List Byte) : s.cleaned ten k bs = bs := by
  unfold State.cleaned
  rw [h.notMacc, s.lostKey_of_chip ten h.chip, clean]
  refine List.ext_getElem (by simp) fun i h1 h2 => ?_
  simp [h2]

/-- A read at a Full bank that no write holds back finds the bytes as they stand. -/
theorem BankKey.readAt {k b : Nat} (h : BankKey k b) {s : State} (full : (s.core (chipOf k).core).bank b = 2) (clean : s.poison = []) {n : Nat}
    (settled : s.settled k n) (p ten : Nat) (view : List Nat) :
    ∃ rels u, s.Seen u ∧ s.readAt p ten k n view = .val ((List.range n).map fun j => s.rdByte ten (k + j)) none rels u := by
  have ready : s.bankRead (chipOf k).core b = (.ok, s) := by simp only [State.bankRead, full]
  refine ⟨(s.read p ten k n view).2.1, _, s.seen_read p ten k n view, ?_⟩
  unfold State.readAt
  rw [h.notWindow, if_neg (by decide), if_pos h.chip, h.bank]
  dsimp only
  rw [ready]
  dsimp only
  rw [h.cleaned clean, State.poisoned_of_chip clean ten h.chip, State.read_settled settled]

/-- The value that a load finds at a Full bank. -/
theorem BankKey.extend {k b : Nat} (h : BankKey k b) (s : State) (ten n : Nat) (sg : Bool) :
    Machine.extend sg n (leNat ((List.range n).map fun j => s.rdByte ten (k + j))) = Machine.extend sg n (s.num k n) := by
  have near := h.near
  have chip := h.chip
  exact extend_leNat_map (fun i hi => s.rdByte_of_chip ten (by omega) (by omega)) sg n

/-- The load is performed: its result is on its way, and what its party has seen and the packets counted are all else that has changed. -/
theorem BankKey.performLoad {k b : Nat} (h : BankKey k b) {s : State} {f : Flight} {d : Reg} {va : Word} {n : Nat} {sg acq : Bool}
    (act : f.act = .load (.reg d) va k n sg acq .none) (open_ : s.barredAt f.who.core k = false) (direct : s.forwardOf f.who.core k = none)
    (full : (s.core (chipOf k).core).bank b = 2) (clean : s.poison = []) (settled : s.settled k n) (view : List Nat) :
    ∃ m p : State, s.Seen m ∧ m.Counts p ∧
      s.performLoad f view = p.setAct f.id (.result (.reg d) (Machine.extend sg n (s.num k n)) none []) := by
  obtain ⟨rels, u, seen, read⟩ := h.readAt full clean settled f.party f.ten view
  let m : State := if acq then u.acquire f.party 3 rels else u.pending f.party rels
  have more : u.Seen m := by
    cases acq
    · exact u.seen_pending f.party rels
    · exact u.seen_acquire f.party 3 rels
  refine ⟨m, m.exchanged f, seen.trans more, m.counts_exchanged f, ?_⟩
  unfold State.performLoad
  rw [act]
  dsimp only
  rw [open_, State.redirect_of_forwardOf direct, s.place_of_chip h.chip]
  simp only [Bool.false_eq_true, if_false, reduceCtorEq, decide_false, Bool.false_and]
  rw [read]
  dsimp only
  rw [State.applyHint_none, h.extend]

/-! ## What a bank held -/

theorem State.mem_insertHeld (s : State) {f g : Flight} {l : List Flight} : g ∈ s.insertHeld f l ↔ g = f ∨ g ∈ l := by
  induction l with
  | nil => simp [State.insertHeld]
  | cons x l ih =>
    unfold State.insertHeld
    split
    · exact List.mem_cons
    · simp only [List.mem_cons, ih]
      tauto

theorem State.mem_foldl_insertHeld (s : State) {g : Flight} (fs l : List Flight) :
    g ∈ fs.foldl (fun l f => s.insertHeld f l) l ↔ g ∈ fs ∨ g ∈ l := by
  induction fs generalizing l with
  | nil => simp
  | cons f fs ih =>
    rw [List.foldl_cons, ih, State.mem_insertHeld, List.mem_cons]
    tauto

/-- What a bank held is what waits there. -/
theorem State.mem_heldThere {s : State} {core b : Nat} {f : Flight} : f ∈ s.heldThere core b ↔ f ∈ s.flights ∧ s.heldAt core b f = true := by
  unfold State.heldThere
  rw [State.mem_foldl_insertHeld, List.mem_filter]
  simp

/-- A flight that has its result has nothing more performed. -/
theorem State.performAll_answered {s : State} {f g : Flight} {d : Reg} {v : Row} (found : s.flight? f.id = some g)
    (act : g.act = .result (.reg d) v none []) (fs : List Flight) (same : ∀ x ∈ fs, x = f) : s.performAll fs = s := by
  induction fs with
  | nil => rfl
  | cons x fs ih =>
    have step : s.performAll (x :: fs) = s.performAll fs := by
      unfold State.performAll
      rw [List.foldl_cons, same x List.mem_cons_self, found]
      dsimp only
      unfold State.performHeld
      rw [act]
    rw [step, ih fun y hy => same y (List.mem_cons_of_mem _ hy)]

/-- Where one load alone is held, it is performed once. -/
theorem State.performAll_load {s t : State} {f g : Flight} {d e : Reg} {va : Word} {k n : Nat} {sg acq : Bool} {h : Hint} {v : Row}
    (found : s.flight? f.id = some f)
    (act : f.act = .load (.reg d) va k n sg acq h) (run : s.performLoad f f.view = t) (done_ : t.flight? f.id = some g)
    (result : g.act = .result (.reg e) v none []) {fs : List Flight} (same : ∀ x, x ∈ fs ↔ x = f) : s.performAll fs = t := by
  cases fs with
  | nil => exact absurd ((same f).mpr rfl) List.not_mem_nil
  | cons x fs =>
    have first : s.performAll (x :: fs) = t.performAll fs := by
      unfold State.performAll
      rw [List.foldl_cons, (same x).mp List.mem_cons_self, found]
      dsimp only
      unfold State.performHeld
      rw [act]
      dsimp only
      rw [run]
    rw [first]
    exact State.performAll_answered done_ result fs fun y hy => (same y).mp (List.mem_cons_of_mem _ hy)

/-! ## The wake of a bank that held a load -/

/-- A held load is at the bank that its key names. -/
theorem State.bankKey_of_heldAt {s : State} {core b : Nat} {f : Flight} {d : Dest} {va : Word} {k n : Nat} {sg acq : Bool} {h : Hint}
    (held : s.heldAt core b f = true) (act : f.act = .load d va k n sg acq h) (direct : s.forwardOf f.who.core k = none) :
    BankKey k b ∧ (chipOf k).core = core := by
  have key : s.waitKey f = some k := by
    unfold State.waitKey
    rw [act]
    simp only [Act.range, Option.map_some, State.redirect_of_forwardOf direct]
  unfold State.heldAt at held
  rw [key] at held
  simp only [Bool.and_eq_true, decide_eq_true_eq, beq_iff_eq] at held
  obtain ⟨-, ⟨chip, bank⟩, there⟩ := held
  exact ⟨⟨chip, bank⟩, there⟩

theorem State.Counts.hints {s t : State} (h : s.Counts t) (c : Nat) : (t.core c).hints = (s.core c).hints := by
  obtain ⟨-, -, each⟩ := h
  obtain ⟨m, n, e⟩ := each c
  rw [e]

theorem State.Counts.groups {s t : State} (h : s.Counts t) : t.groups = s.groups := by
  obtain ⟨cores, rfl, -⟩ := h
  rfl

theorem State.Seen.core {s t : State} (h : s.Seen t) (c : Nat) : t.core c = s.core c := by
  obtain ⟨ps, out, rfl⟩ := h
  rfl

theorem State.Seen.groups {s t : State} (h : s.Seen t) : t.groups = s.groups := by
  obtain ⟨ps, out, rfl⟩ := h
  rfl

/-- The answer to a request that is under way stands in its flight. -/
theorem State.flight?_setAct_answer {s : State} {f : Flight} {a : Act} (found : s.flight? f.id = some f) (asks : f.act.answers = false)
    (answers : a.answers = true) : ∃ h o, (s.setAct f.id a).flight? f.id = some { f with act := a, hop := h, owed := o } := by
  refine ⟨s.hopBack f, s.timed? f, ?_⟩
  rw [State.setAct, State.flight?_modFlight found fun y => by split <;> rfl, asks, answers]
  rfl

/-- Once one load alone has been held at a bank, the wake makes the bank Full and then performs the load. -/
theorem exec_bankWakeComplete_load {s : State} {core b : Nat} {f : Flight} {d : Reg} {va : Word} {k n : Nat} {sg acq : Bool}
    (waking : (s.core core).bank b = 3) (alone : s.groups = []) (found : s.flight? f.id = some f) (held : s.heldAt core b f = true)
    (only : ∀ g ∈ s.flights, g ≠ f → s.heldAt core b g = false) (act : f.act = .load (.reg d) va k n sg acq .none)
    (open_ : s.barredAt f.who.core k = false) (direct : s.forwardOf f.who.core k = none) (settled : s.settled k n) (clean : s.poison = [])
    (none_ : ((s.core core).hints.filter fun h => h.1 == b) = []) :
    ∃ t h o, exec (.bankWakeComplete core ⟨b, true⟩) s = .next t ∧ (t.core core).bank b = 2 ∧ t.mem = s.mem ∧
      t.flight? f.id = some { f with act := .result (.reg d) (extend sg n (s.num k n)) none [], hop := h, owed := o } := by
  obtain ⟨key, there⟩ := State.bankKey_of_heldAt held act direct
  have hb : b < 64 := Core.lt_of_bank (by rw [waking]; decide)
  have wakes := s.wakes_woken core b true
  obtain ⟨po, woken, same, -⟩ := s.woken_eq core b true
  have full : ((s.woken core b true).core core).bank b = 2 := (s.bank_woken core hb true b).trans (if_pos rfl)
  have sound : (s.woken core b true).poison = [] := by rw [woken]; exact (same (.inl rfl)).trans clean
  have unread : (s.woken core b true).settled k n := by unfold State.settled; rw [wakes.writes]; exact settled
  obtain ⟨m, p, seen, counts, performed⟩ := key.performLoad (s := s.woken core b true) act ((wakes.barredAt ..).trans open_)
    ((wakes.forwardOf ..).trans direct) (by rw [there]; exact full) sound unread f.view
  have number : (s.woken core b true).num k n = s.num k n := by unfold State.num; rw [wakes.mem]
  rw [number] at performed
  have found0 : (s.woken core b true).flight? f.id = some f := (State.flight?_congr wakes.flights _).trans found
  have found1 : p.flight? f.id = some f := (State.flight?_congr (counts.flights.trans seen.flights) _).trans found0
  obtain ⟨h, o, answered⟩ := State.flight?_setAct_answer (a := .result (.reg d) (extend sg n (s.num k n)) none []) found1
    (by rw [act]; rfl) rfl
  let t := p.setAct f.id (.result (.reg d) (extend sg n (s.num k n)) none [])
  have all : (s.woken core b true).performAll ((s.woken core b true).heldThere core b) = t := by
    refine State.performAll_load found0 act performed answered rfl fun x => ?_
    rw [State.mem_heldThere, wakes.heldAt, wakes.flights]
    refine ⟨fun ⟨mem, here⟩ => ?_, fun e => e ▸ ⟨List.mem_of_find?_eq_some found, held⟩⟩
    by_contra other
    rw [only x mem other] at here
    exact absurd here (by decide)
  have hints : (t.core core).hints = (s.core core).hints :=
    (counts.hints core).trans ((congrArg Core.hints (seen.core core)).trans (wakes.hints core))
  have bank : (t.core core).bank b = 2 := (congrFun ((counts.bank core).trans (congrArg Core.bank (seen.core core))) b).trans full
  have quiet : t.hintsThere core b = t.hintsTaken core b := by
    unfold State.hintsThere
    rw [hints, none_]
    rfl
  refine ⟨t.hintsTaken core b, h, o, ?_, ?_, ?_, ?_⟩
  · rw [exec_bankWakeComplete waking, all, quiet]
    exact congrArg Host.Outcome.next (State.applyAll_none (counts.groups.trans (seen.groups.trans (wakes.groups.trans alone))))
  · rw [State.core_hintsTaken]
    exact bank
  · exact counts.mem.trans (seen.mem.trans wakes.mem)
  · exact answered

end Sys2Proof.Machine
end

section
open Sys2Proof Sys2Proof.Machine

/-- Settles O35: a deposit by `State.performStore_scalar`; a wake by `State.woken`, which is all that changes before what the bank held is performed;
a walk by `State.translates_installs` and `State.foldl_tell`. -/
theorem depositsWakesWalksAndArrivals : Obligations.DepositsWakesWalksAndArrivals := by
  unfold Obligations.DepositsWakesWalksAndArrivals
  refine ⟨?deposits, ?wakes, ?walks, ?hostFlights, ?hostPieces, ?arrivals⟩
  case deposits =>
    intro s f va k bs found open_ direct act chip unit region scalar aligned eight r d
    have here : ScalarKey k := ⟨chip, unit, region, scalar⟩
    exact ⟨exec_deposit_scalar here found act open_ direct, fun e => State.landDeposits_one here found act open_ direct eight,
      fun e g => State.landDeposits_two here⟩
  case wakes =>
    intro s core b sound waking alone due
    refine ⟨fun none_ => ?_, ?_⟩
    · obtain ⟨run, others⟩ := exec_bankWakeComplete_quiet waking alone sound none_
      exact ⟨_, run, others, State.hintsThere_none waking sound, State.hintsThere_retain waking sound, State.hintsThere_off waking sound⟩
    · intro f d va k n sg acq found held only act open_ direct settled clean none_ passed
      rw [passed]
      exact exec_bankWakeComplete_load waking alone found held only act open_ direct settled clean none_
  case walks =>
    intro s w found live runs waiters
    exact exec_walkComplete_runs found live runs waiters
  case hostFlights =>
    intro s f va k found host held thawed four own pkt outlived
    exact ⟨fun d n sg acq h => exec_hostRequestFail_load found host held thawed four own pkt outlived,
      fun bs o h => exec_hostRequestFail_store found host held thawed four own pkt outlived⟩
  case hostPieces =>
    intro s p o none_ piece held thawed four
    exact exec_hostRequestFail_copy none_ piece held thawed four
  case arrivals =>
    intro s f found due
    exact ⟨fun e l => exec_enqueueArrival_entry found due, fun c op => exec_enqueueArrival_copy found due⟩
end

section
/-! PROOFS. Row words of the sequencer that read two tile rows and write one (R71, R162, R259, R261, R262). -/

namespace Sys2Proof.Machine

/-! ## Rows of tile banks (R43, R50) -/

/-- The fields of the address of a row of a tile bank. -/
theorem chipOf_tileKey {core bank row : Nat} (hc : core < 1024) (hb : bank < 16) (hr : row < 16) :
    chipOf (tileKey core bank row) = ⟨core / 16, core % 16, 1, bank * 0x200 + row * 0x20⟩ := by
  have key : tileKey core bank row = 2 ^ 56 + core / 16 * 2 ^ 29 + core % 16 * 2 ^ 24 + 2 ^ 20 + (bank * 0x200 + row * 0x20) := by
    unfold tileKey bankAddr chipAddr chipBit
    rw [if_pos hb]
    omega
  have near : tileKey core bank row < farBit := by
    rw [key]
    unfold farBit
    omega
  unfold chipOf
  rw [if_pos near, key]
  simp only [bits, Chip.mk.injEq]
  omega

/-- A row of a tile bank lies in that bank. -/
theorem bankKey_tileKey {core bank row : Nat} (hc : core < 1024) (hb : bank < 16) (hr : row < 16) : BankKey (tileKey core bank row) bank where
  chip := (chipBit_le_bankAddr core bank).trans (Nat.le_add_right ..)
  bank := by
    rw [chipOf_tileKey hc hb hr]
    unfold Chip.bank?
    dsimp only
    rw [if_pos (Nat.mod_lt _ (by decide)), if_neg (by decide), if_pos rfl]
    congr 1
    omega

theorem core_chipOf_tileKey {core bank row : Nat} (hc : core < 1024) (hb : bank < 16) (hr : row < 16) :
    (chipOf (tileKey core bank row)).core = core := by
  rw [chipOf_tileKey hc hb hr]
  exact Nat.div_add_mod' core 16

theorem ownBank_tileKey {core bank row : Nat} (hc : core < 1024) (hb : bank < 16) (hr : row < 16) :
    ownBank core (tileKey core bank row) = some bank := by
  have here := bankKey_tileKey hc hb hr
  unfold ownBank
  rw [if_pos (by simp [here.chip, here.unit, core_chipOf_tileKey hc hb hr, hc]), here.bank]

/-- A write goes to a Full bank at once. -/
theorem BankKey.writeAt {k b : Nat} (h : BankKey k b) {s : State} (full : (s.core (chipOf k).core).bank b = 2) (p ten : Nat) (bs : List Byte)
    (rels : Rels) : s.writeAt p ten k bs rels = (some (s.write p ten k bs rels), s) := by
  have ready : s.bankWrite (chipOf k).core b = (.ok, s) := by simp only [State.bankWrite, full]
  unfold State.writeAt
  rw [h.notWindow, if_neg (by decide), if_pos h.chip, h.bank]
  dsimp only
  rw [ready]

/-! ## What a row word reads (R221, R259) -/

/-- A view that names 0 stands for every write, where none has that number (R80): the bytes are read as they stand. -/
theorem State.read_whole {s : State} (numbered : ∀ w ∈ s.writes, w.id ≠ 0) (p ten k n : Nat) :
    (s.read p ten k n [0]).1 = (List.range n).map fun i => s.rdByte ten (k + i) := by
  have unnamed : s.viewOk p k n [0] = false := by
    have none_ : ((s.writes.filter fun w => w.touches k n).any fun w => w.id == 0) = false := by
      simpa using fun w hw _ => numbered w hw
    unfold State.viewOk
    simp only [List.all_cons, none_, Bool.false_and, Bool.and_false]
  unfold State.read
  rw [unnamed]
  rfl

/-- A row of a Full bank reads as it stands. -/
theorem BankKey.readKeyRow {k b : Nat} (h : BankKey k b) {s : State} (full : (s.core (chipOf k).core).bank b = 2) (clean : s.poison = [])
    (numbered : ∀ w ∈ s.writes, w.id ≠ 0) (r : SlotRef) (e : SeqEntry) (body : Option (Nat × Nat)) :
    ∃ u, s.Seen u ∧ s.readKeyRow r e k [0] body = (rowOf ((List.range 32).map fun j => Memory.get s.mem (k + j)), u) := by
  have ready : s.bankRead (chipOf k).core b = (.ok, s) := by simp only [State.bankRead, full]
  have near := h.near
  have chip := h.chip
  let ten := (s.slot r).ten
  have bytes : (s.read e.party ten k 32 [0]).1 = (List.range 32).map fun j => Memory.get s.mem (k + j) := by
    rw [State.read_whole numbered]
    refine List.map_congr_left fun j hj => s.rdByte_of_chip ten (by omega) ?_
    have := List.mem_range.mp hj
    omega
  have answer : s.readAt e.party ten k 32 [0] = .val ((List.range 32).map fun j => Memory.get s.mem (k + j)) none
      (s.read e.party ten k 32 [0]).2.1 (s.read e.party ten k 32 [0]).2.2 := by
    unfold State.readAt
    rw [h.notWindow, if_neg (by decide), if_pos h.chip, h.bank]
    dsimp only
    rw [ready]
    dsimp only
    rw [h.cleaned clean, State.poisoned_of_chip clean ten h.chip, bytes]
  refine ⟨_, s.seen_read e.party ten k 32 [0], ?_⟩
  unfold State.readKeyRow
  dsimp only
  rw [answer]

/-- The tile row of a slot by name, as it stands. -/
def State.tileRow (s : State) (r : SlotRef) (n : RowName) : Row :=
  rowOf ((List.range 32).map fun j => Memory.get s.mem (tileKey r.core ((s.slot r).tileBank n.toNat) (n.toNat % 16) + j))

/-- The name is that of a row in a Full tile bank of the slot. -/
structure State.InTile (s : State) (r : SlotRef) (n : RowName) : Prop where
  tile : n.toNat < 112
  bank : (s.slot r).tileBank n.toNat < 16
  full : (s.core r.core).bank ((s.slot r).tileBank n.toNat) = 2

/-- A source field of one row in a Full bank reads that row. -/
theorem State.readField_tile {s : State} {r : SlotRef} {n : RowName} (compute : r.core < 1024) (tile : s.InTile r n) (clean : s.poison = [])
    (numbered : ∀ w ∈ s.writes, w.id ≠ 0) (e : SeqEntry) (body : Option (Nat × Nat)) :
    ∃ u, s.Seen u ∧ s.readField r e [0] body (some ⟨n, .src, 1⟩) = ([s.tileRow r n], u) := by
  have row : n.toNat % 16 < 16 := Nat.mod_lt _ (by decide)
  have full := tile.full
  rw [← core_chipOf_tileKey compute tile.bank row] at full
  obtain ⟨u, seen, read⟩ := (bankKey_tileKey compute tile.bank row).readKeyRow full clean numbered r e body
  refine ⟨u, seen, ?_⟩
  unfold State.readField
  dsimp only
  rw [if_neg (by decide), State.readRows, State.readRow, if_pos tile.tile]
  dsimp only
  rw [read]
  rfl

theorem State.Seen.inTile {s t : State} (h : s.Seen t) {r : SlotRef} {n : RowName} (tile : s.InTile r n) : t.InTile r n := by
  obtain ⟨ps, out, rfl⟩ := h
  exact ⟨tile.tile, tile.bank, tile.full⟩

theorem State.Seen.tileRow {s t : State} (h : s.Seen t) (r : SlotRef) (n : RowName) : t.tileRow r n = s.tileRow r n := by
  obtain ⟨ps, out, rfl⟩ := h
  rfl

/-! ## Words of three rows (R259, R262 to R266) -/

/-- The shape of a word that reads two rows and writes a third. -/
def threeRows (d a b : RowName) (l : Bool) : RowShape := ⟨some ⟨d, .dst, 1⟩, some ⟨a, .src, 1⟩, some ⟨b, .src, 1⟩, l⟩

/-- Such a word moves no park row, is no CSR instruction, writes no register, and computes one row. -/
structure PlainRow (i : Instr) : Prop where
  park : parkOf i = none
  csr : isCsr i = false
  dest : seqDest i = none
  row : ∀ x, ∃ v, (rowCompute i x).d = [v]

theorem plainRow_of_threeRows {i : Instr} {d a b : RowName} {l : Bool} (h : rowShape i = threeRows d a b l) : PlainRow i := by
  unfold rowShape threeRows at h
  split at h
  all_goals injection h with hd ha hb hl
  all_goals cases hb <;> cases hd
  all_goals exact ⟨rfl, rfl, rfl, fun _ => ⟨_, rfl⟩⟩

/-- What a word of three rows will write: its row in the bank of d, the flags and AMAX. -/
def Slot.plainWrites (x : Slot) (core : Nat) (e : SeqEntry) (i : Instr) (final : Bool) (d : RowName) (va vb v : Row) : RowWrites :=
  let o := rowCompute i { a := [va], b := vb, d := 0#256, sc := e.scal, rm := e.frm, amax := 0 }
  { rows := [(tileKey core (x.tileBank d.toNat) (d.toNat % 16), v)], fl := o.fl, amax := o.amax, full := final }

theorem Slot.entryWrites_threeRows (x : Slot) (core : Nat) (e : SeqEntry) {i : Instr} {d a b : RowName} {l : Bool}
    (shape : rowShape i = threeRows d a b l) (tile : d.toNat < 112) (final : Bool) (va vb unpk : Row) {v : Row}
    (computed : (rowCompute i { a := [va], b := vb, d := 0#256, sc := e.scal, rm := e.frm, amax := 0 }).d = [v]) :
    x.entryWrites core e i final [] [va] [vb] unpk [] = x.plainWrites core e i final d va vb v := by
  have plain := plainRow_of_threeRows shape
  have written : x.fieldWrites core (some ⟨d, .dst, 1⟩) [v] = ([(tileKey core (x.tileBank d.toNat) (d.toNat % 16), v)], []) := by
    unfold Slot.fieldWrites
    dsimp only
    rw [if_neg (by decide), if_pos tile]
    rfl
  unfold Slot.entryWrites
  dsimp only
  split
  · exact absurd plain.park nofun
  · exact absurd plain.park nofun
  · rw [shape]
    dsimp only [threeRows, List.headD_cons, List.headD_nil]
    rw [computed, written, plain.dest]
    rfl

/-! ## Hints that are due (R71, R72) -/

/-- From `s` to `t` banks of a core have become due to turn Off at the end of the cycle, and nothing else has changed. -/
structure State.Owes (s t : State) (core : Nat) (bs : List Nat) : Prop where
  here : ∃ due, t.core core = { s.core core with due := due }
  due : (t.core core).due = (s.core core).due ++ bs.map fun b => (b, 0)
  others : ∀ k, k ≠ core → t.core k = s.core k
  slot : ∀ q, t.slot q = s.slot q
  rest : ∃ cores, t = { s with cores := cores }

theorem State.owes_foldl_hintDue (core : Nat) (bs : List Nat) (s : State) :
    s.Owes (bs.foldl (fun t b => t.hintDue core b 0) s) core bs := by
  induction bs generalizing s with
  | nil => exact ⟨⟨_, rfl⟩, (List.append_nil _).symm, fun _ _ => rfl, fun _ => rfl, ⟨_, rfl⟩⟩
  | cons b bs ih =>
    obtain ⟨⟨due, here⟩, due_, others, slot, ⟨cores, rest⟩⟩ := ih (s.hintDue core b 0)
    have first : (s.hintDue core b 0).core core = { s.core core with due := (s.core core).due ++ [(b, 0)] } := State.core_setCore_same ..
    exact ⟨⟨due, here.trans (by rw [first])⟩, due_.trans (by rw [first]; simp), fun k hk => (others k hk).trans (State.core_setCore_ne _ _ hk),
      fun q => (slot q).trans (s.slot_modCore core (by exact fun _ => rfl) q), ⟨cores, rest⟩⟩

/-! ## The start of a word (R162, R261) -/

/-- The bank of a where the word's L bit acts at the end of this cycle: the word does not write to that bank (R71, R72). -/
def lBankNow (l : Bool) (a d : Nat) : List Nat := if l = true ∧ a ≠ d then [a] else []

/-- The bank of a where the word's L bit acts behind the word's row: the word writes to that bank (R71, R72). -/
def lBankLater (l : Bool) (a d : Nat) : List Nat := if l = true ∧ a = d then [a] else []

theorem filter_lBankNow (l : Bool) (a d : Nat) : (if l = true then [a] else []).filter (fun q => !([d].contains q)) = lBankNow l a d := by
  cases l
  · rfl
  · by_cases same : a = d <;> simp [lBankNow, same]

theorem filter_lBankLater (l : Bool) (a d : Nat) : (if l = true then [a] else []).filter (fun q => [d].contains q) = lBankLater l a d := by
  cases l
  · rfl
  · by_cases same : a = d <;> simp [lBankLater, same]

theorem State.startRow_threeRows {s : State} {r : SlotRef} {i : Instr} {d a b : RowName} {l : Bool} (shape : rowShape i = threeRows d a b l)
    (compute : r.core < 1024) (inD : s.InTile r d) (inA : s.InTile r a) (inB : s.InTile r b) (clean : s.poison = [])
    (numbered : ∀ w ∈ s.writes, w.id ≠ 0) (e : SeqEntry) :
    ∃ u t v, s.Seen u ∧ u.Owes t r.core (lBankNow l ((s.slot r).tileBank a.toNat) ((s.slot r).tileBank d.toNat)) ∧
      (rowCompute i { a := [s.tileRow r a], b := s.tileRow r b, d := 0#256, sc := e.scal, rm := e.frm, amax := 0 }).d = [v] ∧
      s.startRow r e i true none [] [0] = t.launchFlight r (.rows
        { (s.slot r).plainWrites r.core e i true d (s.tileRow r a) (s.tileRow r b) v with
          offs := lBankLater l ((s.slot r).tileBank a.toNat) ((s.slot r).tileBank d.toNat) }) := by
  have plain := plainRow_of_threeRows shape
  obtain ⟨u1, seen1, readA⟩ := State.readField_tile compute inA clean numbered e none
  have more : u1.poison = [] ∧ u1.writes = s.writes := by
    obtain ⟨ps, out, rfl⟩ := seen1
    exact ⟨clean, rfl⟩
  obtain ⟨u, seen2, readB⟩ := State.readField_tile compute (seen1.inTile inB) more.1 (more.2 ▸ numbered) e none
  rw [seen1.tileRow] at readB
  obtain ⟨v, computed⟩ := plain.row { a := [s.tileRow r a], b := s.tileRow r b, d := 0#256, sc := e.scal, rm := e.frm, amax := 0 }
  have mine : (s.slot r).lBank i = if l = true then [(s.slot r).tileBank a.toNat] else [] := by
    unfold Slot.lBank Slot.fieldBanks
    rw [shape]
    dsimp only [threeRows]
    rw [if_pos inA.tile]
    rfl
  have own : ownBank r.core (tileKey r.core ((s.slot r).tileBank d.toNat) (d.toNat % 16)) = some ((s.slot r).tileBank d.toNat) :=
    ownBank_tileKey compute inD.bank (Nat.mod_lt _ (by decide))
  have readD : s.readField r e [0] none (some ⟨d, .dst, 1⟩) = ([], s) := rfl
  refine ⟨u, _, v, seen1.trans seen2, State.owes_foldl_hintDue .., computed, ?_⟩
  unfold State.startRow
  simp only [shape, threeRows, readD, readA, readB, plain.park, Slot.entryWrites_threeRows _ _ _ shape inD.tile true _ _ _ computed]
  have wr : (((s.slot r).plainWrites r.core e i true d (s.tileRow r a) (s.tileRow r b) v).rows.filterMap fun q => ownBank r.core q.1) =
      [(s.slot r).tileBank d.toNat] := List.filterMap_cons_some own
  rw [wr, mine]
  simp only [Option.isSome_none, Bool.not_true, Bool.or_false, Bool.false_eq_true, if_false, filter_lBankNow, filter_lBankLater, List.nil_append]

/-- A word of three rows that is ready is started as a row word. -/
theorem State.runEntry_threeRows {s : State} {core : Nat} {e : SeqEntry} {i : Instr} {d a b : RowName} {l : Bool}
    (shape : rowShape i = threeRows d a b l) (ready : s.entryReady ⟨core, e.slot⟩ (e.ea.elim e.id fun p => p.2) i = true) (final : Bool)
    (body : Option (Nat × Nat)) (offs view : List Nat) :
    s.runEntry core e i final body offs view = (true, s.startRow ⟨core, e.slot⟩ e i final body offs view) := by
  unfold State.runEntry
  dsimp only
  rw [ready, if_neg (by decide)]
  split
  · exact absurd (congrArg RowShape.d shape) nofun
  · exact absurd (congrArg RowShape.d shape) nofun
  · rw [(plainRow_of_threeRows shape).csr, if_neg (by decide)]

/-- The head of the sequencer may start: the core has started none in this cycle, and is not stopped (R174, R261). -/
theorem Core.mayStart_one {c : Core} {cycle : Nat} (idle : c.ran ≠ some cycle) (stopped : c.stopped = false) (fenced : c.fenced = false)
    (e : SeqEntry) : c.mayStart cycle (.one e) = true := by
  simp [Core.mayStart, idle, stopped, fenced]

/-- The one entry at the head of the sequencer that is no body word is started. -/
theorem exec_sequencerExecute_one {s t : State} {core : Nat} {e : SeqEntry} {rest : List SeqItem} {view : List Nat}
    (head : (s.core core).seq = .one e :: rest) (may : (s.core core).mayStart s.cycle (.one e) = true) (alone : e.body = none)
    (ran : s.runEntry core e e.instr e.last none [] view = (true, t)) :
    exec (.sequencerExecute core view) s = .next (t.started core none) := by
  change execSequencerExecute core view s = _
  unfold execSequencerExecute
  rw [head]
  dsimp only
  rw [may, if_neg (by decide), alone]
  simp only [Option.isSome_none, Bool.false_and, Bool.false_eq_true, if_false, ran, if_true]

/-- Once the head has started, its place is free and the cycle is noted. -/
theorem State.core_started (s : State) (core : Nat) :
    (s.started core none).core core = { s.core core with seq := (s.core core).seq.tail, ran := some s.cycle } := by
  unfold State.started State.setSeqHead
  rw [State.modCore, State.core_setCore_same, State.modCore, State.core_setCore_same]
  rfl

theorem State.core_started_ne (s : State) {core k : Nat} (h : k ≠ core) : (s.started core none).core k = s.core k := by
  unfold State.started State.setSeqHead
  rw [State.modCore, State.core_setCore_ne _ _ h, State.modCore, State.core_setCore_ne _ _ h]

theorem State.slot_started (s : State) (core : Nat) (q : SlotRef) : (s.started core none).slot q = s.slot q :=
  ((s.setSeqHead core none).slot_modCore core (by exact fun _ => rfl) q).trans (s.slot_modCore core (by exact fun _ => rfl) q)

/-- What a started row word sends on its way counts no packet: the machine has one flight more, and nothing else has changed (R63). -/
theorem State.launchFlight_rows (s : State) (r : SlotRef) (w : RowWrites) : ∃ f : Flight, f.id = s.fresh ∧ f.who = r ∧ f.party = (s.slot r).party ∧
    f.act = .rows w ∧ s.launchFlight r (.rows w) = { s with fresh := s.fresh + 1, flights := s.flights ++ [f] } :=
  ⟨_, rfl, rfl, rfl, rfl, rfl⟩

/-- From `s` to `t` the head of a core's sequencer has started, with `w` on its way for the slot `r` and the banks `bs` due to turn Off; no slot, no other
core and no byte has changed. -/
structure State.RowStarts (s t : State) (r : SlotRef) (w : RowWrites) (bs : List Nat) : Prop where
  flight : ∃ f : Flight, t.flights = s.flights ++ [f] ∧ f.id = s.fresh ∧ f.who = r ∧ f.party = (s.slot r).party ∧ f.act = .rows w
  seq : (t.core r.core).seq = (s.core r.core).seq.tail
  ran : (t.core r.core).ran = some s.cycle
  due : (t.core r.core).due = (s.core r.core).due ++ bs.map fun b => (b, 0)
  slot : ∀ q, t.slot q = s.slot q
  mem : t.mem = s.mem
  others : ∀ k, k ≠ r.core → t.core k = s.core k

theorem State.rowStarts_started {s u t : State} {r : SlotRef} {bs : List Nat} (seen : s.Seen u) (owes : u.Owes t r.core bs) (w : RowWrites) :
    s.RowStarts ((t.launchFlight r (.rows w)).started r.core none) r w bs := by
  obtain ⟨ps, out, rfl⟩ := seen
  obtain ⟨⟨_, here⟩, due, others, slot, ⟨cores, same⟩⟩ := owes
  obtain ⟨f, id, who, party, act, launched⟩ := t.launchFlight_rows r w
  have same_ : t.fresh = s.fresh ∧ t.flights = s.flights ∧ t.mem = s.mem ∧ t.cycle = s.cycle := by
    rw [same]
    exact ⟨rfl, rfl, rfl, rfl⟩
  obtain ⟨fresh, flights, mem, cycle⟩ := same_
  have stands : ∀ q, (t.launchFlight r (.rows w)).slot q = t.slot q := State.slot_congr (by rw [launched])
  have core : ∀ k, (t.launchFlight r (.rows w)).core k = t.core k := fun k => by rw [launched]; rfl
  refine ⟨⟨f, ?_, id.trans fresh, who, party.trans (congrArg Slot.party (slot r)), act⟩, ?_, ?_, ?_, fun q => ?_, ?_, fun k hk => ?_⟩
  · rw [← flights, launched]
    rfl
  · rw [State.core_started, core, here]
    rfl
  · rw [State.core_started, launched, ← cycle]
  · rw [State.core_started, core]
    exact due
  · rw [State.slot_started, stands]
    exact slot q
  · rw [← mem, launched]
    rfl
  · rw [State.core_started_ne _ hk, core]
    exact others k hk

/-! ## The landing of a row (R127, R128, R261) -/

/-- The row of its own bytes. -/
theorem rowOf_rowBytes (v : Row) : rowOf (rowBytes v) = v := by
  unfold rowOf rowBytes
  rw [leNat_leBytes, Nat.mod_eq_of_lt v.isLt, BitVec.ofNat_toNat, BitVec.setWidth_eq]

/-- The row that stands where a row was stored. -/
theorem rowOf_setBytes {m : Memory} (ok : m.wf = true) (k : Nat) (v : Row) :
    rowOf ((List.range 32).map fun j => Memory.get (m.setBytes k (rowBytes v)) (k + j)) = v := by
  have length : (rowBytes v).length = 32 := length_leBytes ..
  have bytes : ((List.range 32).map fun j => Memory.get (m.setBytes k (rowBytes v)) (k + j)) = rowBytes v := by
    refine List.ext_getElem (by simp [length]) fun j h1 h2 => ?_
    rw [List.getElem_map, List.getElem_range, Memory.get_setBytes_in m k j _ ok h2]
    exact List.getD_eq_getElem _ _ h2
  rw [bytes, rowOf_rowBytes]

/-- What a landing leaves in its slot beside its row: the flags and AMAX (R127, R128). -/
def Slot.gathered (x : Slot) (w : RowWrites) : Slot :=
  { x with fflags := x.fflags ||| w.fl, amax := BitVec.ofNat 31 (Nat.max x.amax.toNat w.amax) }

/-- The entry writes one row, and beside it no more than flags and AMAX; it turns no bank Off. -/
structure RowWrites.OneRow (w : RowWrites) (key : Nat) (v : Row) : Prop where
  rows : w.rows = [(key, v)]
  sq : w.sq = []
  reg : w.reg = none
  pk : w.pk = none
  offs : w.offs = []

theorem RowWrites.OneRow.landOthers {w : RowWrites} {key : Nat} {v : Row} (h : w.OneRow key v) (s : State) (r : SlotRef) :
    s.landOthers r w = s.modSlot r fun x => x.gathered w := by
  unfold State.landOthers
  rw [h.sq, h.reg, h.pk]
  rfl

/-- A row lands in its Full bank: its bytes are written, then the flags and AMAX are gathered, and the entry is over. -/
theorem exec_resultLands_row {s : State} {f : Flight} {w : RowWrites} {key b : Nat} {v : Row} (found : s.flight? f.id = some f) (act : f.act = .rows w)
    (seep : f.seep = none) (hop : f.hop = none) (held : s.holds f.who f.party = true) (one : w.OneRow key v) (here : BankKey key b)
    (full : (s.core (chipOf key).core).bank b = 2) :
    exec (.resultLands f.id) s =
      .next (((s.write f.party f.ten key (rowBytes v) []).modSlot f.who fun x => x.gathered w).dropFlight f.id) := by
  have first : s.parkBehind f w = false := by
    unfold State.parkBehind
    rw [one.pk]
  have landed : s.landRows f.party f.ten w.rows = ([], s.write f.party f.ten key (rowBytes v) []) := by
    rw [one.rows, State.landRows, here.writeAt full]
    rfl
  change execResultLands f.id s = _
  unfold execResultLands
  rw [found]
  dsimp only
  rw [seep, hop, act, if_neg (by decide)]
  dsimp only
  unfold State.landEntry
  rw [act]
  dsimp only
  rw [held, first, one.offs, landed, one.landOthers]
  rfl

end Sys2Proof.Machine
end

section
open Sys2Proof Sys2Proof.Machine

/-- Settles O18: a word of three rows starts by `State.startRow_threeRows`, and its row lands by `exec_resultLands_row`. -/
theorem sequencerPerformsARowWord : Obligations.SequencerPerformsARowWord := by
  unfold Obligations.SequencerPerformsARowWord
  refine ⟨?starts, ?lands⟩
  case starts =>
    intro s core e rest d a b l
    dsimp only
    intro head compute _ last alone idle stopped fenced shape tileD tileA tileB banks ready clean numbered
    let r : SlotRef := ⟨core, e.slot⟩
    have inTile : ∀ n ∈ [d, a, b], n.toNat < 112 → s.InTile r n := fun n hn tile => ⟨tile, (banks n hn).1, (banks n hn).2⟩
    obtain ⟨u, t, v, seen, owes, computed, started⟩ := State.startRow_threeRows (r := r) shape compute (inTile d (by simp) tileD)
      (inTile a (by simp) tileA) (inTile b (by simp) tileB) clean numbered e
    have run := exec_sequencerExecute_one head (Core.mayStart_one idle stopped fenced e) alone
      ((State.runEntry_threeRows shape ready _ _ _ _).trans (by rw [last, started]))
    obtain ⟨⟨f, flights, id, who, party, act⟩, seq, ran, due, slot, mem, others⟩ := State.rowStarts_started seen owes _
    refine ⟨_, f, _, run, ?_, ?_, flights, id, who, party, act, rfl, ?_, rfl, rfl, rfl, rfl, rfl, rfl, ?_, slot, mem, others⟩
    · rw [seq, head]
      rfl
    · exact ran
    · exact (congrArg (fun x : List Row => [x.headD 0#256]) computed).symm
    · rw [due, lBankNow, apply_ite (List.map fun b => (b, 0))]
      rfl
  case lands =>
    intro s f w d v
    dsimp only
    intro found act seep hop held four compute rows sq reg pk offs tile low full ok
    have row : d.toNat % 16 < 16 := Nat.mod_lt _ (by decide)
    have here := bankKey_tileKey compute low row
    rw [← core_chipOf_tileKey compute low row] at full
    have near := here.near
    have stores := State.stores_write (s := s) (.inl (s.place_of_chip here.chip)) (by omega) f.party f.ten (rowBytes v) []
    let u : State := s.write f.party f.ten (tileKey f.who.core ((s.slot f.who).tileBank d.toNat) (d.toNat % 16)) (rowBytes v) []
    have slots : ∀ q, u.slot q = s.slot q := State.slot_congr stores.cores
    have landed : (((u.modSlot f.who fun x => x.gathered w).dropFlight f.id).slot f.who) = (s.slot f.who).gathered w := by
      rw [← slots f.who]
      exact State.slot_setSlot_same u f.who _ four
    refine ⟨_, exec_resultLands_row found act seep hop held ⟨rows, sq, reg, pk, offs⟩ here full, ?_, ?_, fun k out => ?_, ?_, ?_, fun q => ?_, ?_,
      fun q hq => ?_, ?_⟩
    · exact congrArg (List.filter fun g : Flight => g.id != f.id) stores.flights
    · change rowOf ((List.range 32).map fun j => Memory.get u.mem (_ + j)) = v
      rw [stores.mem]
      exact rowOf_setBytes ok _ v
    · change Memory.get u.mem k = _
      rw [stores.mem]
      exact Memory.get_setBytes_out _ _ _ _ (by rwa [rowBytes, length_leBytes])
    · rw [landed]
      rfl
    · rw [landed]
      exact BitVec.toNat_ofNat ..
    · rw [landed]
      exact ⟨rfl, rfl⟩
    · rw [landed]
      rfl
    · exact (State.slot_setSlot_ne u _ hq).trans (slots q)
    · have core : ((u.modSlot f.who fun x => x.gathered w).dropFlight f.id).core f.who.core =
          (u.core f.who.core).setSlot f.who.slot ((u.slot f.who).gathered w) := State.core_setCore_same ..
      rw [core]
      exact congrArg (fun m => (AMap.get {} m f.who.core).seq) stores.cores
end

section
/-! PROOFS. BSTAT and BANK, and the requests that take effect at the end of a cycle (R66 to R68, R72, R308). -/

namespace Sys2Proof.Machine

/-- The bank instructions are present on compute cores (R215). -/
theorem State.needs_of_compute {s : State} (h : coreKind s.cur.core = .compute) (major : Nat) (k : State → State) : s.needs false major k = k s := by
  have present : s.present false = true := by
    unfold State.present
    rw [h]
  rw [State.needs, present, if_pos rfl]

/-- BSTAT reads the state of a bank at the end of the last cycle (R66, R308). -/
theorem exec_bstat {s : State} {d : Reg} {n : BitVec 6} (compute : coreKind s.cur.core = .compute) (ready : s.Ready [] [d]) :
    ∃ t, exec (.bstat d n) s = .next t ∧ s.Computes t [d] s.sl.after ∧ t.sl.Holds d (wd ((s.core s.cur.core).bankShown n.toNat)) := by
  have shown : ((s.consume []).core (s.consume []).cur.core).bankShown n.toNat = (s.core s.cur.core).bankShown n.toNat := by
    rw [State.consume_cur]
    rcases s.consume_cases [] with h | ⟨ps, h⟩
    · rw [h]
    · rw [h]
      exact (congrArg (Core.bankShown · n.toNat) (State.core_setCore_same s s.cur.core _)).trans rfl
  let t := (s.consume []).setD d (wd ((s.core s.cur.core).bankShown n.toNat))
  obtain ⟨computes, holds⟩ := s.computes_setD [] ready.slot d (wd ((s.core s.cur.core).bankShown n.toNat))
  have goes : s.issue [] [d] (fun s => s.setD d (wd ((s.core s.cur.core).bankShown n.toNat))) = t :=
    State.issue_goes ready (by rw [shown]) computes.slot.count
  refine ⟨t, ?_, computes, holds⟩
  change execBstat d n s = .next t
  rw [execBstat, State.needs_of_compute compute, goes]

/-- What BANK does (R308). -/
theorem exec_bank {s : State} (compute : coreKind s.cur.core = .compute) (q : BankReq) (n : BitVec 6) :
    exec (.bank q n) s = .next (if s.sl.hasBank n.toNat = false then s.trap 6 (wd (bankAddr s.cur.core n.toNat))
      else if s.bankBusy s.cur n.toNat = true then s else (s.hintDue s.cur.core n.toNat (bankReqCode q)).done id) := by
  change execBank q n s = _
  rw [execBank, State.needs_of_compute compute]
  simp only [Bool.not_eq_true']

/-- A hint that is due leaves every slot. -/
theorem State.slot_hintDue (s : State) (core n code : Nat) (r : SlotRef) : (s.hintDue core n code).slot r = s.slot r :=
  s.slot_modCore core (by exact fun _ => rfl) r

/-- A BANK that is taken for the end of the cycle retires (R72, R308). -/
theorem State.done_hintDue {s : State} (four : s.cur.slot < 4) (n code : Nat) :
    let t := (s.hintDue s.cur.core n code).done id
    s.sl.Retires t.sl [] s.sl.after ∧ t.core s.cur.core = ({ s.core s.cur.core with due := (s.core s.cur.core).due ++ [(n, code)] } : Core).setSlot
      s.cur.slot s.sl.next := by
  have kept : (s.hintDue s.cur.core n code).sl = s.sl := s.slot_hintDue s.cur.core n code s.cur
  have done : (s.hintDue s.cur.core n code).done id = (s.hintDue s.cur.core n code).setSlot s.cur s.sl.next := by
    change (s.hintDue s.cur.core n code).setSlot s.cur (s.hintDue s.cur.core n code).sl.next = _
    rw [kept]
  refine ⟨?_, ?_⟩
  · rw [done]
    change s.sl.Retires (((s.hintDue s.cur.core n code).setSlot s.cur s.sl.next).slot s.cur) [] s.sl.after
    rw [State.slot_setSlot_same _ _ _ four]
    exact s.sl.retires_next
  · rw [done, State.setSlot, State.core_setCore_same, State.hintDue, State.modCore, State.core_setCore_same]

/-! ## The end of a cycle (R67, R68, R72) -/

/-- What an event at a bank can do: at a Waking bank it waits; else the bank turns Off, or is retained, or its wake starts, or nothing changes. -/
theorem State.bankEvent_cases (s : State) (core n code : Nat) :
    let st := (s.core core).bank n
    let t := s.bankEvent core n code
    (st = 3 ∧ t = s.modCore core fun c => { c with hints := c.hints ++ [(n, code)] }) ∨
    (st ≠ 3 ∧ code = 0 ∧ st ≠ 0 ∧ t = s.bankOff core n) ∨
    (code = 1 ∧ st = 2 ∧ t = s.modCore core fun c => c.setBank n 1) ∨
    (st ≠ 3 ∧ code ≠ 0 ∧ code ≠ 1 ∧ st ≠ 2 ∧ t = s.wake core n) ∨
    (st ≠ 3 ∧ (code = 0 → st = 0) ∧ (code = 1 → st ≠ 2) ∧ (code ≠ 0 → code ≠ 1 → st = 2) ∧ t = s) := by
  dsimp only
  unfold State.bankEvent
  dsimp only
  by_cases waking : (s.core core).bank n = 3
  · exact .inl ⟨waking, if_pos waking⟩
  · rw [if_neg waking]
    by_cases off : code = 0
    · by_cases lost : (s.core core).bank n = 0
      · simp [off, lost]
      · simp [off, lost, waking]
    · by_cases retain : code = 1
      · by_cases full : (s.core core).bank n = 2
        · simp [retain, full]
        · simp [retain, full, waking]
      · by_cases full : (s.core core).bank n = 2
        · simp [off, retain, full]
        · simp [off, retain, full, waking]

theorem Core.due_setBank (c : Core) (n code : Nat) : (c.setBank n code).due = c.due := by
  unfold Core.setBank
  split <;> rfl

/-- An event at a bank leaves what is due. -/
theorem State.due_bankEvent (s : State) (core n code : Nat) : ((s.bankEvent core n code).core core).due = (s.core core).due := by
  have kept : ∀ f : Core → Core, (∀ c, (f c).due = c.due) → ((s.modCore core f).core core).due = (s.core core).due := fun f hf => by
    rw [State.modCore, State.core_setCore_same, hf]
  rcases s.bankEvent_cases core n code with ⟨-, t⟩ | ⟨-, -, -, t⟩ | ⟨-, -, t⟩ | ⟨-, -, -, -, t⟩ | ⟨-, -, -, -, t⟩ <;> rw [t]
  · exact kept _ fun _ => rfl
  · rw [State.core_bankOff]
    exact Core.due_setBank ..
  · exact kept _ fun c => c.due_setBank n 1
  · exact kept _ fun c => c.due_setBank n 3

/-- The state in which an event leaves its bank (R67, R68). -/
theorem State.bank_bankEvent (s : State) (core : Nat) {n : Nat} (small : n < 64) (code : Nat) :
    ((s.bankEvent core n code).core core).bank n = (if (s.core core).bank n = 3 then 3 else if code = 0 then 0
      else if code = 1 then (if (s.core core).bank n = 2 then 1 else (s.core core).bank n) else if (s.core core).bank n = 2 then 2 else 3) := by
  have set : ∀ (f : Core → Core) (v : Nat), v < 4 → (∀ c, (f c).bank n = (c.setBank n v).bank n) → ((s.modCore core f).core core).bank n = v :=
    fun f v hv hf => by rw [State.modCore, State.core_setCore_same, hf, Core.bank_setBank _ small hv, if_pos rfl]
  rcases s.bankEvent_cases core n code with ⟨waking, t⟩ | ⟨awake, rfl, -, t⟩ | ⟨rfl, full, t⟩ | ⟨awake, off, retain, full, t⟩ |
    ⟨awake, off, retain, full, t⟩ <;> rw [t]
  · rw [State.modCore, State.core_setCore_same, if_pos waking]
    exact waking
  · rw [if_neg awake, if_pos rfl]
    exact State.bank_bankOff s core n n (.inl rfl)
  · rw [full]
    exact set _ 1 (by decide) fun _ => rfl
  · rw [if_neg awake, if_neg off, if_neg retain, if_neg full]
    exact set _ 3 (by decide) fun _ => rfl
  · rw [if_neg awake]
    split
    · next h => exact off h
    · next h =>
      split
      · next h1 => rw [if_neg (retain h1)]
      · next h1 => rw [full h h1, if_pos rfl]

/-- An event at a Waking bank waits there (R68). -/
theorem State.hints_bankEvent {s : State} {core n : Nat} (code : Nat) (waking : (s.core core).bank n = 3) :
    ((s.bankEvent core n code).core core).hints = (s.core core).hints ++ [(n, code)] := by
  unfold State.bankEvent
  dsimp only
  rw [if_pos waking, State.modCore, State.core_setCore_same]

/-- Of the memory an event clears a bank that turns Off, and nothing else (R67). -/
theorem State.mem_bankEvent (s : State) (core n code : Nat) :
    (s.bankEvent core n code).mem = if code = 0 ∧ (s.core core).bank n ≠ 3 ∧ (s.core core).bank n ≠ 0 then
      s.mem.clear (bankAddr core n) (bankAddr core n + bankSize n) else s.mem := by
  rcases s.bankEvent_cases core n code with ⟨waking, t⟩ | ⟨awake, off, some_, t⟩ | ⟨retain, -, t⟩ | ⟨-, off, -, -, t⟩ | ⟨-, off, -, -, t⟩ <;> rw [t]
  · exact (if_neg fun h => h.2.1 waking).symm
  · exact (if_pos ⟨off, awake, some_⟩).symm
  · exact (if_neg fun h => absurd (h.1.symm.trans retain) (by decide)).symm
  · exact (if_neg fun h => off h.1).symm
  · exact (if_neg fun h => h.2.2 (off h.1)).symm

/-- The machine at whose cycle's end a core's requests take effect: none is due any more. -/
def State.dueTaken (s : State) (core : Nat) : State := s.modCore core fun c => { c with due := [] }

theorem State.core_dueTaken (s : State) (core : Nat) : (s.dueTaken core).core core = { s.core core with due := [] } := State.core_setCore_same ..

/-- The one request of a cycle takes effect at its end. -/
theorem State.endHints_one {s : State} {core n code : Nat} (one : (s.core core).due = [(n, code)]) :
    s.endHints core = (s.dueTaken core).bankEvent core n code := by
  unfold State.endHints
  rw [one]
  rfl

end Sys2Proof.Machine
end

section
open Sys2Proof Sys2Proof.Machine

/-- Settles O22: BSTAT and BANK by `exec_bstat` and `exec_bank`; the end of the cycle by what `State.bankEvent` does. -/
theorem bankRequestsChangeTheBankState : Obligations.BankRequestsChangeTheBankState := by
  unfold Obligations.BankRequestsChangeTheBankState
  refine ⟨?issue, ?end_⟩
  case issue =>
    intro s d n compute
    refine ⟨exec_bstat compute, fun four mine free q => ?_, fun _ mine busy q => ?_, fun other q => ?_⟩
    · obtain ⟨slot, core⟩ := s.done_hintDue four n.toNat (bankReqCode q)
      refine ⟨_, (exec_bank compute q n).trans (by rw [if_neg (by simp [mine]), if_neg (by simp [free])]), slot, ?_, ?_, ?_, rfl, rfl⟩
      · rw [core]
        cases q <;> rfl
      · rw [core]
        rfl
      · rw [core]
        rfl
    · rw [exec_bank compute, if_neg (by simp [mine]), if_pos busy]
    · rw [exec_bank compute, if_pos other]
  case end_ =>
    intro s core n code small _ one
    dsimp only
    have core_ := s.core_dueTaken core
    have bank : ∀ m, ((s.dueTaken core).core core).bank m = (s.core core).bank m := fun m => by rw [core_]; rfl
    rw [State.endHints_one one, State.due_bankEvent, State.bank_bankEvent _ _ small, State.mem_bankEvent, bank]
    refine ⟨by rw [core_], rfl, fun waking => ?_, fun off awake some_ a lo hi => ?_, fun a out => ?_, fun m _ hm => ?_⟩
    · rw [State.hints_bankEvent code (by rw [bank, waking]), core_]
    · rw [if_pos ⟨off, awake, some_⟩]
      exact Memory.get_clear_in _ lo hi
    · split
      · next off =>
        obtain ⟨off, awake, -⟩ := off
        exact Memory.get_clear_out _ ((out.resolve_left (not_not_intro off)).resolve_left awake)
      · rfl
    · rw [((s.dueTaken core).bankEvent_others core small code).1 m hm, bank]
end

section
/-! PROOFS. The machine after reset (R66, R206, R414). -/

namespace Sys2Proof.Machine

/-- The slot of a monitor core that runs after reset. -/
def Slot.monitorReset (k : Nat) : Slot := { level := .m, occ := .running, pc := resetPc, party := k + 1 }

/-- The monitor cores are listed, and no other core is. -/
theorem State.core_reset_monitor {k : Nat} (h : k < 4) : State.reset.core (2048 + k) = Core.monitorReset k := by
  interval_cases k <;> rfl

theorem State.core_reset_other {c : Nat} (h : ∀ k < 4, c ≠ 2048 + k) : State.reset.core c = {} := by
  have apart : ∀ k < 4, 2048 + k ≠ c := fun k hk e => h k hk e.symm
  change AMap.get {} [(2048 + 0, Core.monitorReset 0), (2048 + 1, Core.monitorReset 1), (2048 + 2, Core.monitorReset 2),
    (2048 + 3, Core.monitorReset 3)] c = {}
  simp only [AMap.get]
  rw [if_neg (apart 0 (by decide)), if_neg (apart 1 (by decide)), if_neg (apart 2 (by decide)), if_neg (apart 3 (by decide))]

theorem Core.slot_default (n : Nat) : Core.slot {} n = {} := by
  match n with
  | 0 | 1 | 2 | 3 | _ + 4 => rfl

/-- Of a monitor core's slots only the first runs. -/
theorem Core.slot_monitorReset_succ (k n : Nat) : ∃ lv, (Core.monitorReset k).slot (n + 1) = { level := lv } := by
  match n with
  | 0 | 1 | 2 => exact ⟨.m, rfl⟩
  | _ + 3 => exact ⟨.u, rfl⟩

/-- After reset a slot is slot 0 of a monitor core, which runs, or it is free and new. -/
theorem State.slot_reset (r : SlotRef) :
    (∃ k < 4, r = ⟨2048 + k, 0⟩ ∧ State.reset.slot r = Slot.monitorReset k) ∨ ∃ lv, State.reset.slot r = { level := lv } := by
  obtain ⟨c, n⟩ := r
  by_cases monitor : ∃ k < 4, c = 2048 + k
  · obtain ⟨k, hk, rfl⟩ := monitor
    have core : State.reset.slot ⟨2048 + k, n⟩ = (Core.monitorReset k).slot n := congrArg (Core.slot · n) (State.core_reset_monitor hk)
    rw [core]
    cases n with
    | zero => exact .inl ⟨k, hk, rfl, rfl⟩
    | succ n => exact .inr (Core.slot_monitorReset_succ k n)
  · push Not at monitor
    exact .inr ⟨.u, (congrArg (Core.slot · n) (State.core_reset_other monitor)).trans (Core.slot_default n)⟩

/-- What a slot holds after reset but for its place, its level and its party: nothing. -/
theorem State.slot_reset_new (r : SlotRef) : ∃ occ pc lv p, State.reset.slot r = { occ := occ, pc := pc, level := lv, party := p } := by
  rcases State.slot_reset r with ⟨k, -, -, running⟩ | ⟨lv, free⟩
  · exact ⟨_, _, _, _, running⟩
  · exact ⟨_, _, _, _, free⟩

/-- A slot that holds nothing reads 0 in every register, each of which is full (R206). -/
theorem Slot.new_regs (occ : Occ) (pc : Word) (lv : Level) (p : Nat) (n : Reg) :
    ({ occ := occ, pc := pc, level := lv, party := p } : Slot).rd n = 0#64 ∧
      ({ occ := occ, pc := pc, level := lv, party := p } : Slot).isFull n = true := by
  have empty : ∀ q : Reg, ({} : Slot).rd q = 0#64 ∧ ({} : Slot).isFull q = true := by decide
  exact empty n

/-- After reset every bank is Off (R66). -/
theorem State.bank_reset (c b : Nat) : (State.reset.core c).bank b = 0 := by
  have empty : ∀ k : Core, k.b0 = 0#64 → k.b1 = 0#64 → k.bank b = 0 := by
    intro k b0 b1
    simp [Core.bank, b0, b1, fld, bits]
  by_cases monitor : ∃ k < 4, c = 2048 + k
  · obtain ⟨k, hk, rfl⟩ := monitor
    rw [State.core_reset_monitor hk]
    exact empty _ rfl rfl
  · push Not at monitor
    rw [State.core_reset_other monitor]
    exact empty _ rfl rfl

theorem State.capacities_reset : State.reset.Capacities := ⟨nofun, by decide⟩

end Sys2Proof.Machine
end

section
open Sys2Proof Sys2Proof.Machine

/-- Settles O60, by `State.slot_reset` and `State.bank_reset`. -/
theorem resetIsAsStated : Obligations.ResetIsAsStated := by
  unfold Obligations.ResetIsAsStated
  refine ⟨by decide, fun r others => ?_, fun r n => ?_, fun r => ?_, State.bank_reset, fun _ => rfl, fun _ => ⟨rfl, rfl, rfl, rfl⟩, by decide,
    rfl, rfl, rfl, rfl, rfl, rfl, rfl, State.capacities_reset⟩
  · rcases State.slot_reset r with ⟨k, hk, here, -⟩ | ⟨lv, free⟩
    · exact absurd here (others k hk)
    · rw [free]
  · obtain ⟨occ, pc, lv, p, new⟩ := State.slot_reset_new r
    rw [new]
    exact Slot.new_regs occ pc lv p n
  · obtain ⟨occ, pc, lv, p, new⟩ := State.slot_reset_new r
    rw [new]
    exact ⟨rfl, rfl, rfl, rfl⟩
end
